-- ==== Sys2Proof/Word.lean ====
section
/-!
DEFINITION. The word types of the ZG-640 model.
Registers are 64 bits wide, memory is addressed in bytes, and byte order is little-endian everywhere (R10).
-/

namespace Sys2Proof

/-- One byte of memory or of a message. -/
abbrev Byte := BitVec 8

/-- A register of register space, a sequencer register or an operation word. -/
abbrev W64 := BitVec 64

/-- A 32-bit word, such as one word of a fabric flit (R30). -/
abbrev W32 := BitVec 32

end Sys2Proof
end

