-- ==== Sys2Proof/Machine/Bits.lean ====
section
/-!
DEFINITION. Bit fields, sign extension and byte order (00_scope.md R10), and the sparse tables the state is made of.
-/

namespace Sys2Proof.Machine

/-- Bits [hi:lo] of a number. -/
def bits (n hi lo : Nat) : Nat := (n >>> lo) % 2 ^ (hi + 1 - lo)

/-- One bit of a number, as a Bool. -/
def bit (n i : Nat) : Bool := n.testBit i

/-- A number with its bits [hi:lo] replaced by the low bits of `v`. -/
def putBits (n hi lo v : Nat) : Nat :=
  n - (bits n hi lo) * 2 ^ lo + (v % 2 ^ (hi + 1 - lo)) * 2 ^ lo

/-- A Bool as the bit 0 or 1. -/
def b2n (b : Bool) : Nat := if b then 1 else 0

/-- The two's complement reading of the low `w` bits of a number. -/
def sx (w n : Nat) : Int :=
  let m := n % 2 ^ w
  if m < 2 ^ (w - 1) then (m : Int) else (m : Int) - (2 ^ w : Nat)

/-- The low `w` bits of an integer in two's complement. -/
def ux (w : Nat) (i : Int) : Nat := (i % ((2 ^ w : Nat) : Int)).toNat

/-- The number that a little-endian byte string spells (R10). -/
def leNat : List Byte → Nat
  | [] => 0
  | b :: bs => b.toNat + 256 * leNat bs

/-- The `n` bytes of a number, least significant first (R10). -/
def leBytes : Nat → Nat → List Byte
  | 0, _ => []
  | n + 1, v => BitVec.ofNat 8 v :: leBytes n (v / 256)

/-- The 8-byte little-endian words of a byte string. -/
def leWords : Nat → List Byte → List Nat
  | 0, _ => []
  | n + 1, bs => leNat (bs.take 8) :: leWords n (bs.drop 8)

/-- The byte string of a list of 8-byte words. -/
def wordBytes (ws : List Nat) : List Byte := ws.flatMap (leBytes 8)

/-- Smallest multiple of `a` that is at least `n` (`n` itself when `a` is 0). -/
def alignUp (n a : Nat) : Nat := if a = 0 then n else (n + a - 1) / a * a

/-- Quotient rounded up. -/
def ceilDiv (n d : Nat) : Nat := if d = 0 then 0 else (n + d - 1) / d

/-- A counter that stops at its largest value (every counter of the spec saturates). -/
def satAdd (w n k : Nat) : Nat := min (n + k) (2 ^ w - 1)

/-- The largest of a list of numbers, 0 when it is empty. -/
def maxNat (l : List Nat) : Nat := l.foldl max 0

/-! ### Sparse tables -/

namespace Sp

variable {α : Type} [DecidableEq α]

/-- The entry of a sparse table at a key; an unlisted key reads as its default. -/
def get (d : Nat → α) : List (Nat × α) → Nat → α
  | [], k => d k
  | (j, v) :: t, k => if j = k then v else get d t k

/-- A table without the entry at a key. -/
def erase : List (Nat × α) → Nat → List (Nat × α)
  | [], _ => []
  | (j, v) :: t, k => if j = k then erase t k else (j, v) :: erase t k

/-- A table with an entry stored in key order. -/
def insert : List (Nat × α) → Nat → α → List (Nat × α)
  | [], k, v => [(k, v)]
  | (j, w) :: t, k, v =>
    if j = k then (k, v) :: t
    else if k < j then (k, v) :: (j, w) :: t
    else (j, w) :: insert t k v

/-- A table with the value at a key replaced; storing the default removes the entry, so that equal tables are equal
lists. -/
def set (d : Nat → α) (t : List (Nat × α)) (k : Nat) (v : α) : List (Nat × α) :=
  if v = d k then erase t k else insert t k v

/-- Every key of the table is above a bound, the keys rise, and no entry is the default. -/
def wfFrom (d : Nat → α) : Option Nat → List (Nat × α) → Bool
  | _, [] => true
  | lo, (j, v) :: t => (match lo with | none => true | some b => decide (b < j)) && decide (v ≠ d j) && wfFrom d (some j) t

/-- The canonical form of a sparse table: keys strictly rising and no entry equal to what its key reads unlisted. -/
def wf (d : Nat → α) (t : List (Nat × α)) : Bool := wfFrom d none t

end Sp

end Sys2Proof.Machine
end

