-- ==== Sys2Proof/Machine/Flags.lean ====
section
/-!
DEFINITION. The arithmetic flags (02_number_formats_and_accumulation.md R68) as the 16-bit word that each operation
reports and each context keeps.
-/

namespace Sys2Proof.Machine

/-- A set of arithmetic flags, one Bool a flag (R68). Bits [15:6] are reserved and read as 0. -/
structure Flags where
  invalid : Bool := false
  overflow : Bool := false
  accOverflow : Bool := false
  anchorViolation : Bool := false
  anchorMismatch : Bool := false
  nonfiniteBlock : Bool := false
deriving DecidableEq, Repr

namespace Flags

/-- No flag. -/
def none : Flags := {}

/-- The OR of two sets of flags. -/
def or (a b : Flags) : Flags where
  invalid := a.invalid || b.invalid
  overflow := a.overflow || b.overflow
  accOverflow := a.accOverflow || b.accOverflow
  anchorViolation := a.anchorViolation || b.anchorViolation
  anchorMismatch := a.anchorMismatch || b.anchorMismatch
  nonfiniteBlock := a.nonfiniteBlock || b.nonfiniteBlock

/-- The OR of a list of sets of flags. -/
def orAll (l : List Flags) : Flags := l.foldl or none

/-- The flag word of R68. -/
def toNat (f : Flags) : Nat :=
  b2n f.invalid + 2 * b2n f.overflow + 4 * b2n f.accOverflow + 8 * b2n f.anchorViolation
    + 16 * b2n f.anchorMismatch + 32 * b2n f.nonfiniteBlock

/-- The flags of a word; its reserved bits are dropped (R15). -/
def ofNat (n : Nat) : Flags where
  invalid := bit n 0
  overflow := bit n 1
  accOverflow := bit n 2
  anchorViolation := bit n 3
  anchorMismatch := bit n 4
  nonfiniteBlock := bit n 5

/-- The flags that the bits of a mask clear (CSRC of R298, GET_FLAGS of R520). -/
def clear (f : Flags) (mask : Nat) : Flags where
  invalid := f.invalid && !bit mask 0
  overflow := f.overflow && !bit mask 1
  accOverflow := f.accOverflow && !bit mask 2
  anchorViolation := f.anchorViolation && !bit mask 3
  anchorMismatch := f.anchorMismatch && !bit mask 4
  nonfiniteBlock := f.nonfiniteBlock && !bit mask 5

/-- Only the overflow flag. -/
def onlyOverflow : Flags := { overflow := true }

/-- Only the invalid flag. -/
def onlyInvalid : Flags := { invalid := true }

end Flags

end Sys2Proof.Machine
end

