-- ==== Sys2Proof/Machine/Formats.lean ====
section
/-!
DEFINITION. Number formats (02_number_formats_and_accumulation.md R45-R57): the value that each element code gives an
element, and where the elements of a tensor row lie.
-/

namespace Sys2Proof.Machine

/-- A value as the units read it: exact, with the sign of a zero kept (R47, R48). A finite value is
(-1)^neg times man times 2^exp. -/
inductive Num where
  | nan
  | inf (neg : Bool)
  | fin (neg : Bool) (man : Nat) (exp : Int)
deriving DecidableEq, Repr

namespace Num

/-- Positive zero. -/
def zero : Num := .fin false 0 0

/-- One. -/
def one : Num := .fin false 1 0

/-- NaN or an infinity. -/
def isNonfinite : Num → Bool
  | .fin .. => false
  | _ => true

/-- NaN. -/
def isNaN : Num → Bool
  | .nan => true
  | _ => false

/-- An infinity. -/
def isInf : Num → Bool
  | .inf _ => true
  | _ => false

/-- A zero of either sign. -/
def isZero : Num → Bool
  | .fin _ 0 _ => true
  | _ => false

/-- The sign bit; a NaN has none. -/
def sign : Num → Bool
  | .nan => false
  | .inf n => n
  | .fin n _ _ => n

/-- The value with its sign changed. -/
def neg : Num → Num
  | .nan => .nan
  | .inf n => .inf (!n)
  | .fin n m e => .fin (!n) m e

/-- The magnitude. -/
def abs : Num → Num
  | .nan => .nan
  | .inf _ => .inf false
  | .fin _ m e => .fin false m e

/-- An integer as a value. -/
def ofInt (i : Int) : Num := .fin (decide (i < 0)) i.natAbs 0

/-- The signed mantissa of a finite value at a lower or equal exponent. -/
def scaledTo (e0 : Int) : Num → Int
  | .fin n m e =>
    let k : Int := (m * 2 ^ (e - e0).toNat : Nat)
    if n then -k else k
  | _ => 0

/-- The exponent of a finite value's last bit, 0 for anything else. -/
def expOf : Num → Int
  | .fin _ _ e => e
  | _ => 0

/-- Exponent of R69: floor of the base-2 logarithm of a nonzero finite value's magnitude. -/
def expo : Num → Option Int
  | .fin _ m e => if m = 0 then none else some ((Nat.log2 m : Nat) + e)
  | _ => none

/-- Exact product of two values; NaN where R76 says so. -/
def mul : Num → Num → Num
  | .nan, _ => .nan
  | _, .nan => .nan
  | .inf a, .inf b => .inf (a != b)
  | .inf a, .fin b m _ => if m = 0 then .nan else .inf (a != b)
  | .fin a m _, .inf b => if m = 0 then .nan else .inf (a != b)
  | .fin a m e, .fin b n f => .fin (a != b) (m * n) (e + f)

/-- Exact sum. The sum of opposite values is positive zero, and of two zeros of one sign that zero (IEEE 754 RNE). -/
def add : Num → Num → Num
  | .nan, _ => .nan
  | _, .nan => .nan
  | .inf a, .inf b => if a = b then .inf a else .nan
  | .inf a, .fin .. => .inf a
  | .fin .., .inf b => .inf b
  | .fin a m e, .fin b n f =>
    if m = 0 ∧ n = 0 then .fin (a && b) 0 0
    else
      let e0 := min e f
      let s := scaledTo e0 (.fin a m e) + scaledTo e0 (.fin b n f)
      .fin (decide (s < 0)) s.natAbs e0

/-- Exact difference. -/
def sub (x y : Num) : Num := add x (neg y)

/-- Order of two finite values or infinities, as the sign of x - y: -1, 0 or 1. -/
def cmp : Num → Num → Int
  | .inf a, .inf b => if a = b then 0 else if a then -1 else 1
  | .inf a, _ => if a then -1 else 1
  | _, .inf b => if b then 1 else -1
  | .fin a m e, .fin b n f =>
    let e0 := min e f
    (scaledTo e0 (.fin a m e) - scaledTo e0 (.fin b n f)).sign
  | _, _ => 0

/-- x < y, false with a NaN. -/
def lt (x y : Num) : Bool := !x.isNaN && !y.isNaN && decide (cmp x y < 0)

/-- x times 2^k. -/
def scale (k : Int) : Num → Num
  | .fin n m e => .fin n m (e + k)
  | x => x

/-- Both values are the same real number, infinity or NaN (zeros of either sign are the same). -/
def same : Num → Num → Bool
  | .nan, .nan => true
  | .nan, _ => false
  | _, .nan => false
  | x, y => decide (cmp x y = 0)

end Num

/-- Which codes of a floating-point layout are special (R46, R51). -/
inductive Specials where
  | ieee   -- exponent all ones: infinity and NaN
  | nan7F  -- E4M3: mantissa all ones at the top exponent is NaN, no infinity
  | none   -- every code is finite
deriving DecidableEq, Repr

/-- A floating-point layout of R46 or R51: exponent width, mantissa width, bias and special codes. -/
structure FpFormat where
  ebits : Nat
  mbits : Nat
  bias : Nat
  specials : Specials
deriving DecidableEq, Repr

namespace FpFormat

/-- IEEE 754 binary32 (R46). -/
def fp32 : FpFormat := ⟨8, 23, 127, .ieee⟩
/-- BF16 (R46). -/
def bf16 : FpFormat := ⟨8, 7, 127, .ieee⟩
/-- IEEE 754 binary16 (R46). -/
def fp16 : FpFormat := ⟨5, 10, 15, .ieee⟩
/-- FP8 E4M3 (R46). -/
def e4m3 : FpFormat := ⟨4, 3, 7, .nan7F⟩
/-- FP8 E5M2 (R46). -/
def e5m2 : FpFormat := ⟨5, 2, 15, .ieee⟩
/-- MXFP6 E3M2 (R51). -/
def e3m2 : FpFormat := ⟨3, 2, 3, .none⟩
/-- MXFP6 E2M3 (R51). -/
def e2m3 : FpFormat := ⟨2, 3, 1, .none⟩
/-- MXFP4 E2M1 (R51). -/
def e2m1 : FpFormat := ⟨2, 1, 1, .none⟩

/-- The sign bit's position. -/
def signBit (f : FpFormat) : Nat := f.ebits + f.mbits

/-- Exponent of a subnormal's last mantissa bit: 1 - bias - m (R46). -/
def minExp (f : FpFormat) : Int := 1 - (f.bias : Int) - (f.mbits : Int)

/-- The code of the largest finite magnitude (R46, R51). -/
def maxFinite (f : FpFormat) : Nat :=
  match f.specials with
  | .ieee => (2 ^ f.ebits - 1) * 2 ^ f.mbits - 1
  | .nan7F => 2 ^ (f.ebits + f.mbits) - 2
  | .none => 2 ^ (f.ebits + f.mbits) - 1

/-- The code of infinity where the layout has one (R46). -/
def infCode (f : FpFormat) : Nat := (2 ^ f.ebits - 1) * 2 ^ f.mbits

/-- The positive canonical NaN of R48. -/
def nanCode (f : FpFormat) : Nat :=
  match f.specials with
  | .ieee => if f.mbits = 2 then f.infCode + 2 else f.infCode + 2 ^ (f.mbits - 1)
  | _ => 2 ^ (f.ebits + f.mbits) - 1

/-- The value of a code (R46, R51). -/
def decode (f : FpFormat) (c : Nat) : Num :=
  let n := c.testBit f.signBit
  let e := bits c (f.mbits + f.ebits - 1) f.mbits
  let m := c % 2 ^ f.mbits
  let special : Option Num :=
    match f.specials with
    | .ieee => if e = 2 ^ f.ebits - 1 then some (if m = 0 then .inf n else .nan) else none
    | .nan7F => if e = 2 ^ f.ebits - 1 ∧ m = 2 ^ f.mbits - 1 then some .nan else none
    | .none => none
  match special with
  | some v => v
  | none =>
    if e = 0 then .fin n m f.minExp
    else .fin n (2 ^ f.mbits + m) (f.minExp + (e : Int) - 1)

end FpFormat

/-- The element formats of R45. -/
inductive Fmt where
  | fp32 | bf16 | fp16 | e4m3 | e5m2
  | mxE4m3 | mxE5m2 | mxE3m2 | mxE2m3 | mxE2m1 | mxInt8
  | int8 | int32 | splitLow | index32 | tag32
deriving DecidableEq, Repr

namespace Fmt

/-- The format that a 4-bit code names (R45). -/
def ofCode (c : Nat) : Fmt :=
  match c % 16 with
  | 0 => .fp32 | 1 => .bf16 | 2 => .fp16 | 3 => .e4m3 | 4 => .e5m2
  | 5 => .mxE4m3 | 6 => .mxE5m2 | 7 => .mxE3m2 | 8 => .mxE2m3 | 9 => .mxE2m1 | 10 => .mxInt8
  | 11 => .int8 | 12 => .int32 | 13 => .splitLow | 14 => .index32 | _ => .tag32

/-- Bits per element (R45). -/
def width : Fmt → Nat
  | .fp32 | .int32 | .index32 | .tag32 => 32
  | .bf16 | .fp16 | .splitLow => 16
  | .e4m3 | .e5m2 | .mxE4m3 | .mxE5m2 | .mxInt8 | .int8 => 8
  | .mxE3m2 | .mxE2m3 => 6
  | .mxE2m1 => 4

/-- The microscaling formats (R45, codes 0x5 to 0xA). -/
def isMx : Fmt → Bool
  | .mxE4m3 | .mxE5m2 | .mxE3m2 | .mxE2m3 | .mxE2m1 | .mxInt8 => true
  | _ => false

/-- The floating-point layout of a format, none for the integer and bit-field formats. -/
def fp : Fmt → Option FpFormat
  | .fp32 => some .fp32
  | .bf16 => some .bf16
  | .fp16 => some .fp16
  | .e4m3 | .mxE4m3 => some .e4m3
  | .e5m2 | .mxE5m2 => some .e5m2
  | .mxE3m2 => some .e3m2
  | .mxE2m3 => some .e2m3
  | .mxE2m1 => some .e2m1
  | _ => none

/-- The exponent of the largest normal MX element (R51). -/
def emax : Fmt → Int
  | .mxE4m3 => 8
  | .mxE5m2 => 15
  | .mxE3m2 => 4
  | .mxE2m3 => 2
  | .mxE2m1 => 2
  | _ => 0

/-- Bytes of `n` elements packed from a byte boundary (R52). -/
def packed (f : Fmt) (n : Nat) : Nat := ceilDiv (n * f.width) 8

/-- The value of an element's bits, before any block scale (R46, R51, R53, R54). A split-master half has no value of
its own (R57) and reads as its unsigned bits. -/
def decode (f : Fmt) (c : Nat) : Num :=
  match f.fp with
  | some p => p.decode c
  | none =>
    match f with
    | .mxInt8 => (Num.ofInt (sx 8 c)).scale (-6)
    | .int8 => Num.ofInt (sx 8 c)
    | .int32 => Num.ofInt (sx 32 c)
    | _ => .fin false c 0

/-- The value of an MX element under its block's scale byte (R49); 0xFF makes every element NaN. -/
def decodeMx (f : Fmt) (scaleByte c : Nat) : Num :=
  if scaleByte = 255 then .nan else (f.decode c).scale ((scaleByte : Int) - 127)

end Fmt

/-- Element `i` of a byte string that packs elements of a width from bit 0 upwards, which for the 6-bit and 4-bit
formats is the packing of R52. -/
def elemBits (w : Nat) (bs : List Byte) (i : Nat) : Nat :=
  let lo := i * w
  bits (leNat ((bs.drop (lo / 8)).take ((w + 14) / 8))) (lo % 8 + w - 1) (lo % 8)

/-- The bytes that pack a list of elements of one width, each in its low bits (R52). -/
def packElems (w : Nat) (es : List Nat) : List Byte :=
  leBytes (ceilDiv (es.length * w) 8) (es.foldr (fun e acc => e % 2 ^ w + 2 ^ w * acc) 0)

end Sys2Proof.Machine
end

