-- ==== Sys2Proof/Machine/Rounding.lean ====
section
/-!
DEFINITION. Rounding modes, conversions, microscaling blocks and stochastic draws
(02_number_formats_and_accumulation.md R58-R66 and R672).
-/

namespace Sys2Proof.Machine

/-- The rounding modes of R58; `sr` carries the 24-bit draw U of its element (R64). -/
inductive Rounding where
  | rne | rtz | rdn | rup
  | sr (u : Nat)
deriving DecidableEq, Repr

/-- The mode of a 3-bit code; reserved codes round as RNE (R59). -/
def Rounding.ofCode (c u : Nat) : Rounding :=
  match c % 8 with
  | 1 => .rtz
  | 2 => .rdn
  | 3 => .rup
  | 4 => .sr u
  | _ => .rne

/-! ### Stochastic draws -/

/-- One mixing round of the generator of R64, modulo 2^64. -/
def srMix (z : Nat) : Nat :=
  let z1 := ((z ^^^ (z >>> 30)) * 0xA7F31C5B2E94D86B) % 2 ^ 64
  let z2 := ((z1 ^^^ (z1 >>> 27)) * 0x8E61B4D73F0AC295) % 2 ^ 64
  z2 ^^^ (z2 >>> 31)

/-- The 24 random bits of an element (R64): seed 64 bits, tensor id 32 bits, index 48 bits. -/
def srDraw (seed tensor index : Nat) : Nat :=
  let g := 0x9E3779B97F4A7C15
  let k := srMix ((seed + tensor * g) % 2 ^ 64)
  srMix ((k + index * g) % 2 ^ 64) >>> 40

/-! ### Rounding one magnitude -/

/-- Whether a magnitude q + r / 2^k with 0 ≤ r < 2^k rounds up to q + 1, for a value of the given sign (R58, R65). -/
def Rounding.up (mode : Rounding) (neg : Bool) (q r k : Nat) : Bool :=
  if r = 0 then false
  else
    match mode with
    | .rne => decide (2 ^ k < 2 * r) || (decide (2 * r = 2 ^ k) && q % 2 == 1)
    | .rtz => false
    | .rdn => neg
    | .rup => !neg
    | .sr u => decide (2 ^ 24 ≤ r * 2 ^ 24 / 2 ^ k + u)

/-- A magnitude m times 2^e rounded to a whole number of steps of 2^u. -/
def roundSteps (mode : Rounding) (neg : Bool) (m : Nat) (e u : Int) : Nat :=
  if u ≤ e then m * 2 ^ (e - u).toNat
  else
    let k := (u - e).toNat
    let q := m / 2 ^ k
    let r := m % 2 ^ k
    if mode.up neg q r k then q + 1 else q

/-- Exponent of the unit in the last place of a layout at a nonzero magnitude m times 2^e, the subnormal step included
(R65). -/
def FpFormat.ulpExp (f : FpFormat) (m : Nat) (e : Int) : Int :=
  max ((Nat.log2 m : Nat) + e - (f.mbits : Int)) f.minExp

/-- The code, without its sign, of a magnitude rounded with an unbounded exponent: codes rise with magnitudes, so one
above `maxFinite` is an overflow (R61). -/
def FpFormat.roundMag (f : FpFormat) (mode : Rounding) (neg : Bool) (m : Nat) (e : Int) : Nat :=
  if m = 0 then 0
  else
    let u := f.ulpExp m e
    (u - f.minExp).toNat * 2 ^ f.mbits + roundSteps mode neg m e u

/-- Whether an overflow of a value of this sign becomes an infinity rather than the largest finite value (R61). -/
def Rounding.overflowsToInf (mode : Rounding) (neg : Bool) : Bool :=
  match mode with
  | .rne | .sr _ => true
  | .rtz => false
  | .rdn => neg
  | .rup => !neg

/-- A code with a sign bit. -/
def FpFormat.signed (f : FpFormat) (neg : Bool) (c : Nat) : Nat := b2n neg * 2 ^ f.signBit + c

/-- Conversion of a value to a floating-point layout (R60, R61, R672): the code and the flags raised. -/
def FpFormat.convert (f : FpFormat) (mode : Rounding) (sat : Bool) (x : Num) : Nat × Flags :=
  match x with
  | .nan => (f.nanCode, .none)
  | .inf n =>
    match f.specials with
    | .ieee => (f.signed n f.infCode, .none)
    | .nan7F => if sat then (f.signed n f.maxFinite, .none) else (f.nanCode, .onlyInvalid)
    | .none => (f.signed n f.maxFinite, .none)
  | .fin n m e =>
    let c := f.roundMag mode n m e
    if c ≤ f.maxFinite then (f.signed n c, .none)
    else if sat ∨ f.specials = .none ∨ ¬ mode.overflowsToInf n then (f.signed n f.maxFinite, .onlyOverflow)
    else if f.specials = .ieee then (f.signed n f.infCode, .onlyOverflow)
    else (f.nanCode, .onlyOverflow)

/-- Conversion of a value to a two's complement integer of `w` bits (R62). -/
def convertInt (w : Nat) (mode : Rounding) (x : Num) : Nat × Flags :=
  let hi := 2 ^ (w - 1) - 1
  match x with
  | .nan => (0, .onlyInvalid)
  | .inf n => (if n then 2 ^ (w - 1) else hi, .onlyInvalid)
  | .fin n m e =>
    let q := roundSteps mode n m e 0
    if n then (if q ≤ hi + 1 then (ux w (-(q : Int)), .none) else (2 ^ (w - 1), .onlyOverflow))
    else (if q ≤ hi then (q, .none) else (hi, .onlyOverflow))

/-- Conversion of one value to a format that has no block scale (R60-R62). The split-master, index and tag formats hold
no numbers of their own (R54, R55, R57); no engine converts to them, and they keep the low bits of an integer value. -/
def Fmt.convert (f : Fmt) (mode : Rounding) (sat : Bool) (x : Num) : Nat × Flags :=
  match f with
  | .int8 => convertInt 8 mode x
  | .int32 => convertInt 32 mode x
  | .mxInt8 => convertInt 8 mode (x.scale 6)
  | .splitLow => (roundSteps .rtz false (match x with | .fin _ m _ => m | _ => 0) x.expOf 0 % 2 ^ 16, .none)
  | .index32 | .tag32 => (roundSteps .rtz false (match x with | .fin _ m _ => m | _ => 0) x.expOf 0 % 2 ^ 32, .none)
  | f =>
    match f.fp with
    | some p => p.convert mode sat x
    | none => (0, .none)

/-! ### Microscaling blocks -/

/-- The scale byte that an MX conversion chooses for a block of exact values (R63). -/
def mxBlockScale (f : Fmt) (xs : List Num) : Nat :=
  if xs.any Num.isNonfinite then 255
  else
    match xs.filterMap Num.expo with
    | [] => 127
    | e :: es =>
      let top := (es.foldl max e) - f.emax
      (max (-127) (min 127 top) + 127).toNat

/-- One block converted to an MX format (R63): its scale byte, its elements' bits and the flags raised. Each element
has its own rounding mode, since a stochastic draw belongs to one element (R66). -/
def mxBlock (f : Fmt) (xs : List (Num × Rounding)) : Nat × List Nat × Flags :=
  let sc := mxBlockScale f (xs.map Prod.fst)
  if sc = 255 then (255, xs.map (fun _ => 0), { nonfiniteBlock := true })
  else
    let rs := xs.map (fun (x, mode) => f.convert mode true (x.scale (127 - (sc : Int))))
    (sc, rs.map Prod.fst, Flags.orAll (rs.map Prod.snd))

/-- A row of values converted to a format: the elements' bits, one scale byte per 32 elements for an MX format (an
incomplete last block is padded with zeros, R50), and the flags raised. -/
def convertRow (f : Fmt) (sat : Bool) (xs : List (Num × Rounding)) : List Nat × List Nat × Flags :=
  if f.isMx then
    let blocks := (List.range (ceilDiv xs.length 32)).map (fun b =>
      let part := (xs.drop (32 * b)).take 32
      mxBlock f (part ++ List.replicate (32 - part.length) (Num.zero, .rne)))
    (blocks.flatMap (fun b => b.2.1), blocks.map Prod.fst, Flags.orAll (blocks.map (fun b => b.2.2)))
  else
    let rs := xs.map (fun (x, mode) => f.convert mode sat x)
    (rs.map Prod.fst, [], Flags.orAll (rs.map Prod.snd))

/-- A value rounded to FP32 by RNE, as a value (the vector engines and the combines compute in FP32). -/
def toFp32 (x : Num) : Num := FpFormat.fp32.decode (FpFormat.fp32.convert .rne false x).1

/-- The FP32 code of a value rounded by RNE. -/
def fp32Code (x : Num) : Nat := (FpFormat.fp32.convert .rne false x).1

/-- The value of an FP32 code. -/
def ofFp32 (c : Nat) : Num := FpFormat.fp32.decode (c % 2 ^ 32)

end Sys2Proof.Machine
end

