-- ==== Sys2Proof/Config.lean ====
section
/-!
DEFINITION. What the spec leaves open: constants without a body, so that no proof can lean on a value of theirs. Each
stands for a value that the device has and the spec does not state; the assumption log names every use.
-/

namespace Sys2Proof.Config

/-- The n-th value, of at most `w` bits, that the spec leaves open (log entry 2). -/
opaque freeValue : (w n : Nat) → BitVec w

/-- The column of the (72,64) check-bit matrix for bit position `i`, 0 to 63 the data bits and 64 to 71 the check bits:
the code equations are internal to the device (R222, log entry 8). -/
opaque secdedColumn : (i : Nat) → BitVec 8

/-- The cache set that a DDR5 line takes in its home slice at split `n`: R215 gives the number of sets and no index
function (log entry 9). -/
opaque cacheSet : (n line : Nat) → Nat

/-- The power of α that locates symbol `s` of a DDR5 codeword (R230 gives the code's roots and not this; log entry 11). -/
opaque symbolPower : (s : Nat) → Nat

/-- The power of x that carries byte `i` of a link flit (13 R469 gives the roots and not this; log entry 28). -/
opaque flitPower : (i : Nat) → Nat

/-- Whether a row check whose deviation lies between the bounds of R114 and R115 fails (R674, log entry 10). -/
opaque checkVerdict : (pass row : Nat) → Bool

/-- The order in which a group of `p` members combines raw accumulators, by the group's number: R443 says that group and
rank fix it, and not what it is. `order` lists ranks; `joinAt` names, when `n` partial results are left, the one that is
joined with its right neighbour (log entry 18). -/
opaque order : (group p : Nat) → List Nat

/-- See `order`. -/
opaque joinAt : (group p n : Nat) → Nat

/-- Slices that the quick tests of a pack, by its version, need on an array: R597 bounds a slice's time and does not divide
the tests into slices (17 R597, log entry 35). -/
opaque sliceCount : (version array : Nat) → Nat

/-- SHA-256, HMAC-SHA-256 and the verification of the two signature schemes, as the standards that 19 names define them; the
spec gives no values of them (log entry 36). -/
opaque sha256 : List (BitVec 8) → List (BitVec 8)
/-- See `sha256`: key and message. -/
opaque hmac : List (BitVec 8) → List (BitVec 8) → List (BitVec 8)
/-- See `sha256`: public key, message and signature. -/
opaque signed : List (BitVec 8) → List (BitVec 8) → List (BitVec 8) → Bool
/-- The signature of a message under a private key. -/
opaque sign : List (BitVec 8) → List (BitVec 8) → List (BitVec 8)
/-- The device secret that the physical unclonable function and the helper data give; none where reconstruction fails (19
R640, R641, log entry 36). -/
opaque deviceSecret : List (BitVec 8) → Option (List (BitVec 8))
/-- Keys derived from the secret by their info string: seal, attest, mac (19 R640). -/
opaque derived : List (BitVec 8) → String → List (BitVec 8)
/-- The public key of an attestation key (19 R640, R642). -/
opaque publicKey : List (BitVec 8) → List (BitVec 8)
/-- The device certificate and the helper data's place in the identity area, which the spec does not lay out: the certificate
that an identity area holds (19 R632, R642). -/
opaque certificate : List (BitVec 8) → List (BitVec 8)
/-- The hash of the vendor key in the mask ROM (19 R634). -/
opaque vendorHash : List (BitVec 8)
/-- The state byte that GET_INFO and GET_STATUS give a function: 14 R520 names it and no code (log entry 37). -/
opaque functionState : (stopped : Bool) → BitVec 8

end Sys2Proof.Config
end

