-- ==== Sys2Proof/Machine/Anchor.lean ====
section
/-!
DEFINITION. Anchored exact accumulation and raw accumulators (02_number_formats_and_accumulation.md R69-R81, R673).
-/

namespace Sys2Proof.Machine

/-- A row or column maximum: none when it is empty (R70). -/
abbrev MaxExp := Option Int

/-- The 16-bit code of a maximum, 0x8000 when empty (R71). -/
def MaxExp.code : MaxExp → Nat
  | none => 0x8000
  | some e => ux 16 e

/-- The maximum that a 16-bit code states (R71). -/
def MaxExp.ofCode (c : Nat) : MaxExp := if c % 65536 = 0x8000 then none else some (sx 16 c)

/-- The larger of two maxima; an empty one is the smallest (R71). -/
def MaxExp.max : MaxExp → MaxExp → MaxExp
  | none, b => b
  | a, none => a
  | some a, some b => some (if a < b then b else a)

/-- The largest exponent of a list of values (R69, R70). -/
def maxExpOf (xs : List Num) : MaxExp := xs.foldl (fun acc x => acc.max x.expo) none

/-- Whether a value's exponent exceeds a stated maximum (R78): an empty maximum is exceeded by any exponent. -/
def exceeds (x : Num) (stated : MaxExp) : Bool :=
  match x.expo, stated with
  | none, _ => false
  | some _, none => true
  | some e, some m => decide (m < e)

/-- The raw accumulator of R79 as a record; `toWord` and `ofWord` give its 128 bits. -/
structure Acc where
  nan : Bool := false
  pinf : Bool := false
  ninf : Bool := false
  empty : Bool := true
  viol : Bool := false
  anchor : Int := 0
  sum : Int := 0
deriving DecidableEq, Repr

namespace Acc

/-- A sum reduced to 96 bits in two's complement (R73, R74). -/
def wrap96 (i : Int) : Int := sx 96 (ux 96 i)

/-- The 128-bit word of R79. -/
def toWord (a : Acc) : Nat :=
  b2n a.nan * 2 ^ 127 + b2n a.pinf * 2 ^ 126 + b2n a.ninf * 2 ^ 125 + b2n a.empty * 2 ^ 124 + b2n a.viol * 2 ^ 123
    + (if a.empty then 0 else ux 16 a.anchor) * 2 ^ 96 + (if a.empty then 0 else ux 96 a.sum)

/-- The accumulator that a word spells; S and anchor read as 0 when the word is empty, and bits [122:112] are ignored
(R79). -/
def ofWord (w : Nat) : Acc :=
  let e := bit w 124
  { nan := bit w 127, pinf := bit w 126, ninf := bit w 125, empty := e, viol := bit w 123,
    anchor := if e then 0 else sx 16 (bits w 111 96),
    sum := if e then 0 else sx 96 (bits w 95 0) }

/-- An accumulator that holds no product, at an anchor (R70). -/
def start : MaxExp → MaxExp → Acc
  | some a, some w => { empty := false, anchor := a + w }
  | _, _ => {}

/-- One product added (R72, R73, R76, R78): the stated maxima are those of its row and its column. -/
def addProduct (acc : Acc) (ea ew : MaxExp) (a w : Num) : Acc :=
  let acc := if exceeds a ea || exceeds w ew then { acc with viol := true } else acc
  match a.mul w with
  | .nan => { acc with nan := true }
  | .inf false => { acc with pinf := true }
  | .inf true => { acc with ninf := true }
  | .fin n m e =>
    if acc.empty || m = 0 then acc
    else
      let k := e + 64 - acc.anchor
      let mag : Int := (m : Int)
      let p := if n then -mag else mag
      let q : Int := if 0 ≤ k then p * 2 ^ k.toNat else p / 2 ^ (-k).toNat
      { acc with sum := wrap96 (acc.sum + q) }

/-- Whether a product raises the invalid flag in a DA_PASS: an infinity times a zero with no NaN operand (R673). -/
def invalidProduct (a w : Num) : Bool := (a.mul w).isNaN && !a.isNaN && !w.isNaN

/-- Two accumulators combined (R80, R81), and whether their anchors differed. -/
def combine (x y : Acc) : Acc × Bool :=
  let f : Acc := { nan := x.nan || y.nan, pinf := x.pinf || y.pinf, ninf := x.ninf || y.ninf, viol := x.viol || y.viol }
  if x.empty then ({ f with empty := y.empty, anchor := y.anchor, sum := y.sum }, false)
  else if y.empty then ({ f with empty := false, anchor := x.anchor, sum := x.sum }, false)
  else if x.anchor = y.anchor then
    ({ f with empty := false, anchor := x.anchor, sum := wrap96 (x.sum + y.sum) }, false)
  else
    let top := max x.anchor y.anchor
    let sh := fun (a : Acc) => a.sum / 2 ^ (top - a.anchor).toNat
    ({ f with empty := false, anchor := top, sum := wrap96 (sh x + sh y) }, true)

/-- Headroom overflow of a final sum (R75). -/
def headroom (a : Acc) : Bool := decide (a.sum < -(2 ^ 82)) || decide (2 ^ 82 ≤ a.sum)

/-- The NaN of an output: for INT32 it is 0, by R62 (R76). -/
def nanOut (f : Fmt) : Nat :=
  match f.fp with
  | some p => p.nanCode
  | none => 0

/-- The largest finite value of an output format with a sign, for headroom overflow (R75). -/
def largestOut (f : Fmt) (neg : Bool) : Nat :=
  match f.fp with
  | some p => p.signed neg p.maxFinite
  | none => if neg then 2 ^ (f.width - 1) else 2 ^ (f.width - 1) - 1

/-- The output that DA_EXPORT forms from an accumulator with raw = 0 in a format with no block scale, and the flags it
raises (R75-R78, R673). -/
def output (f : Fmt) (sat : Bool) (a : Acc) : Nat × Flags :=
  let isInt := f.fp.isNone
  if a.viol || a.nan || (a.pinf && a.ninf) then
    (nanOut f, { anchorViolation := a.viol, invalid := isInt || (!a.nan && a.pinf && a.ninf) })
  else if a.pinf || a.ninf then f.convert .rne sat (.inf a.ninf)
  else if a.empty || a.sum = 0 then (0, .none)
  else if a.headroom then (largestOut f (decide (a.sum < 0)), { accOverflow := true })
  else f.convert .rne sat (.fin (decide (a.sum < 0)) a.sum.natAbs (a.anchor - 64))

/-- The exact value of an accumulator, for an export to an MX format, with the flags of R75 and R78; headroom overflow
gives the largest magnitude its 83 bits hold (R75). -/
def value (a : Acc) : Num × Flags :=
  if a.viol || a.nan || (a.pinf && a.ninf) then
    (.nan, { anchorViolation := a.viol, invalid := !a.nan && a.pinf && a.ninf })
  else if a.pinf || a.ninf then (.inf a.ninf, .none)
  else if a.empty || a.sum = 0 then (.zero, .none)
  else (.fin (decide (a.sum < 0)) a.sum.natAbs (a.anchor - 64), { accOverflow := a.headroom })

end Acc

end Sys2Proof.Machine
end

