-- ==== Sys2Proof/Machine/Registers.lean ====
section
/-!
DEFINITION. The registers of register space, one constructor a register, with the windows of 01_package_and_fabric.md
R38 and the fields, access codes and chip-reset values of each chapter's register table (R13, R14).
A register that a window repeats, and a register that stands at a stride inside its window, is one constructor read
with two numbers, the window's and the element's.
-/

namespace Sys2Proof.Machine

/-- The registers that the register tables name. -/
inductive Reg where
  | FAB_ID | FAB_CTRL | FAB_ERR_STATUS | FAB_ERR_ADDR | FAB_ERR_INFO | FAB_LINK_STATUS | FAB_LINK_PAR_CNT
  | FAB_LINK_REPLAY_CNT | FAB_LINK_REPLAY_NS | DA_CTRL | DA_CHK_TOL | DA_STATUS | DA_ERR_STATUS | DA_RETIRE
  | DA_PASS_CNT | DA_CHK_FAIL_CNT | DA_CHK_SKIP_CNT | DA_ARB_CNT | DA_FLAG_PASS | DA_RAMP_CNT | DA_SP_STATUS
  | DA_SP_ERR | DA_SP_CHAFF_CNT | DA_SP_CHAFF_INFO | GME_CTRL | GME_STATUS | GME_ERR_STATUS | GME_CHAFF_INFO
  | GME_OP_CNT | GME_IDX_CNT | GME_COAL_CNT | GME_CHAFF_CNT | GME_FOREIGN_CNT | GME_RES_CNT
  | GME_COMB_MISS_CNT | GME_DUP_CNT | VE_CTRL | VE_STATUS | VE_ERR_STATUS | VE_OP_CNT | VE_ELEM_CNT
  | CMEM_CTRL | SHM_CTRL | CMEM_ERR_STATUS | SHM_ERR_STATUS | CMEM_ERR_ADDR | SHM_ERR_ADDR | CMEM_CE_CNT
  | SHM_CE_CNT | CMEM_UE_CNT | SHM_UE_CNT | CMEM_SCRUB_CNT | SHM_SCRUB_CNT | CMEM_CONFLICT_CNT
  | SHM_CACHE_CFG | SHM_CACHE_HIT_CNT | SHM_CACHE_MISS_CNT | SHM_CACHE_WB_CNT | DDR_CTRL | DDR_CFG
  | DDR_ERR_STATUS | DDR_ERR_ADDR | DDR_CH_CE_CNT | DDR_CH_UE_CNT | DDR_CH_ERASE | FD_CTRL | FD_STATUS
  | FD_ERR_STATUS | FD_CHAFF_INFO | FD_QTABLE | FD_STREAM_CNT | FD_BYTE_CNT | FD_STALL_CNT | FD_MCAST_CNT
  | FD_CHAFF_CNT | FD_FOREIGN_CNT | FD_COAL_CNT | FD_REFETCH_CNT | FD_FAULT_CNT | CTX_CTRL | CTX_STATE
  | CTX_CORE_RUN | CTX_CMD | CTX_RING_BASE | CTX_RING_PTR | CTX_ERR_STATUS | CTX_PT_ROOT | CTX_SAVE_BASE
  | CTX_FLAGS | CTX_FAULT_CNT | CTX_PREEMPT_CNT | CTX_FREC | WLK_CTRL | WLK_STATUS | WLK_ERR_STATUS
  | WLK_CHAFF_INFO | WLK_AUDIT | WLK_AUDIT_SEED | WLK_ENTRY_CNT | WLK_EMPTY_CNT | WLK_ZF_CNT | WLK_ROUTE_CNT
  | WLK_CHAFF_CNT | WLK_SKIP_CNT | WLK_AUDIT_CNT | WLK_MISS_CNT | HD_CTRL | HD_STATUS | HD_ERR_STATUS
  | HD_PEAK | HD_PUSH_CNT | HD_POP_CNT | HD_WB_BYTES | HD_PF_BYTES | HD_HOME_FETCH_CNT | WQ_CTRL | WQ_CFG
  | WQ_STATUS | WQ_ERR_STATUS | WQ_PUSH_CNT | WQ_BUBBLE_CNT | WQ_FULL_CNT | WQ_FLUSH_CNT | WQ_FROZEN_CNT
  | UPD_CTRL | UPD_STATUS | UPD_ERR_STATUS | UPD_GROUP_CNT | UPD_ELEM_CNT | UPD_SKIP_CNT | UPD_FROZEN_CNT
  | UPD_RECOMMIT_CNT | UPD_TORN_CNT | UPD_NONFINITE_CNT | COL_CTRL | BAR_CTRL | COL_STATUS | BAR_STATUS
  | COL_ERR_STATUS | BAR_CNT | COL_ERR_INFO | BAR_LATE_CNT | BAR_LAST_REL | COL_PLAN | COL_BKT | RHK_CTRL
  | RHK_DEV_ID | RHK_ROUTE_BANK | RHK_ERR_STATUS | RHK_ERR_INFO | RHK_SYNC | RHK_PORT_CTRL | RHK_PORT_STATUS
  | RHK_PORT_FEC_CNT | RHK_PORT_REPLAY_CNT | RHK_PORT_FO_CNT | RHK_PORT_DUP_CNT | RHK_PORT_TX_BYTES
  | RHK_PORT_RX_BYTES | RHK_ROUTE | MBX_CTRL | INT_CTRL | MBX_NONEMPTY | INT_SUM | MBX_COLL | INT_ALERT_EN
  | MBX_ERR_STATUS | INT_ALERT | MBX_ERR_INFO | INT_FW | MBX_CMD | INT_EN | MBX_BIND | INT_LEAF | MBX_PTR
  | INT_LEAF_EN | MBX_DB | MBX_DB_MASK | MBX_DB_SET | MBX_SEND | MBX_RECV | ETH_CTRL | ETH_STATUS
  | ETH_ERR_STATUS | ETH_ERR_INFO | ETH_PFC | ETH_CC | ETH_RX_BYTES | ETH_TX_BYTES | ETH_FEC_CNT
  | ETH_DROP_CNT | ETH_NAK_CNT | ETH_MGMT_CNT | ETH_CNP_CNT | ETH_QP | PWR_CTRL | TEL_CTRL | TB_CTRL
  | PWR_CAP | TEL_THERM_CFG | TB_NOW | PWR_LOOP_CFG | TEL_ERR_STATUS | TB_STATUS | PWR_FREQ | TEL_MAX
  | TB_STEP_NS | PWR_STATUS | TEL_POST_STEP | PWR_ERR_STATUS | TEL_POST_VAL | PWR_EST | TEL_POST_INFO
  | PWR_DROOP_CFG | TEL_SPIKE_CFG | PWR_ENERGY_TOTAL | TEL_SPIKE_REL | PWR_FIXED | PWR_DROOP_CNT | PWR_W
  | TEL_FLAG_CNT | PWR_LEAK | PWR_THR_NS | TEL_SPIKE_STATE | PWR_THR_CNT | PWR_ENERGY | TEL_SENSOR | SCR_CTRL
  | SCR_STATUS | SCR_ERR_STATUS | SCR_PACK | SCR_RETIRED | SCR_QUICK_CNT | SCR_FULL_CNT | SCR_FAIL_CNT
  | SCR_INCOMPLETE_CNT | SCR_SLICE_CNT | SCR_VE_RES_CNT | SCR_LAST | RST_CTRL | RST_WD_CFG | RST_STATUS
  | RST_ERR_STATUS | RST_LAST | RST_CAUSE | RST_CP_KICK | RST_CR_CNT | RST_HANG_CNT | RST_FENCED_CNT
  | RST_DRAIN_ERR_CNT | RST_WD_COUNT | SEC_CTRL | DBG_CTRL | SEC_STATUS | DBG_STATUS | SEC_ERR_STATUS
  | SEC_SVN | SEC_IMG_HASH | DBG_CHALLENGE | SMB_CTRL | SMB_STATUS | SMB_ERR_STATUS | SMB_STRAP | SMB_MSG_CNT
  | SMB_READ_CNT | DA_BUF_CE_CNT | DA_BUF_UE_CNT | COL_OP_CNT | COL_TX_BYTES | COL_RX_BYTES | COL_BUCKET_CNT
  | COL_FORCED_CNT | COL_NONFINITE_CNT | COL_RES_CNT
deriving DecidableEq, Repr

/-- The access codes of R13. -/
inductive Access where
  | ro | rw | rwl | w1c | wo
deriving DecidableEq, Repr

/-- One field of a register table: its bits, access code and value after chip reset. Bits that no field names are
reserved (R15). -/
structure FieldRow where
  hi : Nat
  lo : Nat
  access : Access
  reset : Nat
deriving DecidableEq, Repr

/-- One register of a register table: its first window, how many windows repeat it, its offset, the stride and number
of its elements inside the window, and its fields from high to low. -/
structure RegRow where
  window : Nat
  windows : Nat
  offset : Nat
  stride : Nat
  count : Nat
  fields : List FieldRow
deriving DecidableEq, Repr

/-- A field of a register, by its bits. -/
structure Field where
  reg : Reg
  hi : Nat
  lo : Nat
deriving DecidableEq, Repr

/-- The register tables of the spec. A reset value of "—" (R14) stands here as 0. -/
def Reg.row : Reg → RegRow
  | .FAB_ID => ⟨0x0, 1, 0x0, 0x8, 1, [⟨47, 32, .ro, 0x640⟩, ⟨31, 24, .ro, 0xb0⟩, ⟨23, 16, .ro, 0x40⟩,
    ⟨15, 8, .ro, 0x33⟩]⟩
  | .FAB_CTRL => ⟨0x0, 1, 0x8, 0x8, 1, [⟨8, 8, .rwl, 0⟩, ⟨4, 0, .rwl, 0x10⟩]⟩
  | .FAB_ERR_STATUS => ⟨0x0, 1, 0x10, 0x8, 1, [⟨4, 4, .w1c, 0⟩, ⟨3, 3, .w1c, 0⟩, ⟨2, 2, .w1c, 0⟩, ⟨1, 1, .w1c, 0⟩,
    ⟨0, 0, .w1c, 0⟩]⟩
  | .FAB_ERR_ADDR => ⟨0x0, 1, 0x18, 0x8, 1, [⟨63, 0, .ro, 0⟩]⟩
  | .FAB_ERR_INFO => ⟨0x0, 1, 0x20, 0x8, 1, [⟨31, 24, .ro, 0⟩, ⟨23, 16, .ro, 0⟩, ⟨11, 8, .ro, 0⟩, ⟨2, 0, .ro, 0⟩]⟩
  | .FAB_LINK_STATUS => ⟨0x0, 1, 0x1000, 0x20, 51, [⟨31, 16, .ro, 0⟩, ⟨1, 0, .ro, 0⟩]⟩
  | .FAB_LINK_PAR_CNT => ⟨0x0, 1, 0x1008, 0x20, 51, [⟨31, 0, .ro, 0⟩]⟩
  | .FAB_LINK_REPLAY_CNT => ⟨0x0, 1, 0x1010, 0x20, 51, [⟨31, 0, .ro, 0⟩]⟩
  | .FAB_LINK_REPLAY_NS => ⟨0x0, 1, 0x1018, 0x20, 51, [⟨47, 0, .ro, 0⟩]⟩
  | .DA_CTRL => ⟨0x8, 8, 0x0, 0x8, 1, [⟨8, 8, .rwl, 0⟩, ⟨2, 2, .rwl, 0x1⟩, ⟨1, 1, .rwl, 0x1⟩, ⟨0, 0, .rwl, 0x1⟩]⟩
  | .DA_CHK_TOL => ⟨0x8, 8, 0x8, 0x8, 1, [⟨3, 0, .rwl, 0xa⟩]⟩
  | .DA_STATUS => ⟨0x8, 8, 0x10, 0x8, 1, [⟨23, 16, .ro, 0⟩, ⟨11, 10, .ro, 0⟩, ⟨9, 8, .ro, 0⟩, ⟨7, 4, .ro, 0⟩,
    ⟨2, 0, .ro, 0⟩]⟩
  | .DA_ERR_STATUS => ⟨0x8, 8, 0x18, 0x8, 1, [⟨5, 5, .w1c, 0⟩, ⟨4, 4, .w1c, 0⟩, ⟨3, 3, .w1c, 0⟩, ⟨2, 2, .w1c, 0⟩,
    ⟨1, 1, .w1c, 0⟩, ⟨0, 0, .w1c, 0⟩]⟩
  | .DA_RETIRE => ⟨0x8, 8, 0x20, 0x8, 1, [⟨8, 8, .wo, 0⟩, ⟨2, 1, .ro, 0⟩, ⟨0, 0, .ro, 0⟩]⟩
  | .DA_PASS_CNT => ⟨0x8, 8, 0x28, 0x8, 1, [⟨47, 0, .ro, 0⟩]⟩
  | .DA_CHK_FAIL_CNT => ⟨0x8, 8, 0x30, 0x8, 1, [⟨31, 0, .ro, 0⟩]⟩
  | .DA_CHK_SKIP_CNT => ⟨0x8, 8, 0x38, 0x8, 1, [⟨31, 0, .ro, 0⟩]⟩
  | .DA_ARB_CNT => ⟨0x8, 8, 0x40, 0x8, 1, [⟨47, 32, .ro, 0⟩, ⟨31, 16, .ro, 0⟩, ⟨15, 0, .ro, 0⟩]⟩
  | .DA_FLAG_PASS => ⟨0x8, 8, 0x48, 0x8, 3, [⟨47, 0, .ro, 0⟩]⟩
  | .DA_RAMP_CNT => ⟨0x8, 8, 0x60, 0x8, 1, [⟨31, 0, .ro, 0⟩]⟩
  | .DA_SP_STATUS => ⟨0x8, 8, 0x68, 0x8, 1, [⟨15, 12, .ro, 0⟩, ⟨11, 8, .ro, 0⟩, ⟨7, 4, .ro, 0⟩, ⟨3, 0, .ro, 0⟩]⟩
  | .DA_SP_ERR => ⟨0x8, 8, 0x70, 0x8, 1, [⟨1, 1, .w1c, 0⟩, ⟨0, 0, .w1c, 0⟩]⟩
  | .DA_SP_CHAFF_CNT => ⟨0x8, 8, 0x78, 0x8, 1, [⟨31, 0, .ro, 0⟩]⟩
  | .DA_SP_CHAFF_INFO => ⟨0x8, 8, 0x80, 0x8, 1, [⟨42, 32, .ro, 0⟩, ⟨24, 16, .ro, 0⟩, ⟨11, 8, .ro, 0⟩, ⟨1, 0, .ro, 0⟩]⟩
  | .GME_CTRL => ⟨0x18, 4, 0x0, 0x8, 1, [⟨8, 8, .rwl, 0⟩, ⟨1, 1, .rwl, 0x1⟩, ⟨0, 0, .rwl, 0x1⟩]⟩
  | .GME_STATUS => ⟨0x18, 4, 0x8, 0x8, 1, [⟨15, 8, .ro, 0⟩, ⟨7, 0, .ro, 0⟩]⟩
  | .GME_ERR_STATUS => ⟨0x18, 4, 0x10, 0x8, 1, [⟨5, 5, .w1c, 0⟩, ⟨4, 4, .w1c, 0⟩, ⟨3, 3, .w1c, 0⟩,
    ⟨2, 2, .w1c, 0⟩, ⟨1, 1, .w1c, 0⟩, ⟨0, 0, .w1c, 0⟩]⟩
  | .GME_CHAFF_INFO => ⟨0x18, 4, 0x18, 0x8, 1, [⟨63, 32, .ro, 0⟩, ⟨27, 24, .ro, 0⟩, ⟨19, 16, .ro, 0⟩,
    ⟨10, 8, .ro, 0⟩, ⟨7, 0, .ro, 0⟩]⟩
  | .GME_OP_CNT => ⟨0x18, 4, 0x100, 0x40, 8, [⟨47, 0, .ro, 0⟩]⟩
  | .GME_IDX_CNT => ⟨0x18, 4, 0x108, 0x40, 8, [⟨47, 0, .ro, 0⟩]⟩
  | .GME_COAL_CNT => ⟨0x18, 4, 0x110, 0x40, 8, [⟨47, 0, .ro, 0⟩]⟩
  | .GME_CHAFF_CNT => ⟨0x18, 4, 0x118, 0x40, 8, [⟨31, 0, .ro, 0⟩]⟩
  | .GME_FOREIGN_CNT => ⟨0x18, 4, 0x120, 0x40, 8, [⟨47, 0, .ro, 0⟩]⟩
  | .GME_RES_CNT => ⟨0x18, 4, 0x128, 0x40, 8, [⟨31, 0, .ro, 0⟩]⟩
  | .GME_COMB_MISS_CNT => ⟨0x18, 4, 0x130, 0x40, 8, [⟨31, 0, .ro, 0⟩]⟩
  | .GME_DUP_CNT => ⟨0x18, 4, 0x138, 0x40, 8, [⟨31, 0, .ro, 0⟩]⟩
  | .VE_CTRL => ⟨0x14, 4, 0x0, 0x8, 1, [⟨8, 8, .rwl, 0⟩, ⟨0, 0, .rwl, 0x1⟩]⟩
  | .VE_STATUS => ⟨0x14, 4, 0x8, 0x8, 1, [⟨7, 4, .ro, 0⟩, ⟨3, 0, .ro, 0⟩]⟩
  | .VE_ERR_STATUS => ⟨0x14, 4, 0x10, 0x8, 1, [⟨1, 1, .w1c, 0⟩, ⟨0, 0, .w1c, 0⟩]⟩
  | .VE_OP_CNT => ⟨0x14, 4, 0x40, 0x10, 4, [⟨47, 0, .ro, 0⟩]⟩
  | .VE_ELEM_CNT => ⟨0x14, 4, 0x48, 0x10, 4, [⟨63, 0, .ro, 0⟩]⟩
  | .CMEM_CTRL => ⟨0x1c, 4, 0x0, 0x8, 1, [⟨8, 8, .rwl, 0⟩, ⟨0, 0, .rwl, 0x1⟩]⟩
  | .SHM_CTRL => ⟨0x20, 4, 0x0, 0x8, 1, [⟨8, 8, .rwl, 0⟩, ⟨0, 0, .rwl, 0x1⟩]⟩
  | .CMEM_ERR_STATUS => ⟨0x1c, 4, 0x8, 0x8, 1, [⟨2, 2, .w1c, 0⟩, ⟨1, 1, .w1c, 0⟩, ⟨0, 0, .w1c, 0⟩]⟩
  | .SHM_ERR_STATUS => ⟨0x20, 4, 0x8, 0x8, 1, [⟨4, 4, .w1c, 0⟩, ⟨3, 3, .w1c, 0⟩, ⟨2, 2, .w1c, 0⟩, ⟨1, 1, .w1c, 0⟩,
    ⟨0, 0, .w1c, 0⟩]⟩
  | .CMEM_ERR_ADDR => ⟨0x1c, 4, 0x10, 0x8, 1, [⟨63, 56, .ro, 0⟩, ⟨55, 52, .ro, 0⟩, ⟨51, 51, .ro, 0⟩, ⟨47, 0, .ro, 0⟩]⟩
  | .SHM_ERR_ADDR => ⟨0x20, 4, 0x10, 0x8, 1, [⟨63, 56, .ro, 0⟩, ⟨55, 52, .ro, 0⟩, ⟨51, 51, .ro, 0⟩, ⟨47, 0, .ro, 0⟩]⟩
  | .CMEM_CE_CNT => ⟨0x1c, 4, 0x18, 0x8, 1, [⟨31, 0, .ro, 0⟩]⟩
  | .SHM_CE_CNT => ⟨0x20, 4, 0x18, 0x8, 1, [⟨31, 0, .ro, 0⟩]⟩
  | .CMEM_UE_CNT => ⟨0x1c, 4, 0x20, 0x8, 1, [⟨31, 0, .ro, 0⟩]⟩
  | .SHM_UE_CNT => ⟨0x20, 4, 0x20, 0x8, 1, [⟨31, 0, .ro, 0⟩]⟩
  | .CMEM_SCRUB_CNT => ⟨0x1c, 4, 0x28, 0x8, 1, [⟨31, 0, .ro, 0⟩]⟩
  | .SHM_SCRUB_CNT => ⟨0x20, 4, 0x28, 0x8, 1, [⟨31, 0, .ro, 0⟩]⟩
  | .CMEM_CONFLICT_CNT => ⟨0x1c, 4, 0x30, 0x8, 1, [⟨47, 0, .ro, 0⟩]⟩
  | .SHM_CACHE_CFG => ⟨0x20, 4, 0x30, 0x8, 1, [⟨8, 8, .ro, 0⟩, ⟨3, 0, .rw, 0⟩]⟩
  | .SHM_CACHE_HIT_CNT => ⟨0x20, 4, 0x38, 0x8, 1, [⟨47, 0, .ro, 0⟩]⟩
  | .SHM_CACHE_MISS_CNT => ⟨0x20, 4, 0x40, 0x8, 1, [⟨47, 0, .ro, 0⟩]⟩
  | .SHM_CACHE_WB_CNT => ⟨0x20, 4, 0x48, 0x8, 1, [⟨47, 0, .ro, 0⟩]⟩
  | .DDR_CTRL => ⟨0x28, 8, 0x0, 0x8, 1, [⟨24, 24, .rwl, 0⟩, ⟨23, 16, .rwl, 0x18⟩, ⟨15, 8, .rwl, 0x10⟩,
    ⟨0, 0, .rwl, 0x1⟩]⟩
  | .DDR_CFG => ⟨0x28, 8, 0x8, 0x8, 1, [⟨33, 32, .ro, 0⟩, ⟨31, 16, .ro, 0⟩, ⟨8, 8, .ro, 0⟩, ⟨7, 4, .ro, 0⟩,
    ⟨3, 0, .ro, 0⟩]⟩
  | .DDR_ERR_STATUS => ⟨0x28, 8, 0x10, 0x8, 1, [⟨4, 4, .w1c, 0⟩, ⟨3, 3, .w1c, 0⟩, ⟨2, 2, .w1c, 0⟩,
    ⟨1, 1, .w1c, 0⟩, ⟨0, 0, .w1c, 0⟩]⟩
  | .DDR_ERR_ADDR => ⟨0x28, 8, 0x18, 0x8, 1, [⟨63, 56, .ro, 0⟩, ⟨55, 52, .ro, 0⟩, ⟨51, 51, .ro, 0⟩,
    ⟨49, 48, .ro, 0⟩, ⟨47, 0, .ro, 0⟩]⟩
  | .DDR_CH_CE_CNT => ⟨0x28, 8, 0x100, 0x20, 4, [⟨31, 0, .ro, 0⟩]⟩
  | .DDR_CH_UE_CNT => ⟨0x28, 8, 0x108, 0x20, 4, [⟨31, 0, .ro, 0⟩]⟩
  | .DDR_CH_ERASE => ⟨0x28, 8, 0x110, 0x20, 4, [⟨9, 9, .ro, 0⟩, ⟨8, 5, .ro, 0⟩, ⟨4, 4, .ro, 0⟩, ⟨3, 0, .ro, 0⟩]⟩
  | .FD_CTRL => ⟨0x10, 4, 0x0, 0x8, 1, [⟨8, 8, .rwl, 0⟩, ⟨1, 1, .rwl, 0x1⟩, ⟨0, 0, .rwl, 0x1⟩]⟩
  | .FD_STATUS => ⟨0x10, 4, 0x8, 0x8, 1, [⟨63, 32, .ro, 0⟩, ⟨31, 0, .ro, 0⟩]⟩
  | .FD_ERR_STATUS => ⟨0x10, 4, 0x10, 0x8, 1, [⟨3, 3, .w1c, 0⟩, ⟨2, 2, .w1c, 0⟩, ⟨1, 1, .w1c, 0⟩, ⟨0, 0, .w1c, 0⟩]⟩
  | .FD_CHAFF_INFO => ⟨0x10, 4, 0x18, 0x8, 1, [⟨63, 32, .ro, 0⟩, ⟨27, 24, .ro, 0⟩, ⟨19, 16, .ro, 0⟩,
    ⟨12, 8, .ro, 0⟩, ⟨7, 0, .ro, 0⟩]⟩
  | .FD_QTABLE => ⟨0x10, 4, 0x20, 0x8, 1, [⟨47, 0, .rw, 0⟩]⟩
  | .FD_STREAM_CNT => ⟨0x10, 4, 0x40, 0x8, 1, [⟨47, 0, .ro, 0⟩]⟩
  | .FD_BYTE_CNT => ⟨0x10, 4, 0x48, 0x8, 1, [⟨63, 0, .ro, 0⟩]⟩
  | .FD_STALL_CNT => ⟨0x10, 4, 0x50, 0x8, 1, [⟨47, 0, .ro, 0⟩]⟩
  | .FD_MCAST_CNT => ⟨0x10, 4, 0x58, 0x8, 1, [⟨47, 0, .ro, 0⟩]⟩
  | .FD_CHAFF_CNT => ⟨0x10, 4, 0x60, 0x8, 1, [⟨31, 0, .ro, 0⟩]⟩
  | .FD_FOREIGN_CNT => ⟨0x10, 4, 0x68, 0x8, 1, [⟨47, 0, .ro, 0⟩]⟩
  | .FD_COAL_CNT => ⟨0x10, 4, 0x70, 0x8, 1, [⟨47, 0, .ro, 0⟩]⟩
  | .FD_REFETCH_CNT => ⟨0x10, 4, 0x78, 0x8, 1, [⟨31, 0, .ro, 0⟩]⟩
  | .FD_FAULT_CNT => ⟨0x10, 4, 0x80, 0x8, 1, [⟨31, 0, .ro, 0⟩]⟩
  | .CTX_CTRL => ⟨0x4, 1, 0x0, 0x8, 1, [⟨8, 8, .rwl, 0⟩, ⟨0, 0, .rwl, 0x1⟩]⟩
  | .CTX_STATE => ⟨0x4, 1, 0x8, 0x8, 1, [⟨3, 0, .ro, 0x3⟩, ⟨7, 4, .ro, 0⟩, ⟨11, 8, .ro, 0⟩, ⟨15, 12, .ro, 0⟩,
    ⟨19, 16, .ro, 0⟩, ⟨23, 20, .ro, 0⟩, ⟨27, 24, .ro, 0⟩, ⟨31, 28, .ro, 0⟩, ⟨35, 32, .ro, 0⟩, ⟨39, 36, .ro, 0⟩,
    ⟨43, 40, .ro, 0⟩, ⟨47, 44, .ro, 0⟩, ⟨51, 48, .ro, 0⟩, ⟨55, 52, .ro, 0⟩, ⟨59, 56, .ro, 0⟩, ⟨63, 60, .ro, 0⟩]⟩
  | .CTX_CORE_RUN => ⟨0x4, 1, 0x10, 0x8, 1, [⟨19, 16, .ro, 0xf⟩, ⟨15, 0, .ro, 0⟩]⟩
  | .CTX_CMD => ⟨0x4, 1, 0x18, 0x8, 1, [⟨63, 63, .ro, 0⟩, ⟨17, 17, .wo, 0⟩, ⟨16, 16, .wo, 0⟩, ⟨3, 0, .wo, 0⟩]⟩
  | .CTX_RING_BASE => ⟨0x4, 1, 0x20, 0x8, 1, [⟨47, 14, .rwl, 0⟩]⟩
  | .CTX_RING_PTR => ⟨0x4, 1, 0x28, 0x8, 1, [⟨23, 16, .ro, 0⟩, ⟨7, 0, .rw, 0⟩]⟩
  | .CTX_ERR_STATUS => ⟨0x4, 1, 0x30, 0x8, 1, [⟨3, 3, .w1c, 0⟩, ⟨2, 2, .w1c, 0⟩, ⟨1, 1, .w1c, 0⟩, ⟨0, 0, .w1c, 0⟩]⟩
  | .CTX_PT_ROOT => ⟨0x4, 1, 0x100, 0x40, 16, [⟨47, 12, .rw, 0⟩, ⟨0, 0, .rw, 0⟩]⟩
  | .CTX_SAVE_BASE => ⟨0x4, 1, 0x108, 0x40, 16, [⟨47, 12, .rw, 0⟩]⟩
  | .CTX_FLAGS => ⟨0x4, 1, 0x110, 0x40, 16, [⟨15, 0, .w1c, 0⟩]⟩
  | .CTX_FAULT_CNT => ⟨0x4, 1, 0x118, 0x40, 16, [⟨63, 32, .ro, 0⟩, ⟨31, 0, .ro, 0⟩]⟩
  | .CTX_PREEMPT_CNT => ⟨0x4, 1, 0x120, 0x40, 16, [⟨31, 0, .ro, 0⟩]⟩
  | .CTX_FREC => ⟨0x4, 1, 0x800, 0x8, 128, [⟨63, 0, .ro, 0⟩]⟩
  | .WLK_CTRL => ⟨0x10, 4, 0x800, 0x8, 1, [⟨8, 8, .rwl, 0⟩, ⟨0, 0, .rwl, 0x1⟩]⟩
  | .WLK_STATUS => ⟨0x10, 4, 0x808, 0x8, 1, [⟨47, 24, .ro, 0⟩, ⟨23, 8, .ro, 0⟩, ⟨7, 4, .ro, 0⟩, ⟨1, 1, .ro, 0⟩,
    ⟨0, 0, .ro, 0⟩]⟩
  | .WLK_ERR_STATUS => ⟨0x10, 4, 0x810, 0x8, 1, [⟨3, 3, .w1c, 0⟩, ⟨2, 2, .w1c, 0⟩, ⟨1, 1, .w1c, 0⟩, ⟨0, 0, .w1c, 0⟩]⟩
  | .WLK_CHAFF_INFO => ⟨0x10, 4, 0x818, 0x8, 1, [⟨63, 32, .ro, 0⟩, ⟨27, 24, .ro, 0⟩, ⟨23, 20, .ro, 0⟩,
    ⟨19, 0, .ro, 0⟩]⟩
  | .WLK_AUDIT => ⟨0x10, 4, 0x820, 0x8, 1, [⟨63, 32, .rw, 0⟩, ⟨16, 16, .rw, 0⟩, ⟨15, 0, .rw, 0⟩]⟩
  | .WLK_AUDIT_SEED => ⟨0x10, 4, 0x828, 0x8, 1, [⟨63, 0, .rw, 0⟩]⟩
  | .WLK_ENTRY_CNT => ⟨0x10, 4, 0x830, 0x8, 1, [⟨47, 0, .ro, 0⟩]⟩
  | .WLK_EMPTY_CNT => ⟨0x10, 4, 0x838, 0x8, 1, [⟨47, 0, .ro, 0⟩]⟩
  | .WLK_ZF_CNT => ⟨0x10, 4, 0x840, 0x8, 1, [⟨31, 0, .ro, 0⟩]⟩
  | .WLK_ROUTE_CNT => ⟨0x10, 4, 0x848, 0x8, 1, [⟨47, 0, .ro, 0⟩]⟩
  | .WLK_CHAFF_CNT => ⟨0x10, 4, 0x850, 0x8, 1, [⟨31, 0, .ro, 0⟩]⟩
  | .WLK_SKIP_CNT => ⟨0x10, 4, 0x858, 0x8, 1, [⟨47, 0, .ro, 0⟩]⟩
  | .WLK_AUDIT_CNT => ⟨0x10, 4, 0x860, 0x8, 1, [⟨47, 0, .ro, 0⟩]⟩
  | .WLK_MISS_CNT => ⟨0x10, 4, 0x868, 0x8, 1, [⟨47, 0, .ro, 0⟩]⟩
  | .HD_CTRL => ⟨0x14, 4, 0x200, 0x8, 1, [⟨55, 40, .rwl, 0⟩, ⟨39, 32, .rwl, 0x20⟩, ⟨31, 24, .rwl, 0x10⟩,
    ⟨8, 8, .rwl, 0⟩, ⟨0, 0, .rwl, 0x1⟩]⟩
  | .HD_STATUS => ⟨0x14, 4, 0x208, 0x8, 1, [⟨32, 16, .ro, 0⟩, ⟨1, 1, .ro, 0⟩, ⟨0, 0, .ro, 0⟩]⟩
  | .HD_ERR_STATUS => ⟨0x14, 4, 0x210, 0x8, 1, [⟨3, 3, .w1c, 0⟩, ⟨2, 2, .w1c, 0⟩, ⟨1, 1, .w1c, 0⟩, ⟨0, 0, .w1c, 0⟩]⟩
  | .HD_PEAK => ⟨0x14, 4, 0x218, 0x8, 1, [⟨63, 48, .ro, 0⟩, ⟨47, 0, .ro, 0⟩]⟩
  | .HD_PUSH_CNT => ⟨0x14, 4, 0x220, 0x8, 1, [⟨47, 0, .ro, 0⟩]⟩
  | .HD_POP_CNT => ⟨0x14, 4, 0x228, 0x8, 1, [⟨47, 0, .ro, 0⟩]⟩
  | .HD_WB_BYTES => ⟨0x14, 4, 0x230, 0x8, 1, [⟨63, 0, .ro, 0⟩]⟩
  | .HD_PF_BYTES => ⟨0x14, 4, 0x238, 0x8, 1, [⟨63, 0, .ro, 0⟩]⟩
  | .HD_HOME_FETCH_CNT => ⟨0x14, 4, 0x240, 0x8, 1, [⟨31, 0, .ro, 0⟩]⟩
  | .WQ_CTRL => ⟨0x14, 4, 0x300, 0x8, 1, [⟨31, 16, .rwl, 0x100⟩, ⟨0, 0, .rwl, 0x1⟩]⟩
  | .WQ_CFG => ⟨0x14, 4, 0x308, 0x8, 1, [⟨2, 0, .rw, 0⟩]⟩
  | .WQ_STATUS => ⟨0x14, 4, 0x310, 0x8, 1, [⟨24, 16, .ro, 0⟩, ⟨1, 1, .ro, 0⟩, ⟨0, 0, .ro, 0⟩]⟩
  | .WQ_ERR_STATUS => ⟨0x14, 4, 0x318, 0x8, 1, [⟨2, 2, .w1c, 0⟩, ⟨1, 1, .w1c, 0⟩, ⟨0, 0, .w1c, 0⟩]⟩
  | .WQ_PUSH_CNT => ⟨0x14, 4, 0x320, 0x8, 1, [⟨47, 0, .ro, 0⟩]⟩
  | .WQ_BUBBLE_CNT => ⟨0x14, 4, 0x328, 0x8, 1, [⟨47, 0, .ro, 0⟩]⟩
  | .WQ_FULL_CNT => ⟨0x14, 4, 0x330, 0x8, 1, [⟨47, 0, .ro, 0⟩]⟩
  | .WQ_FLUSH_CNT => ⟨0x14, 4, 0x338, 0x8, 1, [⟨47, 0, .ro, 0⟩]⟩
  | .WQ_FROZEN_CNT => ⟨0x14, 4, 0x340, 0x8, 1, [⟨47, 0, .ro, 0⟩]⟩
  | .UPD_CTRL => ⟨0x14, 4, 0x400, 0x8, 1, [⟨8, 8, .rwl, 0⟩, ⟨0, 0, .rwl, 0x1⟩]⟩
  | .UPD_STATUS => ⟨0x14, 4, 0x408, 0x8, 1, [⟨63, 36, .ro, 0⟩, ⟨35, 20, .ro, 0⟩, ⟨3, 2, .ro, 0⟩, ⟨1, 1, .ro, 0⟩,
    ⟨0, 0, .ro, 0⟩]⟩
  | .UPD_ERR_STATUS => ⟨0x14, 4, 0x410, 0x8, 1, [⟨5, 5, .w1c, 0⟩, ⟨4, 4, .w1c, 0⟩, ⟨3, 3, .w1c, 0⟩,
    ⟨2, 2, .w1c, 0⟩, ⟨1, 1, .w1c, 0⟩, ⟨0, 0, .w1c, 0⟩]⟩
  | .UPD_GROUP_CNT => ⟨0x14, 4, 0x418, 0x8, 1, [⟨47, 0, .ro, 0⟩]⟩
  | .UPD_ELEM_CNT => ⟨0x14, 4, 0x420, 0x8, 1, [⟨63, 0, .ro, 0⟩]⟩
  | .UPD_SKIP_CNT => ⟨0x14, 4, 0x428, 0x8, 1, [⟨31, 0, .ro, 0⟩]⟩
  | .UPD_FROZEN_CNT => ⟨0x14, 4, 0x430, 0x8, 1, [⟨47, 0, .ro, 0⟩]⟩
  | .UPD_RECOMMIT_CNT => ⟨0x14, 4, 0x438, 0x8, 1, [⟨31, 0, .ro, 0⟩]⟩
  | .UPD_TORN_CNT => ⟨0x14, 4, 0x440, 0x8, 1, [⟨31, 0, .ro, 0⟩]⟩
  | .UPD_NONFINITE_CNT => ⟨0x14, 4, 0x448, 0x8, 1, [⟨47, 0, .ro, 0⟩]⟩
  | .COL_CTRL => ⟨0x1, 1, 0x0, 0x8, 1, [⟨8, 8, .rwl, 0⟩, ⟨0, 0, .rwl, 0x1⟩]⟩
  | .BAR_CTRL => ⟨0x2, 1, 0x0, 0x8, 1, [⟨47, 32, .rwl, 0x14⟩, ⟨8, 8, .rwl, 0⟩]⟩
  | .COL_STATUS => ⟨0x1, 1, 0x8, 0x8, 1, [⟨31, 16, .ro, 0⟩, ⟨15, 0, .ro, 0⟩]⟩
  | .BAR_STATUS => ⟨0x2, 1, 0x8, 0x8, 1, [⟨15, 0, .ro, 0⟩]⟩
  | .COL_ERR_STATUS => ⟨0x1, 1, 0x10, 0x8, 1, [⟨8, 8, .w1c, 0⟩, ⟨7, 7, .w1c, 0⟩, ⟨6, 6, .w1c, 0⟩, ⟨5, 5, .w1c, 0⟩,
    ⟨4, 4, .w1c, 0⟩, ⟨3, 3, .w1c, 0⟩, ⟨2, 2, .w1c, 0⟩, ⟨1, 1, .w1c, 0⟩, ⟨0, 0, .w1c, 0⟩]⟩
  | .BAR_CNT => ⟨0x2, 1, 0x10, 0x8, 1, [⟨47, 0, .ro, 0⟩]⟩
  | .COL_ERR_INFO => ⟨0x1, 1, 0x18, 0x8, 1, [⟨63, 48, .ro, 0⟩, ⟨47, 32, .ro, 0⟩, ⟨31, 30, .ro, 0⟩,
    ⟨23, 20, .ro, 0⟩, ⟨7, 0, .ro, 0⟩]⟩
  | .BAR_LATE_CNT => ⟨0x2, 1, 0x18, 0x8, 1, [⟨31, 0, .ro, 0⟩]⟩
  | .BAR_LAST_REL => ⟨0x2, 1, 0x20, 0x8, 1, [⟨63, 0, .ro, 0⟩]⟩
  | .COL_PLAN => ⟨0x1, 1, 0x100, 0x10, 16, [⟨54, 52, .ro, 0⟩, ⟨50, 48, .rw, 0⟩, ⟨47, 0, .rw, 0⟩]⟩
  | .COL_BKT => ⟨0x1, 1, 0x108, 0x10, 16, [⟨28, 28, .ro, 0⟩, ⟨27, 27, .ro, 0⟩, ⟨12, 0, .ro, 0⟩]⟩
  | .RHK_CTRL => ⟨0x30, 6, 0x0, 0x8, 1, [⟨47, 32, .rwl, 0xc8⟩, ⟨23, 16, .rwl, 0x4⟩, ⟨8, 8, .rwl, 0⟩,
    ⟨1, 1, .rwl, 0x1⟩, ⟨0, 0, .rwl, 0⟩]⟩
  | .RHK_DEV_ID => ⟨0x30, 6, 0x8, 0x8, 1, [⟨16, 16, .rwl, 0⟩, ⟨15, 0, .rwl, 0⟩]⟩
  | .RHK_ROUTE_BANK => ⟨0x30, 6, 0x10, 0x8, 1, [⟨0, 0, .rw, 0⟩]⟩
  | .RHK_ERR_STATUS => ⟨0x30, 6, 0x18, 0x8, 1, [⟨6, 6, .w1c, 0⟩, ⟨5, 5, .w1c, 0⟩, ⟨4, 4, .w1c, 0⟩,
    ⟨3, 3, .w1c, 0⟩, ⟨2, 2, .w1c, 0⟩, ⟨1, 1, .w1c, 0⟩, ⟨0, 0, .w1c, 0⟩]⟩
  | .RHK_ERR_INFO => ⟨0x30, 6, 0x20, 0x8, 1, [⟨63, 48, .ro, 0⟩, ⟨47, 32, .ro, 0⟩, ⟨28, 24, .ro, 0⟩,
    ⟨23, 20, .ro, 0⟩, ⟨2, 0, .ro, 0⟩]⟩
  | .RHK_SYNC => ⟨0x30, 6, 0x28, 0x8, 1, [⟨63, 48, .ro, 0⟩, ⟨47, 40, .ro, 0⟩, ⟨9, 9, .rwl, 0⟩, ⟨8, 8, .ro, 0⟩,
    ⟨4, 0, .ro, 0x1f⟩]⟩
  | .RHK_PORT_CTRL => ⟨0x30, 6, 0x1000, 0x100, 4, [⟨6, 4, .rwl, 0x1⟩, ⟨3, 3, .rw, 0x1⟩, ⟨2, 2, .rwl, 0x1⟩,
    ⟨1, 1, .wo, 0⟩, ⟨0, 0, .rwl, 0x1⟩]⟩
  | .RHK_PORT_STATUS => ⟨0x30, 6, 0x1008, 0x100, 4, [⟨63, 48, .ro, 0⟩, ⟨47, 47, .ro, 0⟩, ⟨44, 40, .ro, 0⟩,
    ⟨31, 16, .ro, 0⟩, ⟨5, 4, .ro, 0⟩, ⟨2, 0, .ro, 0⟩]⟩
  | .RHK_PORT_FEC_CNT => ⟨0x30, 6, 0x1010, 0x100, 4, [⟨63, 32, .ro, 0⟩, ⟨31, 0, .ro, 0⟩]⟩
  | .RHK_PORT_REPLAY_CNT => ⟨0x30, 6, 0x1018, 0x100, 4, [⟨31, 0, .ro, 0⟩]⟩
  | .RHK_PORT_FO_CNT => ⟨0x30, 6, 0x1020, 0x100, 4, [⟨31, 0, .ro, 0⟩]⟩
  | .RHK_PORT_DUP_CNT => ⟨0x30, 6, 0x1028, 0x100, 4, [⟨47, 0, .ro, 0⟩]⟩
  | .RHK_PORT_TX_BYTES => ⟨0x30, 6, 0x1030, 0x100, 4, [⟨63, 0, .ro, 0⟩]⟩
  | .RHK_PORT_RX_BYTES => ⟨0x30, 6, 0x1038, 0x100, 4, [⟨63, 0, .ro, 0⟩]⟩
  | .RHK_ROUTE => ⟨0x30, 6, 0x100000, 0x4, 131072, [⟨31, 31, .rw, 0⟩, ⟨30, 24, .rw, 0⟩, ⟨21, 21, .rw, 0⟩,
    ⟨20, 16, .rw, 0⟩, ⟨12, 8, .rw, 0⟩]⟩
  | .MBX_CTRL => ⟨0x40, 1, 0x0, 0x8, 1, [⟨8, 8, .rwl, 0⟩, ⟨0, 0, .rwl, 0x1⟩]⟩
  | .INT_CTRL => ⟨0x41, 1, 0x0, 0x8, 1, [⟨8, 8, .rwl, 0⟩]⟩
  | .MBX_NONEMPTY => ⟨0x40, 1, 0x8, 0x8, 1, [⟨63, 0, .ro, 0⟩]⟩
  | .INT_SUM => ⟨0x41, 1, 0x8, 0x8, 1, [⟨63, 0, .ro, 0⟩]⟩
  | .MBX_COLL => ⟨0x40, 1, 0x10, 0x8, 1, [⟨63, 0, .w1c, 0⟩]⟩
  | .INT_ALERT_EN => ⟨0x41, 1, 0x10, 0x8, 1, [⟨63, 0, .rwl, 0x2c400000000000⟩]⟩
  | .MBX_ERR_STATUS => ⟨0x40, 1, 0x18, 0x8, 1, [⟨2, 2, .w1c, 0⟩, ⟨1, 1, .w1c, 0⟩, ⟨0, 0, .w1c, 0⟩]⟩
  | .INT_ALERT => ⟨0x41, 1, 0x18, 0x8, 1, [⟨1, 1, .rw, 0⟩, ⟨0, 0, .ro, 0⟩]⟩
  | .MBX_ERR_INFO => ⟨0x40, 1, 0x20, 0x8, 1, [⟨23, 16, .ro, 0⟩, ⟨13, 8, .ro, 0⟩, ⟨2, 0, .ro, 0⟩]⟩
  | .INT_FW => ⟨0x41, 1, 0x20, 0x8, 1, [⟨5, 5, .rw, 0⟩, ⟨4, 4, .rw, 0⟩, ⟨3, 3, .rw, 0⟩, ⟨2, 2, .rw, 0⟩,
    ⟨1, 1, .rw, 0⟩, ⟨0, 0, .rw, 0⟩]⟩
  | .MBX_CMD => ⟨0x40, 1, 0x28, 0x8, 1, [⟨9, 8, .wo, 0⟩, ⟨5, 0, .wo, 0⟩]⟩
  | .INT_EN => ⟨0x41, 1, 0x40, 0x8, 4, [⟨63, 0, .rw, 0⟩]⟩
  | .MBX_BIND => ⟨0x40, 1, 0x100, 0x8, 64, [⟨63, 63, .rw, 0x1⟩, ⟨39, 36, .rw, 0⟩, ⟨35, 34, .rw, 0x1⟩,
    ⟨26, 22, .rw, 0⟩, ⟨21, 16, .rw, 0x1⟩, ⟨15, 8, .rw, 0⟩, ⟨7, 0, .rw, 0x20⟩]⟩
  | .INT_LEAF => ⟨0x41, 1, 0x100, 0x8, 64, [⟨63, 0, .ro, 0⟩]⟩
  | .MBX_PTR => ⟨0x40, 1, 0x300, 0x8, 64, [⟨63, 32, .ro, 0⟩, ⟨19, 16, .ro, 0⟩, ⟨11, 8, .ro, 0⟩, ⟨4, 0, .ro, 0⟩]⟩
  | .INT_LEAF_EN => ⟨0x41, 1, 0x300, 0x8, 64, [⟨63, 0, .rwl, 0xffffffffffffffff⟩]⟩
  | .MBX_DB => ⟨0x40, 1, 0x500, 0x8, 4, [⟨31, 0, .w1c, 0⟩]⟩
  | .MBX_DB_MASK => ⟨0x40, 1, 0x520, 0x8, 4, [⟨31, 0, .rw, 0⟩]⟩
  | .MBX_DB_SET => ⟨0x40, 1, 0x540, 0x8, 4, [⟨31, 0, .wo, 0⟩]⟩
  | .MBX_SEND => ⟨0x40, 1, 0x80000, 0x8, 128, [⟨63, 0, .rw, 0⟩]⟩
  | .MBX_RECV => ⟨0x40, 1, 0x80400, 0x8, 128, [⟨63, 0, .ro, 0⟩]⟩
  | .ETH_CTRL => ⟨0x44, 1, 0x0, 0x8, 1, [⟨47, 32, .rwl, 0x5a6d⟩, ⟨28, 24, .rwl, 0xe⟩, ⟨8, 8, .rwl, 0⟩,
    ⟨4, 4, .rwl, 0x1⟩, ⟨3, 3, .rwl, 0x1⟩, ⟨2, 2, .rwl, 0⟩, ⟨1, 1, .rwl, 0⟩, ⟨0, 0, .rwl, 0x1⟩]⟩
  | .ETH_STATUS => ⟨0x44, 1, 0x8, 0x8, 1, [⟨15, 8, .ro, 0⟩, ⟨2, 2, .ro, 0⟩, ⟨1, 1, .ro, 0⟩, ⟨0, 0, .ro, 0⟩]⟩
  | .ETH_ERR_STATUS => ⟨0x44, 1, 0x10, 0x8, 1, [⟨6, 6, .w1c, 0⟩, ⟨5, 5, .w1c, 0⟩, ⟨4, 4, .w1c, 0⟩,
    ⟨3, 3, .w1c, 0⟩, ⟨2, 2, .w1c, 0⟩, ⟨1, 1, .w1c, 0⟩, ⟨0, 0, .w1c, 0⟩]⟩
  | .ETH_ERR_INFO => ⟨0x44, 1, 0x18, 0x8, 1, [⟨63, 40, .ro, 0⟩, ⟨33, 24, .ro, 0⟩, ⟨23, 16, .ro, 0⟩,
    ⟨15, 12, .ro, 0⟩, ⟨2, 0, .ro, 0⟩]⟩
  | .ETH_PFC => ⟨0x44, 1, 0x20, 0x8, 1, [⟨47, 32, .rwl, 0x100⟩, ⟨31, 16, .rwl, 0x200⟩, ⟨7, 0, .rwl, 0x8⟩]⟩
  | .ETH_CC => ⟨0x44, 1, 0x28, 0x8, 1, [⟨31, 16, .rwl, 0x37⟩, ⟨15, 8, .rwl, 0x32⟩, ⟨0, 0, .rwl, 0x1⟩]⟩
  | .ETH_RX_BYTES => ⟨0x44, 1, 0x40, 0x8, 1, [⟨63, 0, .ro, 0⟩]⟩
  | .ETH_TX_BYTES => ⟨0x44, 1, 0x48, 0x8, 1, [⟨63, 0, .ro, 0⟩]⟩
  | .ETH_FEC_CNT => ⟨0x44, 1, 0x50, 0x8, 1, [⟨63, 32, .ro, 0⟩, ⟨31, 0, .ro, 0⟩]⟩
  | .ETH_DROP_CNT => ⟨0x44, 1, 0x58, 0x8, 1, [⟨47, 0, .ro, 0⟩]⟩
  | .ETH_NAK_CNT => ⟨0x44, 1, 0x60, 0x8, 1, [⟨63, 32, .ro, 0⟩, ⟨31, 0, .ro, 0⟩]⟩
  | .ETH_MGMT_CNT => ⟨0x44, 1, 0x68, 0x8, 1, [⟨63, 32, .ro, 0⟩, ⟨31, 0, .ro, 0⟩]⟩
  | .ETH_CNP_CNT => ⟨0x44, 1, 0x70, 0x8, 1, [⟨63, 32, .ro, 0⟩, ⟨31, 0, .ro, 0⟩]⟩
  | .ETH_QP => ⟨0x44, 1, 0x1000, 0x8, 1024, [⟨29, 24, .ro, 0x3f⟩, ⟨19, 16, .ro, 0⟩, ⟨15, 8, .ro, 0⟩, ⟨1, 0, .ro, 0⟩]⟩
  | .PWR_CTRL => ⟨0x42, 1, 0x0, 0x8, 1, [⟨31, 16, .rwl, 0x3e8⟩, ⟨8, 8, .rwl, 0⟩, ⟨1, 1, .rwl, 0x1⟩,
    ⟨0, 0, .rwl, 0x1⟩]⟩
  | .TEL_CTRL => ⟨0x43, 1, 0x0, 0x8, 1, [⟨8, 8, .rwl, 0⟩]⟩
  | .TB_CTRL => ⟨0x3, 1, 0x0, 0x8, 1, [⟨8, 8, .rwl, 0⟩]⟩
  | .PWR_CAP => ⟨0x42, 1, 0x8, 0x8, 1, [⟨8, 0, .rw, 0x140⟩]⟩
  | .TEL_THERM_CFG => ⟨0x43, 1, 0x8, 0x8, 1, [⟨23, 16, .rwl, 0x5f⟩, ⟨15, 8, .rwl, 0x5f⟩, ⟨7, 0, .rwl, 0x5a⟩]⟩
  | .TB_NOW => ⟨0x3, 1, 0x8, 0x8, 1, [⟨63, 0, .ro, 0⟩]⟩
  | .PWR_LOOP_CFG => ⟨0x42, 1, 0x10, 0x8, 1, [⟨63, 48, .rwl, 0xed8⟩, ⟨47, 40, .rwl, 0x16⟩, ⟨39, 36, .rwl, 0xc⟩,
    ⟨31, 16, .rwl, 0x3c⟩, ⟨15, 0, .rwl, 0x1e⟩]⟩
  | .TEL_ERR_STATUS => ⟨0x43, 1, 0x10, 0x8, 1, [⟨4, 4, .w1c, 0⟩, ⟨3, 3, .w1c, 0⟩, ⟨2, 2, .w1c, 0⟩,
    ⟨1, 1, .w1c, 0⟩, ⟨0, 0, .w1c, 0⟩]⟩
  | .TB_STATUS => ⟨0x3, 1, 0x10, 0x8, 1, [⟨63, 32, .ro, 0⟩, ⟨2, 2, .ro, 0⟩, ⟨1, 1, .ro, 0⟩, ⟨0, 0, .ro, 0⟩]⟩
  | .PWR_FREQ => ⟨0x42, 1, 0x18, 0x8, 1, [⟨11, 8, .rw, 0⟩, ⟨5, 0, .rw, 0x2c⟩]⟩
  | .TEL_MAX => ⟨0x43, 1, 0x18, 0x8, 1, [⟨23, 16, .ro, 0⟩, ⟨15, 0, .ro, 0⟩]⟩
  | .TB_STEP_NS => ⟨0x3, 1, 0x18, 0x8, 1, [⟨63, 0, .ro, 0⟩]⟩
  | .PWR_STATUS => ⟨0x42, 1, 0x20, 0x8, 1, [⟨63, 48, .ro, 0⟩, ⟨39, 32, .ro, 0⟩, ⟨31, 28, .ro, 0⟩, ⟨11, 8, .ro, 0⟩,
    ⟨5, 0, .ro, 0x2c⟩]⟩
  | .TEL_POST_STEP => ⟨0x43, 1, 0x20, 0x8, 1, [⟨63, 0, .ro, 0⟩]⟩
  | .PWR_ERR_STATUS => ⟨0x42, 1, 0x28, 0x8, 1, [⟨6, 6, .w1c, 0⟩, ⟨5, 5, .w1c, 0⟩, ⟨4, 4, .w1c, 0⟩,
    ⟨3, 3, .w1c, 0⟩, ⟨2, 2, .w1c, 0⟩, ⟨1, 1, .w1c, 0⟩, ⟨0, 0, .w1c, 0⟩]⟩
  | .TEL_POST_VAL => ⟨0x43, 1, 0x28, 0x8, 1, [⟨63, 32, .ro, 0⟩, ⟨31, 0, .ro, 0⟩]⟩
  | .PWR_EST => ⟨0x42, 1, 0x30, 0x8, 1, [⟨63, 32, .ro, 0⟩, ⟨31, 0, .ro, 0⟩]⟩
  | .TEL_POST_INFO => ⟨0x43, 1, 0x30, 0x8, 1, [⟨16, 16, .ro, 0⟩, ⟨11, 8, .ro, 0⟩, ⟨7, 0, .ro, 0⟩]⟩
  | .PWR_DROOP_CFG => ⟨0x42, 1, 0x38, 0x8, 1, [⟨7, 0, .rwl, 0x2d⟩]⟩
  | .TEL_SPIKE_CFG => ⟨0x43, 1, 0x38, 0x8, 1, [⟨63, 48, .rwl, 0x64⟩, ⟨39, 32, .rwl, 0x7⟩, ⟨31, 0, .rwl, 0x40c00000⟩]⟩
  | .PWR_ENERGY_TOTAL => ⟨0x42, 1, 0x40, 0x8, 1, [⟨63, 0, .ro, 0⟩]⟩
  | .TEL_SPIKE_REL => ⟨0x43, 1, 0x40, 0x8, 1, [⟨31, 0, .rwl, 0x3d4ccccd⟩]⟩
  | .PWR_FIXED => ⟨0x42, 1, 0x48, 0x8, 1, [⟨15, 0, .rwl, 0x3c⟩]⟩
  | .PWR_DROOP_CNT => ⟨0x42, 1, 0x50, 0x8, 1, [⟨31, 0, .ro, 0⟩]⟩
  | .PWR_W => ⟨0x42, 1, 0x100, 0x8, 7, [⟨31, 0, .rwl, 0⟩]⟩
  | .TEL_FLAG_CNT => ⟨0x43, 1, 0x100, 0x8, 6, [⟨47, 0, .ro, 0⟩]⟩
  | .PWR_LEAK => ⟨0x42, 1, 0x140, 0x8, 8, [⟨31, 16, .rwl, 0⟩, ⟨15, 0, .rwl, 0⟩]⟩
  | .PWR_THR_NS => ⟨0x42, 1, 0x208, 0x8, 7, [⟨63, 0, .ro, 0⟩]⟩
  | .TEL_SPIKE_STATE => ⟨0x43, 1, 0x200, 0x8, 64, [⟨63, 0, .ro, 0⟩]⟩
  | .PWR_THR_CNT => ⟨0x42, 1, 0x248, 0x8, 7, [⟨31, 0, .ro, 0⟩]⟩
  | .PWR_ENERGY => ⟨0x42, 1, 0x300, 0x8, 16, [⟨63, 0, .ro, 0⟩]⟩
  | .TEL_SENSOR => ⟨0x43, 1, 0x400, 0x8, 130, [⟨17, 17, .ro, 0⟩, ⟨16, 16, .ro, 0⟩, ⟨15, 0, .ro, 0⟩]⟩
  | .SCR_CTRL => ⟨0x49, 1, 0x0, 0x8, 1, [⟨47, 32, .rwl, 0x3e8⟩, ⟨23, 16, .rwl, 0x18⟩, ⟨8, 8, .rwl, 0⟩,
    ⟨0, 0, .rwl, 0x1⟩]⟩
  | .SCR_STATUS => ⟨0x49, 1, 0x8, 0x8, 1, [⟨47, 40, .ro, 0⟩, ⟨39, 32, .ro, 0⟩, ⟨19, 16, .ro, 0⟩, ⟨1, 0, .ro, 0⟩]⟩
  | .SCR_ERR_STATUS => ⟨0x49, 1, 0x10, 0x8, 1, [⟨7, 7, .w1c, 0⟩, ⟨6, 6, .w1c, 0⟩, ⟨5, 5, .w1c, 0⟩,
    ⟨4, 4, .w1c, 0⟩, ⟨3, 3, .w1c, 0⟩, ⟨2, 2, .w1c, 0⟩, ⟨1, 1, .w1c, 0⟩, ⟨0, 0, .w1c, 0⟩]⟩
  | .SCR_PACK => ⟨0x49, 1, 0x18, 0x8, 1, [⟨63, 32, .rw, 0⟩, ⟨0, 0, .rw, 0⟩]⟩
  | .SCR_RETIRED => ⟨0x49, 1, 0x20, 0x8, 1, [⟨23, 8, .rw, 0⟩, ⟨7, 0, .rw, 0⟩]⟩
  | .SCR_QUICK_CNT => ⟨0x49, 1, 0x40, 0x8, 1, [⟨31, 0, .ro, 0⟩]⟩
  | .SCR_FULL_CNT => ⟨0x49, 1, 0x48, 0x8, 1, [⟨31, 0, .ro, 0⟩]⟩
  | .SCR_FAIL_CNT => ⟨0x49, 1, 0x50, 0x8, 1, [⟨31, 0, .ro, 0⟩]⟩
  | .SCR_INCOMPLETE_CNT => ⟨0x49, 1, 0x58, 0x8, 1, [⟨31, 0, .ro, 0⟩]⟩
  | .SCR_SLICE_CNT => ⟨0x49, 1, 0x60, 0x8, 1, [⟨47, 0, .ro, 0⟩]⟩
  | .SCR_VE_RES_CNT => ⟨0x49, 1, 0x80, 0x8, 4, [⟨63, 32, .ro, 0⟩, ⟨31, 0, .ro, 0⟩]⟩
  | .SCR_LAST => ⟨0x49, 1, 0x100, 0x8, 8, [⟨63, 0, .ro, 0⟩]⟩
  | .RST_CTRL => ⟨0x48, 1, 0x0, 0x8, 1, [⟨8, 8, .rwl, 0⟩, ⟨3, 3, .rwl, 0x1⟩, ⟨2, 2, .rwl, 0⟩, ⟨1, 1, .rwl, 0x1⟩,
    ⟨0, 0, .rwl, 0x1⟩]⟩
  | .RST_WD_CFG => ⟨0x48, 1, 0x8, 0x8, 1, [⟨47, 32, .rwl, 0x7d0⟩, ⟨31, 16, .rwl, 0x3e8⟩, ⟨4, 0, .rwl, 0x18⟩]⟩
  | .RST_STATUS => ⟨0x48, 1, 0x10, 0x8, 1, [⟨15, 12, .ro, 0⟩, ⟨11, 11, .ro, 0⟩, ⟨2, 0, .ro, 0⟩]⟩
  | .RST_ERR_STATUS => ⟨0x48, 1, 0x18, 0x8, 1, [⟨4, 4, .w1c, 0⟩, ⟨3, 3, .w1c, 0⟩, ⟨2, 2, .w1c, 0⟩,
    ⟨1, 1, .w1c, 0⟩, ⟨0, 0, .w1c, 0⟩]⟩
  | .RST_LAST => ⟨0x48, 1, 0x20, 0x8, 1, [⟨63, 32, .ro, 0⟩, ⟨31, 16, .ro, 0⟩, ⟨15, 12, .ro, 0⟩, ⟨11, 11, .ro, 0⟩,
    ⟨7, 4, .ro, 0⟩, ⟨3, 0, .ro, 0⟩]⟩
  | .RST_CAUSE => ⟨0x48, 1, 0x28, 0x8, 1, [⟨1, 0, .ro, 0⟩]⟩
  | .RST_CP_KICK => ⟨0x48, 1, 0x30, 0x8, 1, [⟨63, 0, .wo, 0⟩]⟩
  | .RST_CR_CNT => ⟨0x48, 1, 0x40, 0x8, 1, [⟨31, 0, .ro, 0⟩]⟩
  | .RST_HANG_CNT => ⟨0x48, 1, 0x48, 0x8, 1, [⟨31, 0, .ro, 0⟩]⟩
  | .RST_FENCED_CNT => ⟨0x48, 1, 0x50, 0x8, 1, [⟨47, 0, .ro, 0⟩]⟩
  | .RST_DRAIN_ERR_CNT => ⟨0x48, 1, 0x58, 0x8, 1, [⟨47, 0, .ro, 0⟩]⟩
  | .RST_WD_COUNT => ⟨0x48, 1, 0x80, 0x8, 4, [⟨31, 0, .ro, 0⟩]⟩
  | .SEC_CTRL => ⟨0x45, 1, 0x0, 0x8, 1, [⟨8, 8, .rwl, 0⟩, ⟨0, 0, .rwl, 0x1⟩]⟩
  | .DBG_CTRL => ⟨0x47, 1, 0x0, 0x8, 1, [⟨8, 8, .rwl, 0⟩, ⟨1, 0, .rwl, 0⟩]⟩
  | .SEC_STATUS => ⟨0x45, 1, 0x8, 0x8, 1, [⟨9, 8, .ro, 0⟩, ⟨7, 7, .ro, 0⟩, ⟨6, 5, .ro, 0⟩, ⟨4, 4, .ro, 0⟩,
    ⟨3, 3, .ro, 0⟩, ⟨2, 2, .ro, 0⟩, ⟨1, 1, .ro, 0⟩, ⟨0, 0, .ro, 0⟩]⟩
  | .DBG_STATUS => ⟨0x47, 1, 0x8, 0x8, 1, [⟨2, 2, .ro, 0⟩, ⟨1, 0, .ro, 0⟩]⟩
  | .SEC_ERR_STATUS => ⟨0x45, 1, 0x10, 0x8, 1, [⟨6, 6, .w1c, 0⟩, ⟨5, 5, .w1c, 0⟩, ⟨4, 4, .w1c, 0⟩,
    ⟨3, 3, .w1c, 0⟩, ⟨2, 2, .w1c, 0⟩, ⟨1, 1, .w1c, 0⟩, ⟨0, 0, .w1c, 0⟩]⟩
  | .SEC_SVN => ⟨0x45, 1, 0x18, 0x8, 1, [⟨63, 32, .ro, 0⟩, ⟨31, 0, .ro, 0⟩]⟩
  | .SEC_IMG_HASH => ⟨0x45, 1, 0x40, 0x8, 4, [⟨63, 0, .ro, 0⟩]⟩
  | .DBG_CHALLENGE => ⟨0x47, 1, 0x40, 0x8, 4, [⟨63, 0, .ro, 0⟩]⟩
  | .SMB_CTRL => ⟨0x46, 1, 0x0, 0x8, 1, [⟨8, 8, .rwl, 0⟩, ⟨2, 2, .rwl, 0x1⟩, ⟨1, 1, .rwl, 0⟩, ⟨0, 0, .rwl, 0x1⟩]⟩
  | .SMB_STATUS => ⟨0x46, 1, 0x8, 0x8, 1, [⟨14, 8, .ro, 0⟩, ⟨1, 1, .ro, 0⟩, ⟨0, 0, .ro, 0⟩]⟩
  | .SMB_ERR_STATUS => ⟨0x46, 1, 0x10, 0x8, 1, [⟨4, 4, .w1c, 0⟩, ⟨3, 3, .w1c, 0⟩, ⟨2, 2, .w1c, 0⟩,
    ⟨1, 1, .w1c, 0⟩, ⟨0, 0, .w1c, 0⟩]⟩
  | .SMB_STRAP => ⟨0x46, 1, 0x18, 0x8, 1, [⟨15, 15, .ro, 0⟩, ⟨14, 12, .ro, 0⟩, ⟨11, 0, .ro, 0⟩]⟩
  | .SMB_MSG_CNT => ⟨0x46, 1, 0x40, 0x8, 1, [⟨63, 32, .ro, 0⟩, ⟨31, 0, .ro, 0⟩]⟩
  | .SMB_READ_CNT => ⟨0x46, 1, 0x48, 0x8, 1, [⟨31, 0, .ro, 0⟩]⟩
  | .DA_BUF_CE_CNT => ⟨0x8, 8, 0x88, 0x8, 1, [⟨31, 0, .ro, 0⟩]⟩
  | .DA_BUF_UE_CNT => ⟨0x8, 8, 0x90, 0x8, 1, [⟨31, 0, .ro, 0⟩]⟩
  | .COL_OP_CNT => ⟨0x1, 1, 0x40, 0x8, 1, [⟨47, 0, .ro, 0⟩]⟩
  | .COL_TX_BYTES => ⟨0x1, 1, 0x48, 0x8, 1, [⟨63, 0, .ro, 0⟩]⟩
  | .COL_RX_BYTES => ⟨0x1, 1, 0x50, 0x8, 1, [⟨63, 0, .ro, 0⟩]⟩
  | .COL_BUCKET_CNT => ⟨0x1, 1, 0x58, 0x8, 1, [⟨47, 0, .ro, 0⟩]⟩
  | .COL_FORCED_CNT => ⟨0x1, 1, 0x60, 0x8, 1, [⟨31, 0, .ro, 0⟩]⟩
  | .COL_NONFINITE_CNT => ⟨0x1, 1, 0x68, 0x8, 1, [⟨31, 0, .ro, 0⟩]⟩
  | .COL_RES_CNT => ⟨0x1, 1, 0x70, 0x8, 1, [⟨31, 0, .ro, 0⟩]⟩

/-- Part 0 of the list of registers. -/
def Reg.part0 : List Reg :=
  [.FAB_ID, .FAB_CTRL, .FAB_ERR_STATUS, .FAB_ERR_ADDR, .FAB_ERR_INFO, .FAB_LINK_STATUS, .FAB_LINK_PAR_CNT,
   .FAB_LINK_REPLAY_CNT, .FAB_LINK_REPLAY_NS, .DA_CTRL, .DA_CHK_TOL, .DA_STATUS, .DA_ERR_STATUS, .DA_RETIRE,
   .DA_PASS_CNT, .DA_CHK_FAIL_CNT, .DA_CHK_SKIP_CNT, .DA_ARB_CNT, .DA_FLAG_PASS, .DA_RAMP_CNT,
   .DA_SP_STATUS, .DA_SP_ERR, .DA_SP_CHAFF_CNT, .DA_SP_CHAFF_INFO, .GME_CTRL, .GME_STATUS, .GME_ERR_STATUS,
   .GME_CHAFF_INFO, .GME_OP_CNT, .GME_IDX_CNT, .GME_COAL_CNT, .GME_CHAFF_CNT, .GME_FOREIGN_CNT,
   .GME_RES_CNT, .GME_COMB_MISS_CNT, .GME_DUP_CNT, .VE_CTRL, .VE_STATUS, .VE_ERR_STATUS, .VE_OP_CNT,
   .VE_ELEM_CNT, .CMEM_CTRL, .SHM_CTRL, .CMEM_ERR_STATUS, .SHM_ERR_STATUS, .CMEM_ERR_ADDR]

/-- Part 1 of the list of registers. -/
def Reg.part1 : List Reg :=
  [.SHM_ERR_ADDR, .CMEM_CE_CNT, .SHM_CE_CNT, .CMEM_UE_CNT, .SHM_UE_CNT, .CMEM_SCRUB_CNT, .SHM_SCRUB_CNT,
   .CMEM_CONFLICT_CNT, .SHM_CACHE_CFG, .SHM_CACHE_HIT_CNT, .SHM_CACHE_MISS_CNT, .SHM_CACHE_WB_CNT,
   .DDR_CTRL, .DDR_CFG, .DDR_ERR_STATUS, .DDR_ERR_ADDR, .DDR_CH_CE_CNT, .DDR_CH_UE_CNT, .DDR_CH_ERASE,
   .FD_CTRL, .FD_STATUS, .FD_ERR_STATUS, .FD_CHAFF_INFO, .FD_QTABLE, .FD_STREAM_CNT, .FD_BYTE_CNT,
   .FD_STALL_CNT, .FD_MCAST_CNT, .FD_CHAFF_CNT, .FD_FOREIGN_CNT, .FD_COAL_CNT, .FD_REFETCH_CNT,
   .FD_FAULT_CNT, .CTX_CTRL, .CTX_STATE, .CTX_CORE_RUN, .CTX_CMD, .CTX_RING_BASE, .CTX_RING_PTR,
   .CTX_ERR_STATUS, .CTX_PT_ROOT, .CTX_SAVE_BASE, .CTX_FLAGS, .CTX_FAULT_CNT, .CTX_PREEMPT_CNT, .CTX_FREC]

/-- Part 2 of the list of registers. -/
def Reg.part2 : List Reg :=
  [.WLK_CTRL, .WLK_STATUS, .WLK_ERR_STATUS, .WLK_CHAFF_INFO, .WLK_AUDIT, .WLK_AUDIT_SEED, .WLK_ENTRY_CNT,
   .WLK_EMPTY_CNT, .WLK_ZF_CNT, .WLK_ROUTE_CNT, .WLK_CHAFF_CNT, .WLK_SKIP_CNT, .WLK_AUDIT_CNT,
   .WLK_MISS_CNT, .HD_CTRL, .HD_STATUS, .HD_ERR_STATUS, .HD_PEAK, .HD_PUSH_CNT, .HD_POP_CNT, .HD_WB_BYTES,
   .HD_PF_BYTES, .HD_HOME_FETCH_CNT, .WQ_CTRL, .WQ_CFG, .WQ_STATUS, .WQ_ERR_STATUS, .WQ_PUSH_CNT,
   .WQ_BUBBLE_CNT, .WQ_FULL_CNT, .WQ_FLUSH_CNT, .WQ_FROZEN_CNT, .UPD_CTRL, .UPD_STATUS, .UPD_ERR_STATUS,
   .UPD_GROUP_CNT, .UPD_ELEM_CNT, .UPD_SKIP_CNT, .UPD_FROZEN_CNT, .UPD_RECOMMIT_CNT, .UPD_TORN_CNT,
   .UPD_NONFINITE_CNT, .COL_CTRL, .BAR_CTRL, .COL_STATUS, .BAR_STATUS]

/-- Part 3 of the list of registers. -/
def Reg.part3 : List Reg :=
  [.COL_ERR_STATUS, .BAR_CNT, .COL_ERR_INFO, .BAR_LATE_CNT, .BAR_LAST_REL, .COL_PLAN, .COL_BKT, .RHK_CTRL,
   .RHK_DEV_ID, .RHK_ROUTE_BANK, .RHK_ERR_STATUS, .RHK_ERR_INFO, .RHK_SYNC, .RHK_PORT_CTRL,
   .RHK_PORT_STATUS, .RHK_PORT_FEC_CNT, .RHK_PORT_REPLAY_CNT, .RHK_PORT_FO_CNT, .RHK_PORT_DUP_CNT,
   .RHK_PORT_TX_BYTES, .RHK_PORT_RX_BYTES, .RHK_ROUTE, .MBX_CTRL, .INT_CTRL, .MBX_NONEMPTY, .INT_SUM,
   .MBX_COLL, .INT_ALERT_EN, .MBX_ERR_STATUS, .INT_ALERT, .MBX_ERR_INFO, .INT_FW, .MBX_CMD, .INT_EN,
   .MBX_BIND, .INT_LEAF, .MBX_PTR, .INT_LEAF_EN, .MBX_DB, .MBX_DB_MASK, .MBX_DB_SET, .MBX_SEND, .MBX_RECV,
   .ETH_CTRL, .ETH_STATUS, .ETH_ERR_STATUS]

/-- Part 4 of the list of registers. -/
def Reg.part4 : List Reg :=
  [.ETH_ERR_INFO, .ETH_PFC, .ETH_CC, .ETH_RX_BYTES, .ETH_TX_BYTES, .ETH_FEC_CNT, .ETH_DROP_CNT,
   .ETH_NAK_CNT, .ETH_MGMT_CNT, .ETH_CNP_CNT, .ETH_QP, .PWR_CTRL, .TEL_CTRL, .TB_CTRL, .PWR_CAP,
   .TEL_THERM_CFG, .TB_NOW, .PWR_LOOP_CFG, .TEL_ERR_STATUS, .TB_STATUS, .PWR_FREQ, .TEL_MAX, .TB_STEP_NS,
   .PWR_STATUS, .TEL_POST_STEP, .PWR_ERR_STATUS, .TEL_POST_VAL, .PWR_EST, .TEL_POST_INFO, .PWR_DROOP_CFG,
   .TEL_SPIKE_CFG, .PWR_ENERGY_TOTAL, .TEL_SPIKE_REL, .PWR_FIXED, .PWR_DROOP_CNT, .PWR_W, .TEL_FLAG_CNT,
   .PWR_LEAK, .PWR_THR_NS, .TEL_SPIKE_STATE, .PWR_THR_CNT, .PWR_ENERGY, .TEL_SENSOR, .SCR_CTRL, .SCR_STATUS,
   .SCR_ERR_STATUS]

/-- Part 5 of the list of registers. -/
def Reg.part5 : List Reg :=
  [.SCR_PACK, .SCR_RETIRED, .SCR_QUICK_CNT, .SCR_FULL_CNT, .SCR_FAIL_CNT, .SCR_INCOMPLETE_CNT,
   .SCR_SLICE_CNT, .SCR_VE_RES_CNT, .SCR_LAST, .RST_CTRL, .RST_WD_CFG, .RST_STATUS, .RST_ERR_STATUS,
   .RST_LAST, .RST_CAUSE, .RST_CP_KICK, .RST_CR_CNT, .RST_HANG_CNT, .RST_FENCED_CNT, .RST_DRAIN_ERR_CNT,
   .RST_WD_COUNT, .SEC_CTRL, .DBG_CTRL, .SEC_STATUS, .DBG_STATUS, .SEC_ERR_STATUS, .SEC_SVN, .SEC_IMG_HASH,
   .DBG_CHALLENGE, .SMB_CTRL, .SMB_STATUS, .SMB_ERR_STATUS, .SMB_STRAP, .SMB_MSG_CNT, .SMB_READ_CNT,
   .DA_BUF_CE_CNT, .DA_BUF_UE_CNT, .COL_OP_CNT, .COL_TX_BYTES, .COL_RX_BYTES, .COL_BUCKET_CNT,
   .COL_FORCED_CNT, .COL_NONFINITE_CNT, .COL_RES_CNT]

/-- Every register. -/
def Reg.all : List Reg := part0 ++ part1 ++ part2 ++ part3 ++ part4 ++ part5

/-! ### The fields, by name -/

namespace F

-- FAB_ID (01_package_and_fabric.md, R40)
/-- FAB_ID.part -/
def FAB_ID_part : Field := ⟨.FAB_ID, 47, 32⟩
/-- FAB_ID.stepping -/
def FAB_ID_stepping : Field := ⟨.FAB_ID, 31, 24⟩
/-- FAB_ID.die_count -/
def FAB_ID_die_count : Field := ⟨.FAB_ID, 23, 16⟩
/-- FAB_ID.link_count -/
def FAB_ID_link_count : Field := ⟨.FAB_ID, 15, 8⟩

-- FAB_CTRL (01_package_and_fabric.md, R40)
/-- FAB_CTRL.lock -/
def FAB_CTRL_lock : Field := ⟨.FAB_CTRL, 8, 8⟩
/-- FAB_CTRL.replay_limit -/
def FAB_CTRL_replay_limit : Field := ⟨.FAB_CTRL, 4, 0⟩

-- FAB_ERR_STATUS (01_package_and_fabric.md, R40)
/-- FAB_ERR_STATUS.path_err -/
def FAB_ERR_STATUS_path_err : Field := ⟨.FAB_ERR_STATUS, 4, 4⟩
/-- FAB_ERR_STATUS.access_err -/
def FAB_ERR_STATUS_access_err : Field := ⟨.FAB_ERR_STATUS, 3, 3⟩
/-- FAB_ERR_STATUS.decode_err -/
def FAB_ERR_STATUS_decode_err : Field := ⟨.FAB_ERR_STATUS, 2, 2⟩
/-- FAB_ERR_STATUS.bridge_failed -/
def FAB_ERR_STATUS_bridge_failed : Field := ⟨.FAB_ERR_STATUS, 1, 1⟩
/-- FAB_ERR_STATUS.parity_event -/
def FAB_ERR_STATUS_parity_event : Field := ⟨.FAB_ERR_STATUS, 0, 0⟩

-- FAB_ERR_ADDR (01_package_and_fabric.md, R40)
/-- FAB_ERR_ADDR.addr -/
def FAB_ERR_ADDR_addr : Field := ⟨.FAB_ERR_ADDR, 63, 0⟩

-- FAB_ERR_INFO (01_package_and_fabric.md, R40)
/-- FAB_ERR_INFO.master -/
def FAB_ERR_INFO_master : Field := ⟨.FAB_ERR_INFO, 31, 24⟩
/-- FAB_ERR_INFO.link -/
def FAB_ERR_INFO_link : Field := ⟨.FAB_ERR_INFO, 23, 16⟩
/-- FAB_ERR_INFO.context -/
def FAB_ERR_INFO_context : Field := ⟨.FAB_ERR_INFO, 11, 8⟩
/-- FAB_ERR_INFO.code -/
def FAB_ERR_INFO_code : Field := ⟨.FAB_ERR_INFO, 2, 0⟩

-- FAB_LINK_STATUS (01_package_and_fabric.md, R40)
/-- FAB_LINK_STATUS.train_count -/
def FAB_LINK_STATUS_train_count : Field := ⟨.FAB_LINK_STATUS, 31, 16⟩
/-- FAB_LINK_STATUS.state -/
def FAB_LINK_STATUS_state : Field := ⟨.FAB_LINK_STATUS, 1, 0⟩

-- FAB_LINK_PAR_CNT (01_package_and_fabric.md, R40)
/-- FAB_LINK_PAR_CNT.words -/
def FAB_LINK_PAR_CNT_words : Field := ⟨.FAB_LINK_PAR_CNT, 31, 0⟩

-- FAB_LINK_REPLAY_CNT (01_package_and_fabric.md, R40)
/-- FAB_LINK_REPLAY_CNT.replays -/
def FAB_LINK_REPLAY_CNT_replays : Field := ⟨.FAB_LINK_REPLAY_CNT, 31, 0⟩

-- FAB_LINK_REPLAY_NS (01_package_and_fabric.md, R40)
/-- FAB_LINK_REPLAY_NS.ns -/
def FAB_LINK_REPLAY_NS_ns : Field := ⟨.FAB_LINK_REPLAY_NS, 47, 0⟩

-- DA_CTRL (03_dense_arrays.md, R126)
/-- DA_CTRL.lock -/
def DA_CTRL_lock : Field := ⟨.DA_CTRL, 8, 8⟩
/-- DA_CTRL.stagger_en -/
def DA_CTRL_stagger_en : Field := ⟨.DA_CTRL, 2, 2⟩
/-- DA_CTRL.arb_en -/
def DA_CTRL_arb_en : Field := ⟨.DA_CTRL, 1, 1⟩
/-- DA_CTRL.chk_en -/
def DA_CTRL_chk_en : Field := ⟨.DA_CTRL, 0, 0⟩

-- DA_CHK_TOL (03_dense_arrays.md, R126)
/-- DA_CHK_TOL.t -/
def DA_CHK_TOL_t : Field := ⟨.DA_CHK_TOL, 3, 0⟩

-- DA_STATUS (03_dense_arrays.md, R126)
/-- DA_STATUS.block_valid -/
def DA_STATUS_block_valid : Field := ⟨.DA_STATUS, 23, 16⟩
/-- DA_STATUS.bank_suspect -/
def DA_STATUS_bank_suspect : Field := ⟨.DA_STATUS, 11, 10⟩
/-- DA_STATUS.bank_busy -/
def DA_STATUS_bank_busy : Field := ⟨.DA_STATUS, 9, 8⟩
/-- DA_STATUS.tile_valid -/
def DA_STATUS_tile_valid : Field := ⟨.DA_STATUS, 7, 4⟩
/-- DA_STATUS.state -/
def DA_STATUS_state : Field := ⟨.DA_STATUS, 2, 0⟩

-- DA_ERR_STATUS (03_dense_arrays.md, R126)
/-- DA_ERR_STATUS.operand_poison -/
def DA_ERR_STATUS_operand_poison : Field := ⟨.DA_ERR_STATUS, 5, 5⟩
/-- DA_ERR_STATUS.retired -/
def DA_ERR_STATUS_retired : Field := ⟨.DA_ERR_STATUS, 4, 4⟩
/-- DA_ERR_STATUS.arb_poison -/
def DA_ERR_STATUS_arb_poison : Field := ⟨.DA_ERR_STATUS, 3, 3⟩
/-- DA_ERR_STATUS.arb_array -/
def DA_ERR_STATUS_arb_array : Field := ⟨.DA_ERR_STATUS, 2, 2⟩
/-- DA_ERR_STATUS.arb_checker -/
def DA_ERR_STATUS_arb_checker : Field := ⟨.DA_ERR_STATUS, 1, 1⟩
/-- DA_ERR_STATUS.chk_fail -/
def DA_ERR_STATUS_chk_fail : Field := ⟨.DA_ERR_STATUS, 0, 0⟩

-- DA_RETIRE (03_dense_arrays.md, R126)
/-- DA_RETIRE.retire_cmd -/
def DA_RETIRE_retire_cmd : Field := ⟨.DA_RETIRE, 8, 8⟩
/-- DA_RETIRE.reason -/
def DA_RETIRE_reason : Field := ⟨.DA_RETIRE, 2, 1⟩
/-- DA_RETIRE.retired -/
def DA_RETIRE_retired : Field := ⟨.DA_RETIRE, 0, 0⟩

-- DA_PASS_CNT (03_dense_arrays.md, R126)
/-- DA_PASS_CNT.passes -/
def DA_PASS_CNT_passes : Field := ⟨.DA_PASS_CNT, 47, 0⟩

-- DA_CHK_FAIL_CNT (03_dense_arrays.md, R126)
/-- DA_CHK_FAIL_CNT.rows -/
def DA_CHK_FAIL_CNT_rows : Field := ⟨.DA_CHK_FAIL_CNT, 31, 0⟩

-- DA_CHK_SKIP_CNT (03_dense_arrays.md, R126)
/-- DA_CHK_SKIP_CNT.rows -/
def DA_CHK_SKIP_CNT_rows : Field := ⟨.DA_CHK_SKIP_CNT, 31, 0⟩

-- DA_ARB_CNT (03_dense_arrays.md, R126)
/-- DA_ARB_CNT.poison -/
def DA_ARB_CNT_poison : Field := ⟨.DA_ARB_CNT, 47, 32⟩
/-- DA_ARB_CNT.array -/
def DA_ARB_CNT_array : Field := ⟨.DA_ARB_CNT, 31, 16⟩
/-- DA_ARB_CNT.checker -/
def DA_ARB_CNT_checker : Field := ⟨.DA_ARB_CNT, 15, 0⟩

-- DA_FLAG_PASS (03_dense_arrays.md, R126)
/-- DA_FLAG_PASS.pass -/
def DA_FLAG_PASS_pass : Field := ⟨.DA_FLAG_PASS, 47, 0⟩

-- DA_RAMP_CNT (03_dense_arrays.md, R126)
/-- DA_RAMP_CNT.starts -/
def DA_RAMP_CNT_starts : Field := ⟨.DA_RAMP_CNT, 31, 0⟩

-- DA_SP_STATUS (04_structured_sparsity.md, R150)
/-- DA_SP_STATUS.slot3 -/
def DA_SP_STATUS_slot3 : Field := ⟨.DA_SP_STATUS, 15, 12⟩
/-- DA_SP_STATUS.slot2 -/
def DA_SP_STATUS_slot2 : Field := ⟨.DA_SP_STATUS, 11, 8⟩
/-- DA_SP_STATUS.slot1 -/
def DA_SP_STATUS_slot1 : Field := ⟨.DA_SP_STATUS, 7, 4⟩
/-- DA_SP_STATUS.slot0 -/
def DA_SP_STATUS_slot0 : Field := ⟨.DA_SP_STATUS, 3, 0⟩

-- DA_SP_ERR (04_structured_sparsity.md, R150)
/-- DA_SP_ERR.dx_nontransposable -/
def DA_SP_ERR_dx_nontransposable : Field := ⟨.DA_SP_ERR, 1, 1⟩
/-- DA_SP_ERR.chaff -/
def DA_SP_ERR_chaff : Field := ⟨.DA_SP_ERR, 0, 0⟩

-- DA_SP_CHAFF_CNT (04_structured_sparsity.md, R150)
/-- DA_SP_CHAFF_CNT.values -/
def DA_SP_CHAFF_CNT_values : Field := ⟨.DA_SP_CHAFF_CNT, 31, 0⟩

-- DA_SP_CHAFF_INFO (04_structured_sparsity.md, R150)
/-- DA_SP_CHAFF_INFO.position -/
def DA_SP_CHAFF_INFO_position : Field := ⟨.DA_SP_CHAFF_INFO, 42, 32⟩
/-- DA_SP_CHAFF_INFO.column -/
def DA_SP_CHAFF_INFO_column : Field := ⟨.DA_SP_CHAFF_INFO, 24, 16⟩
/-- DA_SP_CHAFF_INFO.context -/
def DA_SP_CHAFF_INFO_context : Field := ⟨.DA_SP_CHAFF_INFO, 11, 8⟩
/-- DA_SP_CHAFF_INFO.slot -/
def DA_SP_CHAFF_INFO_slot : Field := ⟨.DA_SP_CHAFF_INFO, 1, 0⟩

-- GME_CTRL (05_gather_merge_engines.md, R183)
/-- GME_CTRL.lock -/
def GME_CTRL_lock : Field := ⟨.GME_CTRL, 8, 8⟩
/-- GME_CTRL.res_en -/
def GME_CTRL_res_en : Field := ⟨.GME_CTRL, 1, 1⟩
/-- GME_CTRL.coal_en -/
def GME_CTRL_coal_en : Field := ⟨.GME_CTRL, 0, 0⟩

-- GME_STATUS (05_gather_merge_engines.md, R183)
/-- GME_STATUS.stopped -/
def GME_STATUS_stopped : Field := ⟨.GME_STATUS, 15, 8⟩
/-- GME_STATUS.busy -/
def GME_STATUS_busy : Field := ⟨.GME_STATUS, 7, 0⟩

-- GME_ERR_STATUS (05_gather_merge_engines.md, R183)
/-- GME_ERR_STATUS.illegal_op -/
def GME_ERR_STATUS_illegal_op : Field := ⟨.GME_ERR_STATUS, 5, 5⟩
/-- GME_ERR_STATUS.poison -/
def GME_ERR_STATUS_poison : Field := ⟨.GME_ERR_STATUS, 4, 4⟩
/-- GME_ERR_STATUS.residue_poison -/
def GME_ERR_STATUS_residue_poison : Field := ⟨.GME_ERR_STATUS, 3, 3⟩
/-- GME_ERR_STATUS.residue_replay -/
def GME_ERR_STATUS_residue_replay : Field := ⟨.GME_ERR_STATUS, 2, 2⟩
/-- GME_ERR_STATUS.comb_miss -/
def GME_ERR_STATUS_comb_miss : Field := ⟨.GME_ERR_STATUS, 1, 1⟩
/-- GME_ERR_STATUS.chaff -/
def GME_ERR_STATUS_chaff : Field := ⟨.GME_ERR_STATUS, 0, 0⟩

-- GME_CHAFF_INFO (05_gather_merge_engines.md, R183)
/-- GME_CHAFF_INFO.value -/
def GME_CHAFF_INFO_value : Field := ⟨.GME_CHAFF_INFO, 63, 32⟩
/-- GME_CHAFF_INFO.cause -/
def GME_CHAFF_INFO_cause : Field := ⟨.GME_CHAFF_INFO, 27, 24⟩
/-- GME_CHAFF_INFO.context -/
def GME_CHAFF_INFO_context : Field := ⟨.GME_CHAFF_INFO, 19, 16⟩
/-- GME_CHAFF_INFO.engine -/
def GME_CHAFF_INFO_engine : Field := ⟨.GME_CHAFF_INFO, 10, 8⟩
/-- GME_CHAFF_INFO.opcode -/
def GME_CHAFF_INFO_opcode : Field := ⟨.GME_CHAFF_INFO, 7, 0⟩

-- GME_OP_CNT (05_gather_merge_engines.md, R183)
/-- GME_OP_CNT.ops -/
def GME_OP_CNT_ops : Field := ⟨.GME_OP_CNT, 47, 0⟩

-- GME_IDX_CNT (05_gather_merge_engines.md, R183)
/-- GME_IDX_CNT.indices -/
def GME_IDX_CNT_indices : Field := ⟨.GME_IDX_CNT, 47, 0⟩

-- GME_COAL_CNT (05_gather_merge_engines.md, R183)
/-- GME_COAL_CNT.served -/
def GME_COAL_CNT_served : Field := ⟨.GME_COAL_CNT, 47, 0⟩

-- GME_CHAFF_CNT (05_gather_merge_engines.md, R183)
/-- GME_CHAFF_CNT.items -/
def GME_CHAFF_CNT_items : Field := ⟨.GME_CHAFF_CNT, 31, 0⟩

-- GME_FOREIGN_CNT (05_gather_merge_engines.md, R183)
/-- GME_FOREIGN_CNT.items -/
def GME_FOREIGN_CNT_items : Field := ⟨.GME_FOREIGN_CNT, 47, 0⟩

-- GME_RES_CNT (05_gather_merge_engines.md, R183)
/-- GME_RES_CNT.mismatches -/
def GME_RES_CNT_mismatches : Field := ⟨.GME_RES_CNT, 31, 0⟩

-- GME_COMB_MISS_CNT (05_gather_merge_engines.md, R183)
/-- GME_COMB_MISS_CNT.positions -/
def GME_COMB_MISS_CNT_positions : Field := ⟨.GME_COMB_MISS_CNT, 31, 0⟩

-- GME_DUP_CNT (05_gather_merge_engines.md, R183)
/-- GME_DUP_CNT.tags -/
def GME_DUP_CNT_tags : Field := ⟨.GME_DUP_CNT, 31, 0⟩

-- VE_CTRL (05_gather_merge_engines.md, R195)
/-- VE_CTRL.lock -/
def VE_CTRL_lock : Field := ⟨.VE_CTRL, 8, 8⟩
/-- VE_CTRL.pack_en -/
def VE_CTRL_pack_en : Field := ⟨.VE_CTRL, 0, 0⟩

-- VE_STATUS (05_gather_merge_engines.md, R195)
/-- VE_STATUS.stopped -/
def VE_STATUS_stopped : Field := ⟨.VE_STATUS, 7, 4⟩
/-- VE_STATUS.busy -/
def VE_STATUS_busy : Field := ⟨.VE_STATUS, 3, 0⟩

-- VE_ERR_STATUS (05_gather_merge_engines.md, R195)
/-- VE_ERR_STATUS.poison -/
def VE_ERR_STATUS_poison : Field := ⟨.VE_ERR_STATUS, 1, 1⟩
/-- VE_ERR_STATUS.illegal_op -/
def VE_ERR_STATUS_illegal_op : Field := ⟨.VE_ERR_STATUS, 0, 0⟩

-- VE_OP_CNT (05_gather_merge_engines.md, R195)
/-- VE_OP_CNT.ops -/
def VE_OP_CNT_ops : Field := ⟨.VE_OP_CNT, 47, 0⟩

-- VE_ELEM_CNT (05_gather_merge_engines.md, R195)
/-- VE_ELEM_CNT.elements -/
def VE_ELEM_CNT_elements : Field := ⟨.VE_ELEM_CNT, 63, 0⟩

-- CMEM_CTRL (06_memory_hierarchy.md, R239)
/-- CMEM_CTRL.lock -/
def CMEM_CTRL_lock : Field := ⟨.CMEM_CTRL, 8, 8⟩
/-- CMEM_CTRL.scrub_en -/
def CMEM_CTRL_scrub_en : Field := ⟨.CMEM_CTRL, 0, 0⟩

-- SHM_CTRL (06_memory_hierarchy.md, R239)
/-- SHM_CTRL.lock -/
def SHM_CTRL_lock : Field := ⟨.SHM_CTRL, 8, 8⟩
/-- SHM_CTRL.scrub_en -/
def SHM_CTRL_scrub_en : Field := ⟨.SHM_CTRL, 0, 0⟩

-- CMEM_ERR_STATUS (06_memory_hierarchy.md, R239)
/-- CMEM_ERR_STATUS.slot -/
def CMEM_ERR_STATUS_slot : Field := ⟨.CMEM_ERR_STATUS, 2, 2⟩
/-- CMEM_ERR_STATUS.ue -/
def CMEM_ERR_STATUS_ue : Field := ⟨.CMEM_ERR_STATUS, 1, 1⟩
/-- CMEM_ERR_STATUS.ce -/
def CMEM_ERR_STATUS_ce : Field := ⟨.CMEM_ERR_STATUS, 0, 0⟩

-- SHM_ERR_STATUS (06_memory_hierarchy.md, R239)
/-- SHM_ERR_STATUS.tag_fatal -/
def SHM_ERR_STATUS_tag_fatal : Field := ⟨.SHM_ERR_STATUS, 4, 4⟩
/-- SHM_ERR_STATUS.tag_ce -/
def SHM_ERR_STATUS_tag_ce : Field := ⟨.SHM_ERR_STATUS, 3, 3⟩
/-- SHM_ERR_STATUS.poison_written -/
def SHM_ERR_STATUS_poison_written : Field := ⟨.SHM_ERR_STATUS, 2, 2⟩
/-- SHM_ERR_STATUS.ue -/
def SHM_ERR_STATUS_ue : Field := ⟨.SHM_ERR_STATUS, 1, 1⟩
/-- SHM_ERR_STATUS.ce -/
def SHM_ERR_STATUS_ce : Field := ⟨.SHM_ERR_STATUS, 0, 0⟩

-- CMEM_ERR_ADDR (06_memory_hierarchy.md, R239)
/-- CMEM_ERR_ADDR.master -/
def CMEM_ERR_ADDR_master : Field := ⟨.CMEM_ERR_ADDR, 63, 56⟩
/-- CMEM_ERR_ADDR.context -/
def CMEM_ERR_ADDR_context : Field := ⟨.CMEM_ERR_ADDR, 55, 52⟩
/-- CMEM_ERR_ADDR.scrub -/
def CMEM_ERR_ADDR_scrub : Field := ⟨.CMEM_ERR_ADDR, 51, 51⟩
/-- CMEM_ERR_ADDR.addr -/
def CMEM_ERR_ADDR_addr : Field := ⟨.CMEM_ERR_ADDR, 47, 0⟩

-- SHM_ERR_ADDR (06_memory_hierarchy.md, R239)
/-- SHM_ERR_ADDR.master -/
def SHM_ERR_ADDR_master : Field := ⟨.SHM_ERR_ADDR, 63, 56⟩
/-- SHM_ERR_ADDR.context -/
def SHM_ERR_ADDR_context : Field := ⟨.SHM_ERR_ADDR, 55, 52⟩
/-- SHM_ERR_ADDR.scrub -/
def SHM_ERR_ADDR_scrub : Field := ⟨.SHM_ERR_ADDR, 51, 51⟩
/-- SHM_ERR_ADDR.addr -/
def SHM_ERR_ADDR_addr : Field := ⟨.SHM_ERR_ADDR, 47, 0⟩

-- CMEM_CE_CNT (06_memory_hierarchy.md, R239)
/-- CMEM_CE_CNT.words -/
def CMEM_CE_CNT_words : Field := ⟨.CMEM_CE_CNT, 31, 0⟩

-- SHM_CE_CNT (06_memory_hierarchy.md, R239)
/-- SHM_CE_CNT.words -/
def SHM_CE_CNT_words : Field := ⟨.SHM_CE_CNT, 31, 0⟩

-- CMEM_UE_CNT (06_memory_hierarchy.md, R239)
/-- CMEM_UE_CNT.words -/
def CMEM_UE_CNT_words : Field := ⟨.CMEM_UE_CNT, 31, 0⟩

-- SHM_UE_CNT (06_memory_hierarchy.md, R239)
/-- SHM_UE_CNT.words -/
def SHM_UE_CNT_words : Field := ⟨.SHM_UE_CNT, 31, 0⟩

-- CMEM_SCRUB_CNT (06_memory_hierarchy.md, R239)
/-- CMEM_SCRUB_CNT.passes -/
def CMEM_SCRUB_CNT_passes : Field := ⟨.CMEM_SCRUB_CNT, 31, 0⟩

-- SHM_SCRUB_CNT (06_memory_hierarchy.md, R239)
/-- SHM_SCRUB_CNT.passes -/
def SHM_SCRUB_CNT_passes : Field := ⟨.SHM_SCRUB_CNT, 31, 0⟩

-- CMEM_CONFLICT_CNT (06_memory_hierarchy.md, R239)
/-- CMEM_CONFLICT_CNT.cycles -/
def CMEM_CONFLICT_CNT_cycles : Field := ⟨.CMEM_CONFLICT_CNT, 47, 0⟩

-- SHM_CACHE_CFG (06_memory_hierarchy.md, R239)
/-- SHM_CACHE_CFG.busy -/
def SHM_CACHE_CFG_busy : Field := ⟨.SHM_CACHE_CFG, 8, 8⟩
/-- SHM_CACHE_CFG.steps -/
def SHM_CACHE_CFG_steps : Field := ⟨.SHM_CACHE_CFG, 3, 0⟩

-- SHM_CACHE_HIT_CNT (06_memory_hierarchy.md, R239)
/-- SHM_CACHE_HIT_CNT.lines -/
def SHM_CACHE_HIT_CNT_lines : Field := ⟨.SHM_CACHE_HIT_CNT, 47, 0⟩

-- SHM_CACHE_MISS_CNT (06_memory_hierarchy.md, R239)
/-- SHM_CACHE_MISS_CNT.lines -/
def SHM_CACHE_MISS_CNT_lines : Field := ⟨.SHM_CACHE_MISS_CNT, 47, 0⟩

-- SHM_CACHE_WB_CNT (06_memory_hierarchy.md, R239)
/-- SHM_CACHE_WB_CNT.lines -/
def SHM_CACHE_WB_CNT_lines : Field := ⟨.SHM_CACHE_WB_CNT, 47, 0⟩

-- DDR_CTRL (06_memory_hierarchy.md, R240)
/-- DDR_CTRL.lock -/
def DDR_CTRL_lock : Field := ⟨.DDR_CTRL, 24, 24⟩
/-- DDR_CTRL.patrol_hours -/
def DDR_CTRL_patrol_hours : Field := ⟨.DDR_CTRL, 23, 16⟩
/-- DDR_CTRL.erase_threshold -/
def DDR_CTRL_erase_threshold : Field := ⟨.DDR_CTRL, 15, 8⟩
/-- DDR_CTRL.erase_en -/
def DDR_CTRL_erase_en : Field := ⟨.DDR_CTRL, 0, 0⟩

-- DDR_CFG (06_memory_hierarchy.md, R240)
/-- DDR_CFG.rate -/
def DDR_CFG_rate : Field := ⟨.DDR_CFG, 33, 32⟩
/-- DDR_CFG.capacity -/
def DDR_CFG_capacity : Field := ⟨.DDR_CFG, 31, 16⟩
/-- DDR_CFG.fast -/
def DDR_CFG_fast : Field := ⟨.DDR_CFG, 8, 8⟩
/-- DDR_CFG.ranks -/
def DDR_CFG_ranks : Field := ⟨.DDR_CFG, 7, 4⟩
/-- DDR_CFG.trained -/
def DDR_CFG_trained : Field := ⟨.DDR_CFG, 3, 0⟩

-- DDR_ERR_STATUS (06_memory_hierarchy.md, R240)
/-- DDR_ERR_STATUS.train_fail -/
def DDR_ERR_STATUS_train_fail : Field := ⟨.DDR_ERR_STATUS, 4, 4⟩
/-- DDR_ERR_STATUS.device_erased -/
def DDR_ERR_STATUS_device_erased : Field := ⟨.DDR_ERR_STATUS, 3, 3⟩
/-- DDR_ERR_STATUS.poison_written -/
def DDR_ERR_STATUS_poison_written : Field := ⟨.DDR_ERR_STATUS, 2, 2⟩
/-- DDR_ERR_STATUS.ue -/
def DDR_ERR_STATUS_ue : Field := ⟨.DDR_ERR_STATUS, 1, 1⟩
/-- DDR_ERR_STATUS.ce -/
def DDR_ERR_STATUS_ce : Field := ⟨.DDR_ERR_STATUS, 0, 0⟩

-- DDR_ERR_ADDR (06_memory_hierarchy.md, R240)
/-- DDR_ERR_ADDR.master -/
def DDR_ERR_ADDR_master : Field := ⟨.DDR_ERR_ADDR, 63, 56⟩
/-- DDR_ERR_ADDR.context -/
def DDR_ERR_ADDR_context : Field := ⟨.DDR_ERR_ADDR, 55, 52⟩
/-- DDR_ERR_ADDR.patrol -/
def DDR_ERR_ADDR_patrol : Field := ⟨.DDR_ERR_ADDR, 51, 51⟩
/-- DDR_ERR_ADDR.channel -/
def DDR_ERR_ADDR_channel : Field := ⟨.DDR_ERR_ADDR, 49, 48⟩
/-- DDR_ERR_ADDR.addr -/
def DDR_ERR_ADDR_addr : Field := ⟨.DDR_ERR_ADDR, 47, 0⟩

-- DDR_CH_CE_CNT (06_memory_hierarchy.md, R240)
/-- DDR_CH_CE_CNT.codewords -/
def DDR_CH_CE_CNT_codewords : Field := ⟨.DDR_CH_CE_CNT, 31, 0⟩

-- DDR_CH_UE_CNT (06_memory_hierarchy.md, R240)
/-- DDR_CH_UE_CNT.codewords -/
def DDR_CH_UE_CNT_codewords : Field := ⟨.DDR_CH_UE_CNT, 31, 0⟩

-- DDR_CH_ERASE (06_memory_hierarchy.md, R240)
/-- DDR_CH_ERASE.erased1 -/
def DDR_CH_ERASE_erased1 : Field := ⟨.DDR_CH_ERASE, 9, 9⟩
/-- DDR_CH_ERASE.device1 -/
def DDR_CH_ERASE_device1 : Field := ⟨.DDR_CH_ERASE, 8, 5⟩
/-- DDR_CH_ERASE.erased0 -/
def DDR_CH_ERASE_erased0 : Field := ⟨.DDR_CH_ERASE, 4, 4⟩
/-- DDR_CH_ERASE.device0 -/
def DDR_CH_ERASE_device0 : Field := ⟨.DDR_CH_ERASE, 3, 0⟩

-- FD_CTRL (07_streams_descriptors_and_layouts.md, R283)
/-- FD_CTRL.lock -/
def FD_CTRL_lock : Field := ⟨.FD_CTRL, 8, 8⟩
/-- FD_CTRL.zl1_en -/
def FD_CTRL_zl1_en : Field := ⟨.FD_CTRL, 1, 1⟩
/-- FD_CTRL.coal_en -/
def FD_CTRL_coal_en : Field := ⟨.FD_CTRL, 0, 0⟩

-- FD_STATUS (07_streams_descriptors_and_layouts.md, R283)
/-- FD_STATUS.stalled -/
def FD_STATUS_stalled : Field := ⟨.FD_STATUS, 63, 32⟩
/-- FD_STATUS.active -/
def FD_STATUS_active : Field := ⟨.FD_STATUS, 31, 0⟩

-- FD_ERR_STATUS (07_streams_descriptors_and_layouts.md, R283)
/-- FD_ERR_STATUS.record_ovf -/
def FD_ERR_STATUS_record_ovf : Field := ⟨.FD_ERR_STATUS, 3, 3⟩
/-- FD_ERR_STATUS.poison -/
def FD_ERR_STATUS_poison : Field := ⟨.FD_ERR_STATUS, 2, 2⟩
/-- FD_ERR_STATUS.illegal_op -/
def FD_ERR_STATUS_illegal_op : Field := ⟨.FD_ERR_STATUS, 1, 1⟩
/-- FD_ERR_STATUS.chaff -/
def FD_ERR_STATUS_chaff : Field := ⟨.FD_ERR_STATUS, 0, 0⟩

-- FD_CHAFF_INFO (07_streams_descriptors_and_layouts.md, R283)
/-- FD_CHAFF_INFO.value -/
def FD_CHAFF_INFO_value : Field := ⟨.FD_CHAFF_INFO, 63, 32⟩
/-- FD_CHAFF_INFO.cause -/
def FD_CHAFF_INFO_cause : Field := ⟨.FD_CHAFF_INFO, 27, 24⟩
/-- FD_CHAFF_INFO.context -/
def FD_CHAFF_INFO_context : Field := ⟨.FD_CHAFF_INFO, 19, 16⟩
/-- FD_CHAFF_INFO.stream -/
def FD_CHAFF_INFO_stream : Field := ⟨.FD_CHAFF_INFO, 12, 8⟩
/-- FD_CHAFF_INFO.opcode -/
def FD_CHAFF_INFO_opcode : Field := ⟨.FD_CHAFF_INFO, 7, 0⟩

-- FD_QTABLE (07_streams_descriptors_and_layouts.md, R283)
/-- FD_QTABLE.addr -/
def FD_QTABLE_addr : Field := ⟨.FD_QTABLE, 47, 0⟩

-- FD_STREAM_CNT (07_streams_descriptors_and_layouts.md, R283)
/-- FD_STREAM_CNT.ops -/
def FD_STREAM_CNT_ops : Field := ⟨.FD_STREAM_CNT, 47, 0⟩

-- FD_BYTE_CNT (07_streams_descriptors_and_layouts.md, R283)
/-- FD_BYTE_CNT.bytes -/
def FD_BYTE_CNT_bytes : Field := ⟨.FD_BYTE_CNT, 63, 0⟩

-- FD_STALL_CNT (07_streams_descriptors_and_layouts.md, R283)
/-- FD_STALL_CNT.cycles -/
def FD_STALL_CNT_cycles : Field := ⟨.FD_STALL_CNT, 47, 0⟩

-- FD_MCAST_CNT (07_streams_descriptors_and_layouts.md, R283)
/-- FD_MCAST_CNT.images -/
def FD_MCAST_CNT_images : Field := ⟨.FD_MCAST_CNT, 47, 0⟩

-- FD_CHAFF_CNT (07_streams_descriptors_and_layouts.md, R283)
/-- FD_CHAFF_CNT.items -/
def FD_CHAFF_CNT_items : Field := ⟨.FD_CHAFF_CNT, 31, 0⟩

-- FD_FOREIGN_CNT (07_streams_descriptors_and_layouts.md, R283)
/-- FD_FOREIGN_CNT.items -/
def FD_FOREIGN_CNT_items : Field := ⟨.FD_FOREIGN_CNT, 47, 0⟩

-- FD_COAL_CNT (07_streams_descriptors_and_layouts.md, R283)
/-- FD_COAL_CNT.served -/
def FD_COAL_CNT_served : Field := ⟨.FD_COAL_CNT, 47, 0⟩

-- FD_REFETCH_CNT (07_streams_descriptors_and_layouts.md, R283)
/-- FD_REFETCH_CNT.units -/
def FD_REFETCH_CNT_units : Field := ⟨.FD_REFETCH_CNT, 31, 0⟩

-- FD_FAULT_CNT (07_streams_descriptors_and_layouts.md, R283)
/-- FD_FAULT_CNT.faults -/
def FD_FAULT_CNT_faults : Field := ⟨.FD_FAULT_CNT, 31, 0⟩

-- CTX_CTRL (08_jobs_contexts_and_translation.md, R314)
/-- CTX_CTRL.lock -/
def CTX_CTRL_lock : Field := ⟨.CTX_CTRL, 8, 8⟩
/-- CTX_CTRL.pf_en -/
def CTX_CTRL_pf_en : Field := ⟨.CTX_CTRL, 0, 0⟩

-- CTX_STATE (08_jobs_contexts_and_translation.md, R314)
/-- CTX_STATE.state0 -/
def CTX_STATE_state0 : Field := ⟨.CTX_STATE, 3, 0⟩
/-- CTX_STATE.state1 -/
def CTX_STATE_state1 : Field := ⟨.CTX_STATE, 7, 4⟩
/-- CTX_STATE.state2 -/
def CTX_STATE_state2 : Field := ⟨.CTX_STATE, 11, 8⟩
/-- CTX_STATE.state3 -/
def CTX_STATE_state3 : Field := ⟨.CTX_STATE, 15, 12⟩
/-- CTX_STATE.state4 -/
def CTX_STATE_state4 : Field := ⟨.CTX_STATE, 19, 16⟩
/-- CTX_STATE.state5 -/
def CTX_STATE_state5 : Field := ⟨.CTX_STATE, 23, 20⟩
/-- CTX_STATE.state6 -/
def CTX_STATE_state6 : Field := ⟨.CTX_STATE, 27, 24⟩
/-- CTX_STATE.state7 -/
def CTX_STATE_state7 : Field := ⟨.CTX_STATE, 31, 28⟩
/-- CTX_STATE.state8 -/
def CTX_STATE_state8 : Field := ⟨.CTX_STATE, 35, 32⟩
/-- CTX_STATE.state9 -/
def CTX_STATE_state9 : Field := ⟨.CTX_STATE, 39, 36⟩
/-- CTX_STATE.state10 -/
def CTX_STATE_state10 : Field := ⟨.CTX_STATE, 43, 40⟩
/-- CTX_STATE.state11 -/
def CTX_STATE_state11 : Field := ⟨.CTX_STATE, 47, 44⟩
/-- CTX_STATE.state12 -/
def CTX_STATE_state12 : Field := ⟨.CTX_STATE, 51, 48⟩
/-- CTX_STATE.state13 -/
def CTX_STATE_state13 : Field := ⟨.CTX_STATE, 55, 52⟩
/-- CTX_STATE.state14 -/
def CTX_STATE_state14 : Field := ⟨.CTX_STATE, 59, 56⟩
/-- CTX_STATE.state15 -/
def CTX_STATE_state15 : Field := ⟨.CTX_STATE, 63, 60⟩

-- CTX_CORE_RUN (08_jobs_contexts_and_translation.md, R314)
/-- CTX_CORE_RUN.idle -/
def CTX_CORE_RUN_idle : Field := ⟨.CTX_CORE_RUN, 19, 16⟩
/-- CTX_CORE_RUN.ctx -/
def CTX_CORE_RUN_ctx : Field := ⟨.CTX_CORE_RUN, 15, 0⟩

-- CTX_CMD (08_jobs_contexts_and_translation.md, R314)
/-- CTX_CMD.busy -/
def CTX_CMD_busy : Field := ⟨.CTX_CMD, 63, 63⟩
/-- CTX_CMD.frec_clr -/
def CTX_CMD_frec_clr : Field := ⟨.CTX_CMD, 17, 17⟩
/-- CTX_CMD.tlb_inv -/
def CTX_CMD_tlb_inv : Field := ⟨.CTX_CMD, 16, 16⟩
/-- CTX_CMD.context -/
def CTX_CMD_context : Field := ⟨.CTX_CMD, 3, 0⟩

-- CTX_RING_BASE (08_jobs_contexts_and_translation.md, R314)
/-- CTX_RING_BASE.base -/
def CTX_RING_BASE_base : Field := ⟨.CTX_RING_BASE, 47, 14⟩

-- CTX_RING_PTR (08_jobs_contexts_and_translation.md, R314)
/-- CTX_RING_PTR.tail -/
def CTX_RING_PTR_tail : Field := ⟨.CTX_RING_PTR, 23, 16⟩
/-- CTX_RING_PTR.head -/
def CTX_RING_PTR_head : Field := ⟨.CTX_RING_PTR, 7, 0⟩

-- CTX_ERR_STATUS (08_jobs_contexts_and_translation.md, R314)
/-- CTX_ERR_STATUS.ring_stall -/
def CTX_ERR_STATUS_ring_stall : Field := ⟨.CTX_ERR_STATUS, 3, 3⟩
/-- CTX_ERR_STATUS.page_fault -/
def CTX_ERR_STATUS_page_fault : Field := ⟨.CTX_ERR_STATUS, 2, 2⟩
/-- CTX_ERR_STATUS.fatal -/
def CTX_ERR_STATUS_fatal : Field := ⟨.CTX_ERR_STATUS, 1, 1⟩
/-- CTX_ERR_STATUS.poison -/
def CTX_ERR_STATUS_poison : Field := ⟨.CTX_ERR_STATUS, 0, 0⟩

-- CTX_PT_ROOT (08_jobs_contexts_and_translation.md, R314)
/-- CTX_PT_ROOT.root -/
def CTX_PT_ROOT_root : Field := ⟨.CTX_PT_ROOT, 47, 12⟩
/-- CTX_PT_ROOT.valid -/
def CTX_PT_ROOT_valid : Field := ⟨.CTX_PT_ROOT, 0, 0⟩

-- CTX_SAVE_BASE (08_jobs_contexts_and_translation.md, R314)
/-- CTX_SAVE_BASE.base -/
def CTX_SAVE_BASE_base : Field := ⟨.CTX_SAVE_BASE, 47, 12⟩

-- CTX_FLAGS (08_jobs_contexts_and_translation.md, R314)
/-- CTX_FLAGS.flags -/
def CTX_FLAGS_flags : Field := ⟨.CTX_FLAGS, 15, 0⟩

-- CTX_FAULT_CNT (08_jobs_contexts_and_translation.md, R314)
/-- CTX_FAULT_CNT.page -/
def CTX_FAULT_CNT_page : Field := ⟨.CTX_FAULT_CNT, 63, 32⟩
/-- CTX_FAULT_CNT.fatal -/
def CTX_FAULT_CNT_fatal : Field := ⟨.CTX_FAULT_CNT, 31, 0⟩

-- CTX_PREEMPT_CNT (08_jobs_contexts_and_translation.md, R314)
/-- CTX_PREEMPT_CNT.count -/
def CTX_PREEMPT_CNT_count : Field := ⟨.CTX_PREEMPT_CNT, 31, 0⟩

-- CTX_FREC (08_jobs_contexts_and_translation.md, R314)
/-- CTX_FREC.word -/
def CTX_FREC_word : Field := ⟨.CTX_FREC, 63, 0⟩

-- WLK_CTRL (09_conditional_computation.md, R353)
/-- WLK_CTRL.lock -/
def WLK_CTRL_lock : Field := ⟨.WLK_CTRL, 8, 8⟩
/-- WLK_CTRL.zf_en -/
def WLK_CTRL_zf_en : Field := ⟨.WLK_CTRL, 0, 0⟩

-- WLK_STATUS (09_conditional_computation.md, R353)
/-- WLK_STATUS.chunk -/
def WLK_STATUS_chunk : Field := ⟨.WLK_STATUS, 47, 24⟩
/-- WLK_STATUS.entry -/
def WLK_STATUS_entry : Field := ⟨.WLK_STATUS, 23, 8⟩
/-- WLK_STATUS.frames_busy -/
def WLK_STATUS_frames_busy : Field := ⟨.WLK_STATUS, 7, 4⟩
/-- WLK_STATUS.stopped -/
def WLK_STATUS_stopped : Field := ⟨.WLK_STATUS, 1, 1⟩
/-- WLK_STATUS.busy -/
def WLK_STATUS_busy : Field := ⟨.WLK_STATUS, 0, 0⟩

-- WLK_ERR_STATUS (09_conditional_computation.md, R353)
/-- WLK_ERR_STATUS.miss -/
def WLK_ERR_STATUS_miss : Field := ⟨.WLK_ERR_STATUS, 3, 3⟩
/-- WLK_ERR_STATUS.poison -/
def WLK_ERR_STATUS_poison : Field := ⟨.WLK_ERR_STATUS, 2, 2⟩
/-- WLK_ERR_STATUS.illegal -/
def WLK_ERR_STATUS_illegal : Field := ⟨.WLK_ERR_STATUS, 1, 1⟩
/-- WLK_ERR_STATUS.chaff -/
def WLK_ERR_STATUS_chaff : Field := ⟨.WLK_ERR_STATUS, 0, 0⟩

-- WLK_CHAFF_INFO (09_conditional_computation.md, R353)
/-- WLK_CHAFF_INFO.value -/
def WLK_CHAFF_INFO_value : Field := ⟨.WLK_CHAFF_INFO, 63, 32⟩
/-- WLK_CHAFF_INFO.k_rank -/
def WLK_CHAFF_INFO_k_rank : Field := ⟨.WLK_CHAFF_INFO, 27, 24⟩
/-- WLK_CHAFF_INFO.context -/
def WLK_CHAFF_INFO_context : Field := ⟨.WLK_CHAFF_INFO, 23, 20⟩
/-- WLK_CHAFF_INFO.row -/
def WLK_CHAFF_INFO_row : Field := ⟨.WLK_CHAFF_INFO, 19, 0⟩

-- WLK_AUDIT (09_conditional_computation.md, R353)
/-- WLK_AUDIT.thr -/
def WLK_AUDIT_thr : Field := ⟨.WLK_AUDIT, 63, 32⟩
/-- WLK_AUDIT.makeup -/
def WLK_AUDIT_makeup : Field := ⟨.WLK_AUDIT, 16, 16⟩
/-- WLK_AUDIT.rate -/
def WLK_AUDIT_rate : Field := ⟨.WLK_AUDIT, 15, 0⟩

-- WLK_AUDIT_SEED (09_conditional_computation.md, R353)
/-- WLK_AUDIT_SEED.seed -/
def WLK_AUDIT_SEED_seed : Field := ⟨.WLK_AUDIT_SEED, 63, 0⟩

-- WLK_ENTRY_CNT (09_conditional_computation.md, R353)
/-- WLK_ENTRY_CNT.entries -/
def WLK_ENTRY_CNT_entries : Field := ⟨.WLK_ENTRY_CNT, 47, 0⟩

-- WLK_EMPTY_CNT (09_conditional_computation.md, R353)
/-- WLK_EMPTY_CNT.entries -/
def WLK_EMPTY_CNT_entries : Field := ⟨.WLK_EMPTY_CNT, 47, 0⟩

-- WLK_ZF_CNT (09_conditional_computation.md, R353)
/-- WLK_ZF_CNT.fills -/
def WLK_ZF_CNT_fills : Field := ⟨.WLK_ZF_CNT, 31, 0⟩

-- WLK_ROUTE_CNT (09_conditional_computation.md, R353)
/-- WLK_ROUTE_CNT.pairs -/
def WLK_ROUTE_CNT_pairs : Field := ⟨.WLK_ROUTE_CNT, 47, 0⟩

-- WLK_CHAFF_CNT (09_conditional_computation.md, R353)
/-- WLK_CHAFF_CNT.pairs -/
def WLK_CHAFF_CNT_pairs : Field := ⟨.WLK_CHAFF_CNT, 31, 0⟩

-- WLK_SKIP_CNT (09_conditional_computation.md, R353)
/-- WLK_SKIP_CNT.blocks -/
def WLK_SKIP_CNT_blocks : Field := ⟨.WLK_SKIP_CNT, 47, 0⟩

-- WLK_AUDIT_CNT (09_conditional_computation.md, R353)
/-- WLK_AUDIT_CNT.blocks -/
def WLK_AUDIT_CNT_blocks : Field := ⟨.WLK_AUDIT_CNT, 47, 0⟩

-- WLK_MISS_CNT (09_conditional_computation.md, R353)
/-- WLK_MISS_CNT.blocks -/
def WLK_MISS_CNT_blocks : Field := ⟨.WLK_MISS_CNT, 47, 0⟩

-- HD_CTRL (10_backward_pass_and_hoard.md, R394)
/-- HD_CTRL.hd_rate -/
def HD_CTRL_hd_rate : Field := ⟨.HD_CTRL, 55, 40⟩
/-- HD_CTRL.pf_window -/
def HD_CTRL_pf_window : Field := ⟨.HD_CTRL, 39, 32⟩
/-- HD_CTRL.wb_ahead -/
def HD_CTRL_wb_ahead : Field := ⟨.HD_CTRL, 31, 24⟩
/-- HD_CTRL.lock -/
def HD_CTRL_lock : Field := ⟨.HD_CTRL, 8, 8⟩
/-- HD_CTRL.pf_en -/
def HD_CTRL_pf_en : Field := ⟨.HD_CTRL, 0, 0⟩

-- HD_STATUS (10_backward_pass_and_hoard.md, R394)
/-- HD_STATUS.live -/
def HD_STATUS_live : Field := ⟨.HD_STATUS, 32, 16⟩
/-- HD_STATUS.stopped -/
def HD_STATUS_stopped : Field := ⟨.HD_STATUS, 1, 1⟩
/-- HD_STATUS.busy -/
def HD_STATUS_busy : Field := ⟨.HD_STATUS, 0, 0⟩

-- HD_ERR_STATUS (10_backward_pass_and_hoard.md, R394)
/-- HD_ERR_STATUS.hoard_full -/
def HD_ERR_STATUS_hoard_full : Field := ⟨.HD_ERR_STATUS, 3, 3⟩
/-- HD_ERR_STATUS.poison -/
def HD_ERR_STATUS_poison : Field := ⟨.HD_ERR_STATUS, 2, 2⟩
/-- HD_ERR_STATUS.illegal -/
def HD_ERR_STATUS_illegal : Field := ⟨.HD_ERR_STATUS, 1, 1⟩
/-- HD_ERR_STATUS.bypass -/
def HD_ERR_STATUS_bypass : Field := ⟨.HD_ERR_STATUS, 0, 0⟩

-- HD_PEAK (10_backward_pass_and_hoard.md, R394)
/-- HD_PEAK.peak_live -/
def HD_PEAK_peak_live : Field := ⟨.HD_PEAK, 63, 48⟩
/-- HD_PEAK.peak_span -/
def HD_PEAK_peak_span : Field := ⟨.HD_PEAK, 47, 0⟩

-- HD_PUSH_CNT (10_backward_pass_and_hoard.md, R394)
/-- HD_PUSH_CNT.frames -/
def HD_PUSH_CNT_frames : Field := ⟨.HD_PUSH_CNT, 47, 0⟩

-- HD_POP_CNT (10_backward_pass_and_hoard.md, R394)
/-- HD_POP_CNT.frames -/
def HD_POP_CNT_frames : Field := ⟨.HD_POP_CNT, 47, 0⟩

-- HD_WB_BYTES (10_backward_pass_and_hoard.md, R394)
/-- HD_WB_BYTES.bytes -/
def HD_WB_BYTES_bytes : Field := ⟨.HD_WB_BYTES, 63, 0⟩

-- HD_PF_BYTES (10_backward_pass_and_hoard.md, R394)
/-- HD_PF_BYTES.bytes -/
def HD_PF_BYTES_bytes : Field := ⟨.HD_PF_BYTES, 63, 0⟩

-- HD_HOME_FETCH_CNT (10_backward_pass_and_hoard.md, R394)
/-- HD_HOME_FETCH_CNT.fetches -/
def HD_HOME_FETCH_CNT_fetches : Field := ⟨.HD_HOME_FETCH_CNT, 31, 0⟩

-- WQ_CTRL (10_backward_pass_and_hoard.md, R394)
/-- WQ_CTRL.bubble_cycles -/
def WQ_CTRL_bubble_cycles : Field := ⟨.WQ_CTRL, 31, 16⟩
/-- WQ_CTRL.drain_en -/
def WQ_CTRL_drain_en : Field := ⟨.WQ_CTRL, 0, 0⟩

-- WQ_CFG (10_backward_pass_and_hoard.md, R394)
/-- WQ_CFG.task -/
def WQ_CFG_task : Field := ⟨.WQ_CFG, 2, 0⟩

-- WQ_STATUS (10_backward_pass_and_hoard.md, R394)
/-- WQ_STATUS.entries -/
def WQ_STATUS_entries : Field := ⟨.WQ_STATUS, 24, 16⟩
/-- WQ_STATUS.flushing -/
def WQ_STATUS_flushing : Field := ⟨.WQ_STATUS, 1, 1⟩
/-- WQ_STATUS.issuing -/
def WQ_STATUS_issuing : Field := ⟨.WQ_STATUS, 0, 0⟩

-- WQ_ERR_STATUS (10_backward_pass_and_hoard.md, R394)
/-- WQ_ERR_STATUS.poison -/
def WQ_ERR_STATUS_poison : Field := ⟨.WQ_ERR_STATUS, 2, 2⟩
/-- WQ_ERR_STATUS.illegal -/
def WQ_ERR_STATUS_illegal : Field := ⟨.WQ_ERR_STATUS, 1, 1⟩
/-- WQ_ERR_STATUS.full -/
def WQ_ERR_STATUS_full : Field := ⟨.WQ_ERR_STATUS, 0, 0⟩

-- WQ_PUSH_CNT (10_backward_pass_and_hoard.md, R394)
/-- WQ_PUSH_CNT.entries -/
def WQ_PUSH_CNT_entries : Field := ⟨.WQ_PUSH_CNT, 47, 0⟩

-- WQ_BUBBLE_CNT (10_backward_pass_and_hoard.md, R394)
/-- WQ_BUBBLE_CNT.entries -/
def WQ_BUBBLE_CNT_entries : Field := ⟨.WQ_BUBBLE_CNT, 47, 0⟩

-- WQ_FULL_CNT (10_backward_pass_and_hoard.md, R394)
/-- WQ_FULL_CNT.entries -/
def WQ_FULL_CNT_entries : Field := ⟨.WQ_FULL_CNT, 47, 0⟩

-- WQ_FLUSH_CNT (10_backward_pass_and_hoard.md, R394)
/-- WQ_FLUSH_CNT.entries -/
def WQ_FLUSH_CNT_entries : Field := ⟨.WQ_FLUSH_CNT, 47, 0⟩

-- WQ_FROZEN_CNT (10_backward_pass_and_hoard.md, R394)
/-- WQ_FROZEN_CNT.pushes -/
def WQ_FROZEN_CNT_pushes : Field := ⟨.WQ_FROZEN_CNT, 47, 0⟩

-- UPD_CTRL (11_parameter_update.md, R428)
/-- UPD_CTRL.lock -/
def UPD_CTRL_lock : Field := ⟨.UPD_CTRL, 8, 8⟩
/-- UPD_CTRL.skip_en -/
def UPD_CTRL_skip_en : Field := ⟨.UPD_CTRL, 0, 0⟩

-- UPD_STATUS (11_parameter_update.md, R428)
/-- UPD_STATUS.block -/
def UPD_STATUS_block : Field := ⟨.UPD_STATUS, 63, 36⟩
/-- UPD_STATUS.group -/
def UPD_STATUS_group : Field := ⟨.UPD_STATUS, 35, 20⟩
/-- UPD_STATUS.phase -/
def UPD_STATUS_phase : Field := ⟨.UPD_STATUS, 3, 2⟩
/-- UPD_STATUS.stopped -/
def UPD_STATUS_stopped : Field := ⟨.UPD_STATUS, 1, 1⟩
/-- UPD_STATUS.busy -/
def UPD_STATUS_busy : Field := ⟨.UPD_STATUS, 0, 0⟩

-- UPD_ERR_STATUS (11_parameter_update.md, R428)
/-- UPD_ERR_STATUS.nonfinite_result -/
def UPD_ERR_STATUS_nonfinite_result : Field := ⟨.UPD_ERR_STATUS, 5, 5⟩
/-- UPD_ERR_STATUS.torn -/
def UPD_ERR_STATUS_torn : Field := ⟨.UPD_ERR_STATUS, 4, 4⟩
/-- UPD_ERR_STATUS.skip_spike -/
def UPD_ERR_STATUS_skip_spike : Field := ⟨.UPD_ERR_STATUS, 3, 3⟩
/-- UPD_ERR_STATUS.skip_nonfinite -/
def UPD_ERR_STATUS_skip_nonfinite : Field := ⟨.UPD_ERR_STATUS, 2, 2⟩
/-- UPD_ERR_STATUS.poison -/
def UPD_ERR_STATUS_poison : Field := ⟨.UPD_ERR_STATUS, 1, 1⟩
/-- UPD_ERR_STATUS.illegal -/
def UPD_ERR_STATUS_illegal : Field := ⟨.UPD_ERR_STATUS, 0, 0⟩

-- UPD_GROUP_CNT (11_parameter_update.md, R428)
/-- UPD_GROUP_CNT.groups -/
def UPD_GROUP_CNT_groups : Field := ⟨.UPD_GROUP_CNT, 47, 0⟩

-- UPD_ELEM_CNT (11_parameter_update.md, R428)
/-- UPD_ELEM_CNT.elements -/
def UPD_ELEM_CNT_elements : Field := ⟨.UPD_ELEM_CNT, 63, 0⟩

-- UPD_SKIP_CNT (11_parameter_update.md, R428)
/-- UPD_SKIP_CNT.steps -/
def UPD_SKIP_CNT_steps : Field := ⟨.UPD_SKIP_CNT, 31, 0⟩

-- UPD_FROZEN_CNT (11_parameter_update.md, R428)
/-- UPD_FROZEN_CNT.groups -/
def UPD_FROZEN_CNT_groups : Field := ⟨.UPD_FROZEN_CNT, 47, 0⟩

-- UPD_RECOMMIT_CNT (11_parameter_update.md, R428)
/-- UPD_RECOMMIT_CNT.groups -/
def UPD_RECOMMIT_CNT_groups : Field := ⟨.UPD_RECOMMIT_CNT, 31, 0⟩

-- UPD_TORN_CNT (11_parameter_update.md, R428)
/-- UPD_TORN_CNT.groups -/
def UPD_TORN_CNT_groups : Field := ⟨.UPD_TORN_CNT, 31, 0⟩

-- UPD_NONFINITE_CNT (11_parameter_update.md, R428)
/-- UPD_NONFINITE_CNT.elements -/
def UPD_NONFINITE_CNT_elements : Field := ⟨.UPD_NONFINITE_CNT, 47, 0⟩

-- COL_CTRL (12_collectives_and_gradient_reduction.md, R462)
/-- COL_CTRL.lock -/
def COL_CTRL_lock : Field := ⟨.COL_CTRL, 8, 8⟩
/-- COL_CTRL.res_en -/
def COL_CTRL_res_en : Field := ⟨.COL_CTRL, 0, 0⟩

-- BAR_CTRL (12_collectives_and_gradient_reduction.md, R462)
/-- BAR_CTRL.rel_delay -/
def BAR_CTRL_rel_delay : Field := ⟨.BAR_CTRL, 47, 32⟩
/-- BAR_CTRL.lock -/
def BAR_CTRL_lock : Field := ⟨.BAR_CTRL, 8, 8⟩

-- COL_STATUS (12_collectives_and_gradient_reduction.md, R462)
/-- COL_STATUS.held -/
def COL_STATUS_held : Field := ⟨.COL_STATUS, 31, 16⟩
/-- COL_STATUS.busy -/
def COL_STATUS_busy : Field := ⟨.COL_STATUS, 15, 0⟩

-- BAR_STATUS (12_collectives_and_gradient_reduction.md, R462)
/-- BAR_STATUS.waiting -/
def BAR_STATUS_waiting : Field := ⟨.BAR_STATUS, 15, 0⟩

-- COL_ERR_STATUS (12_collectives_and_gradient_reduction.md, R462)
/-- COL_ERR_STATUS.nonfinite -/
def COL_ERR_STATUS_nonfinite : Field := ⟨.COL_ERR_STATUS, 8, 8⟩
/-- COL_ERR_STATUS.stray -/
def COL_ERR_STATUS_stray : Field := ⟨.COL_ERR_STATUS, 7, 7⟩
/-- COL_ERR_STATUS.overfill -/
def COL_ERR_STATUS_overfill : Field := ⟨.COL_ERR_STATUS, 6, 6⟩
/-- COL_ERR_STATUS.forced -/
def COL_ERR_STATUS_forced : Field := ⟨.COL_ERR_STATUS, 5, 5⟩
/-- COL_ERR_STATUS.poison -/
def COL_ERR_STATUS_poison : Field := ⟨.COL_ERR_STATUS, 4, 4⟩
/-- COL_ERR_STATUS.residue_poison -/
def COL_ERR_STATUS_residue_poison : Field := ⟨.COL_ERR_STATUS, 3, 3⟩
/-- COL_ERR_STATUS.residue_replay -/
def COL_ERR_STATUS_residue_replay : Field := ⟨.COL_ERR_STATUS, 2, 2⟩
/-- COL_ERR_STATUS.peer_lost -/
def COL_ERR_STATUS_peer_lost : Field := ⟨.COL_ERR_STATUS, 1, 1⟩
/-- COL_ERR_STATUS.mismatch -/
def COL_ERR_STATUS_mismatch : Field := ⟨.COL_ERR_STATUS, 0, 0⟩

-- BAR_CNT (12_collectives_and_gradient_reduction.md, R462)
/-- BAR_CNT.releases -/
def BAR_CNT_releases : Field := ⟨.BAR_CNT, 47, 0⟩

-- COL_ERR_INFO (12_collectives_and_gradient_reduction.md, R462)
/-- COL_ERR_INFO.source -/
def COL_ERR_INFO_source : Field := ⟨.COL_ERR_INFO, 63, 48⟩
/-- COL_ERR_INFO.group -/
def COL_ERR_INFO_group : Field := ⟨.COL_ERR_INFO, 47, 32⟩
/-- COL_ERR_INFO.stream -/
def COL_ERR_INFO_stream : Field := ⟨.COL_ERR_INFO, 31, 30⟩
/-- COL_ERR_INFO.context -/
def COL_ERR_INFO_context : Field := ⟨.COL_ERR_INFO, 23, 20⟩
/-- COL_ERR_INFO.cause -/
def COL_ERR_INFO_cause : Field := ⟨.COL_ERR_INFO, 7, 0⟩

-- BAR_LATE_CNT (12_collectives_and_gradient_reduction.md, R462)
/-- BAR_LATE_CNT.releases -/
def BAR_LATE_CNT_releases : Field := ⟨.BAR_LATE_CNT, 31, 0⟩

-- BAR_LAST_REL (12_collectives_and_gradient_reduction.md, R462)
/-- BAR_LAST_REL.time -/
def BAR_LAST_REL_time : Field := ⟨.BAR_LAST_REL, 63, 0⟩

-- COL_PLAN (12_collectives_and_gradient_reduction.md, R462)
/-- COL_PLAN.active -/
def COL_PLAN_active : Field := ⟨.COL_PLAN, 54, 52⟩
/-- COL_PLAN.plans -/
def COL_PLAN_plans : Field := ⟨.COL_PLAN, 50, 48⟩
/-- COL_PLAN.addr -/
def COL_PLAN_addr : Field := ⟨.COL_PLAN, 47, 0⟩

-- COL_BKT (12_collectives_and_gradient_reduction.md, R462)
/-- COL_BKT.forcing -/
def COL_BKT_forcing : Field := ⟨.COL_BKT, 28, 28⟩
/-- COL_BKT.armed -/
def COL_BKT_armed : Field := ⟨.COL_BKT, 27, 27⟩
/-- COL_BKT.next -/
def COL_BKT_next : Field := ⟨.COL_BKT, 12, 0⟩

-- RHK_CTRL (13_rhanak_links_and_topology.md, R498)
/-- RHK_CTRL.e2e_timeout -/
def RHK_CTRL_e2e_timeout : Field := ⟨.RHK_CTRL, 47, 32⟩
/-- RHK_CTRL.down_time -/
def RHK_CTRL_down_time : Field := ⟨.RHK_CTRL, 23, 16⟩
/-- RHK_CTRL.lock -/
def RHK_CTRL_lock : Field := ⟨.RHK_CTRL, 8, 8⟩
/-- RHK_CTRL.fo_en -/
def RHK_CTRL_fo_en : Field := ⟨.RHK_CTRL, 1, 1⟩
/-- RHK_CTRL.route_en -/
def RHK_CTRL_route_en : Field := ⟨.RHK_CTRL, 0, 0⟩

-- RHK_DEV_ID (13_rhanak_links_and_topology.md, R498)
/-- RHK_DEV_ID.valid -/
def RHK_DEV_ID_valid : Field := ⟨.RHK_DEV_ID, 16, 16⟩
/-- RHK_DEV_ID.id -/
def RHK_DEV_ID_id : Field := ⟨.RHK_DEV_ID, 15, 0⟩

-- RHK_ROUTE_BANK (13_rhanak_links_and_topology.md, R498)
/-- RHK_ROUTE_BANK.bank -/
def RHK_ROUTE_BANK_bank : Field := ⟨.RHK_ROUTE_BANK, 0, 0⟩

-- RHK_ERR_STATUS (13_rhanak_links_and_topology.md, R498)
/-- RHK_ERR_STATUS.ttl_expired -/
def RHK_ERR_STATUS_ttl_expired : Field := ⟨.RHK_ERR_STATUS, 6, 6⟩
/-- RHK_ERR_STATUS.timeout -/
def RHK_ERR_STATUS_timeout : Field := ⟨.RHK_ERR_STATUS, 5, 5⟩
/-- RHK_ERR_STATUS.malformed -/
def RHK_ERR_STATUS_malformed : Field := ⟨.RHK_ERR_STATUS, 4, 4⟩
/-- RHK_ERR_STATUS.no_route -/
def RHK_ERR_STATUS_no_route : Field := ⟨.RHK_ERR_STATUS, 3, 3⟩
/-- RHK_ERR_STATUS.failover -/
def RHK_ERR_STATUS_failover : Field := ⟨.RHK_ERR_STATUS, 2, 2⟩
/-- RHK_ERR_STATUS.port_down -/
def RHK_ERR_STATUS_port_down : Field := ⟨.RHK_ERR_STATUS, 1, 1⟩
/-- RHK_ERR_STATUS.replay -/
def RHK_ERR_STATUS_replay : Field := ⟨.RHK_ERR_STATUS, 0, 0⟩

-- RHK_ERR_INFO (13_rhanak_links_and_topology.md, R498)
/-- RHK_ERR_INFO.dest -/
def RHK_ERR_INFO_dest : Field := ⟨.RHK_ERR_INFO, 63, 48⟩
/-- RHK_ERR_INFO.source -/
def RHK_ERR_INFO_source : Field := ⟨.RHK_ERR_INFO, 47, 32⟩
/-- RHK_ERR_INFO.port -/
def RHK_ERR_INFO_port : Field := ⟨.RHK_ERR_INFO, 28, 24⟩
/-- RHK_ERR_INFO.context -/
def RHK_ERR_INFO_context : Field := ⟨.RHK_ERR_INFO, 23, 20⟩
/-- RHK_ERR_INFO.code -/
def RHK_ERR_INFO_code : Field := ⟨.RHK_ERR_INFO, 2, 0⟩

-- RHK_SYNC (13_rhanak_links_and_topology.md, R498)
/-- RHK_SYNC.root -/
def RHK_SYNC_root : Field := ⟨.RHK_SYNC, 63, 48⟩
/-- RHK_SYNC.hops -/
def RHK_SYNC_hops : Field := ⟨.RHK_SYNC, 47, 40⟩
/-- RHK_SYNC.root_en -/
def RHK_SYNC_root_en : Field := ⟨.RHK_SYNC, 9, 9⟩
/-- RHK_SYNC.locked -/
def RHK_SYNC_locked : Field := ⟨.RHK_SYNC, 8, 8⟩
/-- RHK_SYNC.parent -/
def RHK_SYNC_parent : Field := ⟨.RHK_SYNC, 4, 0⟩

-- RHK_PORT_CTRL (13_rhanak_links_and_topology.md, R498)
/-- RHK_PORT_CTRL.role -/
def RHK_PORT_CTRL_role : Field := ⟨.RHK_PORT_CTRL, 6, 4⟩
/-- RHK_PORT_CTRL.ring_use -/
def RHK_PORT_CTRL_ring_use : Field := ⟨.RHK_PORT_CTRL, 3, 3⟩
/-- RHK_PORT_CTRL.x2_allow -/
def RHK_PORT_CTRL_x2_allow : Field := ⟨.RHK_PORT_CTRL, 2, 2⟩
/-- RHK_PORT_CTRL.retrain -/
def RHK_PORT_CTRL_retrain : Field := ⟨.RHK_PORT_CTRL, 1, 1⟩
/-- RHK_PORT_CTRL.enable -/
def RHK_PORT_CTRL_enable : Field := ⟨.RHK_PORT_CTRL, 0, 0⟩

-- RHK_PORT_STATUS (13_rhanak_links_and_topology.md, R498)
/-- RHK_PORT_STATUS.nb_id -/
def RHK_PORT_STATUS_nb_id : Field := ⟨.RHK_PORT_STATUS, 63, 48⟩
/-- RHK_PORT_STATUS.nb_valid -/
def RHK_PORT_STATUS_nb_valid : Field := ⟨.RHK_PORT_STATUS, 47, 47⟩
/-- RHK_PORT_STATUS.nb_port -/
def RHK_PORT_STATUS_nb_port : Field := ⟨.RHK_PORT_STATUS, 44, 40⟩
/-- RHK_PORT_STATUS.up_count -/
def RHK_PORT_STATUS_up_count : Field := ⟨.RHK_PORT_STATUS, 31, 16⟩
/-- RHK_PORT_STATUS.width -/
def RHK_PORT_STATUS_width : Field := ⟨.RHK_PORT_STATUS, 5, 4⟩
/-- RHK_PORT_STATUS.state -/
def RHK_PORT_STATUS_state : Field := ⟨.RHK_PORT_STATUS, 2, 0⟩

-- RHK_PORT_FEC_CNT (13_rhanak_links_and_topology.md, R498)
/-- RHK_PORT_FEC_CNT.uncorrected -/
def RHK_PORT_FEC_CNT_uncorrected : Field := ⟨.RHK_PORT_FEC_CNT, 63, 32⟩
/-- RHK_PORT_FEC_CNT.corrected -/
def RHK_PORT_FEC_CNT_corrected : Field := ⟨.RHK_PORT_FEC_CNT, 31, 0⟩

-- RHK_PORT_REPLAY_CNT (13_rhanak_links_and_topology.md, R498)
/-- RHK_PORT_REPLAY_CNT.replays -/
def RHK_PORT_REPLAY_CNT_replays : Field := ⟨.RHK_PORT_REPLAY_CNT, 31, 0⟩

-- RHK_PORT_FO_CNT (13_rhanak_links_and_topology.md, R498)
/-- RHK_PORT_FO_CNT.failovers -/
def RHK_PORT_FO_CNT_failovers : Field := ⟨.RHK_PORT_FO_CNT, 31, 0⟩

-- RHK_PORT_DUP_CNT (13_rhanak_links_and_topology.md, R498)
/-- RHK_PORT_DUP_CNT.packets -/
def RHK_PORT_DUP_CNT_packets : Field := ⟨.RHK_PORT_DUP_CNT, 47, 0⟩

-- RHK_PORT_TX_BYTES (13_rhanak_links_and_topology.md, R498)
/-- RHK_PORT_TX_BYTES.bytes -/
def RHK_PORT_TX_BYTES_bytes : Field := ⟨.RHK_PORT_TX_BYTES, 63, 0⟩

-- RHK_PORT_RX_BYTES (13_rhanak_links_and_topology.md, R498)
/-- RHK_PORT_RX_BYTES.bytes -/
def RHK_PORT_RX_BYTES_bytes : Field := ⟨.RHK_PORT_RX_BYTES, 63, 0⟩

-- RHK_ROUTE (13_rhanak_links_and_topology.md, R498)
/-- RHK_ROUTE.valid -/
def RHK_ROUTE_valid : Field := ⟨.RHK_ROUTE, 31, 31⟩
/-- RHK_ROUTE.mid -/
def RHK_ROUTE_mid : Field := ⟨.RHK_ROUTE, 30, 24⟩
/-- RHK_ROUTE.alt_en -/
def RHK_ROUTE_alt_en : Field := ⟨.RHK_ROUTE, 21, 21⟩
/-- RHK_ROUTE.alt -/
def RHK_ROUTE_alt : Field := ⟨.RHK_ROUTE, 20, 16⟩
/-- RHK_ROUTE.primary -/
def RHK_ROUTE_primary : Field := ⟨.RHK_ROUTE, 12, 8⟩

-- MBX_CTRL (14_control_mailboxes_and_interrupts.md, R528)
/-- MBX_CTRL.lock -/
def MBX_CTRL_lock : Field := ⟨.MBX_CTRL, 8, 8⟩
/-- MBX_CTRL.host_en -/
def MBX_CTRL_host_en : Field := ⟨.MBX_CTRL, 0, 0⟩

-- INT_CTRL (14_control_mailboxes_and_interrupts.md, R528)
/-- INT_CTRL.lock -/
def INT_CTRL_lock : Field := ⟨.INT_CTRL, 8, 8⟩

-- MBX_NONEMPTY (14_control_mailboxes_and_interrupts.md, R528)
/-- MBX_NONEMPTY.nonempty -/
def MBX_NONEMPTY_nonempty : Field := ⟨.MBX_NONEMPTY, 63, 0⟩

-- INT_SUM (14_control_mailboxes_and_interrupts.md, R528)
/-- INT_SUM.sum -/
def INT_SUM_sum : Field := ⟨.INT_SUM, 63, 0⟩

-- MBX_COLL (14_control_mailboxes_and_interrupts.md, R528)
/-- MBX_COLL.coll -/
def MBX_COLL_coll : Field := ⟨.MBX_COLL, 63, 0⟩

-- INT_ALERT_EN (14_control_mailboxes_and_interrupts.md, R528)
/-- INT_ALERT_EN.en -/
def INT_ALERT_EN_en : Field := ⟨.INT_ALERT_EN, 63, 0⟩

-- MBX_ERR_STATUS (14_control_mailboxes_and_interrupts.md, R528)
/-- MBX_ERR_STATUS.bind_violation -/
def MBX_ERR_STATUS_bind_violation : Field := ⟨.MBX_ERR_STATUS, 2, 2⟩
/-- MBX_ERR_STATUS.collision -/
def MBX_ERR_STATUS_collision : Field := ⟨.MBX_ERR_STATUS, 1, 1⟩
/-- MBX_ERR_STATUS.overlong -/
def MBX_ERR_STATUS_overlong : Field := ⟨.MBX_ERR_STATUS, 0, 0⟩

-- INT_ALERT (14_control_mailboxes_and_interrupts.md, R528)
/-- INT_ALERT.force -/
def INT_ALERT_force : Field := ⟨.INT_ALERT, 1, 1⟩
/-- INT_ALERT.asserted -/
def INT_ALERT_asserted : Field := ⟨.INT_ALERT, 0, 0⟩

-- MBX_ERR_INFO (14_control_mailboxes_and_interrupts.md, R528)
/-- MBX_ERR_INFO.sender -/
def MBX_ERR_INFO_sender : Field := ⟨.MBX_ERR_INFO, 23, 16⟩
/-- MBX_ERR_INFO.channel -/
def MBX_ERR_INFO_channel : Field := ⟨.MBX_ERR_INFO, 13, 8⟩
/-- MBX_ERR_INFO.port -/
def MBX_ERR_INFO_port : Field := ⟨.MBX_ERR_INFO, 2, 0⟩

-- INT_FW (14_control_mailboxes_and_interrupts.md, R528)
/-- INT_FW.board_msg -/
def INT_FW_board_msg : Field := ⟨.INT_FW, 5, 5⟩
/-- INT_FW.config_invalid -/
def INT_FW_config_invalid : Field := ⟨.INT_FW, 4, 4⟩
/-- INT_FW.image_fallback -/
def INT_FW_image_fallback : Field := ⟨.INT_FW, 3, 3⟩
/-- INT_FW.boot_fail -/
def INT_FW_boot_fail : Field := ⟨.INT_FW, 2, 2⟩
/-- INT_FW.screen_fail -/
def INT_FW_screen_fail : Field := ⟨.INT_FW, 1, 1⟩
/-- INT_FW.screen_done -/
def INT_FW_screen_done : Field := ⟨.INT_FW, 0, 0⟩

-- MBX_CMD (14_control_mailboxes_and_interrupts.md, R528)
/-- MBX_CMD.op -/
def MBX_CMD_op : Field := ⟨.MBX_CMD, 9, 8⟩
/-- MBX_CMD.channel -/
def MBX_CMD_channel : Field := ⟨.MBX_CMD, 5, 0⟩

-- INT_EN (14_control_mailboxes_and_interrupts.md, R528)
/-- INT_EN.en -/
def INT_EN_en : Field := ⟨.INT_EN, 63, 0⟩

-- MBX_BIND (14_control_mailboxes_and_interrupts.md, R528)
/-- MBX_BIND.valid -/
def MBX_BIND_valid : Field := ⟨.MBX_BIND, 63, 63⟩
/-- MBX_BIND.owner -/
def MBX_BIND_owner : Field := ⟨.MBX_BIND, 39, 36⟩
/-- MBX_BIND.privilege -/
def MBX_BIND_privilege : Field := ⟨.MBX_BIND, 35, 34⟩
/-- MBX_BIND.db_bit -/
def MBX_BIND_db_bit : Field := ⟨.MBX_BIND, 26, 22⟩
/-- MBX_BIND.reply -/
def MBX_BIND_reply : Field := ⟨.MBX_BIND, 21, 16⟩
/-- MBX_BIND.receiver -/
def MBX_BIND_receiver : Field := ⟨.MBX_BIND, 15, 8⟩
/-- MBX_BIND.sender -/
def MBX_BIND_sender : Field := ⟨.MBX_BIND, 7, 0⟩

-- INT_LEAF (14_control_mailboxes_and_interrupts.md, R528)
/-- INT_LEAF.leaves -/
def INT_LEAF_leaves : Field := ⟨.INT_LEAF, 63, 0⟩

-- MBX_PTR (14_control_mailboxes_and_interrupts.md, R528)
/-- MBX_PTR.overwrites -/
def MBX_PTR_overwrites : Field := ⟨.MBX_PTR, 63, 32⟩
/-- MBX_PTR.tail -/
def MBX_PTR_tail : Field := ⟨.MBX_PTR, 19, 16⟩
/-- MBX_PTR.head -/
def MBX_PTR_head : Field := ⟨.MBX_PTR, 11, 8⟩
/-- MBX_PTR.count -/
def MBX_PTR_count : Field := ⟨.MBX_PTR, 4, 0⟩

-- INT_LEAF_EN (14_control_mailboxes_and_interrupts.md, R528)
/-- INT_LEAF_EN.en -/
def INT_LEAF_EN_en : Field := ⟨.INT_LEAF_EN, 63, 0⟩

-- MBX_DB (14_control_mailboxes_and_interrupts.md, R528)
/-- MBX_DB.bits -/
def MBX_DB_bits : Field := ⟨.MBX_DB, 31, 0⟩

-- MBX_DB_MASK (14_control_mailboxes_and_interrupts.md, R528)
/-- MBX_DB_MASK.mask -/
def MBX_DB_MASK_mask : Field := ⟨.MBX_DB_MASK, 31, 0⟩

-- MBX_DB_SET (14_control_mailboxes_and_interrupts.md, R528)
/-- MBX_DB_SET.set -/
def MBX_DB_SET_set : Field := ⟨.MBX_DB_SET, 31, 0⟩

-- MBX_SEND (14_control_mailboxes_and_interrupts.md, R528)
/-- MBX_SEND.word -/
def MBX_SEND_word : Field := ⟨.MBX_SEND, 63, 0⟩

-- MBX_RECV (14_control_mailboxes_and_interrupts.md, R528)
/-- MBX_RECV.word -/
def MBX_RECV_word : Field := ⟨.MBX_RECV, 63, 0⟩

-- ETH_CTRL (15_host_ethernet_interface.md, R557)
/-- ETH_CTRL.mgmt_port -/
def ETH_CTRL_mgmt_port : Field := ⟨.ETH_CTRL, 47, 32⟩
/-- ETH_CTRL.rnr_timer -/
def ETH_CTRL_rnr_timer : Field := ⟨.ETH_CTRL, 28, 24⟩
/-- ETH_CTRL.lock -/
def ETH_CTRL_lock : Field := ⟨.ETH_CTRL, 8, 8⟩
/-- ETH_CTRL.lldp_en -/
def ETH_CTRL_lldp_en : Field := ⟨.ETH_CTRL, 4, 4⟩
/-- ETH_CTRL.mgmt_en -/
def ETH_CTRL_mgmt_en : Field := ⟨.ETH_CTRL, 3, 3⟩
/-- ETH_CTRL.vlan_en -/
def ETH_CTRL_vlan_en : Field := ⟨.ETH_CTRL, 2, 2⟩
/-- ETH_CTRL.ipv4_en -/
def ETH_CTRL_ipv4_en : Field := ⟨.ETH_CTRL, 1, 1⟩
/-- ETH_CTRL.ipv6_en -/
def ETH_CTRL_ipv6_en : Field := ⟨.ETH_CTRL, 0, 0⟩

-- ETH_STATUS (15_host_ethernet_interface.md, R557)
/-- ETH_STATUS.lanes -/
def ETH_STATUS_lanes : Field := ⟨.ETH_STATUS, 15, 8⟩
/-- ETH_STATUS.stopped -/
def ETH_STATUS_stopped : Field := ⟨.ETH_STATUS, 2, 2⟩
/-- ETH_STATUS.link_up -/
def ETH_STATUS_link_up : Field := ⟨.ETH_STATUS, 1, 1⟩
/-- ETH_STATUS.aligned -/
def ETH_STATUS_aligned : Field := ⟨.ETH_STATUS, 0, 0⟩

-- ETH_ERR_STATUS (15_host_ethernet_interface.md, R557)
/-- ETH_ERR_STATUS.qp_error -/
def ETH_ERR_STATUS_qp_error : Field := ⟨.ETH_ERR_STATUS, 6, 6⟩
/-- ETH_ERR_STATUS.poison_read -/
def ETH_ERR_STATUS_poison_read : Field := ⟨.ETH_ERR_STATUS, 5, 5⟩
/-- ETH_ERR_STATUS.icrc -/
def ETH_ERR_STATUS_icrc : Field := ⟨.ETH_ERR_STATUS, 4, 4⟩
/-- ETH_ERR_STATUS.mgmt_drop -/
def ETH_ERR_STATUS_mgmt_drop : Field := ⟨.ETH_ERR_STATUS, 3, 3⟩
/-- ETH_ERR_STATUS.fec_uncorrected -/
def ETH_ERR_STATUS_fec_uncorrected : Field := ⟨.ETH_ERR_STATUS, 2, 2⟩
/-- ETH_ERR_STATUS.link_down -/
def ETH_ERR_STATUS_link_down : Field := ⟨.ETH_ERR_STATUS, 1, 1⟩
/-- ETH_ERR_STATUS.nak_sent -/
def ETH_ERR_STATUS_nak_sent : Field := ⟨.ETH_ERR_STATUS, 0, 0⟩

-- ETH_ERR_INFO (15_host_ethernet_interface.md, R557)
/-- ETH_ERR_INFO.psn -/
def ETH_ERR_INFO_psn : Field := ⟨.ETH_ERR_INFO, 63, 40⟩
/-- ETH_ERR_INFO.qp -/
def ETH_ERR_INFO_qp : Field := ⟨.ETH_ERR_INFO, 33, 24⟩
/-- ETH_ERR_INFO.identity -/
def ETH_ERR_INFO_identity : Field := ⟨.ETH_ERR_INFO, 23, 16⟩
/-- ETH_ERR_INFO.context -/
def ETH_ERR_INFO_context : Field := ⟨.ETH_ERR_INFO, 15, 12⟩
/-- ETH_ERR_INFO.code -/
def ETH_ERR_INFO_code : Field := ⟨.ETH_ERR_INFO, 2, 0⟩

-- ETH_PFC (15_host_ethernet_interface.md, R557)
/-- ETH_PFC.xon -/
def ETH_PFC_xon : Field := ⟨.ETH_PFC, 47, 32⟩
/-- ETH_PFC.xoff -/
def ETH_PFC_xoff : Field := ⟨.ETH_PFC, 31, 16⟩
/-- ETH_PFC.pfc_en -/
def ETH_PFC_pfc_en : Field := ⟨.ETH_PFC, 7, 0⟩

-- ETH_CC (15_host_ethernet_interface.md, R557)
/-- ETH_CC.recovery -/
def ETH_CC_recovery : Field := ⟨.ETH_CC, 31, 16⟩
/-- ETH_CC.cnp_interval -/
def ETH_CC_cnp_interval : Field := ⟨.ETH_CC, 15, 8⟩
/-- ETH_CC.cc_en -/
def ETH_CC_cc_en : Field := ⟨.ETH_CC, 0, 0⟩

-- ETH_RX_BYTES (15_host_ethernet_interface.md, R557)
/-- ETH_RX_BYTES.bytes -/
def ETH_RX_BYTES_bytes : Field := ⟨.ETH_RX_BYTES, 63, 0⟩

-- ETH_TX_BYTES (15_host_ethernet_interface.md, R557)
/-- ETH_TX_BYTES.bytes -/
def ETH_TX_BYTES_bytes : Field := ⟨.ETH_TX_BYTES, 63, 0⟩

-- ETH_FEC_CNT (15_host_ethernet_interface.md, R557)
/-- ETH_FEC_CNT.uncorrected -/
def ETH_FEC_CNT_uncorrected : Field := ⟨.ETH_FEC_CNT, 63, 32⟩
/-- ETH_FEC_CNT.corrected -/
def ETH_FEC_CNT_corrected : Field := ⟨.ETH_FEC_CNT, 31, 0⟩

-- ETH_DROP_CNT (15_host_ethernet_interface.md, R557)
/-- ETH_DROP_CNT.frames -/
def ETH_DROP_CNT_frames : Field := ⟨.ETH_DROP_CNT, 47, 0⟩

-- ETH_NAK_CNT (15_host_ethernet_interface.md, R557)
/-- ETH_NAK_CNT.rnr -/
def ETH_NAK_CNT_rnr : Field := ⟨.ETH_NAK_CNT, 63, 32⟩
/-- ETH_NAK_CNT.nak -/
def ETH_NAK_CNT_nak : Field := ⟨.ETH_NAK_CNT, 31, 0⟩

-- ETH_MGMT_CNT (15_host_ethernet_interface.md, R557)
/-- ETH_MGMT_CNT.dropped -/
def ETH_MGMT_CNT_dropped : Field := ⟨.ETH_MGMT_CNT, 63, 32⟩
/-- ETH_MGMT_CNT.answered -/
def ETH_MGMT_CNT_answered : Field := ⟨.ETH_MGMT_CNT, 31, 0⟩

-- ETH_CNP_CNT (15_host_ethernet_interface.md, R557)
/-- ETH_CNP_CNT.received -/
def ETH_CNP_CNT_received : Field := ⟨.ETH_CNP_CNT, 63, 32⟩
/-- ETH_CNP_CNT.sent -/
def ETH_CNP_CNT_sent : Field := ⟨.ETH_CNP_CNT, 31, 0⟩

-- ETH_QP (15_host_ethernet_interface.md, R557)
/-- ETH_QP.rate -/
def ETH_QP_rate : Field := ⟨.ETH_QP, 29, 24⟩
/-- ETH_QP.context -/
def ETH_QP_context : Field := ⟨.ETH_QP, 19, 16⟩
/-- ETH_QP.identity -/
def ETH_QP_identity : Field := ⟨.ETH_QP, 15, 8⟩
/-- ETH_QP.state -/
def ETH_QP_state : Field := ⟨.ETH_QP, 1, 0⟩

-- PWR_CTRL (16_power_thermal_and_measurement.md, R587)
/-- PWR_CTRL.thr_event_min -/
def PWR_CTRL_thr_event_min : Field := ⟨.PWR_CTRL, 31, 16⟩
/-- PWR_CTRL.lock -/
def PWR_CTRL_lock : Field := ⟨.PWR_CTRL, 8, 8⟩
/-- PWR_CTRL.attr_en -/
def PWR_CTRL_attr_en : Field := ⟨.PWR_CTRL, 1, 1⟩
/-- PWR_CTRL.wd_en -/
def PWR_CTRL_wd_en : Field := ⟨.PWR_CTRL, 0, 0⟩

-- TEL_CTRL (16_power_thermal_and_measurement.md, R587)
/-- TEL_CTRL.lock -/
def TEL_CTRL_lock : Field := ⟨.TEL_CTRL, 8, 8⟩

-- TB_CTRL (16_power_thermal_and_measurement.md, R587)
/-- TB_CTRL.lock -/
def TB_CTRL_lock : Field := ⟨.TB_CTRL, 8, 8⟩

-- PWR_CAP (16_power_thermal_and_measurement.md, R587)
/-- PWR_CAP.cap -/
def PWR_CAP_cap : Field := ⟨.PWR_CAP, 8, 0⟩

-- TEL_THERM_CFG (16_power_thermal_and_measurement.md, R587)
/-- TEL_THERM_CFG.ddr_hot -/
def TEL_THERM_CFG_ddr_hot : Field := ⟨.TEL_THERM_CFG, 23, 16⟩
/-- TEL_THERM_CFG.t_hot -/
def TEL_THERM_CFG_t_hot : Field := ⟨.TEL_THERM_CFG, 15, 8⟩
/-- TEL_THERM_CFG.t_warn -/
def TEL_THERM_CFG_t_warn : Field := ⟨.TEL_THERM_CFG, 7, 0⟩

-- TB_NOW (16_power_thermal_and_measurement.md, R587)
/-- TB_NOW.ns -/
def TB_NOW_ns : Field := ⟨.TB_NOW, 63, 0⟩

-- PWR_LOOP_CFG (16_power_thermal_and_measurement.md, R587)
/-- PWR_LOOP_CFG.icc_max -/
def PWR_LOOP_CFG_icc_max : Field := ⟨.PWR_LOOP_CFG, 63, 48⟩
/-- PWR_LOOP_CFG.f_min -/
def PWR_LOOP_CFG_f_min : Field := ⟨.PWR_LOOP_CFG, 47, 40⟩
/-- PWR_LOOP_CFG.duty_max -/
def PWR_LOOP_CFG_duty_max : Field := ⟨.PWR_LOOP_CFG, 39, 36⟩
/-- PWR_LOOP_CFG.step_w -/
def PWR_LOOP_CFG_step_w : Field := ⟨.PWR_LOOP_CFG, 31, 16⟩
/-- PWR_LOOP_CFG.hyst -/
def PWR_LOOP_CFG_hyst : Field := ⟨.PWR_LOOP_CFG, 15, 0⟩

-- TEL_ERR_STATUS (16_power_thermal_and_measurement.md, R587)
/-- TEL_ERR_STATUS.spike -/
def TEL_ERR_STATUS_spike : Field := ⟨.TEL_ERR_STATUS, 4, 4⟩
/-- TEL_ERR_STATUS.sensor_fail -/
def TEL_ERR_STATUS_sensor_fail : Field := ⟨.TEL_ERR_STATUS, 3, 3⟩
/-- TEL_ERR_STATUS.ddr_hot -/
def TEL_ERR_STATUS_ddr_hot : Field := ⟨.TEL_ERR_STATUS, 2, 2⟩
/-- TEL_ERR_STATUS.thermal_hot -/
def TEL_ERR_STATUS_thermal_hot : Field := ⟨.TEL_ERR_STATUS, 1, 1⟩
/-- TEL_ERR_STATUS.thermal_warn -/
def TEL_ERR_STATUS_thermal_warn : Field := ⟨.TEL_ERR_STATUS, 0, 0⟩

-- TB_STATUS (16_power_thermal_and_measurement.md, R587)
/-- TB_STATUS.rate_ppb -/
def TB_STATUS_rate_ppb : Field := ⟨.TB_STATUS, 63, 32⟩
/-- TB_STATUS.held -/
def TB_STATUS_held : Field := ⟨.TB_STATUS, 2, 2⟩
/-- TB_STATUS.stepped -/
def TB_STATUS_stepped : Field := ⟨.TB_STATUS, 1, 1⟩
/-- TB_STATUS.locked -/
def TB_STATUS_locked : Field := ⟨.TB_STATUS, 0, 0⟩

-- PWR_FREQ (16_power_thermal_and_measurement.md, R587)
/-- PWR_FREQ.duty -/
def PWR_FREQ_duty : Field := ⟨.PWR_FREQ, 11, 8⟩
/-- PWR_FREQ.step -/
def PWR_FREQ_step : Field := ⟨.PWR_FREQ, 5, 0⟩

-- TEL_MAX (16_power_thermal_and_measurement.md, R587)
/-- TEL_MAX.sensor -/
def TEL_MAX_sensor : Field := ⟨.TEL_MAX, 23, 16⟩
/-- TEL_MAX.temp -/
def TEL_MAX_temp : Field := ⟨.TEL_MAX, 15, 0⟩

-- TB_STEP_NS (16_power_thermal_and_measurement.md, R587)
/-- TB_STEP_NS.ns -/
def TB_STEP_NS_ns : Field := ⟨.TB_STEP_NS, 63, 0⟩

-- PWR_STATUS (16_power_thermal_and_measurement.md, R587)
/-- PWR_STATUS.i_est -/
def PWR_STATUS_i_est : Field := ⟨.PWR_STATUS, 63, 48⟩
/-- PWR_STATUS.active -/
def PWR_STATUS_active : Field := ⟨.PWR_STATUS, 39, 32⟩
/-- PWR_STATUS.binding -/
def PWR_STATUS_binding : Field := ⟨.PWR_STATUS, 31, 28⟩
/-- PWR_STATUS.eff_duty -/
def PWR_STATUS_eff_duty : Field := ⟨.PWR_STATUS, 11, 8⟩
/-- PWR_STATUS.eff_step -/
def PWR_STATUS_eff_step : Field := ⟨.PWR_STATUS, 5, 0⟩

-- TEL_POST_STEP (16_power_thermal_and_measurement.md, R587)
/-- TEL_POST_STEP.step -/
def TEL_POST_STEP_step : Field := ⟨.TEL_POST_STEP, 63, 0⟩

-- PWR_ERR_STATUS (16_power_thermal_and_measurement.md, R587)
/-- PWR_ERR_STATUS.loop_wd -/
def PWR_ERR_STATUS_loop_wd : Field := ⟨.PWR_ERR_STATUS, 6, 6⟩
/-- PWR_ERR_STATUS.cap_miss -/
def PWR_ERR_STATUS_cap_miss : Field := ⟨.PWR_ERR_STATUS, 5, 5⟩
/-- PWR_ERR_STATUS.icc_limit -/
def PWR_ERR_STATUS_icc_limit : Field := ⟨.PWR_ERR_STATUS, 4, 4⟩
/-- PWR_ERR_STATUS.droop -/
def PWR_ERR_STATUS_droop : Field := ⟨.PWR_ERR_STATUS, 3, 3⟩
/-- PWR_ERR_STATUS.prochot -/
def PWR_ERR_STATUS_prochot : Field := ⟨.PWR_ERR_STATUS, 2, 2⟩
/-- PWR_ERR_STATUS.thermal_throttle -/
def PWR_ERR_STATUS_thermal_throttle : Field := ⟨.PWR_ERR_STATUS, 1, 1⟩
/-- PWR_ERR_STATUS.cap_throttle -/
def PWR_ERR_STATUS_cap_throttle : Field := ⟨.PWR_ERR_STATUS, 0, 0⟩

-- TEL_POST_VAL (16_power_thermal_and_measurement.md, R587)
/-- TEL_POST_VAL.loss -/
def TEL_POST_VAL_loss : Field := ⟨.TEL_POST_VAL, 63, 32⟩
/-- TEL_POST_VAL.norm -/
def TEL_POST_VAL_norm : Field := ⟨.TEL_POST_VAL, 31, 0⟩

-- PWR_EST (16_power_thermal_and_measurement.md, R587)
/-- PWR_EST.window -/
def PWR_EST_window : Field := ⟨.PWR_EST, 63, 32⟩
/-- PWR_EST.mw -/
def PWR_EST_mw : Field := ⟨.PWR_EST, 31, 0⟩

-- TEL_POST_INFO (16_power_thermal_and_measurement.md, R587)
/-- TEL_POST_INFO.verdict -/
def TEL_POST_INFO_verdict : Field := ⟨.TEL_POST_INFO, 16, 16⟩
/-- TEL_POST_INFO.context -/
def TEL_POST_INFO_context : Field := ⟨.TEL_POST_INFO, 11, 8⟩
/-- TEL_POST_INFO.outcome -/
def TEL_POST_INFO_outcome : Field := ⟨.TEL_POST_INFO, 7, 0⟩

-- PWR_DROOP_CFG (16_power_thermal_and_measurement.md, R587)
/-- PWR_DROOP_CFG.mv -/
def PWR_DROOP_CFG_mv : Field := ⟨.PWR_DROOP_CFG, 7, 0⟩

-- TEL_SPIKE_CFG (16_power_thermal_and_measurement.md, R587)
/-- TEL_SPIKE_CFG.warm -/
def TEL_SPIKE_CFG_warm : Field := ⟨.TEL_SPIKE_CFG, 63, 48⟩
/-- TEL_SPIKE_CFG.alpha_exp -/
def TEL_SPIKE_CFG_alpha_exp : Field := ⟨.TEL_SPIKE_CFG, 39, 32⟩
/-- TEL_SPIKE_CFG.k -/
def TEL_SPIKE_CFG_k : Field := ⟨.TEL_SPIKE_CFG, 31, 0⟩

-- PWR_ENERGY_TOTAL (16_power_thermal_and_measurement.md, R587)
/-- PWR_ENERGY_TOTAL.uj -/
def PWR_ENERGY_TOTAL_uj : Field := ⟨.PWR_ENERGY_TOTAL, 63, 0⟩

-- TEL_SPIKE_REL (16_power_thermal_and_measurement.md, R587)
/-- TEL_SPIKE_REL.rel -/
def TEL_SPIKE_REL_rel : Field := ⟨.TEL_SPIKE_REL, 31, 0⟩

-- PWR_FIXED (16_power_thermal_and_measurement.md, R587)
/-- PWR_FIXED.watts -/
def PWR_FIXED_watts : Field := ⟨.PWR_FIXED, 15, 0⟩

-- PWR_DROOP_CNT (16_power_thermal_and_measurement.md, R587)
/-- PWR_DROOP_CNT.events -/
def PWR_DROOP_CNT_events : Field := ⟨.PWR_DROOP_CNT, 31, 0⟩

-- PWR_W (16_power_thermal_and_measurement.md, R587)
/-- PWR_W.pj -/
def PWR_W_pj : Field := ⟨.PWR_W, 31, 0⟩

-- TEL_FLAG_CNT (16_power_thermal_and_measurement.md, R587)
/-- TEL_FLAG_CNT.ops -/
def TEL_FLAG_CNT_ops : Field := ⟨.TEL_FLAG_CNT, 47, 0⟩

-- PWR_LEAK (16_power_thermal_and_measurement.md, R587)
/-- PWR_LEAK.temp -/
def PWR_LEAK_temp : Field := ⟨.PWR_LEAK, 31, 16⟩
/-- PWR_LEAK.watts -/
def PWR_LEAK_watts : Field := ⟨.PWR_LEAK, 15, 0⟩

-- PWR_THR_NS (16_power_thermal_and_measurement.md, R587)
/-- PWR_THR_NS.ns -/
def PWR_THR_NS_ns : Field := ⟨.PWR_THR_NS, 63, 0⟩

-- TEL_SPIKE_STATE (16_power_thermal_and_measurement.md, R587)
/-- TEL_SPIKE_STATE.word -/
def TEL_SPIKE_STATE_word : Field := ⟨.TEL_SPIKE_STATE, 63, 0⟩

-- PWR_THR_CNT (16_power_thermal_and_measurement.md, R587)
/-- PWR_THR_CNT.episodes -/
def PWR_THR_CNT_episodes : Field := ⟨.PWR_THR_CNT, 31, 0⟩

-- PWR_ENERGY (16_power_thermal_and_measurement.md, R587)
/-- PWR_ENERGY.uj -/
def PWR_ENERGY_uj : Field := ⟨.PWR_ENERGY, 63, 0⟩

-- TEL_SENSOR (16_power_thermal_and_measurement.md, R587)
/-- TEL_SENSOR.failed -/
def TEL_SENSOR_failed : Field := ⟨.TEL_SENSOR, 17, 17⟩
/-- TEL_SENSOR.valid -/
def TEL_SENSOR_valid : Field := ⟨.TEL_SENSOR, 16, 16⟩
/-- TEL_SENSOR.temp -/
def TEL_SENSOR_temp : Field := ⟨.TEL_SENSOR, 15, 0⟩

-- SCR_CTRL (17_reliability_and_silent_errors.md, R612)
/-- SCR_CTRL.qs_deadline -/
def SCR_CTRL_qs_deadline : Field := ⟨.SCR_CTRL, 47, 32⟩
/-- SCR_CTRL.auto_hours -/
def SCR_CTRL_auto_hours : Field := ⟨.SCR_CTRL, 23, 16⟩
/-- SCR_CTRL.lock -/
def SCR_CTRL_lock : Field := ⟨.SCR_CTRL, 8, 8⟩
/-- SCR_CTRL.ve_res_en -/
def SCR_CTRL_ve_res_en : Field := ⟨.SCR_CTRL, 0, 0⟩

-- SCR_STATUS (17_reliability_and_silent_errors.md, R612)
/-- SCR_STATUS.slices_done -/
def SCR_STATUS_slices_done : Field := ⟨.SCR_STATUS, 47, 40⟩
/-- SCR_STATUS.slices_total -/
def SCR_STATUS_slices_total : Field := ⟨.SCR_STATUS, 39, 32⟩
/-- SCR_STATUS.waiting -/
def SCR_STATUS_waiting : Field := ⟨.SCR_STATUS, 19, 16⟩
/-- SCR_STATUS.state -/
def SCR_STATUS_state : Field := ⟨.SCR_STATUS, 1, 0⟩

-- SCR_ERR_STATUS (17_reliability_and_silent_errors.md, R612)
/-- SCR_ERR_STATUS.ve_residue_poison -/
def SCR_ERR_STATUS_ve_residue_poison : Field := ⟨.SCR_ERR_STATUS, 7, 7⟩
/-- SCR_ERR_STATUS.ve_residue_replay -/
def SCR_ERR_STATUS_ve_residue_replay : Field := ⟨.SCR_ERR_STATUS, 6, 6⟩
/-- SCR_ERR_STATUS.health_log -/
def SCR_ERR_STATUS_health_log : Field := ⟨.SCR_ERR_STATUS, 5, 5⟩
/-- SCR_ERR_STATUS.pack_denied -/
def SCR_ERR_STATUS_pack_denied : Field := ⟨.SCR_ERR_STATUS, 4, 4⟩
/-- SCR_ERR_STATUS.pack_invalid -/
def SCR_ERR_STATUS_pack_invalid : Field := ⟨.SCR_ERR_STATUS, 3, 3⟩
/-- SCR_ERR_STATUS.aborted -/
def SCR_ERR_STATUS_aborted : Field := ⟨.SCR_ERR_STATUS, 2, 2⟩
/-- SCR_ERR_STATUS.incomplete -/
def SCR_ERR_STATUS_incomplete : Field := ⟨.SCR_ERR_STATUS, 1, 1⟩
/-- SCR_ERR_STATUS.screen_fail -/
def SCR_ERR_STATUS_screen_fail : Field := ⟨.SCR_ERR_STATUS, 0, 0⟩

-- SCR_PACK (17_reliability_and_silent_errors.md, R612)
/-- SCR_PACK.version -/
def SCR_PACK_version : Field := ⟨.SCR_PACK, 63, 32⟩
/-- SCR_PACK.source -/
def SCR_PACK_source : Field := ⟨.SCR_PACK, 0, 0⟩

-- SCR_RETIRED (17_reliability_and_silent_errors.md, R612)
/-- SCR_RETIRED.reasons -/
def SCR_RETIRED_reasons : Field := ⟨.SCR_RETIRED, 23, 8⟩
/-- SCR_RETIRED.mask -/
def SCR_RETIRED_mask : Field := ⟨.SCR_RETIRED, 7, 0⟩

-- SCR_QUICK_CNT (17_reliability_and_silent_errors.md, R612)
/-- SCR_QUICK_CNT.screens -/
def SCR_QUICK_CNT_screens : Field := ⟨.SCR_QUICK_CNT, 31, 0⟩

-- SCR_FULL_CNT (17_reliability_and_silent_errors.md, R612)
/-- SCR_FULL_CNT.screens -/
def SCR_FULL_CNT_screens : Field := ⟨.SCR_FULL_CNT, 31, 0⟩

-- SCR_FAIL_CNT (17_reliability_and_silent_errors.md, R612)
/-- SCR_FAIL_CNT.screens -/
def SCR_FAIL_CNT_screens : Field := ⟨.SCR_FAIL_CNT, 31, 0⟩

-- SCR_INCOMPLETE_CNT (17_reliability_and_silent_errors.md, R612)
/-- SCR_INCOMPLETE_CNT.screens -/
def SCR_INCOMPLETE_CNT_screens : Field := ⟨.SCR_INCOMPLETE_CNT, 31, 0⟩

-- SCR_SLICE_CNT (17_reliability_and_silent_errors.md, R612)
/-- SCR_SLICE_CNT.slices -/
def SCR_SLICE_CNT_slices : Field := ⟨.SCR_SLICE_CNT, 47, 0⟩

-- SCR_VE_RES_CNT (17_reliability_and_silent_errors.md, R612)
/-- SCR_VE_RES_CNT.second -/
def SCR_VE_RES_CNT_second : Field := ⟨.SCR_VE_RES_CNT, 63, 32⟩
/-- SCR_VE_RES_CNT.mismatches -/
def SCR_VE_RES_CNT_mismatches : Field := ⟨.SCR_VE_RES_CNT, 31, 0⟩

-- SCR_LAST (17_reliability_and_silent_errors.md, R612)
/-- SCR_LAST.result -/
def SCR_LAST_result : Field := ⟨.SCR_LAST, 63, 0⟩

-- RST_CTRL (18_hang_detection_reset_and_recovery.md, R630)
/-- RST_CTRL.lock -/
def RST_CTRL_lock : Field := ⟨.RST_CTRL, 8, 8⟩
/-- RST_CTRL.cp_wd_en -/
def RST_CTRL_cp_wd_en : Field := ⟨.RST_CTRL, 3, 3⟩
/-- RST_CTRL.link_cr -/
def RST_CTRL_link_cr : Field := ⟨.RST_CTRL, 2, 2⟩
/-- RST_CTRL.auto_cr -/
def RST_CTRL_auto_cr : Field := ⟨.RST_CTRL, 1, 1⟩
/-- RST_CTRL.wd_en -/
def RST_CTRL_wd_en : Field := ⟨.RST_CTRL, 0, 0⟩

-- RST_WD_CFG (18_hang_detection_reset_and_recovery.md, R630)
/-- RST_WD_CFG.cp_wd_ms -/
def RST_WD_CFG_cp_wd_ms : Field := ⟨.RST_WD_CFG, 47, 32⟩
/-- RST_WD_CFG.stop_us -/
def RST_WD_CFG_stop_us : Field := ⟨.RST_WD_CFG, 31, 16⟩
/-- RST_WD_CFG.wd_exp -/
def RST_WD_CFG_wd_exp : Field := ⟨.RST_WD_CFG, 4, 0⟩

-- RST_STATUS (18_hang_detection_reset_and_recovery.md, R630)
/-- RST_STATUS.guilty -/
def RST_STATUS_guilty : Field := ⟨.RST_STATUS, 15, 12⟩
/-- RST_STATUS.guilty_valid -/
def RST_STATUS_guilty_valid : Field := ⟨.RST_STATUS, 11, 11⟩
/-- RST_STATUS.state -/
def RST_STATUS_state : Field := ⟨.RST_STATUS, 2, 0⟩

-- RST_ERR_STATUS (18_hang_detection_reset_and_recovery.md, R630)
/-- RST_ERR_STATUS.cp_wd -/
def RST_ERR_STATUS_cp_wd : Field := ⟨.RST_ERR_STATUS, 4, 4⟩
/-- RST_ERR_STATUS.drain_error -/
def RST_ERR_STATUS_drain_error : Field := ⟨.RST_ERR_STATUS, 3, 3⟩
/-- RST_ERR_STATUS.compute_reset -/
def RST_ERR_STATUS_compute_reset : Field := ⟨.RST_ERR_STATUS, 2, 2⟩
/-- RST_ERR_STATUS.stop_fail -/
def RST_ERR_STATUS_stop_fail : Field := ⟨.RST_ERR_STATUS, 1, 1⟩
/-- RST_ERR_STATUS.hang -/
def RST_ERR_STATUS_hang : Field := ⟨.RST_ERR_STATUS, 0, 0⟩

-- RST_LAST (18_hang_detection_reset_and_recovery.md, R630)
/-- RST_LAST.duration -/
def RST_LAST_duration : Field := ⟨.RST_LAST, 63, 32⟩
/-- RST_LAST.collateral -/
def RST_LAST_collateral : Field := ⟨.RST_LAST, 31, 16⟩
/-- RST_LAST.guilty -/
def RST_LAST_guilty : Field := ⟨.RST_LAST, 15, 12⟩
/-- RST_LAST.guilty_valid -/
def RST_LAST_guilty_valid : Field := ⟨.RST_LAST, 11, 11⟩
/-- RST_LAST.cause -/
def RST_LAST_cause : Field := ⟨.RST_LAST, 7, 4⟩
/-- RST_LAST.kind -/
def RST_LAST_kind : Field := ⟨.RST_LAST, 3, 0⟩

-- RST_CAUSE (18_hang_detection_reset_and_recovery.md, R630)
/-- RST_CAUSE.chip_cause -/
def RST_CAUSE_chip_cause : Field := ⟨.RST_CAUSE, 1, 0⟩

-- RST_CP_KICK (18_hang_detection_reset_and_recovery.md, R630)
/-- RST_CP_KICK.kick -/
def RST_CP_KICK_kick : Field := ⟨.RST_CP_KICK, 63, 0⟩

-- RST_CR_CNT (18_hang_detection_reset_and_recovery.md, R630)
/-- RST_CR_CNT.resets -/
def RST_CR_CNT_resets : Field := ⟨.RST_CR_CNT, 31, 0⟩

-- RST_HANG_CNT (18_hang_detection_reset_and_recovery.md, R630)
/-- RST_HANG_CNT.hangs -/
def RST_HANG_CNT_hangs : Field := ⟨.RST_HANG_CNT, 31, 0⟩

-- RST_FENCED_CNT (18_hang_detection_reset_and_recovery.md, R630)
/-- RST_FENCED_CNT.requests -/
def RST_FENCED_CNT_requests : Field := ⟨.RST_FENCED_CNT, 47, 0⟩

-- RST_DRAIN_ERR_CNT (18_hang_detection_reset_and_recovery.md, R630)
/-- RST_DRAIN_ERR_CNT.requests -/
def RST_DRAIN_ERR_CNT_requests : Field := ⟨.RST_DRAIN_ERR_CNT, 47, 0⟩

-- RST_WD_COUNT (18_hang_detection_reset_and_recovery.md, R630)
/-- RST_WD_COUNT.cycles -/
def RST_WD_COUNT_cycles : Field := ⟨.RST_WD_COUNT, 31, 0⟩

-- SEC_CTRL (19_boot_security_and_defaults.md, R647)
/-- SEC_CTRL.lock -/
def SEC_CTRL_lock : Field := ⟨.SEC_CTRL, 8, 8⟩
/-- SEC_CTRL.quote_en -/
def SEC_CTRL_quote_en : Field := ⟨.SEC_CTRL, 0, 0⟩

-- DBG_CTRL (19_boot_security_and_defaults.md, R647)
/-- DBG_CTRL.lock -/
def DBG_CTRL_lock : Field := ⟨.DBG_CTRL, 8, 8⟩
/-- DBG_CTRL.policy -/
def DBG_CTRL_policy : Field := ⟨.DBG_CTRL, 1, 0⟩

-- SEC_STATUS (19_boot_security_and_defaults.md, R647)
/-- SEC_STATUS.jtag -/
def SEC_STATUS_jtag : Field := ⟨.SEC_STATUS, 9, 8⟩
/-- SEC_STATUS.owner -/
def SEC_STATUS_owner : Field := ⟨.SEC_STATUS, 7, 7⟩
/-- SEC_STATUS.record -/
def SEC_STATUS_record : Field := ⟨.SEC_STATUS, 6, 5⟩
/-- SEC_STATUS.identity_ok -/
def SEC_STATUS_identity_ok : Field := ⟨.SEC_STATUS, 4, 4⟩
/-- SEC_STATUS.rom_alone -/
def SEC_STATUS_rom_alone : Field := ⟨.SEC_STATUS, 3, 3⟩
/-- SEC_STATUS.fallback -/
def SEC_STATUS_fallback : Field := ⟨.SEC_STATUS, 2, 2⟩
/-- SEC_STATUS.pending -/
def SEC_STATUS_pending : Field := ⟨.SEC_STATUS, 1, 1⟩
/-- SEC_STATUS.slot -/
def SEC_STATUS_slot : Field := ⟨.SEC_STATUS, 0, 0⟩

-- DBG_STATUS (19_boot_security_and_defaults.md, R647)
/-- DBG_STATUS.token_rejected -/
def DBG_STATUS_token_rejected : Field := ⟨.DBG_STATUS, 2, 2⟩
/-- DBG_STATUS.state -/
def DBG_STATUS_state : Field := ⟨.DBG_STATUS, 1, 0⟩

-- SEC_ERR_STATUS (19_boot_security_and_defaults.md, R647)
/-- SEC_ERR_STATUS.debug_unlock -/
def SEC_ERR_STATUS_debug_unlock : Field := ⟨.SEC_ERR_STATUS, 6, 6⟩
/-- SEC_ERR_STATUS.flash_error -/
def SEC_ERR_STATUS_flash_error : Field := ⟨.SEC_ERR_STATUS, 5, 5⟩
/-- SEC_ERR_STATUS.update_denied -/
def SEC_ERR_STATUS_update_denied : Field := ⟨.SEC_ERR_STATUS, 4, 4⟩
/-- SEC_ERR_STATUS.identity_fail -/
def SEC_ERR_STATUS_identity_fail : Field := ⟨.SEC_ERR_STATUS, 3, 3⟩
/-- SEC_ERR_STATUS.config_bad -/
def SEC_ERR_STATUS_config_bad : Field := ⟨.SEC_ERR_STATUS, 2, 2⟩
/-- SEC_ERR_STATUS.image_b_bad -/
def SEC_ERR_STATUS_image_b_bad : Field := ⟨.SEC_ERR_STATUS, 1, 1⟩
/-- SEC_ERR_STATUS.image_a_bad -/
def SEC_ERR_STATUS_image_a_bad : Field := ⟨.SEC_ERR_STATUS, 0, 0⟩

-- SEC_SVN (19_boot_security_and_defaults.md, R647)
/-- SEC_SVN.floor -/
def SEC_SVN_floor : Field := ⟨.SEC_SVN, 63, 32⟩
/-- SEC_SVN.svn -/
def SEC_SVN_svn : Field := ⟨.SEC_SVN, 31, 0⟩

-- SEC_IMG_HASH (19_boot_security_and_defaults.md, R647)
/-- SEC_IMG_HASH.hash -/
def SEC_IMG_HASH_hash : Field := ⟨.SEC_IMG_HASH, 63, 0⟩

-- DBG_CHALLENGE (19_boot_security_and_defaults.md, R647)
/-- DBG_CHALLENGE.challenge -/
def DBG_CHALLENGE_challenge : Field := ⟨.DBG_CHALLENGE, 63, 0⟩

-- SMB_CTRL (20_pins_power_rails_and_sequencing.md, R670)
/-- SMB_CTRL.lock -/
def SMB_CTRL_lock : Field := ⟨.SMB_CTRL, 8, 8⟩
/-- SMB_CTRL.ara_en -/
def SMB_CTRL_ara_en : Field := ⟨.SMB_CTRL, 2, 2⟩
/-- SMB_CTRL.pec_req -/
def SMB_CTRL_pec_req : Field := ⟨.SMB_CTRL, 1, 1⟩
/-- SMB_CTRL.mbx_en -/
def SMB_CTRL_mbx_en : Field := ⟨.SMB_CTRL, 0, 0⟩

-- SMB_STATUS (20_pins_power_rails_and_sequencing.md, R670)
/-- SMB_STATUS.addr -/
def SMB_STATUS_addr : Field := ⟨.SMB_STATUS, 14, 8⟩
/-- SMB_STATUS.rd_ready -/
def SMB_STATUS_rd_ready : Field := ⟨.SMB_STATUS, 1, 1⟩
/-- SMB_STATUS.wr_partial -/
def SMB_STATUS_wr_partial : Field := ⟨.SMB_STATUS, 0, 0⟩

-- SMB_ERR_STATUS (20_pins_power_rails_and_sequencing.md, R670)
/-- SMB_ERR_STATUS.access_denied -/
def SMB_ERR_STATUS_access_denied : Field := ⟨.SMB_ERR_STATUS, 4, 4⟩
/-- SMB_ERR_STATUS.overlong -/
def SMB_ERR_STATUS_overlong : Field := ⟨.SMB_ERR_STATUS, 3, 3⟩
/-- SMB_ERR_STATUS.pec_err -/
def SMB_ERR_STATUS_pec_err : Field := ⟨.SMB_ERR_STATUS, 2, 2⟩
/-- SMB_ERR_STATUS.timeout -/
def SMB_ERR_STATUS_timeout : Field := ⟨.SMB_ERR_STATUS, 1, 1⟩
/-- SMB_ERR_STATUS.bad_cmd -/
def SMB_ERR_STATUS_bad_cmd : Field := ⟨.SMB_ERR_STATUS, 0, 0⟩

-- SMB_STRAP (20_pins_power_rails_and_sequencing.md, R670)
/-- SMB_STRAP.test_en -/
def SMB_STRAP_test_en : Field := ⟨.SMB_STRAP, 15, 15⟩
/-- SMB_STRAP.smba -/
def SMB_STRAP_smba : Field := ⟨.SMB_STRAP, 14, 12⟩
/-- SMB_STRAP.fwd -/
def SMB_STRAP_fwd : Field := ⟨.SMB_STRAP, 11, 0⟩

-- SMB_MSG_CNT (20_pins_power_rails_and_sequencing.md, R670)
/-- SMB_MSG_CNT.taken -/
def SMB_MSG_CNT_taken : Field := ⟨.SMB_MSG_CNT, 63, 32⟩
/-- SMB_MSG_CNT.posted -/
def SMB_MSG_CNT_posted : Field := ⟨.SMB_MSG_CNT, 31, 0⟩

-- SMB_READ_CNT (20_pins_power_rails_and_sequencing.md, R670)
/-- SMB_READ_CNT.reads -/
def SMB_READ_CNT_reads : Field := ⟨.SMB_READ_CNT, 31, 0⟩

-- DA_BUF_CE_CNT (06_memory_hierarchy.md, R238)
/-- DA_BUF_CE_CNT.words -/
def DA_BUF_CE_CNT_words : Field := ⟨.DA_BUF_CE_CNT, 31, 0⟩

-- DA_BUF_UE_CNT (06_memory_hierarchy.md, R238)
/-- DA_BUF_UE_CNT.words -/
def DA_BUF_UE_CNT_words : Field := ⟨.DA_BUF_UE_CNT, 31, 0⟩

-- COL_OP_CNT (12_collectives_and_gradient_reduction.md, R462)
/-- COL_OP_CNT.ops -/
def COL_OP_CNT_ops : Field := ⟨.COL_OP_CNT, 47, 0⟩

-- COL_TX_BYTES (12_collectives_and_gradient_reduction.md, R462)
/-- COL_TX_BYTES.bytes -/
def COL_TX_BYTES_bytes : Field := ⟨.COL_TX_BYTES, 63, 0⟩

-- COL_RX_BYTES (12_collectives_and_gradient_reduction.md, R462)
/-- COL_RX_BYTES.bytes -/
def COL_RX_BYTES_bytes : Field := ⟨.COL_RX_BYTES, 63, 0⟩

-- COL_BUCKET_CNT (12_collectives_and_gradient_reduction.md, R462)
/-- COL_BUCKET_CNT.buckets -/
def COL_BUCKET_CNT_buckets : Field := ⟨.COL_BUCKET_CNT, 47, 0⟩

-- COL_FORCED_CNT (12_collectives_and_gradient_reduction.md, R462)
/-- COL_FORCED_CNT.buckets -/
def COL_FORCED_CNT_buckets : Field := ⟨.COL_FORCED_CNT, 31, 0⟩

-- COL_NONFINITE_CNT (12_collectives_and_gradient_reduction.md, R462)
/-- COL_NONFINITE_CNT.reductions -/
def COL_NONFINITE_CNT_reductions : Field := ⟨.COL_NONFINITE_CNT, 31, 0⟩

-- COL_RES_CNT (12_collectives_and_gradient_reduction.md, R462)
/-- COL_RES_CNT.mismatches -/
def COL_RES_CNT_mismatches : Field := ⟨.COL_RES_CNT, 31, 0⟩

end F

/-- The lock bit that stops writes to a register's RWL fields (R13 and each chapter's CTRL register). -/
def Reg.lock : Reg → Field
  | .FAB_ID | .FAB_CTRL | .FAB_ERR_STATUS | .FAB_ERR_ADDR | .FAB_ERR_INFO | .FAB_LINK_STATUS
  | .FAB_LINK_PAR_CNT | .FAB_LINK_REPLAY_CNT | .FAB_LINK_REPLAY_NS => F.FAB_CTRL_lock
  | .DA_CTRL | .DA_CHK_TOL | .DA_STATUS | .DA_ERR_STATUS | .DA_RETIRE | .DA_PASS_CNT | .DA_CHK_FAIL_CNT
  | .DA_CHK_SKIP_CNT | .DA_ARB_CNT | .DA_FLAG_PASS | .DA_RAMP_CNT | .DA_SP_STATUS | .DA_SP_ERR
  | .DA_SP_CHAFF_CNT | .DA_SP_CHAFF_INFO | .DA_BUF_CE_CNT | .DA_BUF_UE_CNT => F.DA_CTRL_lock
  | .GME_CTRL | .GME_STATUS | .GME_ERR_STATUS | .GME_CHAFF_INFO | .GME_OP_CNT | .GME_IDX_CNT
  | .GME_COAL_CNT | .GME_CHAFF_CNT | .GME_FOREIGN_CNT | .GME_RES_CNT | .GME_COMB_MISS_CNT | .GME_DUP_CNT => F.GME_CTRL_lock
  | .VE_CTRL | .VE_STATUS | .VE_ERR_STATUS | .VE_OP_CNT | .VE_ELEM_CNT => F.VE_CTRL_lock
  | .CMEM_CTRL | .CMEM_ERR_STATUS | .CMEM_ERR_ADDR | .CMEM_CE_CNT | .CMEM_UE_CNT | .CMEM_SCRUB_CNT
  | .CMEM_CONFLICT_CNT => F.CMEM_CTRL_lock
  | .SHM_CTRL | .SHM_ERR_STATUS | .SHM_ERR_ADDR | .SHM_CE_CNT | .SHM_UE_CNT | .SHM_SCRUB_CNT
  | .SHM_CACHE_CFG | .SHM_CACHE_HIT_CNT | .SHM_CACHE_MISS_CNT | .SHM_CACHE_WB_CNT => F.SHM_CTRL_lock
  | .DDR_CTRL | .DDR_CFG | .DDR_ERR_STATUS | .DDR_ERR_ADDR | .DDR_CH_CE_CNT | .DDR_CH_UE_CNT
  | .DDR_CH_ERASE => F.DDR_CTRL_lock
  | .FD_CTRL | .FD_STATUS | .FD_ERR_STATUS | .FD_CHAFF_INFO | .FD_QTABLE | .FD_STREAM_CNT | .FD_BYTE_CNT
  | .FD_STALL_CNT | .FD_MCAST_CNT | .FD_CHAFF_CNT | .FD_FOREIGN_CNT | .FD_COAL_CNT | .FD_REFETCH_CNT
  | .FD_FAULT_CNT => F.FD_CTRL_lock
  | .CTX_CTRL | .CTX_STATE | .CTX_CORE_RUN | .CTX_CMD | .CTX_RING_BASE | .CTX_RING_PTR | .CTX_ERR_STATUS
  | .CTX_PT_ROOT | .CTX_SAVE_BASE | .CTX_FLAGS | .CTX_FAULT_CNT | .CTX_PREEMPT_CNT | .CTX_FREC => F.CTX_CTRL_lock
  | .WLK_CTRL | .WLK_STATUS | .WLK_ERR_STATUS | .WLK_CHAFF_INFO | .WLK_AUDIT | .WLK_AUDIT_SEED
  | .WLK_ENTRY_CNT | .WLK_EMPTY_CNT | .WLK_ZF_CNT | .WLK_ROUTE_CNT | .WLK_CHAFF_CNT | .WLK_SKIP_CNT
  | .WLK_AUDIT_CNT | .WLK_MISS_CNT => F.WLK_CTRL_lock
  | .HD_CTRL | .HD_STATUS | .HD_ERR_STATUS | .HD_PEAK | .HD_PUSH_CNT | .HD_POP_CNT | .HD_WB_BYTES
  | .HD_PF_BYTES | .HD_HOME_FETCH_CNT | .WQ_CTRL | .WQ_CFG | .WQ_STATUS | .WQ_ERR_STATUS | .WQ_PUSH_CNT
  | .WQ_BUBBLE_CNT | .WQ_FULL_CNT | .WQ_FLUSH_CNT | .WQ_FROZEN_CNT => F.HD_CTRL_lock
  | .UPD_CTRL | .UPD_STATUS | .UPD_ERR_STATUS | .UPD_GROUP_CNT | .UPD_ELEM_CNT | .UPD_SKIP_CNT
  | .UPD_FROZEN_CNT | .UPD_RECOMMIT_CNT | .UPD_TORN_CNT | .UPD_NONFINITE_CNT => F.UPD_CTRL_lock
  | .COL_CTRL | .COL_STATUS | .COL_ERR_STATUS | .COL_ERR_INFO | .COL_PLAN | .COL_BKT | .COL_OP_CNT
  | .COL_TX_BYTES | .COL_RX_BYTES | .COL_BUCKET_CNT | .COL_FORCED_CNT | .COL_NONFINITE_CNT | .COL_RES_CNT => F.COL_CTRL_lock
  | .BAR_CTRL | .BAR_STATUS | .BAR_CNT | .BAR_LATE_CNT | .BAR_LAST_REL => F.BAR_CTRL_lock
  | .RHK_CTRL | .RHK_DEV_ID | .RHK_ROUTE_BANK | .RHK_ERR_STATUS | .RHK_ERR_INFO | .RHK_SYNC
  | .RHK_PORT_CTRL | .RHK_PORT_STATUS | .RHK_PORT_FEC_CNT | .RHK_PORT_REPLAY_CNT | .RHK_PORT_FO_CNT
  | .RHK_PORT_DUP_CNT | .RHK_PORT_TX_BYTES | .RHK_PORT_RX_BYTES | .RHK_ROUTE => F.RHK_CTRL_lock
  | .MBX_CTRL | .MBX_NONEMPTY | .MBX_COLL | .MBX_ERR_STATUS | .MBX_ERR_INFO | .MBX_CMD | .MBX_BIND
  | .MBX_PTR | .MBX_DB | .MBX_DB_MASK | .MBX_DB_SET | .MBX_SEND | .MBX_RECV => F.MBX_CTRL_lock
  | .INT_CTRL | .INT_SUM | .INT_ALERT_EN | .INT_ALERT | .INT_FW | .INT_EN | .INT_LEAF | .INT_LEAF_EN => F.INT_CTRL_lock
  | .ETH_CTRL | .ETH_STATUS | .ETH_ERR_STATUS | .ETH_ERR_INFO | .ETH_PFC | .ETH_CC | .ETH_RX_BYTES
  | .ETH_TX_BYTES | .ETH_FEC_CNT | .ETH_DROP_CNT | .ETH_NAK_CNT | .ETH_MGMT_CNT | .ETH_CNP_CNT | .ETH_QP => F.ETH_CTRL_lock
  | .PWR_CTRL | .PWR_CAP | .PWR_LOOP_CFG | .PWR_FREQ | .PWR_STATUS | .PWR_ERR_STATUS | .PWR_EST
  | .PWR_DROOP_CFG | .PWR_ENERGY_TOTAL | .PWR_FIXED | .PWR_DROOP_CNT | .PWR_W | .PWR_LEAK | .PWR_THR_NS
  | .PWR_THR_CNT | .PWR_ENERGY => F.PWR_CTRL_lock
  | .TEL_CTRL | .TEL_THERM_CFG | .TEL_ERR_STATUS | .TEL_MAX | .TEL_POST_STEP | .TEL_POST_VAL
  | .TEL_POST_INFO | .TEL_SPIKE_CFG | .TEL_SPIKE_REL | .TEL_FLAG_CNT | .TEL_SPIKE_STATE | .TEL_SENSOR => F.TEL_CTRL_lock
  | .TB_CTRL | .TB_NOW | .TB_STATUS | .TB_STEP_NS => F.TB_CTRL_lock
  | .SCR_CTRL | .SCR_STATUS | .SCR_ERR_STATUS | .SCR_PACK | .SCR_RETIRED | .SCR_QUICK_CNT | .SCR_FULL_CNT
  | .SCR_FAIL_CNT | .SCR_INCOMPLETE_CNT | .SCR_SLICE_CNT | .SCR_VE_RES_CNT | .SCR_LAST => F.SCR_CTRL_lock
  | .RST_CTRL | .RST_WD_CFG | .RST_STATUS | .RST_ERR_STATUS | .RST_LAST | .RST_CAUSE | .RST_CP_KICK
  | .RST_CR_CNT | .RST_HANG_CNT | .RST_FENCED_CNT | .RST_DRAIN_ERR_CNT | .RST_WD_COUNT => F.RST_CTRL_lock
  | .SEC_CTRL | .SEC_STATUS | .SEC_ERR_STATUS | .SEC_SVN | .SEC_IMG_HASH => F.SEC_CTRL_lock
  | .DBG_CTRL | .DBG_STATUS | .DBG_CHALLENGE => F.DBG_CTRL_lock
  | .SMB_CTRL | .SMB_STATUS | .SMB_ERR_STATUS | .SMB_STRAP | .SMB_MSG_CNT | .SMB_READ_CNT => F.SMB_CTRL_lock

end Sys2Proof.Machine
end

