-- ==== Sys2Proof/Machine/Regs.lean ====
section
/-!
DEFINITION. The register file: what register space stores, read and written by the access codes of 00_scope.md R13-R15.
A register that only shows other state (a sum of causes, a queue's length) is computed where it is read and stores
nothing here.
-/

namespace Sys2Proof.Machine

/-- The stored registers, by address inside register space, in the canonical form of a sparse table whose unlisted
entries hold their reset values. -/
abbrev RegFile := List (Nat × W64)

/-- Default values of PWR_W (16_power_thermal_and_measurement.md R587, R561). -/
def pwrWeightReset : List Nat := [0x5C1C, 0x07D0, 0x07D0, 0x186A, 0x01F4, 0x1388, 0x2D96]

/-- Default points of PWR_LEAK, temperature and watts (R562). -/
def pwrLeakReset : List (Nat × Nat) := [(25, 80), (40, 110), (55, 150), (70, 205), (80, 250), (90, 300), (100, 360), (110, 430)]

namespace Reg

/-- The address of a register inside register space: window `w` of those that repeat it, element `j` (R38). -/
def key (r : Reg) (w j : Nat) : Nat := (r.row.window + w) * 2 ^ 24 + r.row.offset + r.row.stride * j

/-- The value of a register after chip reset (R14). The tables that give a formula in place of a value are the weights of
R561, the leakage points of R562 and the bindings of channels 0 and 1 (R528). -/
def resetNat (r : Reg) (j : Nat) : Nat :=
  match r with
  | .FAB_ID => 0x00000640B0403300
  | .PWR_W => (pwrWeightReset[j]?).getD 0
  | .PWR_LEAK => match pwrLeakReset[j]? with | some (t, p) => t * 2 ^ 16 + p | none => 0
  | .MBX_BIND => if j = 0 then 2 ^ 63 + 1 * 2 ^ 34 + 1 * 2 ^ 16 + 0x20 else if j = 1 then 2 ^ 63 + 0x20 * 2 ^ 8 else 0
  | r => r.row.fields.foldl (fun a f => a + f.reset * 2 ^ f.lo) 0

/-- The value after chip reset as a register word. -/
def reset (r : Reg) (j : Nat) : W64 := BitVec.ofNat 64 (r.resetNat j)

/-- The register, window and element that an address inside register space names; none where no table names it (R38). -/
def ofKey (k : Nat) : Option (Reg × Nat × Nat) :=
  all.findSome? (fun r =>
    let row := r.row
    let w := k / 2 ^ 24
    let o := k % 2 ^ 24
    if row.window ≤ w ∧ w < row.window + row.windows ∧ row.offset ≤ o ∧ (o - row.offset) % row.stride = 0 ∧
        (o - row.offset) / row.stride < row.count then
      some (r, w - row.window, (o - row.offset) / row.stride)
    else none)

/-- What an address inside register space reads after chip reset: 0 where no table names it (R38). -/
def resetAt (k : Nat) : W64 :=
  match ofKey k with
  | some (r, _, j) => r.reset j
  | none => 0

end Reg

namespace RegFile

/-- The stored value of a register. -/
def rd (f : RegFile) (r : Reg) (w j : Nat) : W64 := Sp.get (fun _ => r.reset j) f (r.key w j)

/-- A register stored. -/
def wr (f : RegFile) (r : Reg) (w j : Nat) (v : W64) : RegFile := Sp.set (fun _ => r.reset j) f (r.key w j) v

/-- A field's value. -/
def fld (f : RegFile) (x : Field) (w j : Nat) : Nat := bits (f.rd x.reg w j).toNat x.hi x.lo

/-- A field set by the device. -/
def setFld (f : RegFile) (x : Field) (w j v : Nat) : RegFile :=
  f.wr x.reg w j (BitVec.ofNat 64 (putBits (f.rd x.reg w j).toNat x.hi x.lo v))

/-- A counter field raised by `k`; it stops at its largest value. -/
def bump (f : RegFile) (x : Field) (w j k : Nat) : RegFile :=
  f.setFld x w j (satAdd (x.hi + 1 - x.lo) (f.fld x w j) k)

/-- A bit of a status register set by the device. -/
def raise (f : RegFile) (x : Field) (w j : Nat) : RegFile := f.setFld x w j 1

/-- A status bit that is set. -/
def isSet (f : RegFile) (x : Field) (w j : Nat) : Bool := f.fld x w j != 0

/-- What a write of `v` leaves in one field, by its access code (R13): `locked` is the block's lock bit. A WO field
stores nothing; the action it triggers is the command's own. -/
def writtenField (locked : Bool) (old v : Nat) (row : FieldRow) : Nat :=
  let o := bits old row.hi row.lo
  let n := bits v row.hi row.lo
  let w := row.hi + 1 - row.lo
  match row.access with
  | .ro => o
  | .rw => n
  | .rwl => if locked then o else n
  | .w1c => o &&& (2 ^ w - 1 - n)
  | .wo => 0

/-- The register's value after software writes `v` (R13, R15): each field by its access code, reserved bits 0. -/
def written (r : Reg) (locked : Bool) (old v : Nat) : Nat :=
  r.row.fields.foldl (fun acc row => putBits acc row.hi row.lo (writtenField locked old v row)) 0

/-- Whether the block's lock bit holds a register's RWL fields. The bindings of channels 0-7 are RWL, those of channels
8-63 RW (R528). -/
def locked (f : RegFile) (r : Reg) (w : Nat) : Bool := f.isSet r.lock w 0

/-- A software write of a register by its access codes (R13). -/
def swWrite (f : RegFile) (r : Reg) (w j : Nat) (v : W64) : RegFile :=
  if r = .MBX_BIND ∧ j < 8 ∧ f.locked r w then f
  else f.wr r w j (BitVec.ofNat 64 (written r (f.locked r w) (f.rd r w j).toNat v.toNat))

end RegFile

end Sys2Proof.Machine
end

