-- ==== Sys2Proof/Machine/Device.lean ====
section
/-!
DEFINITION. The parts of the device's state, as plain data. Every field's default is its value after chip reset; the
inventory lists each with the rule that names it.
-/

namespace Sys2Proof.Machine

/-! ### Bytes with poison -/

/-- One byte with its poison: data travels with the poison of its granule (06_memory_hierarchy.md R223-R225). -/
structure PByte where
  val : Byte
  poison : Bool := false
deriving DecidableEq, Repr

/-! ### Memory (06_memory_hierarchy.md) -/

/-- One line of a core's cache slice (R215-R218). -/
structure CacheLine where
  line : Nat
  set : Nat
  way : Nat
  dirty : Bool
deriving DecidableEq, Repr

/-- One slot-state entry (R207): a core memory's 4,096, and one for each block slot of an activation buffer. -/
structure SlotState where
  full : Bool := false
  fill : Nat := 0
  poison : Bool := false
  owner : Nat := 0
  /-- The entry was uncorrectable: its consumer receives poisoned data (R211). -/
  lost : Bool := false
  /-- The stream operation and the number of its unit that filled the slot; none where an operation of the execute
  engine did (R280, R281). -/
  src : Option (Nat × Nat) := none
deriving DecidableEq, Repr

/-- The corrections that one device of a subchannel has contributed, and the subchannel's read count, for the erasure
rule of R231. -/
structure Subchannel where
  reads : Nat := 0
  corrections : List (Nat × Nat) := []
deriving DecidableEq, Repr

/-- A module as its SPD hub states it (R227): capacity in GiB, package ranks, highest rate code of DDR_CFG, whether R227
excludes it, its serial number, and whether training it succeeds. -/
structure Module where
  channel : Nat
  capacity : Nat
  ranks : Nat
  rate : Nat
  supported : Bool
  serial : Nat
  trains : Bool
deriving DecidableEq, Repr

/-- The memory levels: bytes, poison, latent errors, slot states, cache slices and DDR5 modules. -/
structure MemSys where
  /-- Bytes by physical address; an unlisted byte reads 0 (R241, R234). -/
  cells : List Host.Cell := []
  /-- 8-byte words that are poisoned, by address; a DDR5 codeword is poisoned in all its 8 words (R223, R232). -/
  poison : List (Nat × Bool) := []
  /-- Wrong bits (positions 0 to 71) of SRAM words, by word address (R222). -/
  flips : List (Nat × List Nat) := []
  /-- Wrong symbols (symbol, error value) of DDR5 codewords, by codeword address (R230). -/
  symErrs : List (Nat × List (Nat × Nat)) := []
  /-- Slot-state entries: core c's entry i at 4,096c + i; block slot s of array a at 16,384 + 8a + s (R207). -/
  slots : List (Nat × SlotState) := []
  /-- Cache slices by core, most recently used line first (R215-R218). -/
  cache : List (Nat × List CacheLine) := []
  /-- Uncorrectable tag copies by core: line and how many of its two copies (R221). -/
  tagErrs : List (Nat × List (Nat × Nat)) := []
  /-- Erasure bookkeeping by channel * 2 + subchannel (R231). -/
  subchannels : List (Nat × Subchannel) := []
  /-- Lines that each SRAM block has scrubbed since its count began (R226). -/
  scrubAt : List (Nat × Nat) := []
  /-- The next codeword of each memory die's patrol (R233). -/
  patrolAt : List (Nat × Nat) := []
  /-- DDR5 modules found by the last training; none before it (R228, R234). -/
  modules : List Module := []
  /-- The DDR5 range is populated (R228). -/
  ddrUp : Bool := false
  /-- Every module is in self-refresh (R236). -/
  selfRefresh : Bool := false
deriving DecidableEq, Repr

/-! ### Fabric links (01_package_and_fabric.md R30-R35) -/

/-- One direction of a fabric link: the sender's replay buffer and what its receiver expects. -/
structure FabDir where
  /-- Sequence number of the next new flit. -/
  next : Nat := 0
  /-- Flits that are not acknowledged, oldest first: sequence number and words (R32). -/
  buffer : List (Nat × List Nat) := []
  /-- The flit from which the sender resends (R31). -/
  resend : Option Nat := none
  /-- Sequence number that the receiver accepts next (R33). -/
  expect : Nat := 0
  /-- Consecutive failed attempts of that flit (R34). -/
  fails : Nat := 0
  /-- Times of the negative acknowledgements whose resend is not yet accepted (R40). -/
  nakAt : List Nat := []
deriving DecidableEq, Repr

/-- The fabric's links: link b's directions at 2b and 2b + 1. -/
abbrev Links := List (Nat × FabDir)

/-! ### Dense arrays (03_dense_arrays.md, 04_structured_sparsity.md) -/

/-- A tile slot's stationary tile (R87, R88, R97, R129-R135). Elements and codes are in image order, column by
column. -/
structure Tile where
  aFmt : Nat := 0
  wFmt : Nat := 0
  pattern : Nat := 0
  transposable : Bool := false
  /-- This slot is the odd slot of a paired tile and holds only its codes (R134). -/
  codesOnly : Bool := false
  /-- The unit the image came from (R280). -/
  src : Option (Nat × Nat) := none
  /-- Values dropped as chaff when it was loaded (R144, R145). -/
  chaff : Nat := 0
  elems : List Nat := []
  scales : List Nat := []
  colMax : List Nat := []
  rowMax : List Nat := []
  codes : List Nat := []
  /-- Stored values that are filler: chaff replaced by zero (R144). -/
  filler : List Bool := []
  /-- Poisoned stored values, columns with a poisoned col_max, row_max entries and code bytes (R123, R148). -/
  elemPoison : List Bool := []
  colPoison : List Bool := []
  rowPoison : List Bool := []
  codePoison : List Bool := []
deriving DecidableEq, Repr

/-- One streamed row of a block slot: its elements, scales, row maximum and poison (R90, R91, R123). -/
structure BlockRow where
  elems : List Nat := []
  scales : List Nat := []
  rowMax : Nat := 0x8000
  poison : Bool := false
  /-- The row's elements are all delivered (R276). -/
  complete : Bool := false
deriving DecidableEq, Repr

/-- A block slot of an array's activation buffer (R90): the rows its unit delivered (R98, R265), and whether its unit
spans this slot and the next. -/
structure Block where
  fmt : Nat := 0
  /-- Elements in a row of the unit. -/
  rowLen : Nat := 0
  rows : List BlockRow := []
  wide : Bool := false
deriving DecidableEq, Repr

/-- One entry of a bank's block record (07_streams_descriptors_and_layouts.md R280): a stream operation's identity and
a range of its units. -/
structure BlockRef where
  opId : Nat
  first : Nat
  count : Nat
deriving DecidableEq, Repr

/-- An accumulator bank (R92, R101): accumulators by row * outputs + output, outputs per row, poison bits, suspect
mark, and the passes that entered it since it was started empty. `redo` holds what a partner's recomputation forms
from the refetched operands (R117), which differs from `acc` only by what a fault changed. -/
structure Bank where
  started : Bool := false
  outputs : Nat := 0
  rows : Nat := 0
  acc : List (Nat × Acc) := []
  rowPoison : List (Nat × Bool) := []
  outPoison : List (Nat × Bool) := []
  suspect : Bool := false
  busy : Bool := false
  redo : List (Nat × Acc) := []
  redoFailed : Bool := false
  record : List BlockRef := []
  unreplayable : Bool := false
  /-- Passes, and chaff of the tiles they used, since it was started empty (R117, R145). -/
  passes : Nat := 0
  chaff : Nat := 0
  /-- The audit mask over the row's blocks of 64 outputs (09 R346). -/
  audit : Nat := 0
  /-- Where each audited pass's skip-table entry lies: its address, its block offset and its audit bits (09 R344-R346). -/
  auditAt : List (Nat × Nat × Nat) := []
deriving DecidableEq, Repr

/-- The clock state of an array's column groups (R108, R109). -/
inductive RampState where
  | gated | rampingUp | running | rampingDown
deriving DecidableEq, Repr

/-- One dense array (R83-R128). -/
structure DArray where
  tiles : List (Nat × Option Tile) := []
  /-- The tile in the shadow registers, with its slot (R89). -/
  shadow : Option (Nat × Tile) := none
  blocks : List (Nat × Option Block) := []
  banks : List (Nat × Bank) := []
  /-- Ungated column groups, 0 to 8 (R108, R109). -/
  groups : Nat := 0
  ramp : RampState := .gated
  arbitrating : Bool := false
  /-- Flags recorded since chip reset (R119). -/
  flagCount : Nat := 0
  /-- Armed COL_BARRIERs, by operation id, since whose release this array's stagger has elapsed (R110). -/
  staggered : List Nat := []
deriving DecidableEq, Repr

/-! ### Cores -/

/-- An issued operation: its 16-byte word, operation id, issuing program counter and context, the progress cursor, and
whether it is stopped by a page fault (R276, R301, R304, R310). `work` holds what a unit keeps beside the cursor. -/
structure Op where
  w0 : Nat := 0
  w1 : Nat := 0
  id : Nat := 0
  pc : Nat := 0
  ctx : Nat := 0
  cursor : Nat := 0
  work : List Nat := []
  /-- The virtual address of the page fault that stopped the operation (R309). -/
  stopped : Option Nat := none
  /-- The operation could not go on when it last ran: a slot was not drained (FD_STATUS.stalled, R283). -/
  stalled : Bool := false
  /-- Task list it was issued to; 8 is the fetch engine (R299). -/
  task : Nat := 8
  /-- Stream number (R272). -/
  stream : Nat := 0
  /-- The audit bits that the walker delivers beside the word, the skip-table entry's address and block offset
  (09 R345). -/
  audit : Nat × Nat × Nat := (0, 0, 0)
deriving DecidableEq, Repr

/-- A frame of the Hoard (10_backward_pass_and_hoard.md R362-R374): its push number, its place in the home ring, and
what has become of it. -/
structure HoardFrame where
  id : Nat
  at_ : Nat
  size : Nat
  slot : Nat
  tag : Nat
  /-- HD_POP or HD_DROP has removed it from its stack (R371). -/
  removed : Bool := false
  /-- It is reclaimable (R374). -/
  free : Bool := false
  /-- Its bytes stand in the home ring (R377). -/
  home : Bool := false
  /-- HD_FETCH has pinned it (R370). -/
  fetched : Bool := false
  /-- Some WQ_PUSH has referenced it, and how many queued or running entries pin it (R374, R383). -/
  wRef : Bool := false
  wPins : Nat := 0
deriving DecidableEq, Repr

/-- A frame's copy in the resident region, in allocation order (R377-R379). -/
structure ResidentCopy where
  frame : Nat
  at_ : Nat
  size : Nat
  /-- Prefetched and not yet fetched (R379). -/
  unread : Bool := false
deriving DecidableEq, Repr

/-- An entry of the W queue (R382, R383), with the ids of its words that are issued. -/
structure WEntry where
  body : Nat
  count : Nat
  frames : List Nat
  group : Nat
  bucket : Nat
  bytes : Nat
  by_ : Op := {}
  ids : List Nat := []
deriving DecidableEq, Repr

/-- The Hoard controller and the W queue of a core. -/
structure Hoard where
  frames : List HoardFrame := []
  resident : List ResidentCopy := []
  head : Nat := 0
  tail : Nat := 0
  resHead : Nat := 0
  turned : List Nat := []
  pushNo : Nat := 0
  /-- Queued entries, the one whose words are being issued, and the issued ones, oldest first (R384, R385). -/
  queue : List WEntry := []
  issuing : Option WEntry := none
  running : List WEntry := []
  /-- The virtual address of the page fault that stops the issue of a body (R309, R392). -/
  stopped : Option Nat := none
deriving DecidableEq, Repr

/-- One core: its sequencer, its two engines and the units they drive. -/
structure Core where
  /-- Sequencer registers s0 to s31 (R298). -/
  sregs : List (Nat × W64) := []
  pc : Nat := 0
  /-- The core's program is running: set by START_CONTEXT, cleared by HALT and by a stop. -/
  live : Bool := false
  halted : Bool := false
  /-- The context that runs on the core (CTX_CORE_RUN). -/
  ctx : Option Nat := none
  /-- Operation id of the last ISSUE, 48 bits (R301). -/
  opId : Nat := 0
  /-- Operations that the walker and the W queue have issued on the core. The model's own count: it tells apart operations
  that carry one operation id. -/
  issued : Nat := 0
  /-- Task lists 0 to 7, head first (R244). -/
  tasks : List (Nat × List Op) := []
  runTask : Nat := 0
  /-- Operations issued to the fetch engine that have not started, in issue order (R243). -/
  waiting : List Op := []
  /-- Active stream operations (R243). -/
  streams : List Op := []
  nextStream : Nat := 0
  /-- Armed COL_BARRIERs that the core has issued since START_CONTEXT, by operation id, and whether each is released
  (12 R458). -/
  armed : List (Nat × Bool) := []
  /-- The sequencer is stopped by a page fault at this address (R309, R310). -/
  seqStopped : Option Nat := none
  /-- Operations that a unit has started and holds, stopped at a cursor (R245, R310). -/
  held : List Op := []
  /-- The queue table of the running context, as the two words of each entry (R246, R675). -/
  qtable : List (Nat × (Nat × Nat)) := []
  qhead : List (Nat × Nat) := []
  qtail : List (Nat × Nat) := []
  /-- Event counters (R251). -/
  events : List (Nat × Nat) := []
  /-- The Hoard controller and the W queue. -/
  hoard : Hoard := {}
  /-- Walker frames with operations outstanding (R337). -/
  wlkFrames : List (Nat × List Nat) := []
  /-- Cycles of the progress watchdog's idle count, and what it last saw (18 R616). -/
  wdCount : Nat := 0
deriving DecidableEq, Repr

/-! ### Contexts and jobs (08_jobs_contexts_and_translation.md) -/

/-- The states of CTX_STATE (R314). -/
inductive CtxState where
  | free | loading | loaded | running | stopping | preempted | faulted | unloading
deriving DecidableEq, Repr

/-- The code of a context state in CTX_STATE (R314). -/
def CtxState.code : CtxState → Nat
  | .free => 0 | .loading => 1 | .loaded => 2 | .running => 3
  | .stopping => 4 | .preempted => 5 | .faulted => 6 | .unloading => 7

/-- A section of a job image and the physical address the loader gave it (R288, R521). -/
structure Section where
  va : Nat
  kind : Nat
  core : Nat
  leaf : Nat
  init : Bool
  size : Nat
  imgOff : Nat
  initBytes : Nat
  pa : Nat := 0
deriving DecidableEq, Repr

/-- The CORE item of one core (R521) and where the loader placed its region. -/
structure CoreItem where
  core : Nat
  base : Nat
  bytes : Nat
  qtable : Nat
  entry : Nat := 0
  pa : Nat := 0
deriving DecidableEq, Repr

/-- The HOARD item of one core (R521, 10_backward_pass_and_hoard.md R362). -/
structure HoardItem where
  core : Nat
  task : Nat
  maxFrames : Nat
  resBase : Nat
  resBytes : Nat
  homeBase : Nat
  homeBytes : Nat
  directory : Nat
  wqArea : Nat
deriving DecidableEq, Repr

/-- A MOE_LAYER item (R521, 09_conditional_computation.md R327). -/
structure MoeItem where
  layer : Nat
  k : Nat
  t : Nat
  g : Nat
  e : Nat
  eMax : Nat
  rowBytes : Nat
  send : Nat
  receive : Nat
  ret : Nat
  staging : Nat
  table : Nat
  scratch : Nat
deriving DecidableEq, Repr

/-- A CHANNEL item (R521) and the channel the loader assigned to it. -/
structure ChannelItem where
  role : Nat
  core : Nat
  peer : Nat
  va : Nat
  channel : Nat := 0
deriving DecidableEq, Repr

/-- A DX_SPARSE item (R521, R142). -/
structure DxItem where
  values : Nat
  codes : Nat
  stride : Nat
  dense : Nat
deriving DecidableEq, Repr

/-- What a job declares and what the loader gave it (R286-R289, R521). -/
structure Job where
  mask : Nat := 0
  priority : Nat := 0
  seqSlots : Nat := 0
  /-- The device's sequence slots given to the job, in the job's own numbering (R288). -/
  slotList : List Nat := []
  sections : List Section := []
  coreItems : List CoreItem := []
  hoards : List HoardItem := []
  moe : List MoeItem := []
  channels : List ChannelItem := []
  planAddr : Nat := 0
  planCount : Nat := 0
  /-- Staging slots that the job's plans take, of the device's 16 (R431). -/
  colSlots : Nat := 0
  layerTable : Nat := 0
  layerCount : Nat := 0
  dx : List DxItem := []
  audit : Nat × Nat × Nat × Nat := (0, 0, 0, 0)
  eventChannel : Nat := 0
  /-- The identity that sent LOAD_JOB, which owns the context (R518). -/
  owner : Nat := 0
  /-- The firmware page-table area given to the job: first page, pages used, pages in all (R296). -/
  ptBase : Nat := 0
  ptUsed : List Nat := []
  ptPages : Nat := 0
  saveBase : Nat := 0
deriving DecidableEq, Repr

/-- A bucket of a context's gradient exchange (12_collectives_and_gradient_reduction.md R446-R448). `work` is what the
sequencer keeps of a fired one: its kind, count, step and the phases sent. -/
structure Bucket where
  filled : Nat := 0
  fired : Bool := false
  done : Bool := false
  work : List Nat := []
  stopped : Option Nat := none
deriving DecidableEq, Repr

/-- A collective message from another member (12 R438): who sent it, what it belongs to, and its elements with their
poison. -/
structure ColMsg where
  src : Nat
  group : Nat
  stream : Nat
  seq : Nat
  opcode : Nat
  kind : Nat := 0
  count : Nat := 0
  step : Nat := 0
  phase : Nat := 0
  data : List (Nat × Bool) := []
deriving DecidableEq, Repr

/-- What a fault record says (R304, R305). -/
structure FaultInfo where
  cause : Nat
  ctx : Nat
  engine : Nat
  master : Nat := 0
  opcode : Nat := 0
  opId : Nat := 0
  pc : Nat := 0
  vaddr : Nat := 0
  paddr : Nat := 0
  detail : Nat := 0
  cursor : Nat := 0
deriving DecidableEq, Repr

/-- A context (R290-R316). -/
structure Ctx where
  st : CtxState := .free
  job : Option Job := none
  /-- State saved by a pre-emption, by core: the core's own units and its two arrays (R311). -/
  saved : List (Nat × (Core × DArray × DArray)) := []
  /-- Slot-state entries saved by a pre-emption (R242). -/
  savedSlots : List (Nat × SlotState) := []
  /-- Fault and pre-emption deadlines in µs (R309, R311, SET_CONTEXT_LIMITS). -/
  faultDeadline : Nat := 1000000
  preemptDeadline : Nat := 10000
  /-- A compute reset aborted the context (R626). -/
  aborted : Bool := false
  /-- DDR5 ranges reserved for the context after an abort: virtual address, size, physical address (R678). -/
  reserved : List (Nat × Nat × Nat) := []
  /-- Page faults that wait for their page, oldest first (R309). -/
  pageFaults : List FaultInfo := []
  /-- Time of START_CONTEXT (R303). -/
  startedAt : Nat := 0
  /-- Audit setting in force (R348). -/
  audit : Nat × Nat × Nat × Nat := (0, 0, 0, 0)
  /-- Next sequence number of each collective stream, by group * 4 + stream (R438). -/
  colSeq : List (Nat × Nat) := []
  /-- Buckets by number (R446-R448). -/
  buckets : List (Nat × Bucket) := []
  /-- The step record that armed the buckets (R446). -/
  stepRecord : Nat := 0
  /-- Collective messages that have arrived and are not used up (R439). -/
  inbox : List ColMsg := []
  /-- Collectives that wait for a staging slot, by core and operation id, oldest first (R437). -/
  slotWaits : List (Nat × Nat) := []
deriving DecidableEq, Repr

/-! ### Mailboxes (14_control_mailboxes_and_interrupts.md) -/

/-- The health log that Prois keeps (17_reliability_and_silent_errors.md R610). -/
structure Health where
  /-- Retirements: array, reason (1 flag rule, 2 screen), pass count and time base. -/
  retired : List (Nat × Nat × Nat × Nat) := []
  quick : Nat := 0
  full : Nat := 0
  failed : Nat := 0
  /-- The last eight screen results, newest first. -/
  results : List (List Byte) := []
  /-- Sequence number of the copy it stands in. -/
  seq : Nat := 0
deriving DecidableEq, Repr

namespace Health

/-- A retirement recorded; an array is recorded once. -/
def retire (h : Health) (a reason passes time : Nat) : Health :=
  if h.retired.any (fun e => e.1 = a) then h else { h with retired := h.retired ++ [(a, reason, passes, time)], seq := h.seq + 1 }

end Health

/-- A channel's ring (R506-R511): messages oldest first, at most 16; the slot of the oldest; messages discarded by
overwrites; and the collision mark that the next take reports. -/
structure Ring where
  msgs : List (List Byte) := []
  head : Nat := 0
  overwrites : Nat := 0
  collision : Bool := false
deriving DecidableEq, Repr

/-! ### Rhanak (13_rhanak_links_and_topology.md) -/

/-- A packet: its header and data (R471). -/
structure Packet where
  addr : Nat := 0
  src : Nat := 0
  cls : Nat := 0
  kind : Nat := 0
  ttl : Nat := 63
  len : Nat := 0
  code : Nat := 0
  ctx : Nat := 0
  op : Nat := 0
  poison : Bool := false
  tag : Nat := 0
  cur : Nat := 0
  prev : Nat := 0
  prevValid : Bool := false
  rerouted : Bool := false
  data : List Byte := []
deriving DecidableEq, Repr

/-- A packet in a hold buffer (R475): its hop sequence on the port's link and, for one that continues along a ring, the
port and hop sequence that its own forward acknowledgement is owed to. -/
structure Held where
  seq : Nat
  pkt : Packet
  owed : Option (Nat × Nat) := none
deriving DecidableEq, Repr

/-- What a neighbour announces in its sync flits (R495): root, hops and whether its time base is locked. -/
structure Announce where
  root : Nat
  hops : Nat
  locked : Bool
deriving DecidableEq, Repr

/-- A Rhanak port. What its registers hold stands there. -/
structure RhkPort where
  /-- The next flit's sequence number, 12 bits, and the flits not acknowledged: sequence, type and payload (R474). -/
  txSeq : Nat := 0
  sent : List (Nat × Nat × List Byte) := []
  /-- The flit that was last negatively acknowledged, and how often in a row (R468). -/
  nakSeq : Option Nat := none
  naks : Nat := 0
  /-- The flit sequence that the receiver accepts next, and its consecutive failures. -/
  rxSeq : Nat := 0
  rxFails : Nat := 0
  /-- Packet bytes received that do not make up a whole packet yet (R470). -/
  partialBytes : List Byte := []
  /-- Packets received and not yet looked at, oldest first. -/
  arrived : List Packet := []
  /-- The hold buffer, oldest first (R475). -/
  hold : List Held := []
  /-- Packets that wait for credit or for room in the hold buffer (R473, R475). -/
  waiting : List (Packet × Option (Nat × Nat)) := []
  /-- Next hop sequence of each class (R475). -/
  hop : List (Nat × Nat) := []
  /-- Per class, cur_seq of the last packet accepted, and prev_seq of the last one with prev_valid = 1 (R489). -/
  last : List (Nat × Option Nat) := []
  lastPrev : List (Nat × Option Nat) := []
  /-- Hop sequence that the next packet of a class has on this link as it arrives. -/
  rxHop : List (Nat × Nat) := []
  /-- Credits of each class in use (R473). -/
  used : List (Nat × Nat) := []
  /-- Time of the last good flit, and of the last failed training (R467, R468). -/
  goodAt : Nat := 0
  failedAt : Option Nat := none
  /-- Link delay and the neighbour's offset, in units of 0.125 ns, and its last announcement (R494, R495). -/
  delay : Nat := 0
  offset : Int := 0
  announce : Option Announce := none
  /-- The time stamp of the last sync flit sent, in units of 0.125 ns (R494). -/
  syncSent : Option Nat := none
deriving DecidableEq, Repr

/-- A request sent to another device that is not answered (R483). -/
structure Waiting where
  tag : Nat
  dest : Nat
  master : Nat
  ctx : Nat
  addr : Nat
  sentAt : Nat
deriving DecidableEq, Repr

/-- The link dies. -/
structure Rhk where
  ports : List (Nat × RhkPort) := []
  nextTag : Nat := 0
  waiting : List Waiting := []
  /-- The time base has locked once to a locked neighbour since it restarted, and when the first port came up (R495). -/
  lockedOnce : Bool := false
  firstUp : Option Nat := none
deriving DecidableEq, Repr

/-- Where a command finds the operation it runs: the next one to start, or one that a unit holds already. -/
inductive Pick where
  | start
  | held (id : Nat)
deriving DecidableEq, Repr

/-- A response of another device to a request of this one: its R29 code and, to a read, its data (13 R484). -/
structure Reply where
  code : Nat := 0
  data : List PByte := []
deriving DecidableEq, Repr

/-- What a command's surroundings give it while it runs: the responses of other devices, in the order of the requests,
and the disturbances that its checks are there to find. -/
structure Env where
  replies : List Reply := []
  /-- Positions whose index arithmetic, or whose reduction, disagrees with its residue, once for each disagreement (05
  R180, 12 R461). -/
  residue : List Nat := []
  /-- Accumulators that an array gets wrong, by array and row * outputs + output, with the bits that differ (03
  R111-R117). -/
  upsets : List (Nat × Nat × Nat) := []
  /-- The same for the partner's recomputation (03 R117). -/
  redoUpsets : List (Nat × Nat) := []
  /-- Rows of a pass whose checksum line is at fault, with their array (03 R117). -/
  checkFaults : List (Nat × Nat) := []
  /-- Elements of a vector-engine operation whose residue disagrees, once for each disagreement (17 R591). -/
  veResidue : List Nat := []
  /-- The operands that a recomputation fetches again meet an error response (07 R280). -/
  refetchError : Bool := false
  /-- Operand-buffer words found wrong: the store (0 tile element, 1 tile scale, 2 col_max, 3 row_max, 4 code byte, 5
  block row, 6 bank row, 7 bank output), its slot or bank, the item, and whether it is uncorrectable (03 R124, 06
  R200). -/
  bufErrs : List (Nat × Nat × Nat × Bool) := []
  /-- The core's slot-state entry that is found uncorrectable (06 R211). -/
  slotError : Bool := false
  /-- The Hoard's directory or the W queue's area, whose layout is internal, is read poisoned (10 R391). -/
  hoardPoison : Bool := false
  /-- The address of the group table that WQ_PUSH reads: no field of the operation names it (10 R383, log entry 17). -/
  groupTable : Nat := 0
deriving DecidableEq, Repr

/-- What the device has put on its wires: the output of the last command. -/
inductive Out where
  /-- A response to a request, with its fabric response code and data (R29). -/
  | response (master code : Nat) (data : List PByte)
  /-- A message posted to the board controller or left for a host to receive. -/
  | message (channel : Nat) (bytes : List Byte)
  /-- An Ethernet frame or packet sent to a host identity (15_host_ethernet_interface.md). -/
  | ethernet (kind : String) (peer : Nat) (bytes : List Byte)
  /-- A packet or control word sent on a Rhanak port (13_rhanak_links_and_topology.md). -/
  | rhanak (port : Nat) (kind : String) (words : List Nat)
  /-- A control flit on a fabric link: acknowledgement or negative acknowledgement (R31). -/
  | fabric (link dir : Nat) (kind : String) (seq : Nat)
  /-- Bytes returned to the board controller over SMBus (20_pins_power_rails_and_sequencing.md). -/
  | smbus (bytes : List Byte)
  /-- Bits returned over JTAG (R643). -/
  | jtag (bytes : List Byte)
deriving DecidableEq, Repr

end Sys2Proof.Machine
end

