-- ==== Sys2Proof/Machine/Board.lean ====
section
/-!
DEFINITION. The control die's own state beside its registers: the Ethernet port, power and temperature, screens, boot flash and
the package's pins, as plain data with their values after chip reset.
-/

namespace Sys2Proof.Machine

/-! ### Ethernet (15_host_ethernet_interface.md) -/

/-- A SEND of a channel's message that the host has not acknowledged (R546, R548). -/
structure Sent where
  channel : Nat
  psn : Nat
  bytes : List Byte
  tries : Nat
  at_ : Nat
  /-- The host has answered with RNR NAK: the message waits at the device. -/
  held : Bool := false
deriving DecidableEq, Repr

/-- A queue pair: the fields of its binding (R540) and its transport state. State 0 is unbound, 1 ready and 2 error (R557). -/
structure QPair where
  state : Nat := 0
  identity : Nat := 0
  ctx : Nat := 0
  canWrite : Bool := false
  canRead : Bool := false
  canSend : Bool := false
  ipv6 : Bool := false
  pcp : Nat := 0
  remoteQpn : Nat := 0
  sendPsn : Nat := 0
  recvPsn : Nat := 0
  mtu : Nat := 0
  retries : Nat := 0
  timeout : Nat := 0
  mac : List Byte := []
  ip : List Byte := []
  rkey : Nat := 0
  imm : Nat := 0xFF
  /-- Send rate in 64ths of line rate, minus 1, and the time of its last change or notification (R537). -/
  rate : Nat := 0x3F
  rateAt : Nat := 0
  /-- The time of the last congestion notification sent (R537). -/
  cnpAt : Option Nat := none
  /-- Packets completed and not acknowledged, and when the first of them was (R539). -/
  owed : Nat := 0
  owedAt : Nat := 0
  /-- A NAK has been sent for the packet expected: later ones are dropped until it comes. -/
  asked : Bool := false
  /-- Messages sent and not acknowledged, at most one of a channel. -/
  sent : List Sent := []
deriving DecidableEq, Repr

/-- The settings of SET_ETH_CONFIG (R553) that no register holds. -/
structure EthConfig where
  mac : List Byte := []
  vlan : Nat := 0
  ipv4 : List Byte := []
  ipv4Len : Nat := 0
  ipv6 : List Byte := []
  ipv6Len : Nat := 0
deriving DecidableEq, Repr

/-- The Ethernet port. -/
structure Eth where
  qps : List (Nat × QPair) := []
  /-- Staging windows by identity: base and bytes (R541). -/
  windows : List (Nat × (Nat × Nat)) := []
  config : EthConfig := {}
  /-- The body of a SET_ETH_CONFIG that waits for START_FUNCTION (R553). -/
  next : Option (List Byte) := none
  /-- Lanes that hold PCS lock; the link is up; when alignment was lost (R532). -/
  lanes : Nat := 0
  up : Bool := false
  /-- Bytes that each priority holds in the receive buffer, priorities that the device has paused, and priorities that the
  peer has paused (R536). -/
  fill : List (Nat × Nat) := []
  pausing : Nat := 0
  paused : Nat := 0
  /-- Times of the management datagrams answered and of the echo replies, newest first (R533, R551). -/
  mgmtAt : List Nat := []
  echoAt : List Nat := []
  lldpAt : Option Nat := none
  /-- RESET_DONE of the last chip reset waits for the Ethernet function, with the kind of the reset (14 R529, R552). -/
  greet : Option Nat := none
deriving DecidableEq, Repr

/-! ### Power and temperature (16_power_thermal_and_measurement.md) -/

/-- An episode of a throttle reason: when it began, its lowest step and its highest duty (R571, R572). -/
structure Episode where
  since : Nat
  step : Nat
  duty : Nat
deriving DecidableEq, Repr

/-- Power and thermal control. -/
structure Power where
  /-- The thermal limit, a frequency step (R576). -/
  thermal : Nat := 44
  /-- The loop's last throttling was for power (R565); none when it does not throttle. -/
  loopReason : Option Nat := none
  /-- The last write of PWR_FREQ (R567), and whether the watchdog's limit holds. -/
  freqAt : Nat := 0
  forced : Bool := false
  /-- The settings that the loop put out last, and the window in which they last changed (R565). -/
  changedIn : Option Nat := none
  /-- Junction sensors that stand above t_warn and above t_hot, until 3 °C below (R576). -/
  warm : List Nat := []
  hot : List Nat := []
  /-- Sensors that read 115 °C or more in the last sample (R578). -/
  trip : List Nat := []
  /-- A sensor has done so in two consecutive samples. -/
  tripDue : Bool := false
  /-- DDR5 channels whose module sensor stands above ddr_hot (R579), and those with doubled refresh (06 R235). -/
  ddrHot : List Nat := []
  refresh2 : List Nat := []
  /-- Islands that droop stretches (R573). -/
  stretched : List Nat := []
  /-- Reasons that are active, with their episodes (R571). -/
  active : List (Nat × Episode) := []
  /-- The time up to which PWR_THR_NS is counted. -/
  countedAt : Nat := 0
  /-- Times of the THROTTLE events sent, by reason (R572). -/
  events : List (Nat × List Nat) := []
  /-- Energy below one microjoule, in nanojoules: of the total at 16, of context n at n (R581). -/
  rest : List (Nat × Nat) := []
deriving DecidableEq, Repr

/-! ### Screens (17_reliability_and_silent_errors.md) -/

/-- What a test pack's screens use of it: its version, whether it was installed, and its entries as pairs of words 0 and 1 of
R606. -/
structure Pack where
  version : Nat := 0
  installed : Bool := false
  entries : List (Nat × Nat) := []
  hash : List Byte := []
deriving DecidableEq, Repr

/-- A failed test: its id, class and the units that failed it, the bits of other units in the result, and the engine code of
its first failed unit (R603, R606). -/
structure FailedTest where
  id : Nat
  cls : Nat
  units : Nat
  other : Nat := 0
  engine : Nat := 0xFF
deriving DecidableEq, Repr

/-- The running screen (R594-R603). -/
structure Screen where
  /-- Kind of R594. -/
  kind : Nat
  startedAt : Nat
  deadline : Nat
  /-- The reply channel and tag of the RUN_SCREEN that asked for it. -/
  asked : Option (Nat × Nat) := none
  pack : Pack := {}
  run : Nat := 0
  failed : List FailedTest := []
  tested : Nat := 0
  /-- Slices each array has completed and still owes (R597). -/
  slices : List (Nat × (Nat × Nat)) := []
  /-- Fabric links and DDR5 channels that failed the checks of R601. -/
  links : Nat := 0
  channels : Nat := 0
  /-- The modules' capacities differ (06 R228). -/
  mismatch : Bool := false
  /-- A compute reset has ended it (R602). -/
  aborted : Bool := false
deriving DecidableEq, Repr

/-! ### Boot flash (19_boot_security_and_defaults.md) -/

/-- The boot flash, area by area (R632). -/
structure Flash where
  identity : List Byte := []
  /-- The two copies of the configuration record (R636): body, signer key and signature, and the tail's fields (R637). -/
  records : List (Nat × List Byte) := []
  /-- The two copies of the health log, with their CRC good or not (17 R610). -/
  logs : List (Nat × (Bool × Health)) := []
  /-- Serial numbers of the modules that the stored training is for (06 R234). -/
  training : List Nat := []
  /-- Image slots A and B. -/
  slots : List (Nat × List Byte) := []
  testPack : List Byte := []
deriving DecidableEq, Repr

/-- What the control processors run (R633, R646). -/
inductive Firmware where
  | none | rom | prois
deriving DecidableEq, Repr

/-- The boot state: what runs, the record in use, the running image and the pack in use. -/
structure Boot where
  runs : Firmware := .none
  /-- Which copy of the record is in use; none where no copy is valid (R636). -/
  record : Option Nat := none
  image : List Byte := []
  pack : Pack := {}
  /-- The power-on screen is over, and jobs are accepted (17 R594). -/
  screened : Bool := false
  /-- The time of the last kick of the firmware watchdog (18 R620). -/
  kickAt : Nat := 0
  /-- When the last screen of any kind ended (17 R595). -/
  screenedAt : Nat := 0
  /-- A chip reset that has been asked for and not begun: its kind, and whether it keeps DDR5 (18 R619, R620). -/
  due : Option (Nat × Bool) := none
  /-- The same of a compute reset: its cause and its guilty context (18 R617, R618). -/
  computeDue : Option (Nat × Option Nat) := none
  /-- Fragments of quotes that wait for room on their channel, oldest first (R642). -/
  quotes : List (Nat × List Byte) := []
deriving DecidableEq, Repr

/-! ### Pins (20_pins_power_rails_and_sequencing.md) -/

/-- The instructions of the TAP (19 R643). -/
inductive TapInstr where
  | bypass | idcode | sample | extest | clamp | highz | debug
deriving DecidableEq, Repr

/-- The state of the package's low-speed pins and of the TAP. -/
structure Pins where
  /-- All rails are in their bands (R651). -/
  power : Bool := true
  /-- RESET_N is held low. -/
  resetLow : Bool := false
  prochotLow : Bool := false
  /-- THERMTRIP_N is asserted (R578). -/
  tripped : Bool := false
  /-- The TAP's state (19 R643): 0 locked, 1 boundary, 2 debug; and the instruction it holds (R667). -/
  tap : Nat := 0
  ir : TapInstr := .idcode
  /-- A boundary-scan instruction that drives the pins (R643), and the boundary cells. -/
  boundary : Option (TapInstr × List Bool) := none
deriving DecidableEq, Repr

/-- The SMBus slave (R663-R665). -/
structure SmBus where
  partial_ : Option (List Byte) := none
  readBuf : Option (List Byte) := none
  window : Nat := 0
  offset : Nat := 0
  /-- The slave acknowledges from this time on (R663). -/
  readyAt : Nat := 1000000
deriving DecidableEq, Repr

end Sys2Proof.Machine
end

