-- ==== Sys2Proof/Machine/Dev.lean ====
section
/-!
DEFINITION. The device's compute side, memory, control die and their registers as one record, and its accessors.
-/

namespace Sys2Proof.Machine

/-- A compute reset in progress (18_hang_detection_reset_and_recovery.md R621-R627). -/
structure CompReset where
  cause : Nat
  t0 : Nat
  guilty : Option Nat
  /-- The drain time is over (R621 step 3). -/
  drained : Bool := false
deriving DecidableEq, Repr

/-- The device but for its fabric links. -/
structure Dev where
  regs : RegFile := []
  mem : MemSys := {}
  rhk : Rhk := {}
  arrays : List (Nat × DArray) := []
  cores : List (Nat × Core) := []
  ctxs : List (Nat × Ctx) := []
  rings : List (Nat × Ring) := []
  /-- Event masks and event sequence numbers by channel (14 R524). -/
  eventMask : List (Nat × Nat) := []
  eventSeq : List (Nat × Nat) := []
  /-- The time base TB_NOW in ns (16 R582). -/
  now : Nat := 0
  /-- Free values drawn so far: the model's own counter, not the spec's. -/
  fresh : Nat := 0
  /-- Number of the next fault record (R304). -/
  recSeq : Nat := 0
  /-- Records that wait for space in the fault ring, oldest first (R306). -/
  pendingRecs : List (List Byte) := []
  reset : Option CompReset := none
  /-- The health log (17 R610). -/
  health : Health := {}
  /-- Functions that are stopped (14 R522): bit f for function f. -/
  stops : Nat := 0
  /-- Counter values that Prois has read in husks since chip reset, by register and field (17 R609). -/
  totals : List (Nat × Nat) := []
  eth : Eth := {}
  power : Power := {}
  screen : Option Screen := none
  boot : Boot := {}
  flash : Flash := {}
  pins : Pins := {}
  smbus : SmBus := {}
  /-- What the command's surroundings give it; empty between commands. -/
  env : Env := {}
  out : List Out := []
deriving DecidableEq, Repr

/-- What an unlisted context is: context 0 runs after chip reset, the others are free (R315). -/
def ctxDefault (n : Nat) : Ctx := if n = 0 then { st := .running } else {}

/-- What an unlisted array, core, ring or slot-state entry is. -/
def arrayDefault (_ : Nat) : DArray := {}
/-- An unlisted core. -/
def coreDefault (_ : Nat) : Core := {}
/-- An unlisted ring. -/
def ringDefault (_ : Nat) : Ring := {}
/-- An unlisted slot-state entry (R241). -/
def slotDefault (_ : Nat) : SlotState := {}

namespace Dev

/-- A register's stored value. -/
def rd (d : Dev) (r : Reg) (w j : Nat := 0) : Nat := (d.regs.rd r w j).toNat

/-- A register stored by the device. -/
def wr (d : Dev) (r : Reg) (w j v : Nat) : Dev := { d with regs := d.regs.wr r w j (BitVec.ofNat 64 v) }

/-- A field's value. -/
def fld (d : Dev) (x : Field) (w j : Nat := 0) : Nat := d.regs.fld x w j

/-- Whether a field is nonzero. -/
def isSet (d : Dev) (x : Field) (w j : Nat := 0) : Bool := d.regs.isSet x w j

/-- A field set by the device. -/
def setFld (d : Dev) (x : Field) (w j v : Nat) : Dev := { d with regs := d.regs.setFld x w j v }

/-- A status bit set by the device. -/
def raise (d : Dev) (x : Field) (w : Nat := 0) (j : Nat := 0) : Dev := { d with regs := d.regs.raise x w j }

/-- A status bit set when a condition holds. -/
def raiseIf (d : Dev) (c : Bool) (x : Field) (w : Nat := 0) (j : Nat := 0) : Dev := if c then d.raise x w j else d

/-- A counter raised by `k`. -/
def bump (d : Dev) (x : Field) (w j k : Nat) : Dev := { d with regs := d.regs.bump x w j k }

/-- Core c. -/
def core (d : Dev) (c : Nat) : Core := Sp.get coreDefault d.cores c

/-- Core c replaced. -/
def setCore (d : Dev) (c : Nat) (x : Core) : Dev := { d with cores := Sp.set coreDefault d.cores c x }

/-- Core c changed by a function. -/
def onCore (d : Dev) (c : Nat) (f : Core → Core) : Dev := d.setCore c (f (d.core c))

/-- Array a. -/
def array (d : Dev) (a : Nat) : DArray := Sp.get arrayDefault d.arrays a

/-- Array a replaced. -/
def setArray (d : Dev) (a : Nat) (x : DArray) : Dev := { d with arrays := Sp.set arrayDefault d.arrays a x }

/-- Array a changed by a function. -/
def onArray (d : Dev) (a : Nat) (f : DArray → DArray) : Dev := d.setArray a (f (d.array a))

/-- Context n. -/
def ctx (d : Dev) (n : Nat) : Ctx := Sp.get ctxDefault d.ctxs n

/-- Context n replaced. -/
def setCtx (d : Dev) (n : Nat) (x : Ctx) : Dev := { d with ctxs := Sp.set ctxDefault d.ctxs n x }

/-- Context n changed by a function. -/
def onCtx (d : Dev) (n : Nat) (f : Ctx → Ctx) : Dev := d.setCtx n (f (d.ctx n))

/-- The context that runs on core c, as CTX_CORE_RUN shows it (08 R314): a faulted context's state stays in its core for
diagnosis (R307), and it no longer runs there (log entry 71). -/
def runsOn (d : Dev) (c : Nat) : Option Nat :=
  match (d.core c).ctx with
  | some n => if (d.ctx n).st = .running ∨ (d.ctx n).st = .stopping then some n else none
  | none => none

/-- Channel c's ring. -/
def ring (d : Dev) (c : Nat) : Ring := Sp.get ringDefault d.rings c

/-- Channel c's ring replaced. -/
def setRing (d : Dev) (c : Nat) (x : Ring) : Dev := { d with rings := Sp.set ringDefault d.rings c x }

/-- A slot-state entry: core c's entry i at 4,096c + i, block slot s of array a at 16,384 + 8a + s. -/
def slot (d : Dev) (k : Nat) : SlotState := Sp.get slotDefault d.mem.slots k

/-- A slot-state entry replaced. -/
def setSlot (d : Dev) (k : Nat) (x : SlotState) : Dev :=
  { d with mem := { d.mem with slots := Sp.set slotDefault d.mem.slots k x } }

/-- Memory changed by a function. -/
def onMem (d : Dev) (f : MemSys → MemSys) : Dev := { d with mem := f d.mem }

/-- The supplies are in their bands and RESET_N is high (20 R651, R657): the device's blocks run. -/
def awake (d : Dev) : Bool := d.pins.power && !d.pins.resetLow

/-- An output of the command. -/
def emit (d : Dev) (o : Out) : Dev := { d with out := d.out ++ [o] }

/-- The next free value of `w` bits, and the device with its counter advanced (log entry 2). -/
def draw (d : Dev) (w : Nat) : Nat × Dev := ((Config.freeValue w d.fresh).toNat, { d with fresh := d.fresh + 1 })

/-- The device ID in use (R477); every link die holds the same. -/
def deviceId (d : Dev) : Nat := d.fld F.RHK_DEV_ID_id

/-- Whether the device ID is valid (R477). -/
def idValid (d : Dev) : Bool := d.isSet F.RHK_DEV_ID_valid

/-- Cache split n (R214): values above 8 act as 8. -/
def split (d : Dev) : Nat := min 8 (d.fld F.SHM_CACHE_CFG_steps)

/-- The job loaded in a context, empty when there is none. -/
def job (d : Dev) (n : Nat) : Job := (d.ctx n).job.getD {}

end Dev

end Sys2Proof.Machine
end

