-- ==== Sys2Proof/Machine/SymbolCode.lean ====
section
/-!
DEFINITION. The DDR5 symbol code (06_memory_hierarchy.md R230-R232): RS(80,64) over GF(2^8), decoded with and without
an erased device. Errors are lists of (symbol, nonzero error value); the code is linear, so a decoder's answer depends
on the errors alone.
-/

namespace Sys2Proof.Machine

/-- Product in GF(2^8) by the field polynomial x^8 + x^4 + x^3 + x^2 + 1 (R230). -/
def gfMul (a b : Nat) : Nat :=
  ((List.range 8).foldl (fun (acc : Nat × Nat) i =>
    let p := if b.testBit i then acc.1 ^^^ acc.2 else acc.1
    let s := acc.2 * 2
    (p, if s < 256 then s else s ^^^ 0x11D)) (0, a)).1

/-- The k-th power of α = 2. -/
def gfPow : Nat → Nat
  | 0 => 1
  | k + 1 => gfMul 2 (gfPow k)

/-- Inverse in GF(2^8), the 254th power. -/
def gfInv (a : Nat) : Nat :=
  let a2 := gfMul a a
  let a4 := gfMul a2 a2
  let a8 := gfMul a4 a4
  let a16 := gfMul a8 a8
  let a32 := gfMul a16 a16
  let a64 := gfMul a32 a32
  let a128 := gfMul a64 a64
  gfMul (gfMul (gfMul a2 a4) (gfMul a8 a16)) (gfMul (gfMul a32 a64) a128)

/-- Sum of polynomials, coefficients from the constant upwards. -/
def polyAdd : List Nat → List Nat → List Nat
  | [], q => q
  | p, [] => p
  | a :: p, b :: q => (a ^^^ b) :: polyAdd p q

/-- A polynomial times a constant. -/
def polyScale (c : Nat) (p : List Nat) : List Nat := p.map (gfMul c)

/-- Product of polynomials. -/
def polyMul : List Nat → List Nat → List Nat
  | [], _ => []
  | a :: p, q => polyAdd (polyScale a q) (0 :: polyMul p q)

/-- A polynomial without its zero leading coefficients. -/
def polyTrim (p : List Nat) : List Nat := (p.reverse.dropWhile (· == 0)).reverse

/-- A polynomial's value. -/
def polyEval (p : List Nat) (x : Nat) : Nat := p.foldr (fun a acc => a ^^^ gfMul x acc) 0

/-- The formal derivative in characteristic 2: the odd coefficients, one place down. -/
def polyDeriv (p : List Nat) : List Nat := (p.zipIdx.map (fun (a, i) => if i % 2 = 1 then a else 0)).drop 1

/-- Quotient and remainder of polynomials, with fuel for the quotient's length. -/
def polyDivMod : Nat → List Nat → List Nat → List Nat × List Nat
  | 0, p, _ => ([], polyTrim p)
  | fuel + 1, p, q =>
    let p := polyTrim p
    let q := polyTrim q
    if q.length = 0 ∨ p.length < q.length then ([], p)
    else
      let c := gfMul (p.getLastD 0) (gfInv (q.getLastD 0))
      let mono := List.replicate (p.length - q.length) 0 ++ [c]
      let (d, r) := polyDivMod fuel (polyAdd p (polyMul mono q)) q
      (polyAdd mono d, r)

/-- Euclid's algorithm on (r', t') and (r, t) until the remainder's degree is below half of `bound`. -/
def keyEquation : Nat → Nat → List Nat → List Nat → List Nat → List Nat → List Nat × List Nat
  | 0, _, _, _, r, t => (r, t)
  | fuel + 1, bound, r', t', r, t =>
    if 2 * (polyTrim r).length < bound + 2 then (polyTrim r, t)
    else
      let (q, rem) := polyDivMod 40 r' r
      keyEquation fuel bound r t rem (polyAdd t' (polyMul q t))

/-- The field element that locates a symbol. R230 does not say which power of x carries symbol s (log entry 11). -/
def symbolLocator (s : Nat) : Nat := gfPow (Config.symbolPower s % 255)

/-- The 16 syndromes of an error pattern, at the roots α^0 to α^15 (R230). -/
def syndromes (errs : List (Nat × Nat)) : List Nat :=
  (List.range 16).map (fun j =>
    errs.foldl (fun acc (s, v) => acc ^^^ gfMul v (gfPow (j * (Config.symbolPower s % 255)))) 0)

/-- The error pattern that the decoder finds for a received word, or none when it finds no codeword within its reach:
8 errors, or 4 beyond an erased device's 8 symbols (R231, R232). -/
def rsDecode (errs : List (Nat × Nat)) (erased : List Nat) : Option (List (Nat × Nat)) :=
  let syn := syndromes errs
  let gamma := erased.foldl (fun p s => polyMul p [1, symbolLocator s]) [1]
  let xi := (polyMul syn gamma).take 16
  let (omega, lam) := keyEquation 20 (16 + erased.length) (List.replicate 16 0 ++ [1]) [] xi [1]
  let c := gfInv (lam.headD 0)
  let psi := polyTrim (polyMul (polyScale c lam) gamma)
  let om := polyScale c omega
  let dpsi := polyDeriv psi
  let found := (List.range 80).filterMap (fun s =>
    let x := symbolLocator s
    let xi := gfInv x
    if polyEval psi xi = 0 then some (s, gfMul x (gfMul (polyEval om xi) (gfInv (polyEval dpsi xi)))) else none)
  if lam.headD 0 = 0 ∨ found.length + 1 ≠ psi.length ∨ syndromes found ≠ syn then none
  else some (found.filter (fun e => e.2 ≠ 0))

/-- The error pattern of a poisoned codeword: every check symbol XOR 0x5A (R232). -/
def poisonPattern : List (Nat × Nat) := (List.range 16).map (fun i => (64 + i, 0x5A))

/-- Two error patterns added, symbol by symbol. -/
def addErrs (a b : List (Nat × Nat)) : List (Nat × Nat) :=
  (List.range 80).filterMap (fun s =>
    let v := (a ++ b).foldl (fun acc e => if e.1 = s then acc ^^^ e.2 else acc) 0
    if v = 0 then none else some (s, v))

/-- What a read of a codeword finds (R231, R232). -/
inductive SymOutcome where
  | clean
  | poisoned
  /-- Corrected by the given pattern; what remains wrong afterwards is the difference from the true errors. -/
  | corrected (found : List (Nat × Nat))
  | uncorrectable
deriving DecidableEq, Repr

/-- The outcome of reading a codeword with errors, with its poison mark and the erased device of its subchannel. Without
an erasure, 8 or fewer errors are always corrected (R231); every other pattern is what the decoder makes of it
(R232). -/
def symRead (poison : Bool) (errs : List (Nat × Nat)) (device : Option Nat) : SymOutcome :=
  let erased := match device with | none => [] | some d => (List.range 8).map (fun i => 8 * d + i)
  let all := addErrs (if poison then poisonPattern else []) errs
  let beyond := all.filter (fun e => !erased.contains e.1)
  if all = [] then .clean
  else if all = poisonPattern ∨ syndromes all = syndromes poisonPattern then .poisoned
  else if device.isNone ∧ all.length ≤ 8 ∨ device.isSome ∧ beyond.length ≤ 4 then .corrected all
  else
    match rsDecode all erased with
    | some f => .corrected f
    | none => .uncorrectable

end Sys2Proof.Machine
end

