-- ==== Sys2Proof/Machine/Memory.lean ====
section
/-!
DEFINITION. Physical memory: the address map (01 R36-R39), the interleaves, correction and poison in SRAM and DDR5, and
the cache (06_memory_hierarchy.md R198-R236). Latent errors are part of the state; a read, a scrub, a patrol and a
partial write decide them.
-/

namespace Sys2Proof.Machine

/-- The fabric response codes of R29. -/
inductive Code where
  | okay | fenced | drainError | poison | decodeErr | accessErr | pathErr
deriving DecidableEq, Repr

/-- The 3-bit encoding of R29. -/
def Code.toNat : Code → Nat
  | .okay => 0 | .fenced => 1 | .drainError => 2 | .poison => 3 | .decodeErr => 4 | .accessErr => 5 | .pathErr => 6

/-- The dies that requests start from (01 R18). -/
inductive Die where
  | fd (core : Nat)
  | vd (core : Nat)
  | xd
  | cd
  | link (n : Nat)
deriving DecidableEq, Repr

/-- Who asks: master identity (R12), context, the cache hint Stream (R217) and the die that the request starts from. -/
structure Req where
  master : Nat := 0
  ctx : Nat := 0
  stream : Bool := false
  die : Die := .cd
deriving DecidableEq, Repr

/-- What the address map finds at a local physical address (R36). -/
inductive Home where
  | ddr
  | shared (core : Nat)
  | coreMem (core : Nat)
  | regs
  | none
deriving DecidableEq, Repr

/-! ### Address arithmetic -/

/-- The first address of shared memory, of core memory and of register space (R36). -/
def sharedBase : Nat := 0x100000000000
/-- The first address of core 0's memory (R36). -/
def coreBase : Nat := 0x110000000000
/-- The first address of register space (R36). -/
def regBase : Nat := 0x1F0000000000

/-- The first physical address of core c's memory (R36). -/
def coreMemBase (c : Nat) : Nat := coreBase + c * 0x10000000

/-- SRAM die of a shared-memory address (R212). -/
def sramDie (a : Nat) : Nat :=
  let o := a - sharedBase
  8 * (o >>> 30) + ((o >>> 11) &&& 7)

/-- Byte offset inside its SRAM die of a shared-memory address (R212). -/
def sramOffset (a : Nat) : Nat :=
  let o := a - sharedBase
  (((o &&& 0x3FFFFFFF) >>> 14) <<< 11) ||| (o &&& 0x7FF)

/-- DDR5 channel of an address (R229). -/
def ddrChannel (a : Nat) : Nat := bits a 12 8 ^^^ bits a 17 13 ^^^ bits a 22 18 ^^^ bits a 27 23

/-- Channel-local address (R229). -/
def ddrLocal (a : Nat) : Nat := ((a >>> 13) <<< 8) ||| (a &&& 0xFF)

/-- Subchannel of a codeword: bytes 0-63 and 128-191 of a line on 0, the others on 1 (R229). -/
def ddrSub (a : Nat) : Nat := bits a 6 6

/-- Home core of a DDR5 line (R216). -/
def cacheHome (a : Nat) : Nat := ((a >>> 12) ^^^ (a >>> 20)) &&& 3

/-- Multiples of `g` that a byte range touches. -/
def granules (g a len : Nat) : List Nat :=
  if len = 0 then [] else (List.range ((a + len - 1) / g - a / g + 1)).map (fun i => (a / g + i) * g)

/-- The canonical form of memory (log entry 3): addresses strictly rising, and no entry equal to the zero that an unlisted
address reads as. -/
def Memory.wf (cells : List Host.Cell) : Bool := Sp.wf (fun _ => (0 : Byte)) cells

namespace Dev

/-- Bytes of DDR5 installed: 32 modules at the capacity of the smallest (R227, R228). -/
def ddrBytes (d : Dev) : Nat :=
  match d.mem.modules with
  | [] => 0
  | m :: ms => if d.mem.ddrUp then 32 * (ms.foldl (fun a x => min a x.capacity) m.capacity) * 2 ^ 30 else 0

/-- The populated target of an address (R36, R214, R228); register space by its listed windows (R38). -/
def home (d : Dev) (a : Nat) : Home :=
  if a < 0x80000000000 then (if a < d.ddrBytes then .ddr else .none)
  else if sharedBase ≤ a ∧ a < sharedBase + 2 ^ 32 then
    let o := a - sharedBase
    if o % 2 ^ 30 < 2 ^ 30 - d.split * 0x2000000 then .shared (o >>> 30) else .none
  else if coreBase ≤ a ∧ a < coreBase + 4 * 0x10000000 then
    let o := a - coreBase
    if o % 0x10000000 < 0x4000000 then .coreMem (o / 0x10000000) else .none
  else if regBase ≤ a ∧ a < regBase + 2 ^ 32 then
    let w := (a - regBase) / 2 ^ 24
    if Reg.all.any (fun r => r.row.window ≤ w && w < r.row.window + r.row.windows) then .regs else .none
  else .none

/-! ### Fabric paths (01 R24, R29, R34, R40) -/

/-- The fabric links between a die and the exchange die (01 R24). -/
def toXd : Die → List Nat
  | .fd c => [20 + c]
  | .vd c => [24 + c]
  | .xd => []
  | .cd => [42]
  | .link n => [36 + n]

/-- The fabric links on the path between a die and one half of a core (log entry 25): the near half needs none, the far
half of the same core the bridge between them. -/
def toHalf (c : Nat) (onFd : Bool) : Die → List Nat
  | .fd k => if k = c then (if onFd then [] else [16 + c]) else [20 + k, if onFd then 20 + c else 24 + c]
  | .vd k => if k = c then (if onFd then [16 + c] else []) else [24 + k, if onFd then 20 + c else 24 + c]
  | x => toXd x ++ [if onFd then 20 + c else 24 + c]

/-- The fabric links on the path of a request to a physical address (01 R19, R24, 06 R201, R212). -/
def path (d : Dev) (x : Die) (a : Nat) : List Nat :=
  match d.home a with
  | .ddr => toXd x ++ [28 + ddrChannel a / 4]
  | .shared c =>
    let onFd := decide (sramDie a % 8 < 4)
    toHalf c onFd x ++ [if onFd then 43 + 2 * c else 44 + 2 * c]
  | .coreMem c => toHalf c (decide ((a - coreBase) % 0x10000000 < 0x2000000)) x
  | .regs => if x = .cd then [] else toXd x ++ [42]
  | .none => []

/-- The first failed fabric link on a path (01 R34). -/
def failedOn (d : Dev) (p : List Nat) : Option Nat := p.find? (fun b => d.fld F.FAB_LINK_STATUS_state 0 b == 3)

/-- FAB_ERR_ADDR and FAB_ERR_INFO capture while bits [4:1] of FAB_ERR_STATUS are all 0 (R40). -/
def fabCapture (d : Dev) (addr master link ctx code : Nat) : Dev :=
  if bits (d.rd .FAB_ERR_STATUS) 4 1 = 0 then
    (d.wr .FAB_ERR_ADDR 0 0 addr).wr .FAB_ERR_INFO 0 0 (master % 256 * 2 ^ 24 + link % 256 * 2 ^ 16 + ctx % 16 * 2 ^ 8 + code % 8)
  else d

/-- An error response noted (R40): `addr` is the global address of the request. -/
def fabError (d : Dev) (rq : Req) (addr code : Nat) (link : Option Nat) : Dev :=
  let d := if code = 4 ∨ code = 5 ∨ code = 6 then d.fabCapture addr rq.master (link.getD 0xFF) rq.ctx code else d
  if code = 4 then d.raise F.FAB_ERR_STATUS_decode_err
  else if code = 5 then d.raise F.FAB_ERR_STATUS_access_err
  else if code = 6 then d.raise F.FAB_ERR_STATUS_path_err
  else d

/-- The R29 code that a request of a core or of a remote device meets at a physical address, before its data, with the
failed link: register space is closed to it (R39). -/
def accessCode (d : Dev) (rq : Req) (pa : Nat) : Nat × Option Nat :=
  match d.home pa with
  | .none => (4, none)
  | .regs => (5, none)
  | _ =>
    match d.failedOn (d.path rq.die pa) with
    | some b => (6, some b)
    | none => (0, none)

/-! ### Cells and marks -/

/-- The byte stored at an address; an unlisted byte is 0 (R241, R234). -/
def cell (d : Dev) (a : Nat) : Byte := Sp.get (fun _ => 0) d.mem.cells a

/-- A byte stored. -/
def setCell (d : Dev) (a : Nat) (b : Byte) : Dev :=
  d.onMem (fun m => { m with cells := Sp.set (fun _ => 0) m.cells a b })

/-- Whether the 8-byte word that holds an address is poisoned. -/
def poisoned (d : Dev) (a : Nat) : Bool := Sp.get (fun _ => false) d.mem.poison (a / 8 * 8)

/-- A word's poison mark set or cleared. -/
def setPoison (d : Dev) (a : Nat) (p : Bool) : Dev :=
  d.onMem (fun m => { m with poison := Sp.set (fun _ => false) m.poison (a / 8 * 8) p })

/-- The 8 words of a DDR5 codeword marked. -/
def setPoison64 (d : Dev) (a : Nat) (p : Bool) : Dev :=
  (granules 8 (a / 64 * 64) 64).foldl (fun d w => d.setPoison w p) d

/-- A byte with its poison. -/
def peek (d : Dev) (a : Nat) : PByte := { val := d.cell a, poison := d.poisoned a }

/-- The bytes of a range with their poison, as they are stored. -/
def peekRange (d : Dev) (a len : Nat) : List PByte := (List.range len).map (fun i => d.peek (a + i))

/-- One bit of a word's data inverted. -/
def flipBit (d : Dev) (w i : Nat) : Dev :=
  if i < 64 then d.setCell (w + i / 8) (d.cell (w + i / 8) ^^^ BitVec.ofNat 8 (2 ^ (i % 8))) else d

/-! ### SRAM words (R222, R223) -/

/-- Wrong bits of a word. -/
def flipsAt (d : Dev) (w : Nat) : List Nat := Sp.get (fun _ => []) d.mem.flips w

/-- A word's wrong bits replaced. -/
def setFlips (d : Dev) (w : Nat) (l : List Nat) : Dev :=
  d.onMem (fun m => { m with flips := Sp.set (fun _ => []) m.flips w l })

/-- An SRAM block whose registers count an error: core memory of a core, or shared memory with the cache. -/
inductive Sram where
  | cmem (c : Nat)
  | shm (c : Nat)
deriving DecidableEq, Repr

/-- A corrected word counted. -/
def countCe (d : Dev) : Sram → Dev
  | .cmem c => (d.bump F.CMEM_CE_CNT_words c 0 1).raise F.CMEM_ERR_STATUS_ce c
  | .shm c => (d.bump F.SHM_CE_CNT_words c 0 1).raise F.SHM_ERR_STATUS_ce c

/-- The capture word of CMEM_ERR_ADDR and SHM_ERR_ADDR (R239). -/
def errAddr (rq : Req) (scrub : Bool) (a : Nat) : Nat :=
  if scrub then 2 ^ 51 + a % 2 ^ 48 else rq.master * 2 ^ 56 + rq.ctx % 16 * 2 ^ 52 + a % 2 ^ 48

/-- ERR_ADDR captures while bits [2:1] of ERR_STATUS are 0 (R239). -/
def captureSram (d : Dev) (b : Sram) (rq : Req) (scrub : Bool) (a : Nat) : Dev :=
  match b with
  | .cmem c => if bits (d.rd .CMEM_ERR_STATUS c) 2 1 = 0 then d.wr .CMEM_ERR_ADDR c 0 (errAddr rq scrub a) else d
  | .shm c => if bits (d.rd .SHM_ERR_STATUS c) 2 1 = 0 then d.wr .SHM_ERR_ADDR c 0 (errAddr rq scrub a) else d

/-- An uncorrectable word counted and captured (R223, R239). -/
def countUe (d : Dev) (b : Sram) (rq : Req) (scrub : Bool) (a : Nat) : Dev :=
  let d := d.captureSram b rq scrub a
  match b with
  | .cmem c => (d.bump F.CMEM_UE_CNT_words c 0 1).raise F.CMEM_ERR_STATUS_ue c
  | .shm c => (d.bump F.SHM_UE_CNT_words c 0 1).raise F.SHM_ERR_STATUS_ue c

/-- Number of ones in a byte. -/
def weight8 (n : Nat) : Nat := (List.range 8).foldl (fun a i => a + b2n (n.testBit i)) 0

/-- The syndrome of a set of wrong bits, over a poisoned word's 0xFF (R223). -/
def syndrome (poison : Bool) (l : List Nat) : Nat :=
  l.foldl (fun a i => a ^^^ (Config.secdedColumn i).toNat) (if poison then 0xFF else 0)

/-- One SRAM word read and decoded (R222, R223): a single wrong bit is corrected, two poison the word, and more, or any
on a poisoned word, go by their syndrome. The stored word is rewritten as the read leaves it. -/
def touchWord (d : Dev) (b : Sram) (rq : Req) (scrub : Bool) (w : Nat) : Dev :=
  let l := d.flipsAt w
  let p := d.poisoned w
  let s := syndrome p l
  let d0 := d.setFlips w []
  let ue := (d0.countUe b rq scrub w).setPoison w true
  if l = [] then d
  else if !p && l.length == 1 then d0.countCe b
  else if s = 0xFF then d0.setPoison w true
  else if !p && l.length == 2 then ue
  else if s = 0 then (l.foldl (fun d i => d.flipBit w i) d0).setPoison w false
  else if weight8 s % 2 = 0 then ue
  else
    match (List.range 72).find? (fun i => (Config.secdedColumn i).toNat == s) with
    | none => ue
    | some j => (((l ++ [j]).foldl (fun d i => d.flipBit w i) d0).setPoison w false).countCe b

/-! ### DDR5 codewords (R230-R232) -/

/-- Wrong symbols of a codeword. -/
def symErrsAt (d : Dev) (cw : Nat) : List (Nat × Nat) := Sp.get (fun _ => []) d.mem.symErrs cw

/-- A codeword's wrong symbols replaced. -/
def setSymErrs (d : Dev) (cw : Nat) (l : List (Nat × Nat)) : Dev :=
  d.onMem (fun m => { m with symErrs := Sp.set (fun _ => []) m.symErrs cw l })

/-- The erased device of a codeword's subchannel, from DDR_CH_ERASE (R231, R240). -/
def erasedDevice (d : Dev) (cw : Nat) : Option Nat :=
  let ch := ddrChannel cw
  if ddrSub cw = 0 then
    (if d.isSet F.DDR_CH_ERASE_erased0 (ch / 4) (ch % 4) then some (d.fld F.DDR_CH_ERASE_device0 (ch / 4) (ch % 4)) else none)
  else
    (if d.isSet F.DDR_CH_ERASE_erased1 (ch / 4) (ch % 4) then some (d.fld F.DDR_CH_ERASE_device1 (ch / 4) (ch % 4)) else none)

/-- DDR_ERR_ADDR captures while ue and poison_written are 0 (R240). -/
def captureDdr (d : Dev) (rq : Req) (patrol : Bool) (cw : Nat) : Dev :=
  let ch := ddrChannel cw
  let n := ch / 4
  if d.isSet F.DDR_ERR_STATUS_ue n || d.isSet F.DDR_ERR_STATUS_poison_written n then d
  else
    d.wr .DDR_ERR_ADDR n 0 ((if patrol then 2 ^ 51 else rq.master * 2 ^ 56 + rq.ctx % 16 * 2 ^ 52)
      + ch % 4 * 2 ^ 48 + cw % 2 ^ 48)

/-- The corrections of a subchannel within its last 2^24 reads, the devices `devs` having just corrected one more (R231). -/
def recentCorrections (sc : Subchannel) (devs : List Nat) : List (Nat × Nat) :=
  (devs.map (fun v => (v, sc.reads)) ++ sc.corrections).filter (fun e => sc.reads - e.2 < 2 ^ 24)

/-- A device of a codeword's subchannel is marked erased, one device a subchannel (R231, step DEVICE_ERASE). -/
def eraseDevice (d : Dev) (cw v : Nat) : Dev :=
  let ch := ddrChannel cw
  if !d.isSet F.DDR_CTRL_erase_en (ch / 4) || (d.erasedDevice cw).isSome then d
  else
    let d := d.raise F.DDR_ERR_STATUS_device_erased (ch / 4)
    if ddrSub cw = 0 then (d.setFld F.DDR_CH_ERASE_device0 (ch / 4) (ch % 4) v).raise F.DDR_CH_ERASE_erased0 (ch / 4) (ch % 4)
    else (d.setFld F.DDR_CH_ERASE_device1 (ch / 4) (ch % 4) v).raise F.DDR_CH_ERASE_erased1 (ch / 4) (ch % 4)

/-- Corrections noted against their devices; a device that has corrected more codewords than erase_threshold within
2^24 reads of its subchannel is marked erased (R231). -/
def noteCorrections (d : Dev) (cw : Nat) (found : List (Nat × Nat)) : Dev :=
  let k := 2 * ddrChannel cw + ddrSub cw
  let sc := Sp.get (fun _ => ({} : Subchannel)) d.mem.subchannels k
  let devs := (found.map (fun e => e.1 / 8)).eraseDups
  let cs := recentCorrections sc devs
  let d := d.onMem (fun m => { m with subchannels := Sp.set (fun _ => {}) m.subchannels k { sc with corrections := cs } })
  let limit := d.fld F.DDR_CTRL_erase_threshold (ddrChannel cw / 4)
  match devs.find? (fun v => decide (limit < (cs.filter (fun e => e.1 = v)).length)) with
  | none => d
  | some v => d.eraseDevice cw v

/-- One DDR5 codeword read and decoded (R231, R232), and rewritten as the read leaves it. -/
def touchCodeword (d : Dev) (rq : Req) (patrol : Bool) (cw : Nat) : Dev :=
  let ch := ddrChannel cw
  let k := 2 * ch + ddrSub cw
  let sc := Sp.get (fun _ => ({} : Subchannel)) d.mem.subchannels k
  let d := d.onMem (fun m =>
    { m with subchannels := Sp.set (fun _ => {}) m.subchannels k { sc with reads := sc.reads + 1 } })
  let errs := d.symErrsAt cw
  if errs = [] then d
  else
    match symRead (d.poisoned cw) errs (d.erasedDevice cw) with
    | .clean => d.setSymErrs cw []
    | .poisoned => (d.setSymErrs cw []).setPoison64 cw true
    | .corrected found =>
      let true_ := addErrs (if d.poisoned cw then poisonPattern else []) errs
      let left := addErrs true_ found
      let d := (d.setSymErrs cw []).setPoison64 cw false
      let d := left.foldl (fun d e =>
        if e.1 < 64 then d.setCell (cw + e.1) (d.cell (cw + e.1) ^^^ BitVec.ofNat 8 e.2) else d) d
      ((d.bump F.DDR_CH_CE_CNT_codewords (ch / 4) (ch % 4) 1).raise F.DDR_ERR_STATUS_ce (ch / 4)).noteCorrections cw found
    | .uncorrectable =>
      let d := d.captureDdr rq patrol cw
      let d := (d.bump F.DDR_CH_UE_CNT_codewords (ch / 4) (ch % 4) 1).raise F.DDR_ERR_STATUS_ue (ch / 4)
      (d.setSymErrs cw []).setPoison64 cw true

/-! ### The cache (R214-R221) -/

/-- A core's cache slice, most recently used line first. -/
def slice (d : Dev) (h : Nat) : List CacheLine := Sp.get (fun _ => []) d.mem.cache h

/-- A core's cache slice replaced. -/
def setSlice (d : Dev) (h : Nat) (l : List CacheLine) : Dev :=
  d.onMem (fun m => { m with cache := Sp.set (fun _ => []) m.cache h l })

/-- A dirty line written to DDR5 (R218): its words are read by the SECDED rule, and a codeword with a poisoned word is
written as poison. The codewords get fresh check symbols. -/
def writeBack (d : Dev) (h line : Nat) : Dev :=
  let d := (granules 8 line 256).foldl (fun d w => d.touchWord (.shm h) { master := 0 } false w) d
  let d := (granules 64 line 256).foldl (fun d cw =>
    let d := d.setSymErrs cw []
    if (granules 8 cw 64).any (fun w => d.poisoned w) then
      ((d.captureDdr {} false cw).raise F.DDR_ERR_STATUS_poison_written (ddrChannel cw / 4)).setPoison64 cw true
    else d) d
  d.bump F.SHM_CACHE_WB_CNT_lines h 0 1

/-- Every dirty line of a core's slice written back and every line invalidated (R220, R242). -/
def flushSlice (d : Dev) (h : Nat) : Dev :=
  ((d.slice h).foldl (fun d l => if l.dirty then d.writeBack h l.line else d) d).setSlice h []

/-- Every slice flushed. -/
def flushCache (d : Dev) : Dev := (List.range 4).foldl flushSlice d

/-- Tag errors met in the set of a line (R221): one bad copy is repaired from the other; two bad copies lose the line,
whose newest data, when it was dirty, is unknown. -/
def tagCheck (d : Dev) (h line : Nat) : Dev :=
  let set := Config.cacheSet d.split line
  let errs := (Sp.get (fun _ => []) d.mem.tagErrs h).filter (fun e => Config.cacheSet d.split e.1 = set)
  errs.foldl (fun d e =>
    let left := (Sp.get (fun _ => []) d.mem.tagErrs h).filter (fun x => x.1 ≠ e.1)
    let d := d.onMem (fun m => { m with tagErrs := Sp.set (fun _ => []) m.tagErrs h left })
    if e.2 < 2 then d.raise F.SHM_ERR_STATUS_tag_ce h
    else
      let d := d.raise F.SHM_ERR_STATUS_tag_fatal h
      match (d.slice h).find? (fun l => l.line = e.1) with
      | none => d
      | some l =>
        let d := d.setSlice h ((d.slice h).filter (fun x => x.line ≠ e.1))
        if l.dirty then
          (List.range 256).foldl (fun d i => let (v, d) := d.draw 8; d.setCell (e.1 + i) (BitVec.ofNat 8 v)) d
        else d) d

/-- The lowest-numbered unused way of a set, if one is unused (R218). -/
def freeWay (l : List CacheLine) (set : Nat) : Option Nat :=
  (List.range 16).find? (fun w => !l.any (fun x => x.set == set && x.way == w))

/-- A line filled into its home slice (R217, R218): its four codewords are read, and the least recently used way makes
room when no way is unused. -/
def fillLine (d : Dev) (rq : Req) (h line : Nat) : Dev :=
  let set := Config.cacheSet d.split line
  let d := (granules 64 line 256).foldl (fun d cw => d.touchCodeword rq false cw) d
  match freeWay (d.slice h) set with
  | some w => d.setSlice h ({ line, set, way := w, dirty := false } :: d.slice h)
  | none =>
    match (d.slice h).reverse.find? (fun x => x.set = set) with
    | none => d
    | some v =>
      let d := if v.dirty then d.writeBack h v.line else d
      d.setSlice h ({ line, set, way := v.way, dirty := false } :: (d.slice h).filter (fun x => x.line ≠ v.line))

/-- Whether a line is cached, after the tag check of its home slice; a hit makes it the most recently used, a miss fills
it unless the hint is Stream (R216, R217). With split 0 no tag is checked. -/
def cacheAccess (d : Dev) (rq : Req) (line : Nat) (write : Bool) : Bool × Dev :=
  if d.split = 0 then (false, d)
  else
    let h := cacheHome line
    let d := d.tagCheck h line
    let mark := fun (x : CacheLine) => { x with dirty := x.dirty || write }
    match (d.slice h).find? (fun x => x.line = line) with
    | some x =>
      let d := d.bump F.SHM_CACHE_HIT_CNT_lines h 0 1
      (true, d.setSlice h (mark x :: (d.slice h).filter (fun y => y.line ≠ line)))
    | none =>
      let d := d.bump F.SHM_CACHE_MISS_CNT_lines h 0 1
      if rq.stream then (false, d)
      else
        let d := d.fillLine rq h line
        (true, d.setSlice h ((d.slice h).map (fun y => if y.line = line then mark y else y)))

/-! ### Reads and writes of memory -/

/-- A range of one memory level read: every granule it touches is decoded; the bytes then stand as stored (R198). -/
def readMem (d : Dev) (rq : Req) (a len : Nat) : List PByte × Dev :=
  match d.home a with
  | .coreMem c =>
    let d := (granules 8 a len).foldl (fun d w => d.touchWord (.cmem c) rq false w) d
    (d.peekRange a len, d)
  | .shared c =>
    let d := (granules 8 a len).foldl (fun d w => d.touchWord (.shm c) rq false w) d
    (d.peekRange a len, d)
  | .ddr =>
    let d := (granules 256 a len).foldl (fun d line =>
      let lo := max a line
      let n := min (a + len) (line + 256) - lo
      let (hit, d) := d.cacheAccess rq line false
      if hit then (granules 8 lo n).foldl (fun d w => d.touchWord (.shm (cacheHome line)) rq false w) d
      else (granules 64 lo n).foldl (fun d cw => d.touchCodeword rq false cw) d) d
    (d.peekRange a len, d)
  | _ => ([], d)

/-- One granule written (R224, R225): `size` is 8 in SRAM and 64 in DDR5; `touch` is the read of a partial write. Clean
data over the whole granule clears its poison and its latent errors, poisoned data poisons it, and a partial write
leaves a poisoned granule poisoned. -/
def writeGranule (d : Dev) (size g a : Nat) (bs : List PByte) (touch : Dev → Nat → Dev) : Dev :=
  let lo := max a g
  let hi := min (a + bs.length) (g + size)
  let part := (bs.drop (lo - a)).take (hi - lo)
  let whole := lo = g ∧ hi = g + size
  let d := if whole then (if size = 8 then d.setFlips g [] else d.setSymErrs g []) else touch d g
  let p := part.any PByte.poison || (!decide whole && (granules 8 g size).any (fun w => d.poisoned w))
  let d := part.zipIdx.foldl (fun d (b, i) => d.setCell (lo + i) b.val) d
  (granules 8 g size).foldl (fun d w => d.setPoison w p) d

/-- A range of one memory level written, read-modify-write where a granule is written in part (R198, R224, R225). -/
def writeMem (d : Dev) (rq : Req) (a : Nat) (bs : List PByte) : Dev :=
  let dirty := bs.any PByte.poison
  match d.home a with
  | .coreMem c =>
    (granules 8 a bs.length).foldl (fun d g => d.writeGranule 8 g a bs (fun d w => d.touchWord (.cmem c) rq false w)) d
  | .shared c =>
    let d := (granules 8 a bs.length).foldl (fun d g =>
      d.writeGranule 8 g a bs (fun d w => d.touchWord (.shm c) rq false w)) d
    if dirty then (d.captureSram (.shm c) rq false (a / 8 * 8)).raise F.SHM_ERR_STATUS_poison_written c else d
  | .ddr =>
    (granules 256 a bs.length).foldl (fun d line =>
      let lo := max a line
      let n := min (a + bs.length) (line + 256) - lo
      let part := (bs.drop (lo - a)).take n
      let (hit, d) := d.cacheAccess rq line true
      if hit then
        (granules 8 lo n).foldl (fun d g =>
          d.writeGranule 8 g lo part (fun d w => d.touchWord (.shm (cacheHome line)) rq false w)) d
      else
        let d := (granules 64 lo n).foldl (fun d g =>
          d.writeGranule 64 g lo part (fun d cw => d.touchCodeword rq false cw)) d
        (granules 64 lo n).foldl (fun d g =>
          if (part.drop (max lo g - lo)).take (min (lo + n) (g + 64) - max lo g) |>.any PByte.poison then
            (d.captureDdr rq false g).raise F.DDR_ERR_STATUS_poison_written (ddrChannel g / 4)
          else d) d) d
  | _ => d

/-- Poison grown to whole 128-byte flits in transit (R224). -/
def transit (a : Nat) (bs : List PByte) : List PByte :=
  bs.zipIdx.map (fun (b, i) =>
    { b with poison := bs.zipIdx.any (fun (x, j) => x.poison && (a + j) / 128 == (a + i) / 128) })

/-- Bytes without poison. -/
def clean (bs : List Byte) : List PByte := bs.map (fun b => { val := b })

/-- A range written with clean bytes, and its poison marks cleared, by no request of a master. -/
def pokeRange (d : Dev) (a : Nat) (bs : List Byte) : Dev :=
  bs.zipIdx.foldl (fun d (b, i) => (d.setCell (a + i) b).setPoison (a + i) false) d

/-- A range set to zeros with valid check bits: cells, marks and latent errors dropped (R234, R241). -/
def zeroRange (d : Dev) (a len : Nat) : Dev :=
  let out := fun (k : Nat) => !(decide (a ≤ k) && decide (k < a + len))
  d.onMem (fun m => { m with
    cells := m.cells.filter (fun e => out e.1)
    poison := m.poison.filter (fun e => out e.1)
    flips := m.flips.filter (fun e => out e.1)
    symErrs := m.symErrs.filter (fun e => out e.1) })

end Dev

end Sys2Proof.Machine
end

