-- ==== Sys2Proof/Machine/Mailbox.lean ====
section
/-!
DEFINITION. Messages, the mailbox unit and the interrupt tree (14_control_mailboxes_and_interrupts.md R502-R527).
-/

namespace Sys2Proof.Machine

/-- A message of R502 with its header fields. -/
structure Msg where
  code : Nat := 0
  status : Nat := 0
  flags : Nat := 0
  channel : Nat := 0
  context : Nat := 0
  length : Nat := 0
  tag : Nat := 0
  arg0 : Nat := 0
  body : List Byte := []
deriving DecidableEq, Repr

/-- The bytes of a message: its 16-byte header and its body (R502). -/
def Msg.toBytes (m : Msg) : List Byte :=
  leBytes 2 m.code ++ leBytes 1 m.status ++ leBytes 1 m.flags ++ leBytes 1 m.channel ++ leBytes 1 m.context
    ++ leBytes 2 m.length ++ leBytes 4 m.tag ++ leBytes 4 m.arg0 ++ m.body

/-- `n` bytes of a byte string from an offset, as a number. -/
def field (bs : List Byte) (off n : Nat) : Nat := leNat ((bs.drop off).take n)

/-- The message that a byte string holds (R502). -/
def Msg.ofBytes (bs : List Byte) : Msg where
  code := field bs 0 2
  status := field bs 2 1
  flags := field bs 3 1
  channel := field bs 4 1
  context := field bs 5 1
  length := field bs 6 2
  tag := field bs 8 4
  arg0 := field bs 12 4
  body := (bs.drop 16).take (field bs 6 2)

/-- What the command table says of a command (R520): its body length, the privileges that it admits, whether it uses the context
field and arg0, the functions that must be stopped, and whether it touches the compute function. -/
structure CmdInfo where
  len : Nat
  allow : List Nat
  ctx : Bool := false
  arg0 : Bool := false
  /-- Byte offsets of the body that are reserved: offset and length. -/
  reserved : List (Nat × Nat) := []
  compute : Bool := false
deriving DecidableEq, Repr

/-- The privileges of R518. -/
def allowAll : List Nat := [0, 1, 2, 3]
/-- B and M. -/
def allowBM : List Nat := [1, 3]
/-- J and M. -/
def allowJM : List Nat := [2, 3]
/-- M. -/
def allowM : List Nat := [3]

/-- The command table (R520). -/
def cmdInfo (code : Nat) : Option CmdInfo :=
  match code with
  | 0x0001 => some { len := 0, allow := allowAll }
  | 0x0002 => some { len := 0, allow := allowAll }
  | 0x0003 => some { len := 0, allow := allowAll, arg0 := true }
  | 0x0004 => some { len := 0, allow := allowAll, arg0 := true }
  | 0x0005 => some { len := 0, allow := allowJM, ctx := true }
  | 0x0006 => some { len := 0, allow := allowJM, ctx := true, arg0 := true }
  | 0x0008 => some { len := 0, allow := allowBM, arg0 := true }
  | 0x0009 => some { len := 0, allow := [1, 2, 3], arg0 := true }
  | 0x0010 => some { len := 1, allow := allowM, arg0 := true }
  | 0x0011 => some { len := 0, allow := allowM, arg0 := true }
  | 0x0012 => some { len := 1, allow := allowBM, arg0 := true }
  | 0x0020 => some { len := 17, allow := allowJM, ctx := true, compute := true }
  | 0x0021 => some { len := 0, allow := allowJM, ctx := true, compute := true }
  | 0x0022 => some { len := 0, allow := allowJM, ctx := true, compute := true }
  | 0x0023 => some { len := 0, allow := allowJM, ctx := true, arg0 := true, compute := true }
  | 0x0024 => some { len := 0, allow := allowJM, ctx := true, compute := true }
  | 0x0025 => some { len := 0, allow := allowJM, ctx := true, compute := true }
  | 0x0026 => some { len := 22, allow := allowJM, ctx := true, compute := true }
  | 0x0027 => some { len := 4, allow := allowJM, ctx := true, arg0 := true }
  | 0x0028 => some { len := 16, allow := allowJM, ctx := true, reserved := [(3, 1)], compute := true }
  | 0x0030 => some { len := 0, allow := allowM, arg0 := true, compute := true }
  | 0x0031 => some { len := 0, allow := allowBM, arg0 := true }
  | 0x0032 => some { len := 4, allow := allowM, arg0 := true, compute := true }
  | 0x0033 => some { len := 16, allow := allowM }
  | 0x0040 => some { len := 16, allow := allowM, reserved := [(1, 1), (6, 2)] }
  | 0x0041 => some { len := 0, allow := allowM, arg0 := true }
  | 0x0042 => some { len := 0, allow := allowM, arg0 := true }
  | 0x0043 => some { len := 3, allow := allowM, arg0 := true }
  | 0x0044 => some { len := 0, allow := allowM, arg0 := true }
  | 0x0045 => some { len := 6, allow := allowM, reserved := [(3, 1)] }
  | 0x0048 => some { len := 6, allow := allowM, arg0 := true }
  | 0x0050 => some { len := 48, allow := allowM, reserved := [(18, 6), (41, 7)] }
  | 0x0051 => some { len := 72, allow := allowM }
  | 0x0060 => some { len := 32, allow := allowAll }
  | 0x0061 => some { len := 25, allow := allowM, reserved := [(1, 7)] }
  | 0x0062 => some { len := 16, allow := allowM }
  | _ => none

/-- Statuses of R504. -/
def sOK : Nat := 0
/-- BUSY. -/
def sBUSY : Nat := 1
/-- REFUSED_RESOURCE. -/
def sREFUSED : Nat := 2
/-- BAD_ARG. -/
def sBADARG : Nat := 3
/-- NOT_STOPPED. -/
def sNOTSTOPPED : Nat := 4
/-- DENIED. -/
def sDENIED : Nat := 5
/-- FAULTED. -/
def sFAULTED : Nat := 6
/-- COLLATERAL. -/
def sCOLLATERAL : Nat := 8
/-- UNSUPPORTED. -/
def sUNSUPPORTED : Nat := 9
/-- TIMEOUT. -/
def sTIMEOUT : Nat := 10

/-- The port of a message in MBX_ERR_INFO (R528). -/
inductive MbxPort where
  | processor | core | ethernet | smbus
deriving DecidableEq, Repr

/-- The port's code (R528). -/
def MbxPort.code : MbxPort → Nat
  | .processor => 0 | .core => 1 | .ethernet => 2 | .smbus => 3

/-- A binding entry of MBX_BIND (R506, R528). -/
structure Binding where
  valid : Bool
  owner : Nat
  privilege : Nat
  dbBit : Nat
  reply : Nat
  receiver : Nat
  sender : Nat
deriving DecidableEq, Repr

namespace Dev

/-- Channel c's binding. -/
def binding (d : Dev) (c : Nat) : Binding where
  valid := d.isSet F.MBX_BIND_valid 0 c
  owner := d.fld F.MBX_BIND_owner 0 c
  privilege := d.fld F.MBX_BIND_privilege 0 c
  dbBit := d.fld F.MBX_BIND_db_bit 0 c
  reply := d.fld F.MBX_BIND_reply 0 c
  receiver := d.fld F.MBX_BIND_receiver 0 c
  sender := d.fld F.MBX_BIND_sender 0 c

/-- Channel c bound. -/
def bind (d : Dev) (c : Nat) (b : Binding) : Dev :=
  d.wr .MBX_BIND 0 c (b2n b.valid * 2 ^ 63 + b.owner % 16 * 2 ^ 36 + b.privilege % 4 * 2 ^ 34 + b.dbBit % 32 * 2 ^ 22
    + b.reply % 64 * 2 ^ 16 + b.receiver % 256 * 2 ^ 8 + b.sender % 256)

/-- The binding entry with every field 0. -/
def unbind (d : Dev) (c : Nat) : Dev := d.wr .MBX_BIND 0 c 0

/-- A dropped message noted: MBX_ERR_INFO captures while bits 2 and 0 of MBX_ERR_STATUS are both 0 (R528). -/
def mbxDrop (d : Dev) (x : Field) (sender channel : Nat) (port : MbxPort) : Dev :=
  let free := !d.isSet F.MBX_ERR_STATUS_bind_violation && !d.isSet F.MBX_ERR_STATUS_overlong
  let d := if free then d.wr .MBX_ERR_INFO 0 0 (sender % 256 * 2 ^ 16 + channel % 64 * 2 ^ 8 + port.code) else d
  d.raise x

/-- A message put into a channel's ring; the 17th discards the oldest and marks the collision (R510). A message for a
control processor rings the binding's doorbell (R515). -/
def ringPut (d : Dev) (c : Nat) (bs : List Byte) : Dev :=
  let r := d.ring c
  let d :=
    if r.msgs.length < 16 then d.setRing c { r with msgs := r.msgs ++ [bs] }
    else
      ((d.setRing c { r with msgs := r.msgs.drop 1 ++ [bs], head := (r.head + 1) % 16
                             overwrites := satAdd 32 r.overwrites 1, collision := true }).setFld
        F.MBX_COLL_coll 0 0 (d.fld F.MBX_COLL_coll ||| 2 ^ c)).raise F.MBX_ERR_STATUS_collision
  let b := d.binding c
  if b.receiver < 4 then d.setFld F.MBX_DB_bits 0 b.receiver (d.fld F.MBX_DB_bits 0 b.receiver ||| 2 ^ b.dbBit) else d

/-- A message that Prois puts on a channel; one for the board controller raises board_msg (R527). -/
def proisPut (d : Dev) (c : Nat) (bs : List Byte) : Dev :=
  let d := d.ringPut c bs
  if c = 1 then d.setFld F.INT_FW_board_msg 0 0 1 else d

/-- The next fragment of a quote that waits for room on a channel is put there (19 R642). -/
def feed (d : Dev) (c : Nat) : Dev :=
  match d.boot.quotes.find? (fun q => q.1 = c) with
  | some q =>
    if (d.ring c).msgs.length < 16 then ({ d with boot := { d.boot with quotes := d.boot.quotes.erase q } }).proisPut c q.2 else d
  | none => d

/-- The oldest message of a channel taken; after an overwrite it carries the collision flag, and the mark is cleared
(R509, R511). A quote that waits for room goes on. board_msg says that a message waits on channel 1 (R528; log entry 72). -/
def ringTake (d : Dev) (c : Nat) : Option (List Byte) × Dev :=
  let r := d.ring c
  match r.msgs with
  | [] => (none, d)
  | m :: ms =>
    let m' := if r.collision then
        let x := Msg.ofBytes m
        ({ x with flags := x.flags ||| 4 } : Msg).toBytes
      else m
    let d := d.setRing c { r with msgs := ms, head := (r.head + 1) % 16, collision := false }
    (some m', (if c = 1 ∧ ms = [] then d.setFld F.INT_FW_board_msg 0 0 0 else d).feed c)

/-- The empty marker that a take on an empty channel gives (R503, R513). -/
def emptyMarker : List Byte := List.replicate 16 0

/-- A response or event sent by Prois on a channel: in one message, or in fragments of 240 bytes of body with the more
flag on all but the last (R505). -/
def proisSend (d : Dev) (c : Nat) (m : Msg) (body : List Byte) : Dev :=
  let n := max 1 (ceilDiv body.length 240)
  (List.range n).foldl (fun d i =>
    let part := (body.drop (240 * i)).take 240
    let fl := m.flags ||| (if i + 1 < n then 8 else 0)
    d.proisPut c ({ m with channel := c, flags := fl, length := part.length, body := part } : Msg).toBytes) d

/-- A response on the reply channel (R519), with the command's code and tag. -/
def respond (d : Dev) (reply : Nat) (m : Msg) (status : Nat) (body : List Byte) : Dev :=
  d.proisSend reply { code := m.code, status, flags := 1, context := m.context, tag := m.tag } body

/-- Messages with codes that the command table does not list, at the head of a channel, are answered with UNSUPPORTED (R503). -/
def answerUnlisted : Nat → Nat → Dev → Dev
  | 0, _, d => d
  | n + 1, c, d =>
    let b := d.binding c
    match (d.ring c).msgs with
    | [] => d
    | m :: _ =>
      let x := Msg.ofBytes m
      if d.boot.runs = .none ∨ 4 ≤ b.receiver ∨ b.valid = false ∨ (cmdInfo x.code).isSome then d
      else
        let d := (d.ringTake c).2
        answerUnlisted n c (d.respond b.reply x sUNSUPPORTED [])

/-- A message handled by the mailbox unit on its arrival (R506, R509, R510, R515, R528), and the answer to an unlisted code
(R503): whether it was accepted. -/
def mbxArrive (d : Dev) (sender channel : Nat) (port : MbxPort) (bs : List Byte) : Bool × Dev :=
  let b := d.binding channel
  let coreOk := !(decide (0x10 ≤ sender) && decide (sender ≤ 0x13)) || (d.core (sender - 0x10)).ctx == some b.owner
  if 240 < field bs 6 2 then (false, d.mbxDrop F.MBX_ERR_STATUS_overlong sender channel port)
  else if !b.valid || b.sender != sender || !coreOk then (false, d.mbxDrop F.MBX_ERR_STATUS_bind_violation sender channel port)
  else (true, answerUnlisted 16 channel (d.ringPut channel (bs.take (16 + field bs 6 2))))

/-! ### Interrupt tree (R525-R527) -/

/-- The leaf word of a summary bit (R525). -/
def leafWord (d : Dev) (b : Nat) : Nat :=
  if b = 0 then bits (d.rd .FAB_ERR_STATUS) 4 0
  else if b = 1 then bits (d.rd .COL_ERR_STATUS) 8 0
  else if b = 2 then bits (d.rd .CTX_ERR_STATUS) 3 0
  else if b ≤ 10 then bits (d.rd .DA_ERR_STATUS (b - 3)) 5 0 + bits (d.rd .DA_SP_ERR (b - 3)) 1 0 * 2 ^ 8
  else if b ≤ 14 then bits (d.rd .FD_ERR_STATUS (b - 11)) 3 0 + bits (d.rd .WLK_ERR_STATUS (b - 11)) 3 0 * 2 ^ 4
  else if b ≤ 18 then
    bits (d.rd .HD_ERR_STATUS (b - 15)) 3 0 + bits (d.rd .WQ_ERR_STATUS (b - 15)) 3 0 * 2 ^ 4
      + bits (d.rd .UPD_ERR_STATUS (b - 15)) 5 0 * 2 ^ 8 + bits (d.rd .VE_ERR_STATUS (b - 15)) 1 0 * 2 ^ 16
  else if b ≤ 22 then bits (d.rd .GME_ERR_STATUS (b - 19)) 5 0
  else if b ≤ 26 then bits (d.rd .CMEM_ERR_STATUS (b - 23)) 2 0
  else if b ≤ 30 then bits (d.rd .SHM_ERR_STATUS (b - 27)) 4 0
  else if b ≤ 38 then bits (d.rd .DDR_ERR_STATUS (b - 31)) 4 0
  else if b ≤ 44 then bits (d.rd .RHK_ERR_STATUS (b - 39)) 6 0
  else if b = 45 then bits (d.rd .MBX_ERR_STATUS) 2 0
  else if b = 46 then d.rd .PWR_ERR_STATUS
  else if b = 47 then d.rd .TEL_ERR_STATUS
  else if b = 48 then d.rd .ETH_ERR_STATUS
  else if b = 49 then d.rd .SEC_ERR_STATUS
  else if b = 50 then d.rd .RST_ERR_STATUS
  else if b = 51 then d.rd .SCR_ERR_STATUS
  else if b = 52 then d.rd .SMB_ERR_STATUS
  else if b = 53 then bits (d.rd .INT_FW) 5 0
  else 0

/-- INT_SUM: each summary bit is the OR of its enabled leaves (R525). -/
def intSum (d : Dev) : Nat :=
  (List.range 64).foldl (fun a b => if d.leafWord b &&& d.rd .INT_LEAF_EN 0 b = 0 then a else a + 2 ^ b) 0

/-- ALERT_N is asserted (R527). -/
def alert (d : Dev) : Bool := decide (d.intSum &&& d.rd .INT_ALERT_EN ≠ 0) || d.isSet F.INT_ALERT_force

/-- Control processor p is interrupted (R516). -/
def interrupted (d : Dev) (p : Nat) : Bool :=
  decide (d.fld F.MBX_DB_bits 0 p &&& d.fld F.MBX_DB_MASK_mask 0 p ≠ 0) || decide (d.intSum &&& d.rd .INT_EN 0 p ≠ 0)

/-! ### Events (R524) -/

/-- The event sequence number of a channel, advanced by one for the event sent. -/
def nextEvent (d : Dev) (c : Nat) : Nat × Dev :=
  let n := Sp.get (fun _ => 0) d.eventSeq c
  (n, { d with eventSeq := Sp.set (fun _ => 0) d.eventSeq c ((n + 1) % 2 ^ 32) })

/-- An event message sent on a channel (R502, R524). -/
def eventOn (d : Dev) (c code context : Nat) (body : List Byte) : Dev :=
  let (n, d) := d.nextEvent c
  d.proisSend c { code, flags := 2, context, tag := n } body

/-- A context event, on the event channel of the context's job (R524). -/
def contextEvent (d : Dev) (n code : Nat) (body : List Byte) : Dev :=
  match (d.ctx n).job with
  | none => d
  | some j => d.eventOn j.eventChannel code n body

/-- A device event, on every reply channel whose mask enables it (R524). -/
def deviceEvent (d : Dev) (code : Nat) (body : List Byte) : Dev :=
  (List.range 64).foldl (fun d c =>
    if bit (Sp.get (fun _ => 0) d.eventMask c) (code - 0x8001) then d.eventOn c code 0 body else d) d

end Dev

end Sys2Proof.Machine
end

