-- ==== Sys2Proof/Machine/Faults.lean ====
section
/-!
DEFINITION. Fault records, the fault ring, fatal faults and page faults
(08_jobs_contexts_and_translation.md R304-R309, steps FATAL_FAULT, FAULT_RECORD_WRITE and PAGE_FAULT).
-/

namespace Sys2Proof.Machine

namespace FaultInfo

/-- The 64 bytes of a fault record (R304): `kind` is 0 fatal, 1 page fault, 2 collateral. -/
def toBytes (f : FaultInfo) (kind time device seq : Nat) : List Byte :=
  wordBytes [time, device * 2 ^ 48 + f.vaddr % 2 ^ 48, f.opcode % 256 * 2 ^ 48 + f.opId % 2 ^ 48,
    f.detail % 2 ^ 32 * 2 ^ 32 + f.master % 256 * 2 ^ 24 + kind * 2 ^ 20 + f.ctx % 16 * 2 ^ 16 + f.engine % 256 * 2 ^ 8
      + f.cause % 256,
    f.paddr % 2 ^ 48, f.cursor % 2 ^ 48, f.pc % 2 ^ 64, seq % 2 ^ 32]

end FaultInfo

namespace Dev

/-- The fault ring is full (R314). -/
def ringFull (d : Dev) : Bool := (d.fld F.CTX_RING_PTR_tail + 1) % 256 == d.fld F.CTX_RING_PTR_head

/-- One record written at the ring's tail in shared memory (R306). -/
def ringWrite (d : Dev) (rec : List Byte) : Dev :=
  let t := d.fld F.CTX_RING_PTR_tail
  let base := d.fld F.CTX_RING_BASE_base * 2 ^ 14
  (d.pokeRange (base + 64 * t) rec).setFld F.CTX_RING_PTR_tail 0 0 ((t + 1) % 256)

/-- A record posted: into the ring, or, when the ring is full or others wait before it, to wait for space (R306). -/
def postRecord (d : Dev) (rec : List Byte) : Dev :=
  if d.ringFull || !d.pendingRecs.isEmpty then
    { d with pendingRecs := d.pendingRecs ++ [rec] }.raise F.CTX_ERR_STATUS_ring_stall
  else d.ringWrite rec

/-- Waiting records written while the ring has space, after Prois has advanced its head (R306). -/
def drainRecords : Nat → Dev → Dev
  | 0, d => d
  | n + 1, d =>
    match d.pendingRecs with
    | [] => d
    | r :: rs => if d.ringFull then d else drainRecords n ({ d with pendingRecs := rs }.ringWrite r)

/-- A record formed with the present time, device ID and record number (R304). -/
def formRecord (d : Dev) (f : FaultInfo) (kind : Nat) : List Byte × Dev :=
  (f.toBytes kind d.now d.deviceId d.recSeq, { d with recSeq := (d.recSeq + 1) % 2 ^ 32 })

/-- The first fatal record of a context kept in CTX_FREC (R306). -/
def keepRecord (d : Dev) (n : Nat) (rec : List Byte) : Dev :=
  (List.range 8).foldl (fun d w => d.wr .CTX_FREC 0 (8 * n + w) (field rec (8 * w) 8)) d

/-- The record that CTX_FREC holds for a context. -/
def keptRecord (d : Dev) (n : Nat) : List Byte := wordBytes ((List.range 8).map (fun w => d.rd .CTX_FREC 0 (8 * n + w)))

/-- CTX_FREC of a context cleared (R306, FREC_CLR). -/
def clearRecord (d : Dev) (n : Nat) : Dev := (List.range 8).foldl (fun d w => d.wr .CTX_FREC 0 (8 * n + w) 0) d

/-- A fatal fault (R307): the record, its counters and leaves; the context's sequencers stop and it enters the faulted
state, its state kept. In a context that already stops or is faulted only the record and the count are added. -/
def fatal (d : Dev) (f : FaultInfo) : Dev :=
  let (rec, d) := d.formRecord f 0
  let d := (d.bump F.CTX_FAULT_CNT_fatal 0 f.ctx 1).raise F.CTX_ERR_STATUS_fatal
  let d := d.raiseIf (f.cause == 0x0B) F.CTX_ERR_STATUS_poison
  let d := d.postRecord rec
  let x := d.ctx f.ctx
  if x.st = .faulted ∨ x.st = .stopping then d
  else
    let d := d.keepRecord f.ctx rec
    let d := d.setCtx f.ctx { x with st := .faulted, pageFaults := [] }
    let d := (List.range 4).foldl (fun d c =>
      if (d.core c).ctx = some f.ctx then d.onCore c (fun k => { k with live := false }) else d) d
    d.contextEvent f.ctx 0x8003 rec

/-- A page fault (R309): the record and its event; only the unit that met it stops. With pf_en = 0 it is fatal. -/
def pageFault (d : Dev) (f : FaultInfo) : Dev :=
  if !d.isSet F.CTX_CTRL_pf_en then d.fatal f
  else
    let (rec, d) := d.formRecord f 1
    let d := (d.bump F.CTX_FAULT_CNT_page 0 f.ctx 1).raise F.CTX_ERR_STATUS_page_fault
    let d := d.postRecord rec
    let d := d.onCtx f.ctx (fun x => { x with pageFaults := x.pageFaults ++ [f] })
    d.contextEvent f.ctx 0x8002 rec

/-- The collateral record of a compute reset (R626): kept in CTX_FREC when the context holds no fatal record. -/
def collateral (d : Dev) (n : Nat) (guilty : Option Nat) : Dev :=
  let f : FaultInfo := { cause := 0x15, ctx := n, engine := 0xA0, detail := guilty.getD 0xFFFFFFFF }
  let (rec, d) := d.formRecord f 2
  let d := (d.bump F.CTX_FAULT_CNT_fatal 0 n 1).raise F.CTX_ERR_STATUS_fatal
  (d.postRecord rec).keepRecord n rec

/-- Arithmetic flags that a completed operation reports: into the context's flag word (R68, R303), and one count for
each flag reported (TEL_FLAG_CNT, 16 R583). -/
def reportFlags (d : Dev) (n : Nat) (f : Flags) : Dev :=
  let d := d.setFld F.CTX_FLAGS_flags 0 n (d.fld F.CTX_FLAGS_flags 0 n ||| f.toNat)
  (List.range 6).foldl (fun d i => if bit f.toNat i then d.bump F.TEL_FLAG_CNT_ops 0 i 1 else d) d

end Dev

end Sys2Proof.Machine
end

