-- ==== Sys2Proof/Machine/Rhanak.lean ====
section
/-!
DEFINITION. Rhanak links: packets, flits, replay, hold buffers, routing, fail-over and port states
(13_rhanak_links_and_topology.md R465-R493). Each new packet starts a data flit of its own, since the rules leave open what
follows a packet when no other is there to send (log entry 27).
-/

namespace Sys2Proof.Machine

/-! ### Packets (R471, R472) -/

namespace Packet

/-- Bytes of data that the header's length stands for, in a packet that carries data. -/
def lengthBytes (p : Packet) : Nat := if p.len = 0 then 512 else 16 * p.len

/-- Whether a kind carries data: write requests, read responses and collective messages (R471, R484). -/
def carries (kind : Nat) : Bool := kind == 1 || kind == 2 || kind == 4

/-- Bytes of a packet on the link. -/
def size (p : Packet) : Nat := 24 + p.data.length

/-- Destination device ID (R37). -/
def dest (p : Packet) : Nat := bits p.addr 63 48

/-- A request. -/
def isRequest (p : Packet) : Bool := decide (p.kind < 2)

/-- A packet that R472 drops: a reserved kind or operation, an operation that is no write's, or a length that does not match
its kind. -/
def malformed (p : Packet) : Bool :=
  decide (5 ≤ p.kind) || decide (4 ≤ p.op) || (p.op != 0 && p.kind != 1) || (p.kind == 3 && p.len != 0) ||
    p.data.length != (if carries p.kind then p.lengthBytes else 0)

/-- The bytes of a packet: its three header words and its data (R471). -/
def toBytes (p : Packet) : List Byte :=
  wordBytes [p.addr,
    p.src % 2 ^ 16 * 2 ^ 48 + p.cls % 4 * 2 ^ 46 + p.kind % 8 * 2 ^ 43 + p.ttl % 64 * 2 ^ 37 + p.len % 32 * 2 ^ 32
      + p.code % 8 * 2 ^ 29 + p.ctx % 16 * 2 ^ 25 + p.op % 16 * 2 ^ 21 + b2n p.poison * 2 ^ 20 + p.tag % 2 ^ 12 * 2 ^ 8,
    p.cur % 2 ^ 24 * 2 ^ 40 + p.prev % 2 ^ 24 * 2 ^ 16 + b2n p.prevValid * 2 ^ 15 + b2n p.rerouted * 2 ^ 14] ++ p.data

/-- The header that 24 bytes hold. -/
def header (bs : List Byte) : Packet :=
  let w := leWords 3 (bs.take 24)
  let w0 := (w[0]?).getD 0
  let w1 := (w[1]?).getD 0
  let w2 := (w[2]?).getD 0
  { addr := w0, src := bits w1 63 48, cls := bits w1 47 46, kind := bits w1 45 43, ttl := bits w1 42 37, len := bits w1 36 32,
    code := bits w1 31 29, ctx := bits w1 28 25, op := bits w1 24 21, poison := bit w1 20, tag := bits w1 19 8,
    cur := bits w2 63 40, prev := bits w2 39 16, prevValid := bit w2 15, rerouted := bit w2 14 }

/-- Whole packets at the front of received bytes, and the bytes left over; a reserved kind has no data (R470, R472). -/
def parse : Nat → List Byte → List Packet × List Byte
  | 0, bs => ([], bs)
  | n + 1, bs =>
    if bs.length < 24 then ([], bs)
    else
      let h := header bs
      let k := if carries h.kind then h.lengthBytes else 0
      if bs.length < 24 + k then ([], bs)
      else
        let (ps, rest) := parse n (bs.drop (24 + k))
        ({ h with data := (bs.drop 24).take k } :: ps, rest)

/-- Credits that a packet takes (R473). -/
def credits (p : Packet) : Nat := ceilDiv p.size 256

/-- Sequence a is not later than b, modulo 2^24 with a window of 2^23 (R489). -/
def notLater (a b : Nat) : Bool := decide ((b + 2 ^ 24 - a % 2 ^ 24) % 2 ^ 24 < 2 ^ 23)

end Packet

/-! ### Link flits (R469) -/

/-- CRC-16 with polynomial 0x1021 and initial value 0xFFFF, most significant bit first. -/
def crc16 (bs : List Byte) : Nat :=
  bs.foldl (fun c b =>
    (List.range 8).foldl (fun c _ => if c.testBit 15 then (c * 2) % 65536 ^^^ 0x1021 else (c * 2) % 65536)
      (c ^^^ (b.toNat * 256))) 0xFFFF

namespace Fec

/-- The locator of a byte of a flit: R469 gives the roots and not which power of x carries byte i (log entry 28). -/
def locator (i : Nat) : Nat := gfPow (Config.flitPower i % 255)

/-- The 12 syndromes of an error pattern, at the roots α^0 to α^11. -/
def syndromes (errs : List (Nat × Nat)) : List Nat :=
  (List.range 12).map (fun j => errs.foldl (fun acc (s, v) => acc ^^^ gfMul v (gfPow (j * (Config.flitPower s % 255)))) 0)

/-- What the decoder finds beyond six errors, or none when it finds no codeword within six. -/
def decode (errs : List (Nat × Nat)) : Option (List (Nat × Nat)) :=
  let syn := syndromes errs
  let (omega, lam) := keyEquation 16 12 (List.replicate 12 0 ++ [1]) [] syn [1]
  let c := gfInv (lam.headD 0)
  let psi := polyTrim (polyScale c lam)
  let om := polyScale c omega
  let dpsi := polyDeriv psi
  let found := (List.range 256).filterMap (fun s =>
    let x := locator s
    let xi := gfInv x
    if polyEval psi xi = 0 then some (s, gfMul x (gfMul (polyEval om xi) (gfInv (polyEval dpsi xi)))) else none)
  if lam.headD 0 = 0 ∨ found.length + 1 ≠ psi.length ∨ syndromes found ≠ syn then none
  else some (found.filter (fun e => e.2 ≠ 0))

/-- Error patterns added, byte by byte. -/
def add (a b : List (Nat × Nat)) : List (Nat × Nat) :=
  (List.range 256).filterMap (fun s =>
    let v := (a ++ b).foldl (fun acc e => if e.1 = s then acc ^^^ e.2 % 256 else acc) 0
    if v = 0 then none else some (s, v))

/-- What is left wrong in a received flit after the decoder, and whether it corrected a byte; none when it fails. Six byte
errors or fewer are always corrected (R469). -/
def receive (errs : List (Nat × Nat)) : Option (List (Nat × Nat) × Bool) :=
  let all := add errs []
  if all = [] then some ([], false)
  else if all.length ≤ 6 then some ([], true)
  else
    match decode all with
    | none => none
    | some f => some (add all f, decide (f ≠ []))

end Fec

/-- The 244 bytes of a flit before its check bytes: control, payload and CRC (R469). -/
def flitBytes (type seq : Nat) (payload : List Byte) : List Byte :=
  let bs := leBytes 2 (type % 16 + seq % 4096 * 16) ++ (payload ++ List.replicate (240 - payload.length) 0).take 240
  bs ++ leBytes 2 (crc16 bs)

namespace Dev

/-! ### Ports -/

/-- Port LP p. -/
def port (d : Dev) (p : Nat) : RhkPort := Sp.get (fun _ => {}) d.rhk.ports p

/-- Port LP p replaced. -/
def setPort (d : Dev) (p : Nat) (x : RhkPort) : Dev :=
  { d with rhk := { d.rhk with ports := Sp.set (fun _ => {}) d.rhk.ports p x } }

/-- Port LP p changed by a function. -/
def onPort (d : Dev) (p : Nat) (f : RhkPort → RhkPort) : Dev := d.setPort p (f (d.port p))

/-- A field of a port's registers: LP(4n + k) stands in link die n's window at k (R498). -/
def pfld (d : Dev) (x : Field) (p : Nat) : Nat := d.fld x (p / 4) (p % 4)

/-- A field of a port's registers set. -/
def setPfld (d : Dev) (x : Field) (p v : Nat) : Dev := d.setFld x (p / 4) (p % 4) v

/-- A port's counter raised. -/
def bumpPort (d : Dev) (x : Field) (p k : Nat) : Dev := d.bump x (p / 4) (p % 4) k

/-- The port is up, or up in standby (R498). -/
def portUp (d : Dev) (p : Nat) : Bool := d.pfld F.RHK_PORT_STATUS_state p == 2 || d.pfld F.RHK_PORT_STATUS_state p == 3

/-- The direction of a ring primary port (R485). -/
def primaryDir (d : Dev) (p : Nat) : Option Nat :=
  match d.pfld F.RHK_PORT_CTRL_role p with | 2 => some 0 | 3 => some 1 | _ => none

/-- The direction of a skip port (R485). -/
def skipDir (d : Dev) (p : Nat) : Option Nat :=
  match d.pfld F.RHK_PORT_CTRL_role p with | 4 => some 0 | 5 => some 1 | _ => none

/-- The lowest-numbered ring primary port of a direction (log entry 29). -/
def primaryOf (d : Dev) (dir : Nat) : Option Nat := (List.range 24).find? (fun p => d.primaryDir p == some dir)

/-- Whether a port has a role that carries packets (R485). -/
def hasRole (d : Dev) (p : Nat) : Bool :=
  decide (1 ≤ d.pfld F.RHK_PORT_CTRL_role p) && decide (d.pfld F.RHK_PORT_CTRL_role p ≤ 5)

/-- A port that may be chosen as an egress (R480): up, and in ring use when it is a ring primary. -/
def portUsable (d : Dev) (p : Nat) : Bool :=
  d.pfld F.RHK_PORT_STATUS_state p == 2 && d.hasRole p &&
    ((d.primaryDir p).isNone || decide (d.pfld F.RHK_PORT_CTRL_ring_use p ≠ 0))

/-! ### Errors (R498) -/

/-- RHK_ERR_INFO captures while bits [6:3] of RHK_ERR_STATUS are all 0. `die` is the link die that notes the event; an event
at XD is noted by L0. -/
def rhkCapture (d : Dev) (die dest src port ctx code : Nat) : Dev :=
  if bits (d.rd .RHK_ERR_STATUS die) 6 3 = 0 then
    d.wr .RHK_ERR_INFO die 0 (dest % 2 ^ 16 * 2 ^ 48 + src % 2 ^ 16 * 2 ^ 32 + port % 32 * 2 ^ 24 + ctx % 16 * 2 ^ 20 + code % 8)
  else d

/-- An error of a packet noted: the status bit and the capture. `entry` is the packet's port of entry, none at XD. -/
def rhkError (d : Dev) (x : Field) (entry : Option Nat) (p : Packet) (code : Nat) : Dev :=
  let die := (entry.getD 0) / 4
  (d.rhkCapture die p.dest p.src (entry.getD 0x1F) p.ctx code).raise x die

/-! ### Routing (R477-R481) -/

/-- Where a packet goes from its point of entry. -/
inductive Egress where
  | here
  | port (p : Nat)
  | answer (code : Nat)
deriving DecidableEq, Repr

/-- The other port of a strapped pair (R478, 20 R662). -/
def strapPair (d : Dev) (p : Nat) : Option Nat :=
  if bit (d.fld F.SMB_STRAP_fwd) (p / 2) then some (p / 2 * 2 + (1 - p % 2)) else none

/-- The selected bank's entry for a device (R479, R481). -/
def routeEntry (d : Dev) (dest : Nat) : Nat := d.rd .RHK_ROUTE 0 (d.fld F.RHK_ROUTE_BANK_bank * 65536 + dest % 65536)

/-- The egress choice of R480, made once at the point of entry, with the strap routing of R478. -/
def egress (d : Dev) (entry : Option Nat) (dest : Nat) : Egress :=
  if entry.isNone && !d.idValid then .here
  else if d.idValid && dest == d.deviceId then .here
  else if !d.isSet F.RHK_CTRL_route_en then
    match entry.bind d.strapPair with
    | none => .answer 4
    | some q => if d.portUsable q then .port q else .answer 6
  else
    let e := d.routeEntry dest
    let primary := bits e 12 8
    let alt := bits e 20 16
    if !bit e 31 || decide (23 < primary) then .answer 4
    else if d.portUsable primary then .port primary
    else if bit e 21 && decide (alt ≤ 23) && d.portUsable alt then .port alt
    else .answer 6

/-- The fabric links between a point of entry and an egress port's link die (01 R24): a failed one answers PATH_ERR. -/
def transitPath (entry : Option Nat) (p : Nat) : List Nat :=
  match entry with
  | none => [36 + p / 4]
  | some q => if q / 4 = p / 4 then [] else [36 + q / 4, 36 + p / 4]

/-- The egress choice with the state of the fabric between the two dies (01 R34). -/
def route (d : Dev) (entry : Option Nat) (dest : Nat) : Egress :=
  match d.egress entry dest with
  | .port p => if (d.failedOn (transitPath entry p)).isSome then .answer 6 else .port p
  | e => e

/-! ### Sending -/

/-- A flit sent on a port: it takes the next flit sequence and is kept until it is acknowledged (R474). -/
def sendFlit (d : Dev) (p type : Nat) (payload : List Byte) : Dev :=
  let x := d.port p
  let d := d.setPort p { x with txSeq := (x.txSeq + 1) % 4096, sent := x.sent ++ [(x.txSeq, type, payload)] }
  d.emit (.rhanak p "flit" ((flitBytes type x.txSeq payload).map BitVec.toNat))

/-- Bytes cut into payloads of 240. -/
def payloads (bs : List Byte) : List (List Byte) := (List.range (ceilDiv bs.length 240)).map (fun i => (bs.drop (240 * i)).take 240)

/-- Bytes of a hold buffer in use. -/
def heldBytes (x : RhkPort) : Nat := x.hold.foldl (fun a h => a + h.pkt.size) 0

/-- A port may send a packet: the hold buffer has room, the receiver has credit for all of it, and no packet of its class
waits (R473, R475). -/
def maySend (x : RhkPort) (p : Packet) : Bool :=
  decide (heldBytes x + p.size ≤ 524288) && decide (Sp.get (fun _ => 0) x.used p.cls + p.credits ≤ 256)

/-- A packet put on a port's link: it takes the link's next hop sequence of its class, a rerouted one keeping the cur_seq of
the link it was held for (R475, R488); it is held until its forward acknowledgement. -/
def transmit (d : Dev) (p : Nat) (pkt : Packet) (owed : Option (Nat × Nat)) : Dev :=
  let x := d.port p
  let seq := Sp.get (fun _ => 0) x.hop pkt.cls
  let pkt := if pkt.rerouted then pkt else { pkt with cur := seq }
  let d := d.setPort p { x with
    hop := Sp.set (fun _ => 0) x.hop pkt.cls ((seq + 1) % 2 ^ 24)
    used := Sp.set (fun _ => 0) x.used pkt.cls (Sp.get (fun _ => 0) x.used pkt.cls + pkt.credits)
    hold := x.hold ++ [{ seq, pkt, owed }] }
  let d := d.bumpPort F.RHK_PORT_TX_BYTES_bytes p pkt.size
  (payloads pkt.toBytes).foldl (fun d b => d.sendFlit p 1 b) d

/-- A packet given to a port: it is sent, or waits its turn in its class. -/
def give (d : Dev) (p : Nat) (pkt : Packet) (owed : Option (Nat × Nat)) : Dev :=
  let x := d.port p
  if maySend x pkt && !x.waiting.any (fun w => w.1.cls == pkt.cls) then d.transmit p pkt owed
  else d.setPort p { x with waiting := x.waiting ++ [(pkt, owed)] }

/-- Packets that waited on a port sent in order, as far as each class may; one class never waits for another (R473). -/
def pump (d : Dev) (p : Nat) : Dev :=
  let w := (d.port p).waiting
  w.foldl (fun d x => d.give p x.1 x.2) (d.onPort p (fun x => { x with waiting := [] }))

/-- A packet sent from a device on a port (R480): its ttl is decremented, and at 0 it is dropped, which answers a request of
this device with PATH_ERR; the second component says whether it left. -/
def leave (d : Dev) (entry : Option Nat) (p : Nat) (pkt : Packet) (owed : Option (Nat × Nat)) : Bool × Dev :=
  if pkt.ttl = 0 then (false, d.rhkError F.RHK_ERR_STATUS_ttl_expired (some (entry.getD p)) pkt 6)
  else (true, d.give p { pkt with ttl := pkt.ttl - 1 } owed)

/-- A forward acknowledgement returned on a port for one class up to a hop sequence (R475). -/
def forwardAck (d : Dev) (p cls seq : Nat) : Dev := d.emit (.rhanak p "forward acknowledgement" [cls, seq])

/-- FORWARD_ACK (R475): held packets of a class up to a sequence are released, and those that came along the ring are
acknowledged in turn; packets that waited for room are sent. -/
def ackHeld (d : Dev) (p cls seq : Nat) : Dev :=
  let x := d.port p
  let gone := fun (h : Held) => h.pkt.cls == cls && Packet.notLater h.seq seq
  let d := d.setPort p { x with hold := x.hold.filter (fun h => !gone h) }
  let d := (x.hold.filter gone).foldl (fun d h => match h.owed with | some (q, s) => d.forwardAck q cls s | none => d) d
  d.pump p

/-- A response or answer packet to a request's source (R471, R484): it enters at XD, except under strap routing, where it goes
back the way the request came (log entry 30). -/
def answerPacket (d : Dev) (entry : Option Nat) (req : Packet) (code : Nat) (poison : Bool) (data : List Byte) : Dev :=
  let r : Packet :=
    { addr := req.src * 2 ^ 48 + bits req.addr 47 0, src := d.deviceId, cls := 1, kind := if req.kind = 0 then 2 else 3,
      len := if req.kind = 0 then req.len else 0, code, ctx := req.ctx, poison, tag := req.tag, data }
  match entry, d.isSet F.RHK_CTRL_route_en with
  | some p, false => if d.portUp p then (d.leave none p r none).2 else d
  | _, _ =>
    match d.route none req.src with
    | .port p => (d.leave none p r none).2
    | _ => d

/-- A request of another device answered without an effect: a read's answer has its length in zero bytes (log entry 30). -/
def refuse (d : Dev) (entry : Option Nat) (req : Packet) (code : Nat) : Dev :=
  d.answerPacket entry req code false (if req.kind = 0 then List.replicate req.lengthBytes 0 else [])

/-! ### Port states (R467, R468, R488, R493) -/

/-- A held packet resent on the alternate port of its route, or answered with PATH_ERR where it is a request to the neighbour
and none exists (R488). -/
def failPacket (d : Dev) (p : Nat) (h : Held) : Dev :=
  let e := d.routeEntry h.pkt.dest
  let alt := bits e 20 16
  if d.isSet F.RHK_CTRL_route_en && bit e 31 && bit e 21 && decide (alt ≤ 23) && d.portUsable alt && alt != p then
    d.give alt { h.pkt with rerouted := true } h.owed
  else if h.pkt.isRequest && h.pkt.dest == d.pfld F.RHK_PORT_STATUS_nb_id p then
    let d := d.rhkError F.RHK_ERR_STATUS_no_route (some p) h.pkt 6
    if h.pkt.src = d.deviceId then
      match d.rhk.waiting.find? (fun w => w.tag == h.pkt.tag && w.dest == h.pkt.dest) with
      | none => d
      | some w => ({ d with rhk := { d.rhk with waiting := d.rhk.waiting.filter (fun x => x ≠ w) } }).emit (.response w.master 6 [])
    else d.refuse none h.pkt 6
  else d

/-- The fail-over of a port that has gone down (R488). -/
def failOver (d : Dev) (p : Nat) : Dev :=
  if !d.isSet F.RHK_CTRL_fo_en (p / 4) then d
  else
    let x := d.port p
    let d := if (d.primaryDir p).isSome then d.setPfld F.RHK_PORT_CTRL_ring_use p 0 else d
    let first : Packet := (x.hold.head?.map Held.pkt).getD {}
    let d := (d.rhkCapture (p / 4) first.dest first.src p first.ctx 0).raise F.RHK_ERR_STATUS_failover (p / 4)
    let d := d.bumpPort F.RHK_PORT_FO_CNT_failovers p 1
    let d := d.onPort p (fun x => { x with hold := [], waiting := [] })
    let d := x.hold.foldl (fun d h => d.failPacket p h) d
    x.waiting.foldl (fun d w =>
      match d.route none w.1.dest with
      | .port q => d.give q w.1 w.2
      | _ => d) d

/-- A port goes down (R468) and, while it is enabled, trains again; PORT_DOWN tells whether it failed over (14 R524). -/
def portDown (d : Dev) (p : Nat) : Dev :=
  let d := d.setPfld F.RHK_PORT_STATUS_state p (if d.pfld F.RHK_PORT_CTRL_enable p = 0 then 4 else 1)
  let d := (d.setPfld F.RHK_PORT_STATUS_width p 0).raise F.RHK_ERR_STATUS_port_down (p / 4)
  let d := d.onPort p (fun x => { x with announce := none })
  let d := d.failOver p
  d.deviceEvent 0x8005 (leBytes 1 p ++ leBytes 1 (d.fld F.RHK_CTRL_fo_en (p / 4)))

/-- The width that four working lanes allow (R466): x4, a pair where x2_allow is set, or none. -/
def widthOf (d : Dev) (p lanes : Nat) : Nat :=
  if lanes % 16 = 15 then 3
  else if d.pfld F.RHK_PORT_CTRL_x2_allow p = 0 then 0
  else if lanes % 4 = 3 then 1
  else if lanes / 4 % 4 = 3 then 2
  else 0

/-- PORT_TRAINING (R466, R467, R493): a training port ends its training on the lanes that worked, with what the handshake told,
or goes down. A ring primary port that fail-over took out of use comes up in standby. -/
def portTrain (d : Dev) (p lanes nbId : Nat) (nbValid : Bool) (nbPort : Nat) : Dev :=
  let st := d.pfld F.RHK_PORT_STATUS_state p
  if d.pfld F.RHK_PORT_CTRL_enable p = 0 then d
  else if st ≠ 1 ∧ ¬(st = 0 ∧ (d.port p).failedAt = none) then d
  else
    let w := d.widthOf p lanes
    if w = 0 then
      (d.setPfld F.RHK_PORT_STATUS_state p 0).onPort p (fun x => { x with failedAt := some d.now })
    else
      let standby := (d.primaryDir p).isSome && d.pfld F.RHK_PORT_CTRL_ring_use p == 0
      let d := d.setPfld F.RHK_PORT_STATUS_state p (if standby then 3 else 2)
      let d := d.setPfld F.RHK_PORT_STATUS_width p w
      let d := ((d.setPfld F.RHK_PORT_STATUS_nb_id p nbId).setPfld F.RHK_PORT_STATUS_nb_valid p (b2n nbValid)).setPfld
        F.RHK_PORT_STATUS_nb_port p nbPort
      let d := d.bumpPort F.RHK_PORT_STATUS_up_count p 1
      let d := if d.rhk.firstUp.isNone then { d with rhk := { d.rhk with firstUp := some d.now } } else d
      let d := d.onPort p (fun x =>
        { hop := x.hop, rxHop := x.rxHop, last := x.last, lastPrev := x.lastPrev, hold := x.hold, waiting := x.waiting,
          arrived := x.arrived, goodAt := d.now })
      if standby then d.deviceEvent 0x8006 (leBytes 1 p) else d

/-- TRAINING_RETRY (R467): a failed port starts again at step 1, 100 ms after it failed. -/
def trainRetry (d : Dev) (p : Nat) : Dev :=
  match (d.port p).failedAt with
  | some t =>
    if d.pfld F.RHK_PORT_STATUS_state p = 0 ∧ d.pfld F.RHK_PORT_CTRL_enable p ≠ 0 ∧ t + 100000000 ≤ d.now then
      (d.setPfld F.RHK_PORT_STATUS_state p 1).onPort p (fun x => { x with failedAt := none })
    else d
  | none => d

/-- PORT_DOWN (R468): no flit has passed FEC and CRC for down_time. -/
def portQuiet (d : Dev) (p : Nat) : Dev :=
  if d.portUp p ∧ (d.port p).goodAt + 250 * max 1 (d.fld F.RHK_CTRL_down_time (p / 4)) ≤ d.now then d.portDown p else d

/-- LEAVING_NOTICE (R468): the port goes down at once. -/
def leavingNotice (d : Dev) (p : Nat) : Dev := if d.portUp p then d.portDown p else d

/-- Leaving notices on every up port before a chip reset (R492). -/
def sendLeaving (d : Dev) : Dev := (List.range 24).foldl (fun d p => if d.portUp p then d.sendFlit p 5 [] else d) d

/-- RETRAIN (R468): the port is taken down and trains again. -/
def retrain (d : Dev) (p : Nat) : Dev :=
  if d.portUp p then d.portDown p
  else if d.pfld F.RHK_PORT_CTRL_enable p = 0 then d
  else (d.setPfld F.RHK_PORT_STATUS_state p 1).onPort p (fun x => { x with failedAt := none })

/-- A port's enable taken away or given by a write of RHK_PORT_CTRL (R498). -/
def portEnable (d : Dev) (p : Nat) (was : Bool) : Dev :=
  let now := decide (d.pfld F.RHK_PORT_CTRL_enable p ≠ 0)
  if was && !now then (if d.portUp p then d.portDown p else d.setPfld F.RHK_PORT_STATUS_state p 4)
  else if !was && now then (d.setPfld F.RHK_PORT_STATUS_state p 1).onPort p (fun x => { x with failedAt := none })
  else d

/-- Whether a standby port may return (R493): the skip ports of its direction hold no packet. -/
def mayReturn (d : Dev) (p : Nat) : Bool :=
  match d.primaryDir p with
  | none => false
  | some dir => d.pfld F.RHK_PORT_STATUS_state p == 3 &&
      (List.range 24).all (fun q => d.skipDir q != some dir || ((d.port q).hold.isEmpty && (d.port q).waiting.isEmpty))

/-- RETURN_PORT's effect (R493). -/
def returnPort (d : Dev) (p : Nat) : Dev := (d.setPfld F.RHK_PORT_CTRL_ring_use p 1).setPfld F.RHK_PORT_STATUS_state p 2

/-! ### Receiving flits (R469, R474) -/

/-- What a control flit tells beside its forward acknowledgements, which are commands of their own: the flit sequence
acknowledged, and credits returned by class (R469, R473). The rules give no layout of its payload (log entry 27). -/
structure LinkNote where
  ack : Option Nat := none
  credits : List (Nat × Nat) := []
  /-- Bytes of a data flit's payload that hold packet bytes. -/
  filled : Nat := 240
deriving DecidableEq, Repr

/-- Flits acknowledged up to a sequence are released, the 12-bit sequence with a window of half its range. -/
def ackFlits (x : RhkPort) (seq : Nat) : RhkPort :=
  { x with sent := x.sent.filter (fun f => decide (2048 ≤ (seq + 4096 - f.1 % 4096) % 4096)), nakSeq := none, naks := 0 }

/-- The effect of an accepted flit's payload. -/
def takeFlit (d : Dev) (p type : Nat) (payload : List Byte) (note : LinkNote) : Dev :=
  let d := match type with
    | 1 =>
      d.onPort p (fun x =>
        let bs := x.partialBytes ++ payload.take note.filled
        let (ps, rest) := Packet.parse (bs.length / 24 + 1) bs
        { x with partialBytes := rest, arrived := x.arrived ++ ps })
    | 2 =>
      let d := d.onPort p (fun x =>
        { x with used := note.credits.foldl (fun u c => Sp.set (fun _ => 0) u c.1 (Sp.get (fun _ => 0) u c.1 - c.2)) x.used })
      d.pump p
    | _ => d
  match note.ack with
  | some a => d.onPort p (fun x => ackFlits x a)
  | none => d

/-- LINK_FLIT_RECEIVE (R469, R474): a flit of 242 bytes arrives with byte errors on the wire. It is accepted when FEC decodes,
the CRC matches, its type is assigned and it is the one expected; a failing one is answered with a negative acknowledgement,
and the eighth failure in a row takes the port down (R468). -/
def linkFlit (d : Dev) (p : Nat) (flit : List Byte) (errs : List (Nat × Nat)) (note : LinkNote) : Dev :=
  if !d.portUp p then d
  else
    let sent := flit ++ leBytes 2 (crc16 flit)
    let x := d.port p
    let fail := fun (d : Dev) =>
      let d := d.onPort p (fun x => { x with rxFails := x.rxFails + 1 })
      if 8 ≤ (d.port p).rxFails then d.portDown p
      else (d.raise F.RHK_ERR_STATUS_replay (p / 4)).emit (.rhanak p "negative acknowledgement" [x.rxSeq])
    match Fec.receive errs with
    | none => fail (d.bumpPort F.RHK_PORT_FEC_CNT_uncorrected p 1)
    | some (left, corrected) =>
      let got := sent.zipIdx.map (fun (b, i) => left.foldl (fun b e => if e.1 = i then b ^^^ BitVec.ofNat 8 e.2 else b) b)
      if crc16 (got.take 242) ≠ field16 (got.drop 242) then fail (d.bumpPort F.RHK_PORT_FEC_CNT_uncorrected p 1)
      else
        let d := if corrected then d.bumpPort F.RHK_PORT_FEC_CNT_corrected p 1 else d
        let control := field16 got
        let seq := control / 16
        if control % 16 ≥ 6 then fail d
        else if seq ≠ x.rxSeq then d
        else
          let d := d.onPort p (fun x => { x with rxSeq := (x.rxSeq + 1) % 4096, rxFails := 0, goodAt := d.now })
          let d := d.emit (.rhanak p "acknowledgement" [seq])
          d.takeFlit p (control % 16) ((got.drop 2).take 240) note
where
  /-- The little-endian number of the first two bytes. -/
  field16 (bs : List Byte) : Nat := leNat (bs.take 2)

/-- LINK_NAK (R474): the sender resends from the flit named; the eighth of one flit takes the port down (R468). -/
def linkNak (d : Dev) (p seq : Nat) : Dev :=
  let x := d.port p
  if !d.portUp p || !x.sent.any (fun f => f.1 = seq) then d
  else
    let naks := if x.nakSeq = some seq then x.naks + 1 else 1
    let d := d.setPort p { x with nakSeq := some seq, naks }
    let d := (d.bumpPort F.RHK_PORT_REPLAY_CNT_replays p 1).raise F.RHK_ERR_STATUS_replay (p / 4)
    if 8 ≤ naks then d.portDown p
    else
      (x.sent.dropWhile (fun f => f.1 ≠ seq)).foldl (fun d f =>
        d.emit (.rhanak p "flit" ((flitBytes f.2.1 f.1 f.2.2).map BitVec.toNat))) d

/-! ### Requests of this device (R480, R483) -/

/-- The port number noted with a message to another device: its egress, or 31 where the message goes nowhere. -/
def portTo (d : Dev) (dest : Nat) : Nat := match d.route none dest with | .port p => p | _ => 31

/-- A request of a master of this device sent to another: its packets leave by the egress of its destination, or it is
answered at once (R480). A request of more than 512 bytes takes several packets; each waits for its response (R483). -/
def request (d : Dev) (master ctx addr : Nat) (kind len : Nat) (data : List Byte) (poison : Bool) : Dev :=
  let dest := bits addr 63 48
  (List.range (max 1 (ceilDiv len 512))).foldl (fun d i =>
    let n := min 512 (len - 512 * i)
    let units := ceilDiv n 16
    let pkt : Packet :=
      { addr := addr + 512 * i, src := d.deviceId, cls := 0, kind, len := units % 32, ctx, op := if poison then 1 else 0, poison,
        tag := d.rhk.nextTag, data := if kind = 1 then ((data.drop (512 * i)).take n ++ List.replicate (16 * units - n) 0) else [] }
    match d.route none dest with
    | .port p =>
      let d := { d with rhk := { d.rhk with
        nextTag := (d.rhk.nextTag + 1) % 4096
        waiting := d.rhk.waiting ++ [({ tag := pkt.tag, dest, master, ctx, addr := pkt.addr, sentAt := d.now } : Waiting)] } }
      (d.leave none p pkt none).2
    | .answer code => (d.rhkError F.RHK_ERR_STATUS_no_route none pkt code).emit (.response master code [])
    | .here => d) d

/-- E2E_TIMEOUT (R483): a request without a response within e2e_timeout is answered with PATH_ERR. -/
def e2eTimeout (d : Dev) (tag : Nat) : Dev :=
  match d.rhk.waiting.find? (fun w => w.tag = tag) with
  | none => d
  | some w =>
    let die := match d.route none w.dest with | .port p => p / 4 | _ => 0
    if w.sentAt + 1000 * max 1 (d.fld F.RHK_CTRL_e2e_timeout die) ≤ d.now then
      let d := { d with rhk := { d.rhk with waiting := d.rhk.waiting.filter (fun x => x ≠ w) } }
      let d := (d.rhkCapture die w.dest d.deviceId 0x1F w.ctx 6).raise F.RHK_ERR_STATUS_timeout die
      d.emit (.response w.master 6 [])
    else d

/-- A response that arrives (R483, R484): to a request that waits, or too late; one for a requester on the compute side is
discarded while that is in reset. -/
def response (d : Dev) (entry : Nat) (p : Packet) : Dev :=
  match d.rhk.waiting.find? (fun w => w.tag == p.tag && w.dest == p.src) with
  | some w =>
    let d := { d with rhk := { d.rhk with waiting := d.rhk.waiting.filter (fun x => x ≠ w) } }
    if d.reset.isSome && decide (0x10 ≤ w.master) && decide (w.master < 0x14) then d
    else d.emit (.response w.master p.code (p.data.map (fun b => { val := b, poison := p.poison || p.code == 3 })))
  | none =>
    (d.rhkCapture (entry / 4) p.dest p.src entry p.ctx p.code).raise F.RHK_ERR_STATUS_timeout (entry / 4)

/-- The answer that a unit's request to another device meets before it leaves (R480): none where it leaves on a port. -/
def blocked (d : Dev) (dest ctx : Nat) : Option Nat × Dev :=
  match d.route none dest with
  | .answer code => (some code, d.rhkError F.RHK_ERR_STATUS_no_route none ({ addr := dest * 2 ^ 48, src := d.deviceId, ctx } : Packet) code)
  | _ => (none, d)

end Dev

end Sys2Proof.Machine
end

