-- ==== Sys2Proof/Machine/Run.lean ====
section
/-!
DEFINITION. How a unit's work ends before its end: it waits, it meets a page fault, or its context faults
(08_jobs_contexts_and_translation.md R307-R310). A unit's work is a function of the device in the monad `Run`, which
keeps what was done before the stop.
-/

namespace Sys2Proof.Machine

/-- Why a unit stops before its work is done. -/
inductive Stop where
  /-- It cannot go on now: a slot is not drained, a peer has not answered, a unit is held. -/
  | wait
  /-- A page of the context is not present (R309): the virtual address and the device of the address space (R304). -/
  | page (va device : Nat)
  /-- A fatal fault (R305) with what the unit knows of it; `engine` names another engine than the unit's own. -/
  | fatal (cause vaddr paddr detail : Nat) (engine : Option Nat)
deriving DecidableEq, Repr

/-- The work of a unit. -/
abbrev Run (α : Type) := ExceptT Stop (StateM Dev) α

namespace Run

/-- The device as it stands. -/
def dev : Run Dev := fun d => (.ok d, d)

/-- The device changed. -/
def upd (f : Dev → Dev) : Run Unit := fun d => (.ok (), f d)

/-- A function that answers and changes the device. -/
def lift {α : Type} (f : Dev → α × Dev) : Run α := fun d => let r := f d; (.ok r.1, r.2)

/-- Stop with a reason. -/
def stop {α : Type} (s : Stop) : Run α := fun d => (.error s, d)

/-- Wait. -/
def wait {α : Type} : Run α := stop .wait

/-- A fatal fault with a cause alone. -/
def fault {α : Type} (cause : Nat) : Run α := stop (.fatal cause 0 0 0 none)

/-- A fatal fault when a condition holds. -/
def faultIf (c : Bool) (cause : Nat) : Run Unit := if c then fault cause else pure ()

/-- Wait when a condition holds. -/
def waitIf (c : Bool) : Run Unit := if c then wait else pure ()

/-- A fatal fault with another engine's code when a condition holds. -/
def faultAt (c : Bool) (cause engine : Nat) : Run Unit :=
  if c then stop (.fatal cause 0 0 0 (some engine)) else pure ()

/-- Work that keeps nothing when it stops: what it checked and did before the stop is undone, but not the reads'
corrections, which the caller does first. -/
def atomically {α : Type} (x : Run α) : Run α := fun d =>
  match x d with
  | (.ok a, d') => (.ok a, d')
  | (.error s, _) => (.error s, d)

/-- Work whose stop is handed back to the caller, with what was done before it kept. -/
def attempt {α : Type} (x : Run α) : Run (Except Stop α) := fun d => let (e, d') := x d; (.ok e, d')

/-- The stop of an attempt, none when it completed. -/
def stopOf {α : Type} : Except Stop α → Option Stop
  | .ok _ => none
  | .error s => some s

/-- Go on, or stop with a reason handed back earlier. -/
def rethrow : Option Stop → Run Unit
  | none => pure ()
  | some s => stop s

/-- The next response of another device; with none there, the unit waits. -/
def reply : Run Reply := fun d =>
  match d.env.replies with
  | [] => (.error .wait, d)
  | r :: rs => (.ok r, { d with env := { d.env with replies := rs } })

end Run

/-- A unit's identity for its fault records: engine code, core, context, opcode, operation id and pc (R304). -/
structure UnitId where
  engine : Nat
  core : Nat
  ctx : Nat
  opcode : Nat := 0
  opId : Nat := 0
  pc : Nat := 0
deriving DecidableEq, Repr

namespace UnitId

/-- The die of a unit (01 R18): the fetch engine and the walker are on the feed die, the collective sequencer on the
exchange die, everything else of a core on the vector die. -/
def die (u : UnitId) : Die :=
  if 0x80 ≤ u.engine then .xd
  else if (0x20 ≤ u.engine ∧ u.engine < 0x24) ∨ 0x74 ≤ u.engine then .fd u.core
  else .vd u.core

/-- The requests of a core's units carry the core sequencer's identity and the context's number (R12, R291). -/
def req (u : UnitId) (stream : Bool := false) : Req := { master := 0x10 + u.core, ctx := u.ctx, stream, die := u.die }

/-- The record that a stop leaves. -/
def info (u : UnitId) (cause vaddr paddr detail cursor : Nat) (engine : Option Nat) : FaultInfo :=
  { cause, ctx := u.ctx, engine := engine.getD u.engine, master := 0x10 + u.core, opcode := u.opcode, opId := u.opId,
    pc := u.pc, vaddr, paddr, detail, cursor }

end UnitId

namespace Dev

/-- What a stop does to the device: nothing for a wait, a page-fault record, or a fatal fault (R307, R309). `cursor`
is the unit's progress cursor. -/
def stopped (d : Dev) (u : UnitId) (cursor : Nat) : Stop → Dev
  | .wait => d
  | .page va _ => d.pageFault (u.info 0x01 va 0 0 cursor none)
  | .fatal cause va pa detail engine => d.fatal (u.info cause va pa detail cursor engine)

end Dev

end Sys2Proof.Machine
end

