-- ==== Sys2Proof/Machine/Translate.lean ====
section
/-!
DEFINITION. Address translation (08_jobs_contexts_and_translation.md R294-R297) and reads and writes at virtual
addresses, on this device and on another (13_rhanak_links_and_topology.md R484).
-/

namespace Sys2Proof.Machine

/-- The permissions that an access needs of its leaf (R295, R296). -/
structure Need where
  write : Bool := false
  exec : Bool := false
  remote : Bool := false
  host : Bool := false
deriving DecidableEq, Repr

/-- What a walk ends in. -/
inductive Walk where
  | ok (pa : Nat) (stream : Bool)
  /-- A cause of R305, with the physical address that the walk reached when a leaf forbids the access (R304). -/
  | cause (c pa : Nat)
  /-- CTX_PT_ROOT.valid is 0: the context issues no request. -/
  | silent
deriving DecidableEq, Repr

namespace Dev

/-- Whether an address lies in a populated range of R36. -/
def populated (d : Dev) (a : Nat) : Bool := d.home a != .none

/-- A table entry read: its value and its poison, with a DDR5 codeword's errors decoded first (R231, R296). -/
def readEntry (d : Dev) (rq : Req) (a : Nat) : (Nat × Bool) × Dev :=
  let d := if d.home a = .ddr then d.touchCodeword rq false (a / 64 * 64) else d
  ((leNat ((List.range 8).map (fun i => d.cell (a + i))), d.poisoned a), d)

/-- One entry judged at a level (R295, R296): the next table, a leaf's address, or a cause. `n` is the level. -/
def walkFrom (rq : Req) (va : Nat) (need : Need) : Nat → Nat → Dev → Walk × Dev
  | 0, _, d => (.cause 0x03 0, d)
  | n + 1, table, d =>
    let shift := 12 + 9 * n
    let ((e, bad), d) := d.readEntry rq (table + 8 * (bits va (shift + 8) shift))
    let addr := bits e 47 12 * 4096
    let isLeaf := n = 0 ∨ ((n = 1 ∨ n = 2) ∧ bit e 1)
    if bad then (.cause 0x0B 0, d)
    else if !bit e 0 then (.cause 0x01 0, d)
    else if bits e 63 48 ≠ 0 ∨ bits e 11 7 ≠ 0 ∨ !d.populated addr ∨ (isLeaf ∧ addr % 2 ^ shift ≠ 0) then (.cause 0x03 0, d)
    else if isLeaf then
      if (need.write && !bit e 2) || (need.exec && !bit e 3) || (need.remote && !bit e 5) || (need.host && !bit e 6) then
        (.cause 0x02 (addr + va % 2 ^ shift), d)
      else (.ok (addr + va % 2 ^ shift) (bit e 4), d)
    else walkFrom rq va need n addr d

/-- The physical address of a virtual address of a context, with the leaf's cache hint. Context 0's addresses are
physical (R290). -/
def walk (d : Dev) (rq : Req) (va : Nat) (need : Need) : Walk × Dev :=
  if rq.ctx = 0 then (.ok va false, d)
  else if !d.isSet F.CTX_PT_ROOT_valid 0 rq.ctx then (.silent, d)
  else walkFrom rq va need 4 (d.fld F.CTX_PT_ROOT_root 0 rq.ctx * 4096) d

end Dev

/-- The pieces of a range that lie in one 4 KiB page each: address and length. -/
def pagePieces (a len : Nat) : List (Nat × Nat) :=
  (granules 4096 a len).map (fun p => let lo := max a p; (lo, min (a + len) (p + 4096) - lo))

namespace Run

/-- An address used by a unit: above 48 bits it faults first of all (R294). -/
def address (a : Int) : Run Nat :=
  if a < 0 ∨ (2 ^ 48 : Nat) ≤ a then stop (.fatal 0x05 (ux 48 a) 0 0 none) else pure a.toNat

/-- Translation of one address (R294-R296). -/
def translate (rq : Req) (va : Nat) (need : Need) : Run (Nat × Bool) := do
  let w ← lift (fun d => d.walk rq va need)
  match w with
  | .ok pa stream => pure (pa, stream)
  | .silent => wait
  | .cause 0x01 _ => do let d ← dev; stop (.page va d.deviceId)
  | .cause c pa => stop (.fatal c va pa 0 none)

/-- A response other than OKAY and POISON faults the requester with cause 0x0F and the code as its detail; the reserved
code acts as PATH_ERR (R29, R305). -/
def errorResponse {α : Type} (va pa code : Nat) : Run α :=
  stop (.fatal 0x0F va pa (if code = 7 then 6 else code) none)

/-- A physical address reached, or the error response that the request meets (01 R29, R34, R39). -/
def reach (rq : Req) (va pa : Nat) : Run Unit := do
  let d ← dev
  let (code, link) := d.accessCode rq pa
  if code ≠ 0 then do
    upd (fun d => d.fabError rq (d.deviceId * 2 ^ 48 + pa) code link)
    errorResponse va pa code
  else pure ()

/-- Bytes read at virtual addresses of this device, page by page, with the physical address of each piece (R291). Poison
grows to whole flits on the fabric, not in the core memory (06 R224). -/
def vpieces (rq : Req) (va : Int) (len : Nat) (need : Need) : Run (List (Nat × List PByte)) := do
  let va ← address va
  (pagePieces va len).mapM (fun (a, n) => do
    let (pa, stream) ← translate rq a need
    reach rq a pa
    let d ← dev
    let bs ← lift (fun d => d.readMem { rq with stream := rq.stream || stream } pa n)
    pure (pa, match d.home pa with | .coreMem _ => bs | _ => Dev.transit pa bs))

/-- Bytes read at virtual addresses of this device (R291). -/
def vread (rq : Req) (va : Int) (len : Nat) (need : Need := {}) : Run (List PByte) := do
  let ps ← vpieces rq va len need
  pure (ps.flatMap Prod.snd)

/-- The pages of a write, translated before any of its bytes land (R276). -/
def pagesForWrite (rq : Req) (va len : Nat) (need : Need) : Run (List (Nat × Nat × Bool)) :=
  (pagePieces va len).mapM (fun (a, n) => do
    let (pa, stream) ← translate rq a { need with write := true }
    reach rq a pa
    pure (pa, n, stream))

/-- Bytes written at virtual addresses of this device. -/
def vwrite (rq : Req) (va : Int) (bs : List PByte) (need : Need := {}) : Run Unit := do
  let va ← address va
  let ps ← pagesForWrite rq va bs.length need
  let _ ← ps.foldlM (fun (rest : List PByte) (p : Nat × Nat × Bool) => do
    upd (fun d => d.writeMem { rq with stream := rq.stream || p.2.2 } p.1 (rest.take p.2.1))
    pure (rest.drop p.2.1)) bs
  pure ()

/-- A request to another device leaves on its route's egress, or is answered before it leaves (13 R480). -/
def leaveDevice (rq : Req) (device va : Nat) : Run Unit := do
  let b ← lift (fun d => d.blocked device rq.ctx)
  match b with
  | some code => errorResponse va 0 code
  | none => pure ()

/-- Bytes read on a device: here, or by a request over Rhanak that the owner answers (13 R484). A response POISON
poisons the data. -/
def readOn (rq : Req) (device : Nat) (va : Int) (len : Nat) : Run (List PByte) := do
  let d ← dev
  if device = d.deviceId || !d.idValid then vread rq va len
  else do
    let a ← address va
    leaveDevice rq device a
    let r ← reply
    upd (fun d => d.emit (.rhanak (d.portTo device) "read" [device, a, len, rq.ctx]))
    if r.code = 0 then pure ((r.data ++ clean' len).take len)
    else if r.code = 3 then pure ((r.data ++ clean' len).take len |>.map (fun b => { b with poison := true }))
    else errorResponse a 0 r.code
where
  /-- Bytes that a short response leaves out read as zero. -/
  clean' (n : Nat) : List PByte := List.replicate n { val := 0 }

/-- Bytes written on a device: here, or by a request over Rhanak. -/
def writeOn (rq : Req) (device : Nat) (va : Int) (bs : List PByte) : Run Unit := do
  let d ← dev
  if device = d.deviceId || !d.idValid then vwrite rq va bs
  else do
    let a ← address va
    leaveDevice rq device a
    let r ← reply
    upd (fun d => d.emit (.rhanak (d.portTo device) "write" (device :: a :: bs.length :: rq.ctx :: bs.map (fun b => b.val.toNat))))
    if r.code = 0 ∨ r.code = 3 then pure () else errorResponse a 0 r.code

/-- Bytes that a unit uses where poison cannot travel on as data: poison is consumed (R308). -/
def solid (va pa : Nat) (bs : List PByte) : Run (List Byte) :=
  if bs.any PByte.poison then stop (.fatal 0x0B va pa 0 none) else pure (bs.map PByte.val)

/-- Work whose consumption of poison is noted in a status register. -/
def noting {α : Type} (x : Field) (w : Nat) (r : Run α) : Run α := do
  match ← attempt r with
  | .ok a => pure a
  | .error s => do
    match s with
    | .fatal 0x0B _ _ _ _ => upd (fun d => d.raise x w)
    | _ => pure ()
    stop s

/-- A structure that a unit reads and consumes: descriptor, parameter block, table. -/
def vsolid (rq : Req) (va : Int) (len : Nat) : Run (List Byte) := do
  let a ← address va
  let ps ← vpieces rq a len {}
  solid a ((ps.head?.map Prod.fst).getD 0) (ps.flatMap Prod.snd)

end Run

end Sys2Proof.Machine
end

