-- ==== Sys2Proof/Machine/Operands.lean ====
section
/-!
DEFINITION. Operand forms: tensor descriptors, ZL1 descriptors and owner tables
(07_streams_descriptors_and_layouts.md R252-R261), and the places, reads and writes of a tensor's elements and scale
bytes (R254-R256, R276).
-/

namespace Sys2Proof.Machine

/-- A tensor descriptor (R252). The lists hold six dimensions; a dimension beyond the rank has size 1 and stride 0
(R253). -/
structure Desc where
  dist : Bool := false
  hint : Bool := false
  rank : Nat := 1
  fmt : Fmt := .fp32
  base : Nat := 0
  sizes : List Nat := []
  strides : List Int := []
  owner : Nat := 0
  scaleOff : Int := 0
deriving DecidableEq, Repr

namespace Desc

/-- Size of a dimension. -/
def size (t : Desc) (k : Nat) : Nat := (t.sizes[k]?).getD 1

/-- Stride of a dimension in elements. -/
def stride (t : Desc) (k : Nat) : Int := (t.strides[k]?).getD 0

/-- Number of elements (R253, R254). -/
def count (t : Desc) : Nat := (List.range 6).foldl (fun a k => a * t.size k) 1

/-- Length of a row, which is dimension 0. -/
def rowLen (t : Desc) : Nat := t.size 0

/-- Number of rows: the other dimensions flattened (R155, R266). -/
def rows (t : Desc) : Nat := (List.range 5).foldl (fun a k => a * t.size (k + 1)) 1

/-- The indices of the element with a linear index (R254). -/
def coords (t : Desc) (n : Nat) : List Nat :=
  ((List.range 6).foldl (fun (acc : List Nat × Nat) k =>
    let s := t.size k
    if s = 0 then (acc.1 ++ [0], acc.2) else (acc.1 ++ [acc.2 % s], acc.2 / s)) ([], n)).1

/-- The element offset of indices (R254). -/
def offset (t : Desc) (idx : List Nat) : Int :=
  (List.range 6).foldl (fun a k => a + (((idx[k]?).getD 0 : Nat) : Int) * t.stride k) 0

/-- The eight words of a descriptor read as its fields (R252); none when R253 makes it illegal. -/
def ofWords (ws : List Nat) : Option Desc :=
  let w0 := (ws[0]?).getD 0
  let w7 := (ws[7]?).getD 0
  let rank := bits w0 54 52
  let dims := (List.range 6).map (fun k => (ws[k + 1]?).getD 0)
  if rank = 0 ∨ rank = 7 ∨ bits w0 63 57 ≠ 0 ∨ (dims.take rank).any (fun w => bits w 63 62 != 0) then none
  else some
    { dist := bit w0 56, hint := bit w0 55, rank, fmt := Fmt.ofCode (bits w0 51 48), base := bits w0 47 0
      sizes := dims.zipIdx.map (fun (w, k) => if k < rank then bits w 61 40 else 1)
      strides := dims.zipIdx.map (fun (w, k) => if k < rank then sx 40 w else 0)
      owner := bits w7 63 28 * 4096, scaleOff := sx 28 w7 }

/-- The four words of a ZL1 descriptor (R258); none where the descriptor is illegal. -/
def ofZl1 (ws : List Nat) : Option Desc :=
  let w := fun k => (ws[k]?).getD 0
  let rank := bits (w 0) 55 52
  let fmt := bits (w 0) 51 48
  if rank = 0 ∨ 4 < rank ∨ bits (w 0) 63 56 ≠ 0 ∨ ¬ (fmt ≤ 4 ∨ fmt = 0xB ∨ fmt = 0xC ∨ fmt = 0xE) then none
  else some
    { rank, fmt := Fmt.ofCode fmt, base := bits (w 0) 47 0
      sizes := (List.range 6).map (fun k => if k < rank then bits (w 1) (16 * k + 15) (16 * k) else 1)
      strides := (List.range 6).map (fun k => if k < rank then sx 32 (bits (w (2 + k / 2)) (32 * (k % 2) + 31) (32 * (k % 2))) else 0) }

end Desc

/-- The active entry array of an owner table: the split dimension and the entries as device, shard base, length and
start (R259). -/
structure Owners where
  dim : Nat := 0
  entries : List (Nat × Nat × Nat × Nat) := []
deriving DecidableEq, Repr

/-- A tensor as an operation uses it: its descriptor with the entry array read when the operation started (R261). -/
structure View where
  desc : Desc := {}
  owners : Option Owners := none
  /-- The select word that was read (R261); 0 for a tensor that is not distributed. -/
  select : Nat := 0
deriving DecidableEq, Repr

/-- Where an element or a scale byte lies: device, bit address and width in bits (R254, R256, R260). -/
structure Place where
  device : Nat
  bit : Int
  width : Nat
deriving DecidableEq, Repr

/-- An element as it is carried: its bits and its poison. -/
structure Elem where
  code : Nat := 0
  poison : Bool := false
deriving DecidableEq, Repr

namespace View

/-- The entry that owns a split index (R260). -/
def entryOf (o : Owners) (i : Nat) : Option (Nat × Nat × Nat × Nat) :=
  o.entries.find? (fun e => decide (e.2.2.2 ≤ i) && decide (i < e.2.2.2 + e.2.2.1))

/-- Device, base and element offset of the element with given indices; none where no owner entry covers it (R254,
R260). -/
def locateAt (v : View) (own : Nat) (idx : List Nat) : Option (Nat × Nat × Int) :=
  match v.owners with
  | none => some (own, v.desc.base, v.desc.offset idx)
  | some o =>
    match entryOf o ((idx[o.dim]?).getD 0) with
    | none => none
    | some (dev, base, _, start) =>
      some (dev, base, v.desc.offset (idx.zipIdx.map (fun (i, k) => if k = o.dim then i - start else i)))

/-- The same for the element with a linear index (R254). -/
def locate (v : View) (own n : Nat) : Option (Nat × Nat × Int) := v.locateAt own (v.desc.coords n)

/-- The index along the split dimension of an element, for FD_CHAFF_INFO. -/
def splitIndex (v : View) (n : Nat) : Nat :=
  match v.owners with
  | none => 0
  | some o => ((v.desc.coords n)[o.dim]?).getD 0

/-- The bits of a located element. -/
def elemAt (v : View) (l : Nat × Nat × Int) : Place :=
  { device := l.1, bit := 8 * (l.2.1 : Int) + l.2.2 * (v.desc.fmt.width : Int), width := v.desc.fmt.width }

/-- The scale byte of a located element's block (R256). -/
def scaleAt (v : View) (l : Nat × Nat × Int) : Place :=
  { device := l.1, bit := 8 * (((l.2.1 / 256 * 256 : Nat) : Int) + 256 * v.desc.scaleOff + l.2.2 / 32), width := 8 }

/-- The place of an element (R254, R260). -/
def place (v : View) (own n : Nat) : Option Place := (v.locate own n).map v.elemAt

/-- The place of the scale byte of an element's block (R256). -/
def scalePlace (v : View) (own n : Nat) : Option Place := (v.locate own n).map v.scaleAt

/-- The indices of column i of row r, whatever the row's own length (05 R155). -/
def cell (v : View) (r i : Nat) : List Nat :=
  i :: ((List.range 5).foldl (fun (acc : List Nat × Nat) k =>
    let s := v.desc.size (k + 1)
    if s = 0 then (acc.1 ++ [0], acc.2) else (acc.1 ++ [acc.2 % s], acc.2 / s)) ([], r)).1

/-- The places of `n` columns of row r from column `i` on. -/
def rowPlaces (v : View) (own r i n : Nat) : List (Option Place) :=
  (List.range n).map (fun j => (v.locateAt own (v.cell r (i + j))).map v.elemAt)

/-- The places of the scale bytes of the first `n` columns of row r. -/
def rowScales (v : View) (own r n : Nat) : List (Option Place) :=
  if v.desc.fmt.isMx then (List.range (ceilDiv n 32)).map (fun b => (v.locateAt own (v.cell r (32 * b))).map v.scaleAt) else []

/-- Elements of the blocks of a row: 32 at a time, the last one short (R49, R50). -/
def blocksPerRow (v : View) : Nat := ceilDiv v.desc.rowLen 32

end View

namespace Run

/-- A descriptor with its owner table's entry array (R259-R261). -/
def viewOf (rq : Req) (t : Desc) (sel : Nat) : Run View :=
  if !t.dist then pure { desc := t }
  else do
    let o ← vsolid rq t.owner 16
    let sel := if sel = 0 then leNat (o.take 8) else sel
    let n := bits sel 63 48
    let es ← vsolid rq (bits sel 47 0) (16 * n)
    let ws := leWords (2 * n) es
    let entries := (List.range n).map (fun i =>
      let w0 := (ws[2 * i]?).getD 0
      let w1 := (ws[2 * i + 1]?).getD 0
      (bits w0 63 48, bits w0 47 0, bits w1 43 22, bits w1 21 0))
    pure { desc := t, owners := some { dim := bits (leNat (o.drop 8)) 2 0, entries }, select := sel }

/-- A descriptor read through a pointer, with the owner table's entry array when it is distributed (R252-R261): the
select word is read once, when the operation starts; `sel` is what it read then, 0 before. -/
def view (rq : Req) (ptr : Nat) (zl1 : Bool := false) (sel : Nat := 0) : Run View := do
  let p ← address ptr
  faultIf (p % 64 ≠ 0) 0x09
  if zl1 then do
    let d ← dev
    faultIf (!d.isSet F.FD_CTRL_zl1_en (rq.master % 4)) 0x09
    let bs ← vsolid rq p 32
    match Desc.ofZl1 (leWords 4 bs) with
    | none => fault 0x09
    | some t => pure { desc := t }
  else do
    let bs ← vsolid rq p 64
    match Desc.ofWords (leWords 8 bs) with
    | none => fault 0x09
    | some t => viewOf rq t sel

end Run

/-! ### Runs of elements -/

/-- Elements that lie one after the other from one bit address on, and start in one page: one request. `none` is a hole,
an element that no owner entry covers. -/
structure Span where
  start : Option Place
  count : Nat
deriving DecidableEq, Repr

/-- Whether the next element goes on a span. -/
def Span.takes (s : Span) (p : Option Place) : Bool :=
  match s.start, p with
  | some a, some b =>
    decide (a.device = b.device ∧ a.width = b.width ∧ b.bit = a.bit + (s.count * a.width : Nat)
      ∧ b.bit / 32768 = a.bit / 32768)
  | _, _ => false

/-- The spans of a list of places, in order. -/
def spans : List (Option Place) → List Span
  | [] => []
  | p :: ps =>
    ((ps.foldl (fun (acc : List Span × Span) q =>
      if acc.2.takes q then (acc.1, { acc.2 with count := acc.2.count + 1 })
      else (acc.1 ++ [acc.2], { start := q, count := 1 })) ([], { start := p, count := 1 })) |> fun r => r.1 ++ [r.2])

/-- First byte and number of bytes that a span's bits touch. -/
def Span.bytes (s : Span) (a : Place) : Int × Nat :=
  let lo := a.bit / 8
  (lo, (((a.bit + (s.count * a.width : Nat) + 7) / 8) - lo).toNat)

/-- Elements cut out of bytes from a bit offset. -/
def cutElems (w skip n : Nat) (bs : List PByte) : List Elem :=
  let v := leNat (bs.map PByte.val)
  (List.range n).map (fun i =>
    let lo := skip + i * w
    { code := bits v (lo + w - 1) lo
      poison := ((bs.drop (lo / 8)).take ((lo + w - 1) / 8 - lo / 8 + 1)).any PByte.poison })

/-- Bytes with elements put into them from a bit offset on; the bits outside keep their value, and a byte takes the
poison of the elements it holds. -/
def putElems (w skip : Nat) (es : List Elem) (bs : List PByte) : List PByte :=
  let v := leNat (bs.map PByte.val)
  let v := es.zipIdx.foldl (fun v (e, i) => putBits v (skip + i * w + w - 1) (skip + i * w) e.code) v
  bs.zipIdx.map (fun (b, i) =>
    let first := if 8 * i < skip then 0 else (8 * i - skip) / w
    let past := if 8 * i + 8 ≤ skip then 0 else (8 * i + 7 - skip) / w + 1
    { val := BitVec.ofNat 8 (v / 2 ^ (8 * i)), poison := b.poison || ((es.drop first).take (past - first)).any Elem.poison })

namespace Run

/-- A span read. Holes read as zero (R260). -/
def readSpan (rq : Req) (s : Span) : Run (List Elem) :=
  match s.start with
  | none => pure (List.replicate s.count {})
  | some a => do
    let (lo, n) := s.bytes a
    let bs ← readOn rq a.device lo n
    pure (cutElems a.width (a.bit - 8 * lo).toNat s.count bs)

/-- A span written. A write that ends or starts inside a byte keeps that byte's other bits; writes to holes are
dropped (R260). -/
def writeSpan (rq : Req) (s : Span) (es : List Elem) : Run Unit :=
  match s.start with
  | none => pure ()
  | some a => do
    let (lo, n) := s.bytes a
    let whole := a.bit % 8 = 0 ∧ (s.count * a.width) % 8 = 0
    let old ← if whole then pure (List.replicate n ({ val := 0 } : PByte)) else readOn rq a.device lo n
    let old := old.map (fun b => { b with poison := false })
    writeOn rq a.device lo (putElems a.width (a.bit - 8 * lo).toNat es old)

/-- Spans read until one stops: the elements read before the stop, and the stop. -/
def readSpans (rq : Req) : List Span → Run (List Elem × Option Stop)
  | [] => pure ([], none)
  | s :: ss => do
    match ← attempt (readSpan rq s) with
    | .error e => pure ([], some e)
    | .ok es => do
      let (more, e) ← readSpans rq ss
      pure (es ++ more, e)

/-- Elements read in order until one stops. -/
def readElems (rq : Req) (ps : List (Option Place)) : Run (List Elem × Option Stop) := readSpans rq (spans ps)

/-- Spans written until one stops: the number of elements written or dropped before the stop, and the stop. -/
def writeSpans (rq : Req) : List Span → List Elem → Run (Nat × Option Stop)
  | [], _ => pure (0, none)
  | s :: ss, es => do
    match ← attempt (writeSpan rq s (es.take s.count)) with
    | .error e => pure (0, some e)
    | .ok _ => do
      let (k, e) ← writeSpans rq ss (es.drop s.count)
      pure (k + s.count, e)

/-- Elements written in order until one stops. -/
def writeElems (rq : Req) (ps : List (Option Place)) (es : List Elem) : Run (Nat × Option Stop) :=
  writeSpans rq (spans ps) es

/-- Elements that an operation needs all of: it stops where they stop. -/
def readAll (rq : Req) (ps : List (Option Place)) : Run (List Elem) := do
  let (es, e) ← readElems rq ps
  rethrow e
  pure es

/-- A row of a tensor: its elements and, for an MX format, its blocks' scale bytes (R49, R256). -/
def readRow (rq : Req) (v : View) (r : Nat) : Run (List Elem × List Elem) := do
  let d ← dev
  let n := v.desc.rowLen
  let scales ← if v.desc.fmt.isMx then
      readAll rq ((List.range v.blocksPerRow).map (fun b => v.scalePlace d.deviceId (r * n + 32 * b)))
    else pure []
  let es ← readAll rq ((List.range n).map (fun i => v.place d.deviceId (r * n + i)))
  pure (es, scales)

/-- A row of a tensor written with its scale bytes: the scale of a block of poisoned elements is poisoned (R256). -/
def writeRow (rq : Req) (v : View) (r : Nat) (es scales : List Elem) : Run Unit := do
  let d ← dev
  let n := v.desc.rowLen
  let (_, e) ← writeElems rq ((List.range es.length).map (fun i => v.place d.deviceId (r * n + i))) es
  rethrow e
  let (_, e) ← writeElems rq ((List.range scales.length).map (fun b => v.scalePlace d.deviceId (r * n + 32 * b))) scales
  rethrow e

end Run

/-- The value of element `i` of a row (R46, R49, R51). -/
def rowValue (f : Fmt) (es scales : List Elem) (i : Nat) : Num :=
  let c := ((es[i]?).map Elem.code).getD 0
  if f.isMx then f.decodeMx (((scales[i / 32]?).map Elem.code).getD 0) c else f.decode c

/-- Whether element `i` of a row or its block's scale is poisoned. -/
def rowPoisoned (f : Fmt) (es scales : List Elem) (i : Nat) : Bool :=
  ((es[i]?).map Elem.poison).getD false || (f.isMx && ((scales[i / 32]?).map Elem.poison).getD false)

end Sys2Proof.Machine
end

