-- ==== Sys2Proof/Machine/Queues.lean ====
section
/-!
DEFINITION. Queues of slots: the queue table, slot states, fill advances and drains
(06_memory_hierarchy.md R207-R211, 07_streams_descriptors_and_layouts.md R246-R250, R675).
-/

namespace Sys2Proof.Machine

/-- An entry of the queue table (R246). -/
structure QEntry where
  stateIdx : Nat
  slotLen : Nat
  count : Nat
  home : Nat
  base : Nat
deriving DecidableEq, Repr

namespace QEntry

/-- The fields of a valid entry's two words (R246); the slot length of a block-slot home is 128 KiB (R675). -/
def ofWords (w : Nat × Nat) : Option QEntry :=
  if bit w.1 63 then
    let home := bits w.1 1 0
    some { stateIdx := bits w.1 51 40, slotLen := if home = 0 then bits w.1 39 16 else 0x20000,
           count := bits w.1 13 8 + 1, home, base := bits w.2 25 0 }
  else none

/-- Well-formedness by R247; an entry that is not valid is not looked at (log entry 13). -/
def wellFormed (w : Nat × Nat) : Bool :=
  !bit w.1 63 || (bits w.1 62 52 == 0 && bits w.1 15 14 == 0 && bits w.1 7 2 == 0 && bits w.2 63 26 == 0 &&
    (bits w.1 1 0 != 0 || (bits w.1 39 16 != 0 && bits w.1 39 16 % 512 == 0 && bits w.2 25 0 % 512 == 0)))

/-- The slot-state entries of slot k: one, or one in each of two arrays (R207, R675). -/
def keys (e : QEntry) (c k : Nat) : List Nat :=
  let even := 16384 + 8 * (2 * c) + (e.base % 8 + k)
  if e.home = 0 then [4096 * c + (e.stateIdx + k) % 4096]
  else if e.home = 1 then [even]
  else if e.home = 2 then [even + 8]
  else [even, even + 8]

/-- Arrays whose block slots the queue uses, with the block slot of slot k. -/
def blocks (e : QEntry) (c k : Nat) : List (Nat × Nat) :=
  let s := e.base % 8 + k
  if e.home = 1 then [(2 * c, s)] else if e.home = 2 then [(2 * c + 1, s)]
  else if e.home = 3 then [(2 * c, s), (2 * c + 1, s)] else []

/-- The physical address of slot k of a core-memory queue (R246). -/
def addr (e : QEntry) (c k : Nat) : Nat := coreMemBase c + e.base + k * e.slotLen

end QEntry

namespace Dev

/-- Queue q of core c in the running context's table, none where it does not exist. -/
def queue (d : Dev) (c q : Nat) : Option QEntry :=
  QEntry.ofWords (Sp.get (fun _ => (0, 0)) (d.core c).qtable q)

/-- The next slot to drain (R248). -/
def head (d : Dev) (c q : Nat) : Nat := Sp.get (fun _ => 0) (d.core c).qhead q

/-- The next slot to fill (R248). -/
def tail (d : Dev) (c q : Nat) : Nat := Sp.get (fun _ => 0) (d.core c).qtail q

/-- The head advanced by `n` slots. -/
def moveHead (d : Dev) (c q n : Nat) (e : QEntry) : Dev :=
  d.onCore c (fun k => { k with qhead := Sp.set (fun _ => 0) k.qhead q ((d.head c q + n) % e.count) })

/-- The tail advanced by `n` slots. -/
def moveTail (d : Dev) (c q n : Nat) (e : QEntry) : Dev :=
  d.onCore c (fun k => { k with qtail := Sp.set (fun _ => 0) k.qtail q ((d.tail c q + n) % e.count) })

/-- A slot may be filled from its start: its fill count is 0 and full is 0 in every entry (R248). -/
def slotEmpty (d : Dev) (c : Nat) (e : QEntry) (k : Nat) : Bool :=
  (e.keys c k).all (fun x => (d.slot x).fill == 0 && !(d.slot x).full)

/-- Every entry of a slot is full. -/
def slotFull (d : Dev) (c : Nat) (e : QEntry) (k : Nat) : Bool := (e.keys c k).all (fun x => (d.slot x).full)

/-- Bytes of a slot that a consumer may read (R209). -/
def slotFill (d : Dev) (c : Nat) (e : QEntry) (k : Nat) : Nat :=
  (e.keys c k).foldl (fun a x => min a (d.slot x).fill) e.slotLen

/-- Block slots that the unit at slot k spans: two where its rows are longer than 1 KiB (R90, R248). -/
def unitSpan (d : Dev) (c : Nat) (e : QEntry) (k : Nat) : Nat :=
  match e.blocks c k with
  | [] => 1
  | (a, s) :: _ =>
    match Sp.get (fun _ => none) (d.array a).blocks s with
    | some b => if b.wide then 2 else 1
    | none => 1

/-- A fill advance of one entry to a count of bytes (R208, R211): refused where the slot is full. -/
def fillTo (d : Dev) (key upTo len : Nat) (poison : Bool) (src : Option (Nat × Nat)) : Dev :=
  let x := d.slot key
  if x.full then d
  else
    let n := min len (max x.fill upTo)
    d.setSlot key { x with fill := n, full := n == len, poison := x.poison || poison, src }

/-- A drain of one entry (R208). -/
def drainKey (d : Dev) (key : Nat) : Dev :=
  let x := d.slot key
  let d := d.setSlot key { owner := x.owner }
  if 16384 ≤ key then
    d.onArray ((key - 16384) / 8) (fun a => { a with blocks := Sp.set (fun _ => none) a.blocks ((key - 16384) % 8) none })
  else d

/-- A slot-state entry found uncorrectable: full, poisoned, filled to the slot's length (R211). -/
def loseSlot (d : Dev) (key len : Nat) : Dev :=
  let x := d.slot key
  let d := d.setSlot key { x with full := true, poison := true, fill := len, lost := true }
  if key < 16384 then d.raise F.CMEM_ERR_STATUS_slot (key / 4096) else d

/-- The head slot of a queue drained, with the second block slot of a wide unit (R248). -/
def drainHead (d : Dev) (c q : Nat) (e : QEntry) : Dev :=
  let k := d.head c q
  let n := d.unitSpan c e k
  let d := (List.range n).foldl (fun d i => (e.keys c ((k + i) % e.count)).foldl drainKey d) d
  d.moveHead c q n e

end Dev

namespace Run

/-- Queue q of a core, which must exist and have a home that the operation accepts; `cause` is that of its family. -/
def queueOf (c q cause : Nat) (homes : List Nat) : Run QEntry := do
  let d ← dev
  match d.queue c q with
  | none => fault cause
  | some e => if homes.contains e.home then pure e else fault cause

/-- Bytes of a core-memory slot read by a consumer: those below the fill count, or it waits (R209). A slot whose entry
was lost gives poisoned data (R211). -/
def slotRead (u : UnitId) (e : QEntry) (k off len : Nat) : Run (List PByte) := do
  let d ← dev
  waitIf (d.slotFill u.core e k < off + len)
  let bs ← lift (fun d => d.readMem u.req (e.addr u.core k + off) len)
  let bad := (e.keys u.core k).any (fun x => (d.slot x).lost)
  pure (if bad then bs.map (fun b => { b with poison := true }) else bs)

/-- Elements written into a core-memory slot from a bit offset on, and the slot's fill count raised to the whole bytes
below `upTo` (R208, R276). -/
def slotPut (u : UnitId) (core : Nat) (e : QEntry) (k bit : Nat) (w : Nat) (es : List Elem) : Run Unit := do
  let a := e.addr core k
  let lo := bit / 8
  let n := (bit + es.length * w + 7) / 8 - lo
  let whole := bit % 8 = 0 ∧ (es.length * w) % 8 = 0
  let d ← dev
  let old := if whole then List.replicate n ({ val := 0 } : PByte) else
    (d.peekRange (a + lo) n).map (fun b => { b with poison := false })
  upd (fun d => d.writeMem u.req (a + lo) (putElems w (bit - 8 * lo) es old))

/-- Fill advance of a queue's slot in every entry it has. -/
def slotFillTo (core : Nat) (e : QEntry) (k upTo : Nat) (poison : Bool) (src : Option (Nat × Nat)) : Run Unit :=
  upd (fun d => (e.keys core k).foldl (fun d x => d.fillTo x upTo e.slotLen poison src) d)

/-- One unit of bytes written whole into the tail slot of a core-memory queue by an operation of the execute engine,
which cannot start before the slot is drained (R244, R249). -/
def produce (u : UnitId) (q : Nat) (e : QEntry) (bs : List PByte) : Run Unit := do
  let d ← dev
  let k := d.tail u.core q
  waitIf (!d.slotEmpty u.core e k)
  upd (fun d => d.writeMem u.req (e.addr u.core k) bs)
  slotFillTo u.core e k e.slotLen (bs.any PByte.poison) none
  upd (fun d => d.moveTail u.core q 1 e)

end Run

end Sys2Proof.Machine
end

