-- ==== Sys2Proof/Machine/Fetch.lean ====
section
/-!
DEFINITION. The fetch engine's and the execute engine's bookkeeping: which operation runs next, where a stopped one is
kept, and what its end leaves behind (07_streams_descriptors_and_layouts.md R243-R245, R276-R277,
08_jobs_contexts_and_translation.md R303, R310).
-/

namespace Sys2Proof.Machine

/-- The opcode of an operation word. -/
def Op.opcode (o : Op) : Nat := bits o.w0 7 0

namespace Dev

/-- Core c may run operations of its context: it serves one, and that one runs. -/
def coreRuns (d : Dev) (c : Nat) : Bool :=
  match (d.core c).ctx with
  | some n => (d.ctx n).st == .running && d.reset.isNone && !d.pins.tripped
  | none => false

/-- The context that core c serves, 0 when it serves none. -/
def coreCtx (d : Dev) (c : Nat) : Nat := ((d.core c).ctx).getD 0

/-- A unit's identity for an operation of core c. -/
def unitOf (_d : Dev) (c : Nat) (o : Op) (engine : Nat) : UnitId :=
  { engine, core := c, ctx := o.ctx, opcode := o.opcode, opId := o.id, pc := o.pc }

/-- An active stream operation changed. -/
def onStream (d : Dev) (c id : Nat) (f : Op → Op) : Dev :=
  d.onCore c (fun k => { k with streams := k.streams.map (fun o => if o.id = id then f o else o) })

/-- A held operation changed. -/
def onHeld (d : Dev) (c id : Nat) (f : Op → Op) : Dev :=
  d.onCore c (fun k => { k with held := k.held.map (fun o => if o.id = id then f o else o) })

/-- The held operation with an id. -/
def heldOp (d : Dev) (c id : Nat) : Option Op := (d.core c).held.find? (fun o => o.id = id)

/-- The active stream operation with an id. -/
def streamOp (d : Dev) (c id : Nat) : Option Op := (d.core c).streams.find? (fun o => o.id = id)

/-- Task list t of core c, head first. -/
def tasks (d : Dev) (c t : Nat) : List Op := Sp.get (fun _ => []) (d.core c).tasks t

/-- Task list t replaced. -/
def setTasks (d : Dev) (c t : Nat) (l : List Op) : Dev :=
  d.onCore c (fun k => { k with tasks := Sp.set (fun _ => []) k.tasks t l })

/-- Active places of the fetch engine in use: the streams', and those of running walker and Hoard operations (R243, 09
R318, 10 R366). -/
def activePlaces (d : Dev) (c : Nat) : Nat :=
  (d.core c).streams.length + ((d.core c).held.filter (fun o => 0x40 ≤ o.opcode ∧ o.opcode < 0x60)).length

/-- An operation is issued and not complete. -/
def outstanding (d : Dev) (c id : Nat) : Bool :=
  let k := d.core c
  (k.waiting ++ k.streams ++ k.held ++ (List.range 8).flatMap (d.tasks c)).any (fun o => o.id = id)

/-- An operation that no command needs any more leaves the unit that held it. -/
def dropOp (d : Dev) (c id : Nat) : Dev :=
  d.onCore c (fun k => { k with
    streams := k.streams.filter (fun o => o.id ≠ id), held := k.held.filter (fun o => o.id ≠ id) })

/-- The bookkeeping of one attempt at a stream operation: completed, stalled, stopped by a page fault, or its context
faulted (R276, R277, R307, R309). A stream's records carry its number as their detail, and an error response its code
(R304). -/
def endStream (d : Dev) (c : Nat) (u : UnitId) (id : Nat) (r : Except Stop Unit) : Dev :=
  let o := (d.streamOp c id).getD {}
  match r with
  | .ok () => ((d.bump F.FD_STREAM_CNT_ops c 0 1).dropOp c id)
  | .error .wait => d.onStream c id (fun o => { o with stalled := true })
  | .error (.page va _) =>
    let d := (d.onStream c id (fun o => { o with stopped := some va })).bump F.FD_FAULT_CNT_faults c 0 1
    d.pageFault (u.info 0x01 va 0 o.stream o.cursor none)
  | .error (.fatal cause va pa detail engine) =>
    let d := d.raiseIf (cause == 0x09) F.FD_ERR_STATUS_illegal_op c
    let d := d.raiseIf (cause == 0x0B) F.FD_ERR_STATUS_poison c
    d.fatal (u.info cause va pa (if cause = 0x0F then detail else o.stream) o.cursor engine)

/-- One attempt at a stream operation that is active: its work is run from its cursor. -/
def attemptStream (d : Dev) (c : Nat) (o : Op) (work : UnitId → Op → Run Unit) : Dev :=
  let u := d.unitOf c o (0x20 + c)
  let d := d.onStream c o.id (fun o => { o with stalled := false })
  let (r, d) := work u o d
  d.endStream c u o.id r

/-- A stream operation of one opcode run: the next one to start, with at most 32 active, or an active one that no page
fault stops (R243, R277); none starts while an HD_FETCH issued before it runs (10 R366). Where there is none, nothing happens. -/
def runStream (d : Dev) (c : Nat) (p : Pick) (code : Nat) (work : UnitId → Op → Run Unit) : Dev :=
  if !d.coreRuns c then d
  else
    match p with
    | .start =>
      match (d.core c).waiting with
      | [] => d
      | o :: rest =>
        if o.opcode ≠ code ∨ 32 ≤ d.activePlaces c ∨ (d.core c).held.any (fun o => o.opcode == 0x51) then d
        else
          let o := { o with stream := (d.core c).nextStream % 32 }
          let d := d.onCore c (fun k =>
            { k with waiting := rest, streams := k.streams ++ [o], nextStream := (k.nextStream + 1) % 32 })
          d.attemptStream c o work
    | .held id =>
      match d.streamOp c id with
      | none => d
      | some o => if o.opcode ≠ code ∨ o.stopped.isSome then d else d.attemptStream c o work

/-- The bookkeeping of one attempt at an operation that one of a core's other units holds. -/
def endHeld (d : Dev) (c : Nat) (u : UnitId) (id : Nat) (r : Except Stop Unit) : Dev :=
  let o := (d.heldOp c id).getD {}
  match r with
  | .ok () => d.dropOp c id
  | .error .wait => d.onHeld c id (fun o => { o with stalled := true })
  | .error (.page va _) => (d.onHeld c id (fun o => { o with stopped := some va })).pageFault (u.info 0x01 va 0 0 o.cursor none)
  | .error (.fatal cause va pa detail engine) => d.fatal (u.info cause va pa detail o.cursor engine)

/-- One attempt at a held operation. -/
def attemptHeld (d : Dev) (c engine : Nat) (o : Op) (work : UnitId → Op → Run Unit) : Dev :=
  let u := d.unitOf c o engine
  let d := d.onHeld c o.id (fun o => { o with stalled := false })
  let (r, d) := work u o d
  d.endHeld c u o.id r

/-- An operation of the walker, the Hoard, a mailbox or the collectives run: the next one that the fetch engine starts,
or one that its unit holds (R243, R299). `free` says whether the unit takes another operation. -/
def runFetch (d : Dev) (c : Nat) (p : Pick) (code engine : Nat) (free : Dev → Bool) (work : UnitId → Op → Run Unit) : Dev :=
  if !d.coreRuns c then d
  else
    match p with
    | .start =>
      match (d.core c).waiting with
      | [] => d
      | o :: rest =>
        if o.opcode ≠ code ∨ !free d then d
        else
          let d := d.onCore c (fun k => { k with waiting := rest, held := k.held ++ [o] })
          d.attemptHeld c engine o work
    | .held id =>
      match d.heldOp c id with
      | none => d
      | some o => if o.opcode ≠ code ∨ o.stopped.isSome then d else d.attemptHeld c engine o work

end Dev

end Sys2Proof.Machine
end

