-- ==== Sys2Proof/Machine/Sequencer.lean ====
section
/-!
DEFINITION. The scalar sequencer: instruction words, the fetch at the program counter, the narrow view, and the effect of
each instruction (08_jobs_contexts_and_translation.md R298-R302, 06_memory_hierarchy.md R205).
-/

namespace Sys2Proof.Machine

/-- The fields of an instruction word but its opcode (R298). -/
structure SeqWord where
  d : Nat
  a : Nat
  b : Nat
  f : Nat
  imm : BitVec 32
deriving DecidableEq, Repr

namespace SeqWord

/-- The fields fit their bits (R298). -/
def wf (i : SeqWord) : Bool := decide (i.d < 32) && decide (i.a < 32) && decide (i.b < 32) && decide (i.f < 32)

/-- The instruction word of an opcode and fields (R298). -/
def encode (op : Nat) (i : SeqWord) : Nat :=
  op + i.d * 2 ^ 8 + i.a * 2 ^ 13 + i.b * 2 ^ 18 + i.f * 2 ^ 23 + i.imm.toNat * 2 ^ 32

/-- The fields of an instruction word (R298). -/
def of (w : Nat) : SeqWord :=
  { d := bits w 12 8, a := bits w 17 13, b := bits w 22 18, f := bits w 27 23, imm := BitVec.ofNat 32 (w >>> 32) }

/-- The sign-extended immediate. -/
def simm (i : SeqWord) : W64 := i.imm.signExtend 64

end SeqWord

/-- Whether an opcode with its f is defined (R298). -/
def seqDefined (op f : Nat) : Bool :=
  match op with
  | 0x00 => decide (f ≤ 10)
  | 0x01 => decide (f ≤ 10)
  | 0x02 => f == 0
  | 0x08 => decide (f < 8)
  | 0x09 => decide (f < 4)
  | 0x10 => decide (f ≤ 5)
  | 0x11 => f == 0
  | 0x12 => f == 0
  | 0x18 => decide (f ≤ 8)
  | 0x19 => f == 0
  | 0x1A => f == 0
  | 0x1F => f == 0
  | _ => false

/-- The ALU operations of R298, by f. -/
def aluOp (f : Nat) (a b : W64) : W64 :=
  let sh := b.toNat % 64
  match f with
  | 0 => a + b
  | 1 => a - b
  | 2 => a &&& b
  | 3 => a ||| b
  | 4 => a ^^^ b
  | 5 => a <<< sh
  | 6 => a >>> sh
  | 7 => a.sshiftRight sh
  | 8 => a * b
  | 9 => if a.slt b then 1 else 0
  | _ => if a.ult b then 1 else 0

/-- The conditions of BR, by f (R298). -/
def branchTaken (f : Nat) (a b : W64) : Bool :=
  match f with
  | 0 => a == b
  | 1 => a != b
  | 2 => a.slt b
  | 3 => !a.slt b
  | 4 => a.ult b
  | _ => !a.ult b

/-- The families of R299 and the engine that takes them: 0 fetch, 1 execute, 2 either. -/
def opFamily (opcode : Nat) : Option Nat :=
  if opcode < 0x10 then none
  else if opcode = 0x18 then some 1
  else if opcode = 0x19 ∨ opcode = 0x1A then some 2
  else if opcode < 0x20 then some 0
  else if opcode < 0x40 then some 1
  else if opcode < 0x68 then some 0
  else if opcode < 0x70 then some 1
  else if opcode < 0x81 then some (if opcode = 0x80 then 1 else 0)
  else if 0x90 ≤ opcode ∧ opcode < 0xA0 then some 1
  else none

/-- Whether ISSUE, the walker or the W queue may send an opcode to a task list (list < 8) or to the fetch engine
(list 8): Q_DRAIN may go to the fetch engine, and faults there (R299, R264). -/
def routable (opcode list : Nat) : Bool :=
  match opFamily opcode with
  | none => false
  | some 2 => true
  | some 0 => list == 8
  | some _ => decide (list < 8) || opcode == 0x18

/-- Opcodes that an operation table lists (R96, R153, R187, R264, R317, R365, R398, R435, R512, R596). -/
def opListed (opcode : Nat) : Bool :=
  [0x10, 0x11, 0x12, 0x13, 0x14, 0x18, 0x19, 0x1A, 0x20, 0x21, 0x22, 0x23, 0x24, 0x30, 0x31, 0x32, 0x33, 0x34, 0x35, 0x36,
    0x37, 0x38, 0x40, 0x41, 0x50, 0x51, 0x52, 0x53, 0x54, 0x58, 0x59, 0x60, 0x61, 0x68, 0x69, 0x6A, 0x70, 0x71, 0x72, 0x73,
    0x74, 0x75, 0x76, 0x77, 0x78, 0x79, 0x7A, 0x80, 0x90, 0x91, 0x9F].contains opcode

/-- Cause and engine code of an assigned opcode that its family's table does not list, and of a Q_DRAIN at the fetch
engine (R299): each family's chapter states its cause. -/
def unlistedFault (opcode c : Nat) : Nat × Nat :=
  if opcode < 0x20 then (0x09, 0x20 + c)
  else if opcode < 0x30 then (0x06, 0x30 + 2 * c)
  else if opcode < 0x40 then (0x08, 0x50 + 8 * c)
  else if opcode < 0x50 then (0x11, 0x74 + c)
  else if opcode < 0x68 then (0x09, 0x20 + c)
  else if opcode < 0x70 then (0x10, 0x70 + c)
  else if opcode < 0x80 then (0x12, 0x80)
  else (0x10, 0x40 + 4 * c)

namespace Dev

/-- Sequencer register; s0 reads 0 (R298). -/
def sreg (d : Dev) (c i : Nat) : W64 := if i = 0 then 0 else Sp.get (fun _ => (0 : W64)) (d.core c).sregs i

/-- Sequencer register written; a write of s0 is ignored (R298). -/
def setSreg (d : Dev) (c i : Nat) (v : W64) : Dev :=
  if i = 0 then d else d.onCore c (fun k => { k with sregs := Sp.set (fun _ => (0 : W64)) k.sregs i v })

/-- The program counter of core c. -/
def pc (d : Dev) (c : Nat) : Nat := (d.core c).pc

/-- The program counter set. -/
def setPc (d : Dev) (c n : Nat) : Dev := d.onCore c (fun k => { k with pc := n % 2 ^ 64 })

/-- The sequencer as a unit, for its fault records (R304, R305). -/
def seqUnit (d : Dev) (c opcode : Nat) : UnitId :=
  { engine := 0x10 + c, core := c, ctx := d.coreCtx c, opcode, opId := (d.core c).opId, pc := d.pc c }

end Dev

namespace Run

/-- The physical address of a narrow access: aligned to its size, and in the sequencer's own core memory (R205, R294,
R298). -/
def narrow (u : UnitId) (va : Int) (len : Nat) (need : Need) : Run Nat := do
  let a ← address va
  if a % len ≠ 0 then stop (.fatal 0x04 a 0 0 none)
  else do
    let (pa, _) ← translate u.req a need
    let d ← dev
    if d.home pa = .coreMem u.core then pure pa else stop (.fatal 0x02 a pa 0 none)

/-- A load, a fetch or an operation word read through the narrow view: poison is consumed (R308). -/
def narrowRead (u : UnitId) (va : Int) (len : Nat) (need : Need := {}) : Run Nat := do
  let pa ← narrow u va len need
  let bs ← lift (fun d => d.readMem u.req pa len)
  let v ← solid va.toNat pa bs
  pure (leNat v)

/-- The instruction word at the program counter, from a page with exec = 1 (R298). -/
def fetchWord (u : UnitId) : Run Nat := do
  let d ← dev
  narrowRead u (d.pc u.core : Nat) 8 { exec := true }

/-- An instruction word is defined (R298). -/
def wordDefined (w : Nat) : Bool := bits w 31 28 == 0 && seqDefined (bits w 7 0) (bits w 27 23)

/-- The next instruction in order. -/
def nextPc (c : Nat) : Run Unit := upd (fun d => d.setPc c (d.pc c + 8))

/-- A jump: a target that is not a multiple of 8 faults at the instruction, which has had no effect (R298). -/
def jumpTo (c : Nat) (target : W64) : Run Unit := do
  if target.toNat % 8 ≠ 0 then stop (.fatal 0x04 (target.toNat % 2 ^ 48) 0 0 none)
  else upd (fun d => d.setPc c target.toNat)

/-- The value of a CSR (R300). The cycles since START_CONTEXT are a free value: the model has no clock (log entry 14). -/
def csr (u : UnitId) (n : Nat) : Run W64 := do
  let d ← dev
  let c := u.core
  match n with
  | 0 => pure (BitVec.ofNat 64 c)
  | 1 => pure (BitVec.ofNat 64 u.ctx)
  | 2 => do
    let v ← lift (fun d => d.draw 64)
    pure (BitVec.ofNat 64 v)
  | 3 => pure (BitVec.ofNat 64 d.now)
  | 4 => pure (BitVec.ofNat 64 (d.fld F.CTX_FLAGS_flags 0 u.ctx))
  | 5 => pure (BitVec.ofNat 64 d.deviceId)
  | 6 => pure (BitVec.ofNat 64 (d.core c).opId)
  | _ => fault 0x0A

/-! ### The instructions -/

/-- ALU (R298). -/
def seqAlu (u : UnitId) (i : SeqWord) : Run Unit := do
  upd (fun d => d.setSreg u.core i.d (aluOp i.f (d.sreg u.core i.a) (d.sreg u.core i.b)))
  nextPc u.core

/-- ALUI (R298). -/
def seqAlui (u : UnitId) (i : SeqWord) : Run Unit := do
  upd (fun d => d.setSreg u.core i.d (aluOp i.f (d.sreg u.core i.a) i.simm))
  nextPc u.core

/-- LIH (R298). -/
def seqLih (u : UnitId) (i : SeqWord) : Run Unit := do
  upd (fun d => d.setSreg u.core i.d (i.imm ++ (d.sreg u.core i.d).setWidth 32))
  nextPc u.core

/-- The address a + imm of a load, a store or an ISSUE, as the 64-bit value that is used as an address (R294). -/
def seqAddress (d : Dev) (c : Nat) (i : SeqWord) : Int := ((d.sreg c i.a + i.simm).toNat : Int)

/-- LD (R298, R205). -/
def seqLd (u : UnitId) (i : SeqWord) : Run Unit := do
  let d ← dev
  let n := 2 ^ (i.f % 4)
  let v ← narrowRead u (seqAddress d u.core i) n
  let r := if bit i.f 2 then BitVec.ofInt 64 (sx (8 * n) v) else BitVec.ofNat 64 v
  upd (fun d => d.setSreg u.core i.d r)
  nextPc u.core

/-- ST (R298, R205). -/
def seqSt (u : UnitId) (i : SeqWord) : Run Unit := do
  let d ← dev
  let n := 2 ^ (i.f % 4)
  let pa ← narrow u (seqAddress d u.core i) n { write := true }
  upd (fun d => d.writeMem u.req pa (Dev.clean (leBytes n (d.sreg u.core i.b).toNat)))
  nextPc u.core

/-- BR (R298): the displacement counts from the branch. -/
def seqBr (u : UnitId) (i : SeqWord) : Run Unit := do
  let d ← dev
  if branchTaken i.f (d.sreg u.core i.a) (d.sreg u.core i.b) then
    jumpTo u.core (BitVec.ofNat 64 (d.pc u.core) + i.simm)
  else nextPc u.core

/-- JAL (R298). -/
def seqJal (u : UnitId) (i : SeqWord) : Run Unit := do
  let d ← dev
  let pc := BitVec.ofNat 64 (d.pc u.core)
  jumpTo u.core (pc + i.simm)
  upd (fun d => d.setSreg u.core i.d (pc + 8))

/-- JALR (R298). -/
def seqJalr (u : UnitId) (i : SeqWord) : Run Unit := do
  let d ← dev
  let pc := BitVec.ofNat 64 (d.pc u.core)
  jumpTo u.core (d.sreg u.core i.a + i.simm)
  upd (fun d => d.setSreg u.core i.d (pc + 8))

/-- An operation sent to a task list or to the fetch engine (R299, R301): with a full list its sender waits. A word that no
table lists faults its context as its family's chapter states. -/
def sendOp (u : UnitId) (list : Nat) (o : Op) : Run Unit := do
  let d ← dev
  let c := u.core
  waitIf (if list = 8 then decide (32 ≤ (d.core c).waiting.length) else decide (32 ≤ (d.tasks c list).length))
  if !opListed o.opcode ∨ (o.opcode = 0x18 ∧ list = 8) then do
    let (cause, engine) := unlistedFault o.opcode c
    upd (fun d => d.fatal ({ u with opcode := o.opcode, opId := o.id, pc := o.pc }.info cause 0 0 0 0 (some engine)))
  else if list = 8 then upd (fun d => d.onCore c (fun k => { k with waiting := k.waiting ++ [o] }))
  else upd (fun d => d.setTasks c list (d.tasks c list ++ [o]))

/-- A word that the walker or the W queue issues for the operation `by_`: it carries that operation's id, and the count
of such words above it, which no record shows (log entry 16). -/
def issueFor (u : UnitId) (by_ : Op) (list w0 w1 : Nat) (audit : Nat × Nat × Nat) : Run Nat := do
  let d ← dev
  let n := (d.core u.core).issued + 1
  let id := n * 2 ^ 48 + by_.id % 2 ^ 48
  sendOp u list { w0, w1, id, pc := by_.pc, ctx := by_.ctx, task := list, audit }
  upd (fun d => d.onCore u.core (fun k => { k with issued := n }))
  pure id

/-- ISSUE (R298, R299, R301). -/
def seqIssue (u : UnitId) (i : SeqWord) : Run Unit := do
  let d ← dev
  let a := seqAddress d u.core i
  let pa ← narrow u a 16 {}
  let bs ← lift (fun d => d.readMem u.req pa 16)
  let v ← solid a.toNat pa bs
  let w0 := leNat (v.take 8)
  let w1 := leNat (v.drop 8)
  if !routable (w0 % 256) i.f then stop (.fatal 0x0A a.toNat 0 0 none)
  let d ← dev
  let id := ((d.core u.core).opId + 1) % 2 ^ 48
  sendOp u i.f { w0, w1, id, pc := d.pc u.core, ctx := u.ctx, task := i.f }
  upd (fun d => d.onCore u.core (fun k => { k with opId := id }))
  nextPc u.core

/-- CSRR (R298, R300). -/
def seqCsrr (u : UnitId) (i : SeqWord) : Run Unit := do
  let v ← csr u i.imm.toNat
  upd (fun d => d.setSreg u.core i.d v)
  nextPc u.core

/-- CSRC (R298). -/
def seqCsrc (u : UnitId) (i : SeqWord) : Run Unit := do
  upd (fun d => d.setFld F.CTX_FLAGS_flags 0 u.ctx
    ((Flags.ofNat (d.fld F.CTX_FLAGS_flags 0 u.ctx)).clear (d.sreg u.core i.a).toNat).toNat)
  nextPc u.core

/-- HALT (R298, R303). -/
def seqHalt (u : UnitId) (_i : SeqWord) : Run Unit :=
  upd (fun d => d.onCore u.core (fun k => { k with live := false, halted := true }))

end Run

namespace Dev

/-- What a sequencer's stop does: a page fault stops the sequencer at the instruction (R309, R310). -/
def seqStop (d : Dev) (c : Nat) (u : UnitId) (s : Stop) : Dev :=
  match s with
  | .page va _ => (d.onCore c (fun k => { k with seqStopped := some va })).stopped u 0 s
  | _ => d.stopped u 0 s

/-- The sequencer of core c runs an instruction: it must be live and its context running, no page fault may stop it, and
the instruction must stand at the program counter, where another one is left alone; an undefined word there is illegal. An
instruction that stops has had no effect, and the opcode of a record is that of the word, 0 when the fetch itself stops
(R298, R304, R310). -/
def runSeq (d : Dev) (c op : Nat) (i : SeqWord) (effect : UnitId → SeqWord → Run Unit) : Dev :=
  if !d.coreRuns c || !(d.core c).live || (d.core c).seqStopped.isSome then d
  else
    match Run.fetchWord (d.seqUnit c 0) d with
    | (.error s, _) => d.seqStop c (d.seqUnit c 0) s
    | (.ok w, d1) =>
      let u := d.seqUnit c (bits w 7 0)
      if !Run.wordDefined w then d.seqStop c u (.fatal 0x0A 0 0 0 none)
      else if bits w 7 0 ≠ op ∨ SeqWord.of w ≠ i then d
      else
        match effect u i d1 with
        | (.ok (), d2) => d2
        | (.error s, _) => d.seqStop c u s

end Dev

end Sys2Proof.Machine
end

