-- ==== Sys2Proof/Machine/Functions.lean ====
section
/-!
DEFINITION. The real functions of the vector engines (05_gather_merge_engines.md R189, R190). A result that no finite
number of bits writes down is given as a value cut off below its 130th bit with one bit more, a 1, that stands for the
rest: every rounding of R58 and R65 treats it as it treats the exact result. `none` is a result that the spec does not
state.
-/

namespace Sys2Proof.Machine.Fn

/-- Floor of the square root, bit by bit. -/
def isqrt (n : Nat) : Nat :=
  (List.range (Nat.log2 n / 2 + 1)).reverse.foldl (fun r i => if (r + 2 ^ i) * (r + 2 ^ i) ≤ n then r + 2 ^ i else r) 0

/-- A value cut off at a bit, and whether something was cut off. -/
def cut (neg : Bool) (q : Nat) (inexact : Bool) (e : Int) : Num := .fin neg (2 * q + b2n inexact) (e - 1)

/-- The value that lies strictly between lo and hi times 2^e where 130 bits of it are certain. -/
def between (neg : Bool) (lo hi : Nat) (e : Int) : Option Num :=
  let k := Nat.log2 lo - 130
  if Nat.log2 lo < 132 ∨ lo / 2 ^ k ≠ hi / 2 ^ k then none else some (cut neg (lo / 2 ^ k) true (e + k))

/-- The first precision whose bounds are close enough. -/
def refine (f : Nat → Option Num) : Option Num := [192, 384, 768, 1536, 3072].findSome? f

/-- ln 2 times 2^p, short by less than p + 1. -/
def ln2 (p : Nat) : Nat := (List.range p).foldl (fun s k => s + 2 ^ p / ((k + 1) * 2 ^ (k + 1))) 0

/-- Floor of a value times 2^p. -/
def fix (p : Nat) (neg : Bool) (m : Nat) (e : Int) : Int :=
  let v : Int := if neg then -(m : Int) else m
  if 0 ≤ e + p then v * 2 ^ (e + p).toNat else v / 2 ^ (-(e + p)).toNat

/-- The exponential series at r times 2^-p for r below ln 2 times 2^p. -/
def expSeries (p r : Nat) : Nat :=
  ((List.range (p / 4 + 40)).foldl (fun (acc : Nat × Nat) i => (acc.1 * r / (2 ^ p * (i + 1)), acc.2 + acc.1)) (2 ^ p, 0)).2

/-- e^x for x = X times 2^-p as S times 2^(n - p), with S in the first octave and off by less than 2^30. -/
def expFix (p : Nat) (x : Int) : Int × Nat :=
  let l : Int := ln2 p
  (x / l, expSeries p (x % l).toNat)

/-- The bound on the errors of the fixed-point functions. -/
def slack : Nat := 2 ^ 30

/-- Exponent of the leading bit of a magnitude. -/
def top (m : Nat) (e : Int) : Int := (Nat.log2 m : Nat) + e

/-- A positive value below every step of every format, and one above every finite value. -/
def tiny : Num := .fin false 1 (-12000)
/-- A finite value that overflows every format. -/
def huge : Num := .fin false 1 12000
/-- A value nearer to 1 than any bit that a rounding looks at, from below. -/
def almostOne (neg : Bool) : Num := .fin neg (2 ^ 200 - 1) (-200)

/-- EXP. -/
def exp : Num → Option Num
  | .nan => some .nan
  | .inf n => some (if n then .zero else .inf false)
  | .fin n m e =>
    if m = 0 then some .one
    else if 13 ≤ top m e then some (if n then tiny else huge)
    else refine (fun p => let (k, s) := expFix p (fix p n m e); between false (s - slack) (s + slack) (k - p))

/-- EXP2: exact at the integers. -/
def exp2 : Num → Option Num
  | .nan => some .nan
  | .inf n => some (if n then .zero else .inf false)
  | .fin n m e =>
    if m = 0 then some .one
    else if 13 ≤ top m e then some (if n then tiny else huge)
    else
      let k := fix 0 n m e
      if 0 ≤ e ∨ m % 2 ^ (-e).toNat = 0 then some (.fin false 1 k)
      else refine (fun p =>
        let f := (fix p n m e - k * 2 ^ p).toNat
        let s := expSeries p (f * ln2 p / 2 ^ p)
        between false (s - slack) (s + slack) (k - p))

/-- ln (m times 2^e) times 2^p, off by less than the slack. -/
def lnFix (p m : Nat) (e : Int) : Int :=
  let k := Nat.log2 m
  let t : Nat := m * 2 ^ p / 2 ^ k
  let high := 3 * 2 ^ p ≤ 2 * t
  let t : Int := if high then t / 2 else t
  let one : Int := (2 ^ p : Nat)
  let z := (t - one) * one / (t + one)
  let zz := z * z / one
  let s := (List.range (p / 4 + 8)).foldl (fun (acc : Int × Int) (i : Nat) => (acc.1 * zz / one, acc.2 + acc.1 / (2 * (i : Int) + 1))) (z, 0)
  ((k : Int) + e + (if high then 1 else 0)) * ln2 p + 2 * s.2

/-- The domain of the logarithms: their value outside the positive finite numbers. -/
def logEdge : Num → Option Num
  | .nan => some .nan
  | .inf n => some (if n then .nan else .inf false)
  | .fin n m _ => if m = 0 then some (.inf true) else if n then some .nan else none

/-- LOG. -/
def log (x : Num) : Option Num :=
  match logEdge x, x with
  | some v, _ => some v
  | none, .fin _ m e =>
    if m = 2 ^ Nat.log2 m ∧ top m e = 0 then some .zero
    else refine (fun p =>
      let v := lnFix p m e
      between (decide (v < 0)) (v.natAbs - slack) (v.natAbs + slack) (-p))
  | none, x => some x

/-- LOG2: exact at the powers of two. -/
def log2 (x : Num) : Option Num :=
  match logEdge x, x with
  | some v, _ => some v
  | none, .fin _ m e =>
    if m = 2 ^ Nat.log2 m then some (Num.ofInt (top m e))
    else refine (fun p =>
      let v := lnFix p m e * 2 ^ p / (ln2 p : Int)
      between (decide (v < 0)) (v.natAbs - 2 * slack) (v.natAbs + 2 * slack) (-p))
  | none, x => some x

/-- TANH. The spec does not state the sign of its zero at -0. -/
def tanh : Num → Option Num
  | .nan => some .nan
  | .inf n => some (.fin n 1 0)
  | .fin n m e =>
    if m = 0 then (if n then none else some .zero)
    else if 6 ≤ top m e then some (almostOne n)
    else refine (fun p =>
      let (k, s) := expFix p (fix p true m (e + 1))
      let y := s / 2 ^ (-k).toNat
      let one := 2 ^ p
      between n ((one - (y + slack)) * one / (one + y + slack)) ((one - (y - slack)) * one / (one + y - slack) + 1) (-p))

/-- SIGMOID. -/
def sigmoid : Num → Option Num
  | .nan => some .nan
  | .inf n => some (if n then .zero else .one)
  | .fin n m e =>
    if m = 0 then some (.fin false 1 (-1))
    else if n ∧ 13 ≤ top m e then some tiny
    else if ¬ n ∧ 8 ≤ top m e then some (almostOne false)
    else refine (fun p =>
      let (k, s) := expFix p (fix p true m e)
      let y := s / 2 ^ (-k).toNat
      let one := 2 ^ p
      if n then
        between false ((s - slack) * one / (one + y + slack)) ((s + slack) * one / (one + y - slack) + 1) (k - p)
      else between false (one * one / (one + y + slack)) (one * one / (one + y - slack) + 1) (-p))

/-- DIV, by IEEE 754. -/
def div : Num → Num → Num
  | .nan, _ => .nan
  | _, .nan => .nan
  | .inf _, .inf _ => .nan
  | .inf a, .fin b _ _ => .inf (a != b)
  | .fin a _ _, .inf b => .fin (a != b) 0 0
  | .fin a m e, .fin b n f =>
    if n = 0 then (if m = 0 then .nan else .inf (a != b))
    else if m = 0 then .fin (a != b) 0 0
    else
      let k := 140 + Nat.log2 n
      cut (a != b) (m * 2 ^ k / n) (decide (m * 2 ^ k % n ≠ 0)) (e - f - k)

/-- SQRT, by IEEE 754. -/
def sqrt : Num → Num
  | .nan => .nan
  | .inf n => if n then .nan else .inf false
  | .fin n m e =>
    if m = 0 then .fin n 0 0
    else if n then .nan
    else
      let s : Nat := if e % 2 = 0 then 300 else 301
      let q := isqrt (m * 2 ^ s)
      cut false q (decide (q * q ≠ m * 2 ^ s)) ((e - s) / 2)

/-- RSQRT. The spec does not state its value at -0. -/
def rsqrt : Num → Option Num
  | .nan => some .nan
  | .inf n => some (if n then .nan else .zero)
  | .fin n m e =>
    if m = 0 then (if n then none else some (.inf false))
    else if n then some .nan
    else
      let m' := if e % 2 = 0 then m else 2 * m
      let e' := if e % 2 = 0 then e else e - 1
      let k := 200 + Nat.log2 m'
      let q := isqrt (2 ^ (2 * k) / m')
      some (cut false q (decide (q * q * m' ≠ 2 ^ (2 * k))) (-(k : Int) - e' / 2))

/-- The larger of two values; NaN with a NaN, and -0 below +0 (R190). -/
def maxNum (x y : Num) : Num :=
  if x.isNaN || y.isNaN then .nan
  else
    let c := Num.cmp x y
    if c = 0 then (if x.sign then y else x) else if 0 < c then x else y

/-- The smaller of two values. -/
def minNum (x y : Num) : Num :=
  if x.isNaN || y.isNaN then .nan
  else
    let c := Num.cmp x y
    if c = 0 then (if x.sign then x else y) else if 0 < c then y else x

/-- sgn of 11_parameter_update.md. -/
def sgn (x : Num) : Num :=
  match x with
  | .nan => .nan
  | x => if x.isZero then .zero else .fin x.sign 1 0

/-- RELU: a when a > 0, otherwise +0. -/
def relu (x : Num) : Num := if Num.lt .zero x then x else .zero

end Sys2Proof.Machine.Fn
end

