-- ==== Sys2Proof/Machine/Streams.lean ====
section
/-!
DEFINITION. Stream operations (07_streams_descriptors_and_layouts.md R262-R281): ST_LOAD, ST_STORE, ST_COPY, ST_TILE
and ST_MAXSCAN, their cursors, poison and counters.
-/

namespace Sys2Proof.Machine

/-- A stream operation's word and parameter block (R262, R263). -/
structure StreamArgs where
  u : UnitId
  op : Op
  q : Nat
  cores : Nat
  chain : Bool
  zl1 : Bool
  foreign : Bool
  maxacc : Bool
  dSrc : Nat
  dDst : Nat
  dIdx : Nat
  maxPtr : Nat
  rmaxPtr : Nat
  codesPtr : Nat
  base : Nat
  codesStride : Nat
  unitLen : Nat
  pattern : Nat
deriving DecidableEq, Repr

/-- A position of an index stream, resolved (R160, R161, R266). -/
inductive IdxHit where
  | row (r : Nat)
  | out (raw : Nat)
  | poisoned
deriving DecidableEq, Repr

/-- A row (raw - base) mod 2^32 judged against a number of rows (R160, R161). -/
def resolveIndex (base rows : Nat) (e : Elem) : IdxHit :=
  if e.poison then .poisoned
  else
    let r := (e.code + 2 ^ 32 - base % 2 ^ 32) % 2 ^ 32
    if r < rows then .row r else .out e.code

/-- Positions served by a row already read in their window of 64 positions (R162). -/
def coalesced (hits : List IdxHit) : Nat :=
  (List.range (ceilDiv hits.length 64)).foldl (fun a w =>
    let rows := ((hits.drop (64 * w)).take 64).filterMap (fun h => match h with | .row r => some r | _ => none)
    a + (rows.length - rows.eraseDups.length)) 0

namespace Run

/-- The operation's word and parameter block read and checked (R262, R263): a nonzero reserved field or a parameter
block out of line is an illegal stream operation. -/
def streamArgs (u : UnitId) (o : Op) : Run StreamArgs := do
  faultIf (bits o.w0 31 24 ≠ 0 ∨ bits o.w0 63 48 ≠ 0 ∨ bits o.w1 63 48 ≠ 0 ∨ o.w1 % 128 ≠ 0) 0x09
  let p ← vsolid u.req (bits o.w1 47 0) 128
  faultIf ((p.drop 0x3D).any (fun b => b != 0)) 0x09
  pure { u, op := o, q := bits o.w0 15 8, cores := bits o.w0 19 16, chain := bit o.w0 20, zl1 := bit o.w0 21
         foreign := bit o.w0 22, maxacc := bit o.w0 23
         dSrc := field p 0 8, dDst := field p 8 8, dIdx := field p 16 8, maxPtr := field p 24 8
         rmaxPtr := field p 32 8, codesPtr := field p 40 8, base := field p 0x30 4, codesStride := field p 0x34 4
         unitLen := field p 0x38 4, pattern := field p 0x3C 1 }

/-- An operand that the operation requires: a pointer of 0 marks it absent (R263, R264). -/
def required (cause ptr : Nat) : Run Unit := faultIf (ptr = 0) cause

/-- The k-th descriptor of a stream: its select word is the one read when the stream started (R261). -/
def streamView (a : StreamArgs) (ptr k : Nat) : Run View := do
  let v ← view { a.u.req with stream := false } ptr a.zl1 ((a.op.work[k]?).getD 0)
  pure v

/-- The select words that a starting stream has read are kept with it (R261). -/
def keepSelects (a : StreamArgs) (vs : List View) : Run Unit :=
  upd (fun d => d.onStream a.u.core a.op.id (fun o => { o with work := vs.map View.select }))

/-- The stream's cursor moved. -/
def setCursor (a : StreamArgs) (n : Nat) : Run Unit :=
  upd (fun d => d.onStream a.u.core a.op.id (fun o => { o with cursor := n }))

/-- The cursor as it stands. -/
def cursor (a : StreamArgs) : Run Nat := do
  let d ← dev
  pure (((d.streamOp a.u.core a.op.id).map Op.cursor).getD 0)

/-- One item counted as chaff or as foreign, with the capture of FD_CHAFF_INFO (R260, R266, R283). -/
def streamChaff (a : StreamArgs) (cause value : Nat) : Run Unit := do
  let c := a.u.core
  if a.foreign then upd (fun d => d.bump F.FD_FOREIGN_CNT_items c 0 1)
  else do
    let d ← dev
    if !d.isSet F.FD_ERR_STATUS_chaff c then
      upd (fun d => d.wr .FD_CHAFF_INFO c 0 (value % 2 ^ 32 * 2 ^ 32 + cause * 2 ^ 24 + a.u.ctx % 16 * 2 ^ 16
        + (((d.streamOp c a.op.id).map Op.stream).getD 0) * 2 ^ 8 + a.u.opcode))
    upd (fun d => (d.bump F.FD_CHAFF_CNT_items c 0 1).raise F.FD_ERR_STATUS_chaff c)

/-- Elements that no owner entry covers, counted (R260). -/
def uncovered (a : StreamArgs) (v : View) (ns : List Nat) : Run Unit := do
  let d ← dev
  match v.owners with
  | none => pure ()
  | some _ => ns.forM (fun n => if (v.place d.deviceId n).isNone then streamChaff a 2 (v.splitIndex n) else pure ())

/-- Bytes read by a stream (FD_BYTE_CNT), and the note of propagated poison (FD_ERR_STATUS.poison). -/
def streamBytes (a : StreamArgs) (w : Nat) (es : List Elem) : Run Unit :=
  upd (fun d => (d.bump F.FD_BYTE_CNT_bytes a.u.core 0 (ceilDiv (es.length * w) 8)).raiseIf (es.any Elem.poison)
    F.FD_ERR_STATUS_poison a.u.core)

/-- The rows that positions `lo` to `hi` of the index stream select, up to a stop; out-of-range positions are counted
(R266). -/
def indexHits (a : StreamArgs) (vi : View) (rows lo hi : Nat) : Run (List IdxHit × Option Stop) := do
  let d ← dev
  let (es, e) ← readElems a.u.req ((List.range (hi - lo)).map (fun i => vi.place d.deviceId (lo + i)))
  pure (es.map (resolveIndex a.base rows), e)

/-- Out-of-range positions counted. -/
def countHits (a : StreamArgs) (hits : List IdxHit) : Run Unit :=
  hits.forM (fun h => match h with | .out raw => streamChaff a 1 raw | _ => pure ())

end Run

/-! ### ST_LOAD -/

/-- How a unit of an ST_LOAD or ST_STORE lies in its slot (R249, R265): elements of a row, elements that the row takes
in the slot (whole blocks for MX), positions in a unit and positions in all. -/
structure UnitPlan where
  v : View
  idx : Option View
  rowLen : Nat
  pad : Nat
  perUnit : Nat
  total : Nat
deriving DecidableEq, Repr

namespace UnitPlan

/-- The plan of a view with its optional index stream; `unit` 0 makes the whole stream one unit (R263). -/
def of (v : View) (idx : Option View) (unit : Nat) : UnitPlan :=
  let total := match idx with | some i => i.desc.count | none => v.desc.count
  { v, idx, rowLen := v.desc.rowLen, pad := if v.desc.fmt.isMx then alignUp v.desc.rowLen 32 else v.desc.rowLen
    perUnit := if unit = 0 then total else unit, total }

/-- Positions in unit k. -/
def size (p : UnitPlan) (k : Nat) : Nat := min p.perUnit (p.total - k * p.perUnit)

/-- Slot elements that `n` positions take (R265). -/
def span (p : UnitPlan) (n : Nat) : Nat :=
  match p.idx with
  | some _ => n * p.pad
  | none => if p.pad = p.rowLen then n else n / p.rowLen * p.pad + n % p.rowLen

/-- Slot elements of a whole unit of `n` positions: the last block of a row is padded (R50). -/
def whole (p : UnitPlan) (n : Nat) : Nat :=
  let s := p.span n
  if p.v.desc.fmt.isMx then alignUp s 32 else s

/-- Positions that lie whole below `s` slot elements. -/
def done (p : UnitPlan) (s : Nat) : Nat :=
  match p.idx with
  | some _ => if p.pad = 0 then 0 else s / p.pad
  | none => if p.pad = p.rowLen then s else s / p.pad * p.rowLen + min (s % p.pad) p.rowLen

/-- The element of the tensor at slot element `j` of unit k: none for padding and for a row that is not read. -/
def element (p : UnitPlan) (k : Nat) (hits : Nat → IdxHit) (j : Nat) : Option Nat :=
  match p.idx with
  | none =>
    if p.pad = p.rowLen then some (k * p.perUnit + j)
    else if j % p.pad < p.rowLen then some (k * p.perUnit + j / p.pad * p.rowLen + j % p.pad) else none
  | some _ =>
    if p.rowLen ≤ j % p.pad then none
    else match hits (j / p.pad) with
      | .row r => some (r * p.rowLen + j % p.pad)
      | _ => none

/-- Bytes of a unit in a core-memory slot: elements, then from the next multiple of 256 the scale bytes (R265). -/
def bytes (p : UnitPlan) (n : Nat) : Nat :=
  let s := p.whole n
  if p.v.desc.fmt.isMx then alignUp (p.v.desc.fmt.packed s) 256 + s / 32 else p.v.desc.fmt.packed s

/-- Whether a unit consists of whole blocks (R265). -/
def blocksWhole (p : UnitPlan) : Bool :=
  !p.v.desc.fmt.isMx || p.idx.isSome || p.perUnit = p.total ||
    (if p.rowLen % 32 = 0 then p.perUnit % 32 == 0 else p.rowLen != 0 && p.perUnit % p.rowLen == 0)

end UnitPlan

namespace Run

/-- One unit of an ST_LOAD into a core-memory slot, from the cursor on (R265, R276, R277). -/
def loadUnit (a : StreamArgs) (p : UnitPlan) (e : QEntry) (k : Nat) : Run Unit := do
  let d ← dev
  let cur ← cursor a
  let first := cur - k * p.perUnit
  let n := p.size k
  let slot := d.tail a.u.core a.q
  waitIf (first = 0 ∧ !d.slotEmpty a.u.core e slot)
  let f := p.v.desc.fmt
  let rq := { a.u.req with stream := p.v.desc.hint }
  let (hits, stop0) ← match p.idx with
    | some vi => indexHits a vi p.v.desc.rows cur (k * p.perUnit + n)
    | none => pure ([], none)
  let hit := fun r => (hits[r - first]?).getD .poisoned
  let lo := p.span first
  let hi := match p.idx with | some _ => lo + hits.length * p.pad | none => p.whole n
  let js := (List.range (hi - lo)).map (fun j => lo + j)
  let at_ := fun j => p.element k hit j
  let blocks := if f.isMx then js.filter (fun j => j % 32 = 0) else []
  let (ss, stop1) ← readElems rq (blocks.map (fun j => (at_ j).bind (p.v.scalePlace d.deviceId)))
  let js := if f.isMx then js.take (32 * ss.length) else js
  let (es, stop2) ← readElems rq (js.map (fun j => (at_ j).bind (p.v.place d.deviceId)))
  -- a block is delivered whole, and so is a row that an index selects
  let got := es.length
  let keep := if got = js.length then got else if p.idx.isSome then got / p.pad * p.pad else if f.isMx then got / 32 * 32 else got
  let es := (es.take keep).zipIdx.map (fun (x, i) =>
    if p.idx.isSome ∧ hit ((lo + i) / p.pad) = .poisoned then { x with poison := true } else x)
  let ss := ss.take (ceilDiv keep 32)
  slotPut a.u a.u.core e slot (lo * f.width) f.width es
  if f.isMx then slotPut a.u a.u.core e slot (8 * (alignUp (f.packed (p.whole n)) 256 + lo / 32)) 8 ss
  streamBytes a f.width (es ++ ss)
  uncovered a p.v ((js.take keep).filterMap at_)
  countHits a (hits.take (p.done (lo + keep) - first))
  let finished := lo + keep = p.whole n
  let here := k * p.perUnit + (if finished then n else p.done (lo + keep))
  setCursor a here
  slotFillTo a.u.core e slot (if finished then e.slotLen else (lo + keep) * f.width / 8) ((es ++ ss).any Elem.poison)
    (some (a.op.id, k))
  if finished then upd (fun d => d.moveTail a.u.core a.q 1 e)
  rethrow (if finished then none else (stop0.orElse (fun _ => stop1)).orElse (fun _ => stop2))
  waitIf (!finished)

/-- The exponent maximum of a row as it was loaded, as a 16-bit code (R69, R71, R265). -/
def rowMaxOf (f : Fmt) (es scales : List Elem) : Nat :=
  (maxExpOf ((List.range es.length).map (rowValue f es scales))).code

/-- One row of a unit delivered into a block slot of an array's activation buffer (R90, R265). -/
def putBlockRow (arr slot r fmtCode rowLen : Nat) (wide : Bool) (row : BlockRow) : Run Unit :=
  upd (fun d => d.onArray arr (fun x =>
    let b := (Sp.get (fun _ => none) x.blocks slot).getD { fmt := fmtCode, rowLen, wide }
    let rows := b.rows.take r ++ List.replicate (r - b.rows.length) ({} : BlockRow) ++ [row]
    { x with blocks := Sp.set (fun _ => none) x.blocks slot (some { b with fmt := fmtCode, rowLen, wide, rows }) }))

/-- Rows of a unit that the even array of a pair takes (R103). -/
def evenShare (m : Nat) : Nat := (m + 1) / 2

/-- One unit of an ST_LOAD into block slots, from the cursor on: rows with their scales and maxima (R90, R265). A row is
delivered up to the element where the stream stops. -/
def loadBlockUnit (a : StreamArgs) (p : UnitPlan) (e : QEntry) (fmtCode : Nat) (wide : Bool) (k : Nat) : Run Unit := do
  let d ← dev
  let c := a.u.core
  let cur ← cursor a
  let first := cur - k * p.perUnit
  let n := p.size k
  let slot := d.tail c a.q
  let nslots := if wide then 2 else 1
  waitIf (first = 0 ∧ (List.range nslots).any (fun i => !d.slotEmpty c e ((slot + i) % e.count)))
  let f := p.v.desc.fmt
  let rq := { a.u.req with stream := p.v.desc.hint }
  let rowsAll := match p.idx with | some _ => n | none => if p.rowLen = 0 then 0 else n / p.rowLen
  let firstRow := match p.idx with | some _ => first | none => if p.rowLen = 0 then 0 else first / p.rowLen
  let rowsSoFar ← (List.range (rowsAll - firstRow)).foldlM (fun (stop : Option Stop) i => do
    match stop with
    | some s => pure (some s)
    | none => do
      let r := firstRow + i
      let d ← dev
      let (hits, s0) ← match p.idx with
        | some vi => indexHits a vi p.v.desc.rows (k * p.perUnit + r) (k * p.perUnit + r + 1)
        | none => pure ([.row (k * (p.perUnit / max 1 p.rowLen) + r)], none)
      match s0, hits.head? with
      | some s, _ => pure (some s)
      | none, none => pure none
      | none, some h => do
        let dest := match e.blocks c slot with
          | [x, y] => if r < evenShare rowsAll then (x.1, x.2, r) else (y.1, y.2, r - evenShare rowsAll)
          | x :: _ => (x.1, x.2, r)
          | [] => (0, 0, r)
        let el := fun i => match h with | .row r => some (r * p.rowLen + i) | _ => none
        let (ss, s1) ← readElems rq (if f.isMx then (List.range p.v.blocksPerRow).map (fun b =>
          (el (32 * b)).bind (p.v.scalePlace d.deviceId)) else [])
        let (es, s2) ← readElems rq ((List.range p.rowLen).map (fun i => (el i).bind (p.v.place d.deviceId)))
        let (mx, s3) ← match h with
          | .row r =>
            if a.maxPtr = 0 then pure (({ code := rowMaxOf f es ss } : Elem), none)
            else do
              match ← attempt (vread a.u.req (a.maxPtr + 2 * r) 2) with
              | .ok bs => pure (({ code := leNat (bs.map PByte.val), poison := bs.any PByte.poison } : Elem), none)
              | .error s => pure (({} : Elem), some s)
          | _ => pure (({ code := 0x8000 } : Elem), none)
        let stop := (s1.orElse (fun _ => s2)).orElse (fun _ => s3)
        let got := if s1.isSome then 0 else es.length
        let bad := h = .poisoned || mx.poison || es.any Elem.poison || ss.any Elem.poison
        putBlockRow dest.1 dest.2.1 dest.2.2 fmtCode p.rowLen wide
          { elems := (es.take got).map Elem.code, scales := ss.map Elem.code, rowMax := mx.code, poison := bad
            complete := stop.isNone }
        streamBytes a f.width (es.take got ++ ss)
        if stop.isNone then do
          countHits a (if p.idx.isSome then hits else [])
          uncovered a p.v ((List.range p.rowLen).filterMap el)
        setCursor a (k * p.perUnit + (match p.idx with
          | some _ => if stop.isNone then r + 1 else r
          | none => r * p.rowLen + (if stop.isNone then p.rowLen else got)))
        let key := 16384 + 8 * dest.1 + dest.2.1
        upd (fun d => d.fillTo key (if stop.isNone ∧ r + 1 = rowsAll then 0 else (d.slot key).fill + f.packed got) 0x20000 bad
          (some (a.op.id, k)))
        pure stop) none
  rethrow rowsSoFar
  let keys := (List.range nslots).flatMap (fun i => e.keys c ((slot + i) % e.count))
  setCursor a (k * p.perUnit + n)
  upd (fun d => keys.foldl (fun d x => d.fillTo x 0x20000 0x20000 false (some (a.op.id, k))) d)
  upd (fun d => d.moveTail c a.q nslots e)

/-- Units of a stream run one after the other from the cursor's unit, until one stalls. -/
def units (a : StreamArgs) (p : UnitPlan) (one : Nat → Run Unit) : Run Unit := do
  let cur ← cursor a
  let n := if p.perUnit = 0 then 0 else ceilDiv p.total p.perUnit
  (List.range (n - (if p.perUnit = 0 then 0 else cur / p.perUnit))).forM (fun i => one (cur / p.perUnit + i))

/-- The optional index view: index32 elements (R266). -/
def indexView (a : StreamArgs) (k : Nat) : Run (Option View) := do
  if a.dIdx = 0 then pure none
  else do
    let v ← streamView a a.dIdx k
    faultIf (v.desc.fmt ≠ .index32) 0x09
    pure (some v)

/-- ST_LOAD (R264-R266). -/
def stLoad (u : UnitId) (o : Op) : Run Unit := do
  let a ← streamArgs u o
  let e ← queueOf u.core a.q 0x09 [0, 1, 2, 3]
  required 0x09 a.dSrc
  let v ← streamView a a.dSrc 0
  let idx ← indexView a 1
  keepSelects a (v :: idx.toList)
  let p := UnitPlan.of v idx a.unitLen
  faultIf (!p.blocksWhole) 0x09
  if e.home = 0 then do
    faultIf (e.slotLen < p.bytes (min p.perUnit p.total)) 0x09
    units a p (loadUnit a p e)
  else do
    let rowBytes := v.desc.fmt.packed p.rowLen
    let rows := if idx.isSome then p.perUnit else if p.rowLen = 0 then 0 else p.perUnit / p.rowLen
    let wide := decide (1024 < rowBytes)
    let fmtCode := bits (leNat ((← vsolid u.req a.dSrc 8).take 8)) 51 48
    faultIf ((idx.isNone && p.rowLen != 0 && p.perUnit % p.rowLen != 0) || decide (128 < rows) || decide (2048 < rowBytes)
      || decide ((if wide then 0x40000 else 0x20000) < rows * rowBytes)
      || (wide && decide (e.count < 2))) 0x09
    units a p (loadBlockUnit a p e fmtCode wide)
  if idx.isSome then do
    let d ← dev
    if d.isSet F.FD_CTRL_coal_en u.core then do
      let (hits, _) ← match idx with
        | some vi => indexHits a vi v.desc.rows 0 p.total
        | none => pure ([], none)
      upd (fun d => d.bump F.FD_COAL_CNT_served u.core 0 (coalesced hits))

/-! ### ST_STORE -/

/-- One unit of an ST_STORE, from the cursor on: the bytes below the fill count go out, and the slot is drained when its
unit is done (R209, R248, R265). -/
def storeUnit (a : StreamArgs) (p : UnitPlan) (e : QEntry) (k : Nat) : Run Unit := do
  let d ← dev
  let c := a.u.core
  let cur ← cursor a
  let first := cur - k * p.perUnit
  let n := p.size k
  let slot := d.head c a.q
  let f := p.v.desc.fmt
  let rq := { a.u.req with stream := p.v.desc.hint }
  let fill := d.slotFill c e slot
  let lo := p.span first
  let hi := p.whole n
  let scaleAt := alignUp (f.packed hi) 256
  -- slot elements whose bytes, and whose block's scale byte, lie below the fill count
  let ready := if fill = e.slotLen then hi
    else if f.isMx then (if fill ≤ scaleAt then 0 else min hi (32 * (fill - scaleAt)))
    else min hi (fill * 8 / f.width)
  let ready := if p.idx.isSome ∧ p.pad ≠ 0 then ready / p.pad * p.pad else ready
  waitIf (ready ≤ lo ∧ lo < hi)
  let bs ← slotRead a.u e slot (lo * f.width / 8) (f.packed ready - lo * f.width / 8)
  let es := cutElems f.width (lo * f.width % 8) (ready - lo) bs
  let ss ← if f.isMx then do
      let bs ← slotRead a.u e slot (scaleAt + lo / 32) (ceilDiv ready 32 - lo / 32)
      pure (cutElems 8 0 bs.length bs)
    else pure []
  let (hits, stop0) ← match p.idx with
    | some vi => indexHits a vi p.v.desc.rows cur (k * p.perUnit + p.done ready)
    | none => pure ([], none)
  let good := hits.takeWhile (fun h => h != .poisoned)
  let hit := fun r => (hits[r - first]?).getD .poisoned
  let ready := match p.idx with | some _ => lo + good.length * p.pad | none => ready
  let js := (List.range (ready - lo)).map (fun j => lo + j)
  let at_ := fun j => p.element k hit j
  let (m, stop1) ← writeElems rq (js.map (fun j => (at_ j).bind (p.v.place d.deviceId))) es
  let m := if m = js.length then m else if p.idx.isSome then m / p.pad * p.pad else if f.isMx then m / 32 * 32 else m
  let blocks := if f.isMx then (js.take m).filter (fun j => j % 32 = 0) else []
  let (mb, stop2) ← writeElems rq (blocks.map (fun j => (at_ j).bind (p.v.scalePlace d.deviceId))) ss
  let m := if mb = blocks.length then m else min m (32 * mb)
  streamBytes a f.width (es.take m)
  uncovered a p.v ((js.take m).filterMap at_)
  countHits a (hits.take (p.done (lo + m) - first))
  let finished := lo + m = hi
  setCursor a (k * p.perUnit + (if finished then n else p.done (lo + m)))
  if finished then upd (fun d => d.drainHead c a.q e)
  rethrow (if finished then none else (stop1.orElse (fun _ => stop2)).orElse (fun _ => stop0))
  if !finished ∧ hits.length ≠ good.length then fault 0x0B
  waitIf (!finished)

/-- ST_STORE (R264-R266). -/
def stStore (u : UnitId) (o : Op) : Run Unit := do
  let a ← streamArgs u o
  let e ← queueOf u.core a.q 0x09 [0]
  required 0x09 a.dDst
  let v ← streamView a a.dDst 0
  let idx ← indexView a 1
  keepSelects a (v :: idx.toList)
  let p := UnitPlan.of v idx a.unitLen
  faultIf (!p.blocksWhole || decide (e.slotLen < p.bytes (min p.perUnit p.total))) 0x09
  units a p (storeUnit a p e)

/-! ### ST_COPY -/

/-- Whether the bits of two places overlap on one device. -/
def overlaps (a b : Option Place) : Bool :=
  match a, b with
  | some a, some b => decide (a.device = b.device ∧ a.bit < b.bit + (b.width : Int) ∧ b.bit < a.bit + (a.width : Int))
  | _, _ => false

/-- The whole copy lies in one square of the transposer: 512 / e elements a side (R275). -/
def oneSquare (v : View) : Bool :=
  let side := 512 * 8 / v.desc.fmt.width
  decide (v.desc.rowLen ≤ side) && decide (v.desc.rows ≤ side)

/-- ST_COPY (R274-R276). A destination element that aliases a source element of another square holds an unspecified
value, which is a free value. -/
def stCopy (u : UnitId) (o : Op) : Run Unit := do
  let a ← streamArgs u o
  required 0x09 a.dSrc
  required 0x09 a.dDst
  let s ← streamView a a.dSrc 0
  let t ← streamView a a.dDst 1
  keepSelects a [s, t]
  let f := s.desc.fmt
  faultIf (f ≠ t.desc.fmt) 0x09
  faultIf (f.isMx ∧ s.desc.rowLen ≠ t.desc.rowLen ∧ ¬ (s.desc.rowLen % 32 = 0 ∧ t.desc.rowLen % 32 = 0)) 0x09
  let d ← dev
  let total := min s.desc.count t.desc.count
  let cur ← cursor a
  let ns := (List.range (total - cur)).map (fun i => cur + i)
  let from_ := ns.map (s.place d.deviceId)
  let dest := ns.map (t.place d.deviceId)
  let srq := { u.req with stream := s.desc.hint }
  let trq := { u.req with stream := t.desc.hint }
  -- the block heads among the elements, whose scale bytes are copied with them
  let heads := if f.isMx then ns.filter (fun n => n % max 1 s.desc.rowLen % 32 = 0) else []
  let (ss, stop0) ← readElems srq (heads.map (s.scalePlace d.deviceId))
  let (es, stop1) ← readElems srq from_
  let es ← (es.zip dest).zipIdx.mapM (fun ((x, p), i) => do
    if !oneSquare s && from_.zipIdx.any (fun (q, j) => decide (j ≠ i) && overlaps p q) then do
      let v ← lift (fun d => d.draw f.width)
      pure { x with code := v }
    else pure x)
  let (m, stop2) ← writeElems trq (dest.take es.length) es
  let headsDone := heads.filter (fun n => n < cur + m)
  let (_, stop3) ← writeElems trq ((headsDone.take ss.length).map (t.scalePlace d.deviceId)) ss
  streamBytes a f.width (es.take m)
  uncovered a s (ns.take m)
  uncovered a t (ns.take m)
  setCursor a (cur + m)
  rethrow ((stop2.orElse (fun _ => stop1)).orElse (fun _ => stop0.orElse (fun _ => stop3)))

/-! ### ST_MAXSCAN -/

/-- ST_MAXSCAN (R267, R276): the cursor lies at the start of the row that is not yet written. -/
def stMaxscan (u : UnitId) (o : Op) : Run Unit := do
  let a ← streamArgs u o
  required 0x09 a.dSrc
  required 0x09 a.maxPtr
  let v ← streamView a a.dSrc 0
  keepSelects a [v]
  faultIf (v.desc.fmt = .splitLow) 0x0C
  let cur ← cursor a
  let n := v.desc.rowLen
  let rows := if n = 0 then 0 else v.desc.rows
  let r0 := if n = 0 then 0 else cur / n
  (List.range (rows - r0)).forM (fun i => do
    let r := r0 + i
    let (es, ss) ← readRow { u.req with stream := v.desc.hint } v r
    let bad := (List.range n).any (rowPoisoned v.desc.fmt es ss)
    let m := maxExpOf ((List.range n).map (rowValue v.desc.fmt es ss))
    let p ← address a.maxPtr
    let (m, bad) ← if a.maxacc then do
        let old ← vread u.req (p + 2 * r) 2
        pure (m.max (MaxExp.ofCode (leNat (old.map PByte.val))), bad || old.any PByte.poison)
      else pure (m, bad)
    vwrite u.req (p + 2 * r) ((leBytes 2 m.code).map (fun b => { val := b, poison := bad }))
    streamBytes a v.desc.fmt.width (es ++ ss)
    if bad then upd (fun d => d.raise F.FD_ERR_STATUS_poison u.core)
    uncovered a v ((List.range n).map (fun i => r * n + i))
    setCursor a ((r + 1) * n))

end Run

end Sys2Proof.Machine
end

