-- ==== Sys2Proof/Machine/Gme.lean ====
section
/-!
DEFINITION. The gather-merge engines (05_gather_merge_engines.md R152-R185): their operation words and parameter blocks,
index resolution, and the nine operations.
-/

namespace Sys2Proof.Machine

/-- An operation's word and parameter block (R153, R155). -/
structure GmeArgs where
  u : UnitId
  op : Op
  mask : List Nat
  inCode : Nat
  outCode : Nat
  round : Nat
  sat : Bool
  foreign : Bool
  acc : Bool
  ptrs : List Nat
  base : Nat
  k : Nat
  bsize : Nat
  tensor : Nat
  seed : Nat
deriving DecidableEq, Repr

namespace GmeArgs

/-- Format of the data operand. -/
def inF (a : GmeArgs) : Fmt := Fmt.ofCode a.inCode
/-- Format of the output. -/
def outF (a : GmeArgs) : Fmt := Fmt.ofCode a.outCode
/-- The operation moves rows unchanged (R157). -/
def copy (a : GmeArgs) : Bool := a.inCode == a.outCode
/-- Pointer n, 0 when the operand is absent (R155). -/
def ptr (a : GmeArgs) (n : Nat) : Nat := (a.ptrs[n]?).getD 0
/-- Edge of a block (R155). -/
def edge (a : GmeArgs) : Nat := 2 ^ a.bsize

end GmeArgs

/-- Local numbers that a mask names. -/
def maskBits (n m : Nat) : List Nat := (List.range n).filter (fun i => bit m i)

/-- The format codes that an operation accepts (R157); GME_SYNC names no data. -/
def gmeFormats (opcode i o : Nat) : Bool :=
  if opcode = 0x30 ∨ opcode = 0x31 then i == o || (decide (i ≤ 4) && decide (o ≤ 4))
  else if opcode = 0x32 then (decide (i ≤ 2) && o == 0) || (i == 12 && o == 12)
  else if opcode = 0x33 then decide (i ≤ 2) && o == i
  else if opcode = 0x34 then decide (i ≤ 4) && decide (o ≤ 2)
  else if opcode = 0x35 ∨ opcode = 0x36 then decide (1 ≤ i) && decide (i ≤ 4) && decide (o ≤ 1)
  else if opcode = 0x37 then decide (i ≤ 2) && decide (o ≤ 1)
  else true

/-- The operands that an operation requires (R156). -/
def gmeRequired (opcode : Nat) : List Nat :=
  if opcode = 0x34 then [0, 1, 2] else if opcode = 0x35 ∨ opcode = 0x36 then [0, 1, 2, 3, 4]
  else if opcode = 0x37 then [0, 1, 2, 3, 4, 5] else [0, 1, 2]

/-- What an index or a tag resolves to. -/
inductive GmeHit where
  | row (r : Nat)
  | out
  | poisoned
deriving DecidableEq, Repr

namespace Run

/-- A held operation changed by its own work. -/
def held (u : UnitId) (id : Nat) (f : Op → Op) : Run Unit := upd (fun d => d.onHeld u.core id f)

/-- An operation that R154, R156, R157 or R168 makes illegal (R183). -/
def gmeBad (c : Bool) (u : UnitId) : Run Unit := do
  if c then do
    upd (fun d => d.raise F.GME_ERR_STATUS_illegal_op u.core)
    fault 0x08
  else pure ()

/-- The word and the parameter block read and checked (R153-R157). -/
def gmeArgs (u : UnitId) (o : Op) : Run GmeArgs := do
  let w := o.w0
  gmeBad (bits w 15 8 == 0 || bits w 63 30 != 0 || bits o.w1 63 48 != 0 || o.w1 % 128 != 0
    || !gmeFormats u.opcode (bits w 19 16) (bits w 23 20)) u
  let p ← vsolid u.req (bits o.w1 47 0) 128
  gmeBad (field p 0x36 2 != 0 || field p 0x3C 4 != 0 || (p.drop 0x48).any (fun b => b != 0)) u
  let a : GmeArgs :=
    { u, op := o, mask := maskBits 8 (bits w 15 8), inCode := bits w 19 16, outCode := bits w 23 20, round := bits w 26 24
      sat := bit w 27, foreign := bit w 28, acc := bit w 29, ptrs := (List.range 6).map (fun n => field p (8 * n) 8)
      base := field p 0x30 4, k := field p 0x34 1, bsize := field p 0x35 1, tensor := field p 0x38 4, seed := field p 0x40 8 }
  gmeBad ((gmeRequired u.opcode).any (fun n => a.ptr n == 0)) u
  gmeBad (decide (u.opcode = 0x36) && !(decide (3 ≤ a.bsize) && decide (a.bsize ≤ 5))) u
  pure a

/-- The operands' descriptors, in order, with the select words of distributed ones kept for the operation's life (07
R261); an absent operand gives an empty descriptor. Code 0xD belongs to copies alone (02 R57). -/
def gmeViews (a : GmeArgs) : Run (List View) := do
  let vs ← (List.range 6).mapM (fun n =>
    if a.ptr n = 0 then pure ({} : View) else view a.u.req (a.ptr n) false ((a.op.work[n]?).getD 0))
  held a.u a.op.id (fun o => { o with work := vs.map View.select ++ o.work.drop 6 })
  let copies := (a.u.opcode = 0x30 ∨ a.u.opcode = 0x31) ∧ a.copy
  faultIf (!copies && vs.any (fun v => v.desc.fmt == .splitLow)) 0x0C
  pure vs

/-- Operand n of a list of views. -/
def nth (vs : List View) (n : Nat) : View := (vs[n]?).getD {}

/-- The engine of the mask that one item of the work falls to: with several engines, timing decides, and the model
leaves it open (R159). -/
def gmeShare (a : GmeArgs) : Run Nat :=
  match a.mask with
  | [g] => pure g
  | gs => do
    let v ← lift (fun d => d.draw 8)
    pure ((gs[v % max 1 gs.length]?).getD 0)

/-- A total of `n` counted by the engines of the mask: with several, how it divides is open (R159). -/
def gmeCount (a : GmeArgs) (x : Field) (n : Nat) : Run Unit := do
  let left ← (a.mask.drop 1).foldlM (fun (left : Nat) g => do
    let v ← lift (fun d => d.draw 48)
    let k := v % (left + 1)
    upd (fun d => d.bump x a.u.core g k)
    pure (left - k)) n
  upd (fun d => d.bump x a.u.core (a.mask.headD 0) left)

/-- One item of chaff, with the capture of GME_CHAFF_INFO (R161, R183). -/
def gmeChaff (a : GmeArgs) (cause value : Nat) : Run Unit := do
  let c := a.u.core
  let g ← gmeShare a
  let d ← dev
  if !d.isSet F.GME_ERR_STATUS_chaff c then
    upd (fun d => d.wr .GME_CHAFF_INFO c 0 (value % 2 ^ 32 * 2 ^ 32 + cause * 2 ^ 24 + a.u.ctx % 16 * 2 ^ 16 + g * 2 ^ 8
      + a.u.opcode))
  upd (fun d => (d.bump F.GME_CHAFF_CNT_items c g 1).raise F.GME_ERR_STATUS_chaff c)

/-- One out-of-range item, which is chaff or foreign (R161). -/
def gmeOut (a : GmeArgs) (cause value : Nat) : Run Unit := do
  if a.foreign then do
    let g ← gmeShare a
    upd (fun d => d.bump F.GME_FOREIGN_CNT_items a.u.core g 1)
  else gmeChaff a cause value

/-- Poison propagated (R183). -/
def gmePoison (a : GmeArgs) (bad : Bool) : Run Unit :=
  if bad then upd (fun d => d.raise F.GME_ERR_STATUS_poison a.u.core) else pure ()

/-- The residue check of one position's index arithmetic (R180): whether both computations mismatched. -/
def gmeResidue (a : GmeArgs) (p : Nat) : Run Bool := do
  let d ← dev
  let c := a.u.core
  let n := if d.isSet F.GME_CTRL_res_en c then min 2 (d.env.residue.count p) else 0
  if n = 0 then pure false
  else do
    let g ← gmeShare a
    upd (fun d => ((d.bump F.GME_RES_CNT_mismatches c g n).raise F.GME_ERR_STATUS_residue_replay c).raiseIf (n == 2)
      F.GME_ERR_STATUS_residue_poison c)
    pure (n == 2)

/-- One element of a view read at a linear index. -/
def elemOf (a : GmeArgs) (v : View) (n : Nat) : Run Elem := do
  let d ← dev
  let es ← readAll a.u.req [v.place d.deviceId n]
  pure (es.headD {})

/-- The index view of an operation: its elements are index32 or tag32 (R156). -/
def gmeIndexView (a : GmeArgs) (v : View) : Run Unit := gmeBad (v.desc.fmt ≠ .index32 && v.desc.fmt ≠ .tag32) a.u

/-- One index or tag resolved against a number of rows (R160, R161). `cause` is the chaff cause of an index32 element
that is out of range. -/
def gmeResolve (a : GmeArgs) (idx slots : View) (rows p cause : Nat) (e : Elem) : Run GmeHit := do
  let again ← gmeResidue a p
  if e.poison || again then pure .poisoned
  else if idx.desc.fmt = .tag32 then do
    gmeBad (a.ptr 4 == 0) a.u
    let s ← elemOf a slots (bits e.code 31 26)
    if s.poison then pure .poisoned
    else if s.code = 0xFFFFFFFF then do
      gmeChaff a 2 e.code
      pure .out
    else
      let r := (s.code + bits e.code 25 4 + 2 ^ 32 - a.base % 2 ^ 32) % 2 ^ 32
      if r < rows then pure (.row r)
      else do
        gmeOut a 7 e.code
        pure .out
  else
    let r := (e.code + 2 ^ 32 - a.base % 2 ^ 32) % 2 ^ 32
    if r < rows then pure (.row r)
    else do
      gmeOut a cause e.code
      pure .out

/-- The first `w` columns of a row: elements and scale bytes (R155, R157). -/
def rowOf (a : GmeArgs) (v : View) (r w : Nat) : Run (List Elem × List Elem) := do
  let d ← dev
  let rq := { a.u.req with stream := v.desc.hint }
  let ss ← readAll rq (v.rowScales d.deviceId r w)
  let es ← readAll rq (v.rowPlaces d.deviceId r 0 w)
  pure (es, ss)

/-- A row written whole or not at all (R181). -/
def putRow (a : GmeArgs) (v : View) (r : Nat) (es ss : List Elem) : Run Unit := do
  let d ← dev
  let rq := { a.u.req with stream := v.desc.hint }
  atomically (do
    let (_, e) ← writeElems rq (v.rowPlaces d.deviceId r 0 es.length) es
    rethrow e
    let (_, e) ← writeElems rq (v.rowScales d.deviceId r es.length) ss
    rethrow e)

/-- Elements that hold nothing the spec states, poisoned: the data of a row whose index is poisoned (R178, log
entry 2). -/
def freePoisoned (w n : Nat) : Run (List Elem) :=
  (List.range n).mapM (fun _ => do
    let v ← lift (fun d => d.draw w)
    pure { code := v, poison := true })

/-- The rounding of an output element: the draw of its linear index in the output tensor (R170, 02 R64-R66). -/
def gmeRounding (a : GmeArgs) (out : View) (r i : Nat) : Rounding :=
  .ofCode a.round (srDraw a.seed a.tensor (r * out.desc.rowLen + i))

/-- A row of values converted to the output format (R170). -/
def gmeConvert (a : GmeArgs) (out : View) (r : Nat) (xs : List Num) (bad : Bool) : List Elem × List Elem × Flags :=
  let (cs, ss, f) := convertRow a.outF a.sat (xs.zipIdx.map (fun (x, i) => (x, gmeRounding a out r i)))
  (cs.map (fun c => { code := c, poison := bad }), ss.map (fun c => { code := c, poison := bad }), f)

/-- The values of a row of elements in the data format. -/
def rowNums (f : Fmt) (es ss : List Elem) : List Num := (List.range es.length).map (rowValue f es ss)

/-- Positions worked through in order from the cursor, which moves past each one that is done; the results, and the stop
where the work stopped (R181). -/
def gmeLoop {α : Type} (a : GmeArgs) (f : Nat → Run α) : List Nat → Run (List α × Option Stop)
  | [] => pure ([], none)
  | p :: ps => do
    match ← attempt (f p) with
    | .error e => pure ([], some e)
    | .ok x => do
      held a.u a.op.id (fun o => { o with cursor := p + 1 })
      let (xs, e) ← gmeLoop a f ps
      pure (x :: xs, e)

/-- Positions from the cursor to `n`. -/
def fromCursor (a : GmeArgs) (n : Nat) : List Nat := (List.range (n - a.op.cursor)).map (fun i => a.op.cursor + i)

/-- Counts of resolved positions, and of positions served by a row already read in their window (R162, R183). With
several engines the windows start where the shares do, which is open. -/
def gmeCounts (a : GmeArgs) (hits : List GmeHit) (everyEngine : Bool) : Run Unit := do
  let c := a.u.core
  if everyEngine then upd (fun d => a.mask.foldl (fun d g => d.bump F.GME_IDX_CNT_indices c g hits.length) d)
  else gmeCount a F.GME_IDX_CNT_indices hits.length
  let d ← dev
  if d.isSet F.GME_CTRL_coal_en c then
    match a.mask with
    | [g] => upd (fun d => d.bump F.GME_COAL_CNT_served c g
        (coalesced (hits.map (fun h => match h with | .row r => .row r | .out => .out 0 | .poisoned => .poisoned))))
    | gs => gs.forM (fun g => do
        let v ← lift (fun d => d.draw 48)
        upd (fun d => d.bump F.GME_COAL_CNT_served c g (v % (hits.length + 1))))

/-- The end of an operation: every engine of the mask has completed its share (R158), and the flags are reported (02
R68). -/
def gmeDone (a : GmeArgs) (fl : Flags) : Run Unit :=
  upd (fun d => (a.mask.foldl (fun d g => d.bump F.GME_OP_CNT_ops a.u.core g 1) d).reportFlags a.u.ctx fl)

/-! ### Gather and scatter -/

/-- The elements that a GATHER or SCATTER writes for a source row: its bits, or its values converted (R157). A row that
holds poison is written poisoned (R178). -/
def movedRow (a : GmeArgs) (out : View) (r : Nat) (es ss : List Elem) : List Elem × List Elem × Flags :=
  let bad := es.any Elem.poison || ss.any Elem.poison
  if a.copy then (es.map (fun e => { e with poison := bad }), ss.map (fun e => { e with poison := bad }), .none)
  else gmeConvert a out r (rowNums a.inF es ss) bad

/-- GATHER (R164). -/
def gather (u : UnitId) (o : Op) : Run Unit := do
  let a ← gmeArgs u o
  let vs ← gmeViews a
  let (idx, table, out) := (nth vs 0, nth vs 1, nth vs 2)
  gmeIndexView a idx
  let w := out.desc.rowLen
  let (rs, e) ← gmeLoop a (fun p => do
    let x ← elemOf a idx p
    let h ← gmeResolve a idx (nth vs 4) table.desc.rows p 1 x
    let nb := if out.desc.fmt.isMx then ceilDiv w 32 else 0
    let (es, ss, fl) ← match h with
      | .row r => do
        let (es, ss) ← rowOf a table r w
        pure (movedRow a out p es ss)
      | .out => pure (List.replicate w {}, List.replicate nb {}, Flags.none)
      | .poisoned => do
        let es ← freePoisoned out.desc.fmt.width w
        let ss ← freePoisoned 8 nb
        pure (es, ss, Flags.none)
    let d ← dev
    atomically (do
      putRow a out p es ss
      if a.ptr 3 ≠ 0 then do
        let (_, e) ← writeElems a.u.req [(nth vs 3).place d.deviceId p] [x]
        rethrow e)
    gmePoison a (es.any Elem.poison)
    pure (h, fl)) (fromCursor a idx.desc.count)
  gmeCounts a (rs.map Prod.fst) false
  upd (fun d => d.reportFlags u.ctx (Flags.orAll (rs.map Prod.snd)))
  rethrow e
  gmeDone a .none

/-- The poisoned index or tag of a SCATTER, SCATTER_ADD or COMBINE stops the operation there (R179). -/
def gmeUntrusted {α : Type} (a : GmeArgs) : Run α := do
  gmePoison a true
  fault 0x0B

/-- SCATTER and SCATTER_ADD: the source rows in stream order, each put where its position resolves by `put`, which
answers the flags it raises. -/
def scatterRows (a : GmeArgs) (vs : List View) (put : View → Nat → List Elem → List Elem → Run Flags) : Run Unit := do
  let (idx, src, dst) := (nth vs 0, nth vs 1, nth vs 2)
  gmeIndexView a idx
  let w := dst.desc.rowLen
  let (rs, e) ← gmeLoop a (fun p => do
    let x ← elemOf a idx p
    let h ← gmeResolve a idx (nth vs 4) dst.desc.rows p 1 x
    match h with
    | .row r => do
      let (es, ss) ← rowOf a src p w
      let fl ← put dst r es ss
      pure (h, fl)
    | .out => pure (h, Flags.none)
    | .poisoned => gmeUntrusted a) (fromCursor a idx.desc.count)
  gmeCounts a (rs.map Prod.fst) true
  upd (fun d => d.reportFlags a.u.ctx (Flags.orAll (rs.map Prod.snd)))
  rethrow e
  gmeDone a .none

/-- SCATTER (R165). -/
def scatter (u : UnitId) (o : Op) : Run Unit := do
  let a ← gmeArgs u o
  let vs ← gmeViews a
  scatterRows a vs (fun dst r es ss => do
    let (es, ss, fl) := movedRow a dst r es ss
    putRow a dst r es ss
    gmePoison a (es.any Elem.poison)
    pure fl)

/-- One saturating INT32 addition (R166). -/
def satAdd32 (x y : Nat) : Nat × Bool :=
  let s := sx 32 x + sx 32 y
  if s < -(2 ^ 31) then (2 ^ 31, true) else if 2 ^ 31 ≤ s then (2 ^ 31 - 1, true) else (ux 32 s, false)

/-- One FP32 addition by RNE, and whether it forms a NaN of two numbers (R166, 02 R68). -/
def addRne (x y : Num) : Num × Bool :=
  let z := toFp32 (x.add y)
  (z, z.isNaN && !x.isNaN && !y.isNaN)

/-- fma_rne32 of R169, and whether it forms a NaN of numbers. -/
def fmaRne (x y s : Num) : Num × Bool :=
  let z := toFp32 ((x.mul y).add s)
  (z, z.isNaN && !x.isNaN && !y.isNaN && !s.isNaN)

/-- SCATTER_ADD (R166). -/
def scatterAdd (u : UnitId) (o : Op) : Run Unit := do
  let a ← gmeArgs u o
  let vs ← gmeViews a
  scatterRows a vs (fun dst r es ss => do
    let (old, olds) ← rowOf a dst r es.length
    let bad := (es ++ ss ++ old ++ olds).any Elem.poison
    let (cs, fl) :=
      if a.outF = .int32 then
        let rs := (old.zip es).map (fun (x, y) => satAdd32 x.code y.code)
        (rs.map Prod.fst, ({ overflow := rs.any Prod.snd } : Flags))
      else
        let rs := (rowNums .fp32 old []).zip (rowNums a.inF es ss) |>.map (fun (x, y) => addRne x y)
        (rs.map (fun r => fp32Code r.1), ({ invalid := rs.any Prod.snd } : Flags))
    putRow a dst r (cs.map (fun c => { code := c, poison := bad })) []
    gmePoison a bad
    pure fl)

/-! ### Top-k -/

/-- Whether element (x, i) comes before (y, j) in the order of R167. -/
def topBefore (x y : Num × Nat) : Bool :=
  if x.1.isNaN then y.1.isNaN && decide (x.2 < y.2)
  else if y.1.isNaN then true
  else
    let c := Num.cmp x.1 y.1
    decide (0 < c) || (c == 0 && decide (x.2 < y.2))

/-- An element put into a list that stands in the order of R167. -/
def topInsert (x : Num × Nat) : List (Num × Nat) → List (Num × Nat)
  | [] => [x]
  | y :: ys => if topBefore x y then x :: y :: ys else y :: topInsert x ys

/-- Column indices of a row in the order of R167. -/
def topOrder (xs : List Num) : List Nat := (xs.zipIdx.foldl (fun l x => topInsert x l) []).map Prod.snd

/-- TOP_K (R167, R168). -/
def topK (u : UnitId) (o : Op) : Run Unit := do
  let a ← gmeArgs u o
  let vs ← gmeViews a
  let (src, vals, idxs) := (nth vs 0, nth vs 1, nth vs 2)
  let n := src.desc.rowLen
  gmeBad (a.k == 0 || decide (16 < a.k) || decide (n < a.k)) u
  let (_, e) ← gmeLoop a (fun r => do
    let (es, ss) ← rowOf a src r n
    let bad := (es ++ ss).any Elem.poison
    let pick := (topOrder (rowNums a.inF es ss)).take a.k
    atomically (do
      putRow a vals r (pick.map (fun i => { (es[i]?).getD {} with poison := bad })) []
      putRow a idxs r (pick.map (fun i => { code := (i + a.base) % 2 ^ 32, poison := bad })) [])
    gmePoison a bad) (fromCursor a src.desc.rows)
  rethrow e
  gmeDone a .none

/-! ### Sums in chunks -/

/-- A row's sum as far as it is formed: chunks merged, their sum, whether poison entered it, and whether a NaN was formed
of numbers. -/
structure RowSum where
  chunks : Nat := 0
  sum : List Num := []
  poison : Bool := false
  invalid : Bool := false
deriving DecidableEq, Repr

/-- A row's sum as an operation keeps it (R182). -/
def RowSum.toWork (row : Nat) (s : RowSum) : List Nat := [row, s.chunks, b2n s.poison + 2 * b2n s.invalid] ++ s.sum.map fp32Code

/-- The kept sum of a row, empty for another row. -/
def RowSum.ofWork (row : Nat) : List Nat → RowSum
  | r :: n :: f :: cs => if r = row then { chunks := n, sum := cs.map ofFp32, poison := bit f 0, invalid := bit f 1 } else {}
  | _ => {}

/-- A term: its factor and row, or none where it is dropped; and whether it is poisoned. -/
abbrev Term := Option (Num × List Num) × Bool

/-- One chunk's terms added from zero (R169). -/
def chunkSum (width : Nat) (term : Nat → Run Term) (ts : List Nat) : Run RowSum :=
  ts.foldlM (fun (s : RowSum) t => do
    let (x, bad) ← term t
    match x with
    | none => pure { s with poison := s.poison || bad }
    | some (f, row) =>
      let rs := (row.zip s.sum).map (fun (x, y) => fmaRne f x y)
      pure { s with sum := rs.map Prod.fst, poison := s.poison || bad, invalid := s.invalid || rs.any Prod.snd })
    { sum := List.replicate width Num.zero }

/-- An output row's terms summed chunk by chunk (R169, R171); each chunk's result is kept once it is merged (R181). -/
def sumRow (a : GmeArgs) (row n width : Nat) (term : Nat → Run Term) : Run RowSum := do
  let start := RowSum.ofWork row (a.op.work.drop 6)
  let s ← (List.range (ceilDiv n 256 - start.chunks)).foldlM (fun (s : RowSum) i => do
    let c := start.chunks + i
    let p ← chunkSum width term ((List.range (min 256 (n - 256 * c))).map (fun t => 256 * c + t))
    let rs := if s.chunks = 0 then p.sum.map (fun x => (x, false)) else (s.sum.zip p.sum).map (fun (x, y) => addRne x y)
    let s' : RowSum :=
      { chunks := c + 1, sum := rs.map Prod.fst, poison := s.poison || p.poison
        invalid := s.invalid || p.invalid || rs.any Prod.snd }
    held a.u a.op.id (fun o => { o with work := o.work.take 6 ++ s'.toWork row })
    pure s') start
  pure (if s.chunks = 0 then { s with sum := List.replicate width Num.zero } else s)

/-- A formed row written (R170): with acc = 1 it is added to the row that stands there. -/
def finishRow (a : GmeArgs) (out : View) (r : Nat) (s : RowSum) : Run Flags := do
  let w := s.sum.length
  let (xs, bad, inv) ← if a.acc then do
      let (old, olds) ← rowOf a out r w
      let rs := ((rowNums a.outF old olds).zip s.sum).map (fun (x, y) => addRne x y)
      pure (rs.map Prod.fst, s.poison || (old ++ olds).any Elem.poison, s.invalid || rs.any Prod.snd)
    else pure (s.sum, s.poison, s.invalid)
  let (es, ss, fl) := gmeConvert a out r xs bad
  putRow a out r es ss
  gmePoison a bad
  pure (fl.or { invalid := inv })

/-- The rows of an operation formed one after the other from the cursor on. -/
def rowsDone (a : GmeArgs) (rows : Nat) (f : Nat → Run Flags) : Run Unit := do
  let (fls, e) ← gmeLoop a f (fromCursor a rows)
  upd (fun d => d.reportFlags a.u.ctx (Flags.orAll fls))
  rethrow e
  gmeDone a .none

/-- Elements 0 to n - 1 of a view. -/
def elemsOf (a : GmeArgs) (v : View) (n : Nat) : Run (List Elem) := do
  let d ← dev
  readAll a.u.req ((List.range n).map (v.place d.deviceId))

/-- Code of element i of a list. -/
def codeAt (es : List Elem) (i : Nat) : Nat := ((es[i]?).getD {}).code
/-- Poison of element i of a list. -/
def poisonAt (es : List Elem) (i : Nat) : Bool := ((es[i]?).getD {}).poison

/-- SEG_MERGE (R172). A poisoned length leaves the bounds of its segment and of those after it untrusted, and poisons
their rows. -/
def segMerge (u : UnitId) (o : Op) : Run Unit := do
  let a ← gmeArgs u o
  let vs ← gmeViews a
  let (lens, src, out, idx, wts) := (nth vs 0, nth vs 1, nth vs 2, nth vs 3, nth vs 4)
  let indexed := a.ptr 3 ≠ 0
  let weighted := a.ptr 4 ≠ 0
  if indexed then gmeBad (idx.desc.fmt ≠ .index32) u
  gmeBad (weighted && wts.desc.fmt ≠ .fp32 && wts.desc.fmt ≠ .bf16) u
  let ls ← elemsOf a lens lens.desc.count
  let total := if indexed then idx.desc.count else src.desc.rows
  let w := out.desc.rowLen
  rowsDone a lens.desc.count (fun s => do
    let first := (ls.take s).foldl (fun n e => n + e.code) 0
    let len := codeAt ls s
    let bad := (ls.take (s + 1)).any Elem.poison
    let n := min len (total - first)
    let missing := len - n
    let miss ← gmeShare a
    if missing ≠ 0 then do
      gmeChaff a 8 len
      upd (fun d => d.bump F.GME_CHAFF_CNT_items u.core miss (missing - 1))
    if len = 0 ∧ a.acc then pure Flags.none
    else do
      let r ← sumRow a s n w (fun t => do
        let q := first + t
        let h ← if indexed then do
            let x ← elemOf a idx q
            let h ← gmeResolve a idx {} src.desc.rows q 1 x
            gmeCount a F.GME_IDX_CNT_indices 1
            pure h
          else pure (.row q)
        match h with
        | .out => pure (none, false)
        | .poisoned => pure (none, true)
        | .row r => do
          let (es, ss) ← rowOf a src r w
          let g ← if weighted then elemOf a wts q else pure {}
          let f := if weighted then wts.desc.fmt.decode g.code else Num.one
          pure (some (f, rowNums a.inF es ss), g.poison || (es ++ ss).any Elem.poison))
      finishRow a out s { r with poison := r.poison || bad })

/-- The stored positions of row i from its pointers (R173): first position and number, or the chaff cause that makes the
row empty. -/
def rowBounds (lo hi stored : Nat) : Except Nat (Nat × Nat) :=
  if hi < lo then .error 4 else if stored < hi ∨ stored < lo then .error 5 else .ok (lo, hi - lo)

/-- The pointer that a bad bound shows in GME_CHAFF_INFO. -/
def badPointer (lo hi stored : Nat) : Nat := if hi < lo then hi else if stored < hi then hi else lo

/-- SPMM_CSR (R173). -/
def spmmCsr (u : UnitId) (o : Op) : Run Unit := do
  let a ← gmeArgs u o
  let vs ← gmeViews a
  let (ptrs, cols, vals, mat, out) := (nth vs 0, nth vs 1, nth vs 2, nth vs 3, nth vs 4)
  gmeBad (ptrs.desc.fmt ≠ .index32 || cols.desc.fmt ≠ .index32) u
  let ps ← elemsOf a ptrs ptrs.desc.count
  let w := out.desc.rowLen
  rowsDone a (ptrs.desc.count - 1) (fun i => do
    let (lo, hi) := (codeAt ps i, codeAt ps (i + 1))
    let bad := poisonAt ps i || poisonAt ps (i + 1)
    match rowBounds lo hi vals.desc.count with
    | .error cause => do
      gmeChaff a cause (badPointer lo hi vals.desc.count)
      finishRow { a with acc := false } out i { sum := List.replicate w Num.zero, poison := bad }
    | .ok (first, n) => do
      let r ← sumRow a i n w (fun t => do
        let q := first + t
        let x ← elemOf a cols q
        let h ← gmeResolve a cols {} mat.desc.rows q 6 x
        gmeCount a F.GME_IDX_CNT_indices 1
        match h with
        | .out => pure (none, false)
        | .poisoned => pure (none, true)
        | .row c => do
          let v ← elemOf a vals q
          let (es, ss) ← rowOf a mat c w
          pure (some (a.inF.decode v.code, rowNums a.inF es ss), v.poison || (es ++ ss).any Elem.poison))
      finishRow a out i { r with poison := r.poison || bad })

/-- SPMM_BSR (R174). A block's index, and a block row's pointers, are counted at the block row's first line. -/
def spmmBsr (u : UnitId) (o : Op) : Run Unit := do
  let a ← gmeArgs u o
  let vs ← gmeViews a
  let (ptrs, cols, vals, mat, out) := (nth vs 0, nth vs 1, nth vs 2, nth vs 3, nth vs 4)
  gmeBad (ptrs.desc.fmt ≠ .index32 || cols.desc.fmt ≠ .index32) u
  let ps ← elemsOf a ptrs ptrs.desc.count
  let w := out.desc.rowLen
  let b := a.edge
  let stored := vals.desc.count / (b * b)
  rowsDone a ((ptrs.desc.count - 1) * b) (fun i => do
    let (q, line) := (i / b, i % b)
    let (lo, hi) := (codeAt ps q, codeAt ps (q + 1))
    let bad := poisonAt ps q || poisonAt ps (q + 1)
    match rowBounds lo hi stored with
    | .error cause => do
      if line = 0 then gmeChaff a cause (badPointer lo hi stored)
      finishRow { a with acc := false } out i { sum := List.replicate w Num.zero, poison := bad }
    | .ok (first, n) => do
      let r ← sumRow a i (n * b) w (fun t => do
        let s := first + t / b
        let j := t % b
        let x ← elemOf a cols s
        let c := (x.code + 2 ^ 32 - a.base % 2 ^ 32) % 2 ^ 32
        let again ← if j = 0 ∧ line = 0 then gmeResidue a s else do
          let d ← dev
          pure (d.isSet F.GME_CTRL_res_en u.core && decide (2 ≤ d.env.residue.count s))
        if j = 0 ∧ line = 0 then gmeCount a F.GME_IDX_CNT_indices 1
        if x.poison || again then pure (none, true)
        else if mat.desc.rows < b * c + b then do
          if j = 0 ∧ line = 0 then gmeOut a 6 x.code
          pure (none, false)
        else do
          let v ← elemOf a vals (s * b * b + line * b + j)
          let (es, ss) ← rowOf a mat (b * c + j) w
          pure (some (a.inF.decode v.code, rowNums a.inF es ss), v.poison || (es ++ ss).any Elem.poison))
      finishRow a out i { r with poison := r.poison || bad })

/-! ### Combine -/

/-- The address of a position of the staging area: rows of FP32 elements in the order of token row and rank (R175). -/
def stagingAt (stage : View) (k w t r : Nat) : Int := ((stage.desc.base + ((t * k + r) * w) * 4 : Nat) : Int)

/-- COMBINE (R175). The cursor counts tags first and, once all are placed, tokens. The placement map is kept with the
operation: 16 t + r for each filled position. -/
def combineRows (u : UnitId) (o : Op) : Run Unit := do
  let a ← gmeArgs u o
  gmeBad (a.k == 0 || decide (16 < a.k)) u
  let vs ← gmeViews a
  let (tags, src, gates, out, slots, stage) := (nth vs 0, nth vs 1, nth vs 2, nth vs 3, nth vs 4, nth vs 5)
  gmeBad (tags.desc.fmt ≠ .tag32 || gates.desc.fmt ≠ .fp32) u
  let w := out.desc.rowLen
  let n := tags.desc.count
  let placed := ((List.range n).drop a.op.cursor)
  let (hits, e) ← gmeLoop a (fun p => do
    let x ← elemOf a tags p
    if ¬ x.poison ∧ a.k ≤ bits x.code 3 0 then do
      gmeChaff a 3 x.code
      pure .out
    else do
      let h ← gmeResolve a tags slots out.desc.rows p 7 x
      match h with
      | .out => pure h
      | .poisoned => gmeUntrusted a
      | .row t => do
        let (es, ss) ← rowOf a src p w
        let bad := (es ++ ss).any Elem.poison
        vwrite u.req (stagingAt stage a.k w t (bits x.code 3 0))
          ((rowNums a.inF es ss).flatMap (fun v => (leBytes 4 (fp32Code v)).map (fun b => { val := b, poison := bad })))
        let key := 16 * t + bits x.code 3 0
        let d ← dev
        let map := (((d.heldOp u.core o.id).map Op.work).getD []).drop 6
        if map.contains key then gmeCount a F.GME_DUP_CNT_tags 1
        else held u o.id (fun o => { o with work := o.work ++ [key] })
        pure h) placed
  gmeCounts a hits false
  rethrow e
  let d ← dev
  let map := (((d.heldOp u.core o.id).map Op.work).getD []).drop 6
  let first := a.op.cursor - n
  let (fls, e) ← gmeLoop a (fun c => do
    let t := c - n
    let ranks := (List.range a.k).filter (fun r => map.contains (16 * t + r))
    if ranks.length < a.k then do
      gmeCount a F.GME_COMB_MISS_CNT_positions (a.k - ranks.length)
      upd (fun d => d.raise F.GME_ERR_STATUS_comb_miss u.core)
    if ranks.isEmpty ∧ a.acc then pure Flags.none
    else do
      let s ← chunkSum w (fun r => do
        let d ← dev
        let g ← readAll u.req ((gates.rowPlaces d.deviceId t r 1))
        let bs ← vread u.req (stagingAt stage a.k w t r) (4 * w)
        let row := (List.range w).map (fun i => ofFp32 (leNat (((bs.drop (4 * i)).take 4).map PByte.val)))
        pure (some (ofFp32 (codeAt g 0), row), g.any Elem.poison || bs.any PByte.poison)) ranks
      finishRow a out t s) ((List.range (out.desc.rows - first)).map (fun i => n + first + i))
  upd (fun d => d.reportFlags u.ctx (Flags.orAll fls))
  rethrow e
  gmeDone a .none

/-- GME_SYNC (R158): it starts when the earlier operations of its engines have completed. -/
def gmeSync (u : UnitId) (o : Op) : Run Unit := do
  let w := o.w0
  gmeBad (bits w 15 8 == 0 || bits w 63 30 != 0 || bits o.w1 63 48 != 0 || o.w1 % 128 != 0) u
  let d ← dev
  waitIf ((d.core u.core).held.any (fun x => decide (x.id ≠ o.id) && decide (0x30 ≤ x.opcode) && decide (x.opcode < 0x40)
    && decide (bits x.w0 15 8 &&& bits w 15 8 ≠ 0)))
  upd (fun d => (maskBits 8 (bits w 15 8)).foldl (fun d g => d.bump F.GME_OP_CNT_ops u.core g 1) d)

end Run

/-- GME_STATUS (R183): engines with an operation, and engines that hold one stopped at a cursor. Which engine's share is
stopped is the lowest-numbered one's of the mask. -/
def Dev.gmeStatus (d : Dev) (c : Nat) : Nat :=
  let ops := (d.core c).held.filter (fun o => decide (0x30 ≤ o.opcode) && decide (o.opcode < 0x40))
  let busy := ops.foldl (fun m o => m ||| bits o.w0 15 8) 0
  let low := fun m => ((maskBits 8 m).head?.map (2 ^ ·)).getD 0
  let stopped := (ops.filter (fun o => o.stopped.isSome)).foldl (fun m o => m ||| low (bits o.w0 15 8)) 0
  stopped * 2 ^ 8 + busy

end Sys2Proof.Machine
end

