-- ==== Sys2Proof/Machine/Vector.lean ====
section
/-!
DEFINITION. The vector engines (05_gather_merge_engines.md R186-R196): operation words and parameter blocks, VE_MAP,
VE_ROWRED and VE_SYNC, and their residue check (17_reliability_and_silent_errors.md R591).
-/

namespace Sys2Proof.Machine

/-- Operand b or c (R188): descriptor pointer, mode, format and immediate. -/
structure VeOperand where
  ptr : Nat := 0
  mode : Nat := 0
  fmt : Nat := 0
  imm : Nat := 0
deriving DecidableEq, Repr

/-- An operation's word and parameter block (R187, R188). -/
structure VeArgs where
  u : UnitId
  op : Op
  mask : List Nat
  inCode : Nat
  outCode : Nat
  round : Nat
  sat : Bool
  acc : Bool
  fn : Nat
  dA : Nat
  dY : Nat
  b : VeOperand
  c : VeOperand
  k : Int
  tensor : Nat
  seed : Nat
deriving DecidableEq, Repr

namespace VeArgs

/-- Format of operand a. -/
def inF (a : VeArgs) : Fmt := Fmt.ofCode a.inCode
/-- Format of the output. -/
def outF (a : VeArgs) : Fmt := Fmt.ofCode a.outCode
/-- The operands of b and c that the function names (R189). -/
def operands (a : VeArgs) : List VeOperand :=
  if a.u.opcode ≠ 0x90 then [] else if a.fn = 4 then [a.b, a.c] else if 1 ≤ a.fn ∧ a.fn ≤ 7 then [a.b] else []
/-- A COPY of equal formats, which moves bits (R190). -/
def copy (a : VeArgs) : Bool := a.u.opcode == 0x90 && a.fn == 0 && a.inCode == a.outCode
/-- Every operand and the output are INT32 (R190). -/
def integer (a : VeArgs) : Bool :=
  a.u.opcode == 0x90 && a.inCode == 12 && a.outCode == 12 && a.operands.all (fun x => x.fmt == 12)
/-- Format codes of the operands and the output. -/
def formats (a : VeArgs) : List Nat := [a.inCode, a.outCode] ++ a.operands.map VeOperand.fmt

/-- What R188 to R191 do not accept, but for the formats. -/
def bad (a : VeArgs) : Bool :=
  if a.u.opcode = 0x90 then
    decide (0x16 ≤ a.fn) || decide (2 < a.b.mode) || decide (2 < a.c.mode) || a.dA == 0 || a.dY == 0
      || a.operands.any (fun x => if x.mode = 2 then x.fmt != 0 && x.fmt != 12 else x.ptr == 0)
      || (a.integer && !([0, 1, 2, 3, 6, 7, 8, 9].contains a.fn))
  else
    decide (8 ≤ a.fn) || decide (2 < a.b.mode) || decide (2 < a.c.mode) || a.dA == 0 || a.dY == 0 || a.b.ptr != 0 || a.c.ptr != 0
      || (a.acc && (a.fn == 5 || a.fn == 6)) || (a.fn == 6 && a.outCode != 14)

/-- The format codes that the operation does not accept: codes 0xE and 0xF outside a copy, but for the output of ARGMAX
(R190, R191). -/
def badFormat (a : VeArgs) : Bool :=
  !a.copy && ((if a.u.opcode = 0x91 ∧ a.fn = 6 then [a.inCode] else a.formats).any (fun f => decide (14 ≤ f)))

end VeArgs

/-- The exact result of a function of R189 on values; `none` where the spec states none. -/
def veFn (fn : Nat) (a b c : Num) (k : Int) : Option Num :=
  match fn with
  | 0x00 => some a
  | 0x01 => some (a.add b)
  | 0x02 => some (a.sub b)
  | 0x03 => some (a.mul b)
  | 0x04 => some ((a.mul b).add c)
  | 0x05 => some (Fn.div a b)
  | 0x06 => some (Fn.maxNum a b)
  | 0x07 => some (Fn.minNum a b)
  | 0x08 => some a.abs
  | 0x09 => some a.neg
  | 0x0A => some (Fn.sgn a)
  | 0x0B => some (Fn.sqrt a)
  | 0x0C => Fn.rsqrt a
  | 0x0D => some (Fn.div .one a)
  | 0x0E => Fn.exp a
  | 0x0F => Fn.log a
  | 0x10 => Fn.exp2 a
  | 0x11 => Fn.log2 a
  | 0x12 => Fn.tanh a
  | 0x13 => Fn.sigmoid a
  | 0x14 => some (Fn.relu a)
  | _ => some (a.scale k)

/-- An element as it is used: its bits, its block's scale byte and whether either is poisoned. -/
structure VElem where
  code : Nat := 0
  scale : Nat := 127
  poison : Bool := false
deriving DecidableEq, Repr

/-- Its value in a format (02 R46, R49). -/
def VElem.num (f : Fmt) (e : VElem) : Num := if f.isMx then f.decodeMx e.scale e.code else f.decode e.code

namespace Run

/-- An operation that R188 to R191 make illegal, with its leaf bit (R195). -/
def veBad (c : Bool) (u : UnitId) : Run Unit := do
  if c then do
    upd (fun d => d.raise F.VE_ERR_STATUS_illegal_op u.core)
    fault 0x10
  else pure ()

/-- Poison propagated or consumed (R195). -/
def vePoison (u : UnitId) (bad : Bool) : Run Unit :=
  if bad then upd (fun d => d.raise F.VE_ERR_STATUS_poison u.core) else pure ()

/-- Structures read by a vector engine: consumed poison is noted (R194). -/
def veConsume {α : Type} (u : UnitId) (x : Run α) : Run α := do
  match ← attempt x with
  | .ok a => pure a
  | .error s => do
    vePoison u (match s with | .fatal c _ _ _ _ => c == 0x0B | _ => false)
    stop s

/-- The word and the parameter block read and checked (R187, R188). -/
def veArgs (u : UnitId) (o : Op) : Run VeArgs := do
  let w := o.w0
  veBad (bits w 11 8 == 0 || bits w 15 12 != 0 || bits w 31 29 != 0 || bits w 63 38 != 0 || bits o.w1 63 48 != 0
    || o.w1 % 128 != 0) u
  let p ← veConsume u (vsolid u.req (bits o.w1 47 0) 128)
  veBad (field p 0x22 1 / 16 != 0 || field p 0x23 1 / 16 != 0 || field p 0x2E 2 != 0 || field p 0x34 4 != 0
    || (p.drop 0x40).any (fun b => b != 0)) u
  let a : VeArgs :=
    { u, op := o, mask := maskBits 4 (bits w 11 8), inCode := bits w 19 16, outCode := bits w 23 20, round := bits w 26 24
      sat := bit w 27, acc := bit w 28, fn := bits w 37 32, dA := field p 0 8, dY := field p 0x18 8
      b := { ptr := field p 8 8, mode := field p 0x20 1, fmt := field p 0x22 1, imm := field p 0x24 4 }
      c := { ptr := field p 0x10 8, mode := field p 0x21 1, fmt := field p 0x23 1, imm := field p 0x28 4 }
      k := sx 16 (field p 0x2C 2), tensor := field p 0x30 4, seed := field p 0x38 8 }
  veBad a.bad u
  faultIf (!a.copy && a.formats.contains 13) 0x0C
  veBad a.badFormat u
  pure a

/-- A descriptor of the operation: `n` numbers the select words that the operation keeps (07 R261). -/
def veView (a : VeArgs) (ptr n : Nat) : Run View := do
  if ptr = 0 then pure {}
  else do
    let v ← veConsume a.u (view a.u.req ptr false ((a.op.work[n]?).getD 0))
    faultIf (!a.copy && v.desc.fmt == .splitLow) 0x0C
    pure v

/-- Scale bytes at places, each distinct run of one byte read once. -/
def scalesAt (rq : Req) (ps : List (Option Place)) : Run (List Elem) := do
  let ds := ps.eraseDups
  let es ← readAll rq ds
  pure (ps.map (fun p => (((ds.zip es).find? (fun x => x.1 = p)).map Prod.snd).getD {}))

/-- Elements read at linear indices, with their scales in an MX format. -/
def veElems (a : VeArgs) (v : View) (f : Fmt) (is : List Nat) : Run (List VElem) := do
  let d ← dev
  let rq := { a.u.req with stream := v.desc.hint }
  let ss ← if f.isMx then scalesAt rq (is.map (v.scalePlace d.deviceId)) else pure []
  let es ← readAll rq (is.map (v.place d.deviceId))
  pure (es.zipIdx.map (fun (e, i) =>
    let s := (ss[i]?).getD { code := 127 }
    { code := e.code, scale := s.code, poison := e.poison || s.poison }))

/-- Elements written at linear indices, all or none; with `heads`, the scale bytes of the blocks that start there. -/
def vePut (a : VeArgs) (v : View) (is : List Nat) (es : List Elem) (heads : List Nat) (ss : List Elem) : Run Unit := do
  let d ← dev
  let rq := { a.u.req with stream := v.desc.hint }
  atomically (do
    let (_, e) ← writeElems rq (is.map (v.place d.deviceId)) es
    rethrow e
    let (_, e) ← writeElems rq (heads.map (v.scalePlace d.deviceId)) ss
    rethrow e)

/-- The values of an operand for linear indices of a, whose rows are `n` long (R188). -/
def veOperand (a : VeArgs) (x : VeOperand) (v : View) (n : Nat) (is : List Nat) : Run (List (Num × Bool)) := do
  let f := Fmt.ofCode x.fmt
  if x.mode = 2 then pure (is.map (fun _ => ((if x.fmt = 12 then Fmt.int32 else .fp32).decode x.imm, false)))
  else if x.mode = 1 then do
    let rows := (is.map (fun i => i / max 1 n)).eraseDups
    let es ← veElems a v f rows
    pure (is.map (fun i =>
      let e := (((rows.zip es).find? (fun r => r.1 = i / max 1 n)).map Prod.snd).getD {}
      (e.num f, e.poison)))
  else do
    let es ← veElems a v f is
    pure (es.map (fun e => (e.num f, e.poison)))

/-- The residue check of elements (17 R591): whether each mismatched twice. -/
def veResidue (u : UnitId) (is : List Nat) : Run (List Bool) := do
  let d ← dev
  let on := d.isSet F.SCR_CTRL_ve_res_en
  let hits := is.map (fun i => if on then min 2 (d.env.veResidue.count i) else 0)
  let all := hits.foldl (· + ·) 0
  let twice := (hits.filter (· == 2)).length
  if all ≠ 0 then
    upd (fun d => (((d.bump F.SCR_VE_RES_CNT_mismatches 0 u.core all).bump F.SCR_VE_RES_CNT_second 0 u.core twice).raise
      F.SCR_ERR_STATUS_ve_residue_replay).raiseIf (twice != 0) F.SCR_ERR_STATUS_ve_residue_poison)
  pure (hits.map (· == 2))

/-- A total counted by the engines of the mask: with several, how it divides is open (R192). -/
def veCount (a : VeArgs) (x : Field) (n : Nat) : Run Unit := do
  let left ← (a.mask.drop 1).foldlM (fun (left : Nat) g => do
    let v ← lift (fun d => d.draw 48)
    let k := v % (left + 1)
    upd (fun d => d.bump x a.u.core g k)
    pure (left - k)) n
  upd (fun d => d.bump x a.u.core (a.mask.headD 0) left)

/-- Units of work run from the cursor's on: each is a first linear index and a length, and the cursor counts output
rows (R194). -/
def veLoop {α : Type} (u : UnitId) (id : Nat) (f : Nat → Run α) : List Nat → Run (List α × Option Stop)
  | [] => pure ([], none)
  | p :: ps => do
    match ← attempt (f p) with
    | .error e => pure ([], some e)
    | .ok x => do
      held u id (fun o => { o with cursor := p + 1 })
      let (xs, e) ← veLoop u id f ps
      pure (x :: xs, e)

/-- The end of an operation: elements counted, flags reported, and, when all is done, the shares counted. -/
def veEnd (a : VeArgs) (written : Nat) (fl : Flags) (e : Option Stop) : Run Unit := do
  veCount a F.VE_ELEM_CNT_elements written
  upd (fun d => d.reportFlags a.u.ctx fl)
  rethrow e
  upd (fun d => a.mask.foldl (fun d g => d.bump F.VE_OP_CNT_ops a.u.core g 1) d)

/-- A result that the spec does not state: any FP32 value (log entry 2). -/
def freeNum : Run Num := do
  let v ← lift (fun d => d.draw 32)
  pure (ofFp32 v)

/-- Rows of the output in units of its own row length for an MX output, whose blocks lie along them, and of a's
otherwise (R190): first index and length of unit q. -/
def veUnit (len total q : Nat) : List Nat := (List.range (min len (total - q * len))).map (fun i => q * len + i)

/-- A COPY of rows with their scale bytes (R190). -/
def veCopyUnit (a : VeArgs) (x y : View) (n q : Nat) : Run (Nat × Flags) := do
  let d ← dev
  let is := veUnit n x.desc.count q
  let heads := if x.desc.fmt.isMx then is.filter (fun i => (i - q * n) % 32 = 0) else []
  let rq := { a.u.req with stream := x.desc.hint }
  let ss ← readAll rq (heads.map (x.scalePlace d.deviceId))
  let es ← readAll rq (is.map (x.place d.deviceId))
  vePut a y is es heads ss
  vePoison a.u ((es ++ ss).any Elem.poison)
  pure (is.length, Flags.none)

/-- The elements of one unit of a VE_MAP (R189, R190, R194). -/
def veMapUnit (a : VeArgs) (x b c y : View) (len q : Nat) : Run (Nat × Flags) := do
  let is := veUnit len x.desc.count q
  let n := x.desc.rowLen
  let xs ← veElems a x a.inF is
  let bs ← if a.operands.length = 0 then pure [] else veOperand a a.b b n is
  let cs ← if a.operands.length < 2 then pure [] else veOperand a a.c c n is
  let res ← veResidue a.u is
  let outs ← (xs.zipIdx).mapM (fun (e, j) => do
    let av := e.num a.inF
    let (bv, bp) := (bs[j]?).getD (Num.zero, false)
    let (cv, cp) := (cs[j]?).getD (Num.zero, false)
    let r := veFn a.fn av bv cv a.k
    let v ← match r with | some v => pure v | none => freeNum
    let made := match r with
      | some v => v.isNaN && !av.isNaN && !bv.isNaN && !cv.isNaN
      | none => false
    pure (v, e.poison || bp || cp || (res[j]?).getD false, made))
  let rounding := fun (i : Nat) => Rounding.ofCode (if a.integer then 0 else a.round) (srDraw a.seed a.tensor i)
  let (codes, scales, fl) := convertRow a.outF a.sat ((outs.zip is).map (fun (o, i) => (o.1, rounding i)))
  let bad := fun (j : Nat) => ((outs[j]?).map (fun o => o.2.1)).getD false
  let heads := if a.outF.isMx then is.filter (fun i => (i - q * len) % 32 = 0) else []
  vePut a y is ((codes.take is.length).zipIdx.map (fun (c, j) => { code := c, poison := bad j })) heads
    (scales.zipIdx.map (fun (s, k) => { code := s, poison := (List.range 32).any (fun j => bad (32 * k + j)) }))
  vePoison a.u (outs.any (fun o => o.2.1))
  pure (is.length, fl.or { invalid := outs.any (fun o => o.2.2) })

/-- VE_MAP (R189, R190). -/
def veMap (u : UnitId) (o : Op) : Run Unit := do
  let a ← veArgs u o
  let x ← veView a a.dA 0
  let b ← if a.operands.length = 0 ∨ a.b.mode = 2 then pure {} else veView a a.b.ptr 1
  let c ← if a.operands.length < 2 ∨ a.c.mode = 2 then pure {} else veView a a.c.ptr 2
  let y ← veView a a.dY 3
  held u o.id (fun o => { o with work := [x, b, c, y].map View.select })
  let len := if a.outF.isMx && !a.copy then y.desc.rowLen else x.desc.rowLen
  let units := if len = 0 then 0 else ceilDiv x.desc.count len
  let (rs, e) ← veLoop u o.id (fun q => if a.copy then veCopyUnit a x y len q else veMapUnit a x b c y len q)
    ((List.range units).drop o.cursor)
  veEnd a ((rs.map Prod.fst).foldl (· + ·) 0) (Flags.orAll (rs.map Prod.snd)) e

/-! ### Row reductions -/

/-- Pairwise levels of row_sum (R191). -/
def pairSums : Nat → List Num → List Num
  | 0, p => p
  | n + 1, p => pairSums n ((List.range (p.length / 2)).map (fun j =>
      toFp32 (((p[2 * j]?).getD Num.zero).add ((p[2 * j + 1]?).getD Num.zero))))

/-- row_sum of R191. -/
def rowSum (square : Bool) (row : List Num) : Num :=
  let parts := (List.range (min 1024 row.length)).map (fun j =>
    (List.range (ceilDiv (row.length - j) 1024)).foldl (fun acc k =>
      let x := toFp32 ((row[j + 1024 * k]?).getD Num.zero)
      toFp32 ((if square then x.mul x else x).add acc)) Num.zero)
  (pairSums 10 (parts ++ List.replicate (1024 - parts.length) Num.zero)).headD Num.zero

/-- The value of a reduction, but ARGMAX and EXPMAX, on a row (R191). -/
def reduceRow (fn : Nat) (row : List Num) : Num :=
  match fn with
  | 0 => rowSum false row
  | 1 => rowSum true row
  | 2 => match row with | [] => .inf true | x :: xs => xs.foldl Fn.maxNum x
  | 3 => match row with | [] => .inf false | x :: xs => xs.foldl Fn.minNum x
  | 4 => (row.map Num.abs).foldl Fn.maxNum Num.zero
  | _ => if row.isEmpty then Num.zero else toFp32 (Fn.div (rowSum false row) (toFp32 (Num.ofInt row.length)))

/-- A new output combined with the one that stands there (R191). -/
def reduceWith (fn : Nat) (old new : Num) : Num :=
  if fn = 0 ∨ fn = 1 then toFp32 ((toFp32 old).add new) else if fn = 3 then Fn.minNum old new else Fn.maxNum old new

/-- One row of a VE_ROWRED: its values, whether it is poisoned. -/
def reducedRow (a : VeArgs) (x : View) (r : Nat) : Run (List Num × Bool) := do
  let n := x.desc.rowLen
  let is := (List.range n).map (fun j => r * n + j)
  let es ← veElems a x a.inF is
  let res ← veResidue a.u is
  pure (es.map (VElem.num a.inF), es.any VElem.poison || res.any id)

/-- The outputs of a group of rows, of which an MX output forms a block (R191). -/
def reduceGroup (a : VeArgs) (x y : View) (rows : List Nat) : Run (Nat × Flags) := do
  if a.fn = 7 then do
    rows.forM (fun r => do
      let (xs, bad) ← reducedRow a x r
      let at_ : Int := ((y.desc.base + 2 * r : Nat) : Int)
      let m := maxExpOf xs
      let (m, bad) ← if a.acc then do
          let old ← vread a.u.req at_ 2
          pure (m.max (MaxExp.ofCode (leNat (old.map PByte.val))), bad || old.any PByte.poison)
        else pure (m, bad)
      vwrite a.u.req at_ ((leBytes 2 m.code).map (fun b => { val := b, poison := bad }))
      vePoison a.u bad)
    pure (rows.length, Flags.none)
  else if a.fn = 6 then do
    rows.forM (fun r => do
      let (xs, bad) ← reducedRow a x r
      vePut a y [r] [{ code := ((topOrder xs).head?).getD 0xFFFFFFFF, poison := bad }] [] []
      vePoison a.u bad)
    pure (rows.length, Flags.none)
  else do
    let outs ← rows.mapM (fun r => do
      let (xs, bad) ← reducedRow a x r
      let v := reduceRow a.fn xs
      if a.acc then do
        let old ← veElems a y a.outF [r]
        let ov := (old.headD {}).num a.outF
        let z := reduceWith a.fn ov v
        pure (z, bad || old.any VElem.poison, z.isNaN && !ov.isNaN && !xs.any Num.isNaN)
      else pure (v, bad, v.isNaN && !xs.any Num.isNaN))
    let (codes, scales, fl) := convertRow a.outF a.sat ((outs.zip rows).map (fun (o, r) =>
      (o.1, Rounding.ofCode a.round (srDraw a.seed a.tensor r))))
    let heads := if a.outF.isMx then rows.take 1 else []
    vePut a y rows ((codes.take rows.length).zipIdx.map (fun (c, j) =>
      { code := c, poison := ((outs[j]?).map (fun o => o.2.1)).getD false })) heads
      (scales.map (fun s => { code := s, poison := outs.any (fun o => o.2.1) }))
    vePoison a.u (outs.any (fun o => o.2.1))
    pure (rows.length, fl.or { invalid := outs.any (fun o => o.2.2) })

/-- The rows of a in groups: one row each, or the outputs of one block of an MX output. -/
def reduceGroups (a : VeArgs) (y : View) (rows : Nat) : List (List Nat) :=
  if a.outF.isMx ∧ a.fn ≠ 6 ∧ a.fn ≠ 7 then
    let n := max 1 y.desc.rowLen
    let per := ceilDiv n 32
    (List.range (ceilDiv rows n * per)).map (fun g =>
      let first := g / per * n + g % per * 32
      (List.range (min 32 (n - g % per * 32))).filterMap (fun i => if first + i < rows then some (first + i) else none))
  else (List.range rows).map (fun r => [r])

/-- VE_ROWRED (R191). -/
def veRowred (u : UnitId) (o : Op) : Run Unit := do
  let a ← veArgs u o
  let x ← veView a a.dA 0
  let y ← veView a a.dY 3
  held u o.id (fun o => { o with work := [x, {}, {}, y].map View.select })
  let groups := reduceGroups a y x.desc.rows
  let (rs, e) ← veLoop u o.id (fun g => reduceGroup a x y ((groups[g]?).getD [])) ((List.range groups.length).drop o.cursor)
  veEnd a ((rs.map Prod.fst).foldl (· + ·) 0) (Flags.orAll (rs.map Prod.snd)) e

/-- VE_SYNC (R188): it starts when the earlier operations of its engines have completed. -/
def veSync (u : UnitId) (o : Op) : Run Unit := do
  let w := o.w0
  veBad (bits w 11 8 == 0 || bits w 15 12 != 0 || bits w 31 29 != 0 || bits w 63 32 != 0 || o.w1 != 0) u
  let d ← dev
  waitIf ((d.core u.core).held.any (fun x => decide (x.id ≠ o.id) && decide (0x90 ≤ x.opcode) && decide (x.opcode < 0xA0)
    && decide (bits x.w0 11 8 &&& bits w 11 8 ≠ 0)))
  upd (fun d => (maskBits 4 (bits w 11 8)).foldl (fun d g => d.bump F.VE_OP_CNT_ops u.core g 1) d)

end Run

/-- VE_STATUS (R195). -/
def Dev.veStatus (d : Dev) (c : Nat) : Nat :=
  let ops := (d.core c).held.filter (fun o => decide (0x90 ≤ o.opcode) && decide (o.opcode < 0xA0))
  let busy := ops.foldl (fun m o => m ||| bits o.w0 11 8) 0
  let low := fun m => ((maskBits 4 m).head?.map (2 ^ ·)).getD 0
  let stopped := (ops.filter (fun o => o.stopped.isSome)).foldl (fun m o => m ||| low (bits o.w0 11 8)) 0
  stopped * 2 ^ 4 + busy

end Sys2Proof.Machine
end

