-- ==== Sys2Proof/Machine/Walker.lean ====
section
/-!
DEFINITION. The grouped-operation walker (09_conditional_computation.md R317-R355): ROUTE, and WALK with its entries, body
images, patches, frames and audits.
-/

namespace Sys2Proof.Machine

namespace Run

/-- A walker operation that faults with cause 0x11, with its leaf bit (R353). -/
def wlkBad (c : Bool) (u : UnitId) : Run Unit := do
  if c then do
    upd (fun d => d.raise F.WLK_ERR_STATUS_illegal u.core)
    fault 0x11
  else pure ()

/-- Bytes that the walker consumes (R352). -/
def wlkRead (u : UnitId) (va : Int) (len : Nat) : Run (List Byte) :=
  noting F.WLK_ERR_STATUS_poison u.core (vsolid u.req va len)

/-- The word and the parameter block of a walker operation (R317). -/
def wlkBlock (u : UnitId) (o : Op) : Run (List Byte) := do
  wlkBad (bits o.w0 63 11 != 0 || bits o.w1 63 48 != 0 || o.w1 % 128 != 0) u
  wlkRead u (bits o.w1 47 0 : Nat) 128

/-- Bytes written without poison. -/
def putBytes (u : UnitId) (va : Int) (bs : List Byte) : Run Unit :=
  vwrite u.req va (bs.map (fun b => { val := b }))

end Run

/-! ### ROUTE -/

/-- A segment of a segment table (R320). -/
structure Segment where
  length : Nat
  start : Nat
  slot : Nat
  tokenBase : Nat
deriving DecidableEq, Repr

namespace Segment

/-- The fields of an entry; none where a reserved bit is set (R320, R321). -/
def ofWords (w0 w1 : Nat) : Option Segment :=
  if bits w0 15 6 ≠ 0 ∨ bits w1 63 22 ≠ 0 then none
  else some { length := bits w0 63 40, start := bits w0 39 16, slot := bits w0 5 0, tokenBase := bits w1 21 0 }

/-- The rules of R321: increasing starts without overlap, no slot twice, and token indices that tag32 can hold. -/
def legal : List Segment → Bool
  | [] => true
  | s :: ss =>
    (s.length == 0 || decide (s.tokenBase + s.length ≤ 4194304))
      && (match ss with | [] => true | t :: _ => decide (s.start < t.start) && decide (s.start + s.length ≤ t.start))
      && !ss.any (fun t => t.slot == s.slot) && legal ss

end Segment

/-- One routed pair (R323). -/
structure Pair where
  row : Nat
  rank : Nat
  tag : Nat
  expert : Nat
deriving DecidableEq, Repr

namespace Run

/-- The segments of a table, checked (R320, R321). -/
def segments (u : UnitId) (ptr n : Nat) : Run (List Segment) := do
  let bs ← wlkRead u ptr (16 * n)
  let ws := leWords (2 * n) bs
  let ss := (List.range n).map (fun i => Segment.ofWords ((ws[2 * i]?).getD 0) ((ws[2 * i + 1]?).getD 0))
  wlkBad (ss.any Option.isNone || !Segment.legal ss.reduceOption) u
  pure ss.reduceOption

/-- A pair whose expert index names no expert (R324), with the capture of WLK_CHAFF_INFO (R353). -/
def routeChaff (u : UnitId) (p : Pair) : Run Unit := do
  let c := u.core
  let d ← dev
  if !d.isSet F.WLK_ERR_STATUS_chaff c then
    upd (fun d => d.wr .WLK_CHAFF_INFO c 0 (p.expert % 2 ^ 32 * 2 ^ 32 + p.rank * 2 ^ 24 + u.ctx % 16 * 2 ^ 20 + p.row % 2 ^ 20))
  upd (fun d => (d.bump F.WLK_CHAFF_CNT_pairs c 0 1).raise F.WLK_ERR_STATUS_chaff c)

/-- ROUTE (R322-R325). A stop leaves it to begin again; the statistics change only at its end (R350). -/
def route (u : UnitId) (o : Op) : Run Unit := do
  let p ← wlkBlock u o
  let idx := field p 0 8
  let stats := field p 0x28 8
  let rows := field p 0x30 4
  let e := field p 0x34 2
  let k := field p 0x36 1
  let segs := field p 0x38 2
  wlkBad ([idx, field p 8 8, field p 0x10 8, field p 0x18 8, field p 0x20 8].contains 0 || field p 0x37 1 != 0
    || (p.drop 0x3A).any (fun b => b != 0) || e == 0 || k == 0 || decide (16 < k) || segs == 0 || decide (4096 < segs)) u
  let ss ← segments u (field p 8 8) segs
  let pairs ← ss.foldlM (fun (acc : List Pair) s => do
    let n := min s.length (rows - s.start)
    let bs ← wlkRead u ((idx + 4 * (k * s.start) : Nat) : Int) (4 * (k * n))
    let es := (List.range (k * n)).map (fun i => leNat ((bs.drop (4 * i)).take 4))
    pure (acc ++ es.zipIdx.map (fun (x, i) =>
      { row := s.start + i / k, rank := i % k, expert := x
        tag := s.slot * 2 ^ 26 + (s.tokenBase + i / k) * 16 + i % k }))) []
  (pairs.filter (fun x => e ≤ x.expert)).forM (routeChaff u)
  let good := pairs.filter (fun x => x.expert < e)
  -- dispatch order: pairs stand by row and rank already, and keep that order inside their expert's list
  let byExpert := good.foldl (fun t x => Sp.set (fun _ => ([] : List Pair)) t x.expert
    (Sp.get (fun _ => []) t x.expert ++ [x])) ([] : List (Nat × List Pair))
  let count := fun i => (Sp.get (fun _ => ([] : List Pair)) byExpert i).length
  let order := byExpert.flatMap Prod.snd
  putBytes u (field p 0x10 8 : Nat) (order.flatMap (fun x => leBytes 4 x.tag))
  putBytes u (field p 0x18 8 : Nat) ((List.range e).flatMap (fun i => leBytes 4 (count i)))
  putBytes u (field p 0x20 8 : Nat) ((List.range 64).flatMap (fun i =>
    leBytes 4 (match ss.find? (fun s => s.slot = i) with
      | some s => (s.start + 2 ^ 32 - s.tokenBase) % 2 ^ 32
      | none => 0xFFFFFFFF)))
  if stats ≠ 0 then do
    let old ← vread u.req stats (8 * e)
    atomically (vwrite u.req stats ((List.range e).flatMap (fun i =>
      let w := (old.drop (8 * i)).take 8
      (leBytes 8 ((leNat (w.map PByte.val) + count i) % 2 ^ 64)).map (fun b => { val := b, poison := w.any PByte.poison }))))
  upd (fun d => d.bump F.WLK_ROUTE_CNT_pairs u.core 0 order.length)

end Run

/-! ### WALK -/

/-- A WALK's parameter block. -/
structure WalkArgs where
  u : UnitId
  op : Op
  list : Nat
  table : Nat
  body : Nat
  scratch : Nat
  stride : Int
  count : Nat
  expertBase : Nat
  chunk : Nat
  segmented : Bool
  layer : Nat
deriving DecidableEq, Repr

/-- An entry as the walk uses it (R334, mode 1 of WALK). -/
structure WalkEntry where
  skip : Bool := false
  zf : Bool := false
  rows : Nat := 0
  expert : Nat := 0
  ptr0 : Nat := 0
  ptr1 : Nat := 0
  skipPtr : Nat := 0
  first : Nat := 0
deriving DecidableEq, Repr

namespace WalkEntry

/-- Chunks of the entry (R335). -/
def chunks (e : WalkEntry) (c : Nat) : Nat := ceilDiv e.rows c

/-- Issue unit k of a non-empty entry (R341): its first pool row, its rows, its chunk if it is one. -/
def part (e : WalkEntry) (c k : Nat) : Nat × Nat × Option Nat :=
  if k = 0 ∨ e.chunks c < k then (e.first, e.rows, none)
  else (e.first + (k - 1) * c, min c (e.rows - (k - 1) * c), some (k - 1))

end WalkEntry

/-- A body image as it stands in memory (R337). -/
structure Body where
  nPro : Nat
  nLoop : Nat
  nEpi : Nat
  words : List (Nat × Nat)
  patch : List Nat
  templates : List (List Nat)
  roles : List Nat
deriving DecidableEq, Repr

/-- Whether a value is image-relative (R338). -/
def imageRelative (v : Nat) : Bool := bits v 47 16 == 2 ^ 32 - 1

/-- Operation words that have a param field (R338). -/
def hasParam (opcode : Nat) : Bool :=
  (decide (0x10 ≤ opcode) && decide (opcode ≤ 0x14)) || (decide (0x30 ≤ opcode) && decide (opcode < 0x40))
    || (decide (0x68 ≤ opcode) && decide (opcode < 0x70)) || (decide (0x90 ≤ opcode) && decide (opcode < 0xA0))

/-- The DA operations with a rows field that patch bit 0 sets (R340). -/
def hasRows (opcode : Nat) : Bool := [0x21, 0x22, 0x23].contains opcode

/-- Bits [i + n - 1 : i] of a bit string in bytes. -/
def bitField (bs : List Byte) (i n : Nat) : Nat := bits (leNat bs) (i + n - 1) i

namespace Run

/-- The parameter block of a WALK read and checked. -/
def walkArgs (u : UnitId) (o : Op) : Run WalkArgs := do
  let p ← wlkBlock u o
  wlkBad (field p 0x18 8 != 0 || field p 0x31 3 != 0 || (p.drop 0x38).any (fun b => b != 0) || decide (1 < field p 0x30 1)
    || field p 0x2E 2 == 0 || decide (256 < field p 0x2E 2) || decide (65535 < field p 0x28 4)
    || decide (field p 8 8 % 256 ≠ 0)) u
  pure
    { u, op := o, list := bits o.w0 10 8, table := field p 0 8, body := field p 8 8, scratch := field p 0x10 8
      stride := sx 64 (field p 0x20 8), count := field p 0x28 4, expertBase := field p 0x2C 2, chunk := field p 0x2E 2
      segmented := field p 0x30 1 == 1, layer := field p 0x34 4 }

/-- Words 0 of the entries before one, for their rows. -/
def rowsBefore (a : WalkArgs) (i : Nat) : Run Nat :=
  (List.range i).foldlM (fun n j => do
    let b ← wlkRead a.u ((a.table + 64 * j : Nat) : Int) 8
    pure (n + bits (leNat b) 39 16)) 0

/-- Entry i (R334, R335); in segment mode, segment i. -/
def walkEntry (a : WalkArgs) (i : Nat) : Run WalkEntry := do
  if a.segmented then do
    let b ← wlkRead a.u ((a.table + 16 * i : Nat) : Int) 16
    match Segment.ofWords (leNat (b.take 8)) (leNat (b.drop 8)) with
    | none => do
      wlkBad true a.u
      pure {}
    | some s => pure { rows := s.length, expert := s.slot, first := s.start }
  else do
    let b ← wlkRead a.u ((a.table + 64 * i : Nat) : Int) 64
    let w := leWords 8 b
    let at_ := fun k => (w[k]?).getD 0
    wlkBad (bits (at_ 0) 63 50 != 0 || bits (at_ 0) 47 40 != 0 || [1, 2, 3].any (fun k => bits (at_ k) 63 48 != 0)
      || [4, 5, 6, 7].any (fun k => at_ k != 0) || (bit (at_ 0) 49 && at_ 3 % 512 != 0)) a.u
    let first ← rowsBefore a i
    pure
      { skip := bit (at_ 0) 49, zf := bit (at_ 0) 48, rows := bits (at_ 0) 39 16, expert := bits (at_ 0) 15 0
        ptr0 := at_ 1, ptr1 := at_ 2, skipPtr := at_ 3, first }

/-- The body image's sections (R337). -/
def walkBody (a : WalkArgs) : Run Body := do
  let at_ := fun (off : Nat) => ((a.body + off : Nat) : Int)
  let h ← wlkRead a.u (at_ 0) 4
  let n := field h 0 1 + field h 1 1 + field h 2 1
  let nd := field h 3 1
  wlkBad (decide (64 < n) || decide (8 < nd)) a.u
  let ws ← wlkRead a.u (at_ 0x40) (16 * n)
  let ps ← wlkRead a.u (at_ 0x440) n
  let ts ← wlkRead a.u (at_ 0x480) (64 * nd)
  let rs ← wlkRead a.u (at_ 0x680) (8 * nd)
  pure
    { nPro := field h 0 1, nLoop := field h 1 1, nEpi := field h 2 1
      words := (List.range n).map (fun i => (field ws (16 * i) 8, field ws (16 * i + 8) 8))
      patch := ps.map BitVec.toNat
      templates := (List.range nd).map (fun i => leWords 8 ((ts.drop (64 * i)).take 64))
      roles := leWords nd rs }

/-- A template patched for pool rows p to p + n - 1 of an entry (R339). -/
def patchTemplate (a : WalkArgs) (e : WalkEntry) (p n : Nat) (ws : List Nat) (role : Nat) : Run (List Nat) := do
  let at_ := fun k => (ws[k]?).getD 0
  let w0 := at_ 0
  let base : Int := ((bits w0 47 0 : Nat) : Int)
  let fmt := Fmt.ofCode (bits w0 51 48)
  let dim := bits role 4 2
  let code := bits role 1 0
  let moved : Int :=
    if code = 1 then (p : Int) * sx 40 (at_ (dim + 1)) * (fmt.width : Int)
    else if code = 2 then 8 * (((e.expert : Int) - a.expertBase) * a.stride)
    else if code = 3 then 8 * (((if bit role 5 then e.ptr1 else e.ptr0 : Nat) : Int) - base)
    else 0
  wlkBad (decide (moved % 8 ≠ 0)) a.u
  let to_ ← address (base + moved / 8)
  let elements : Int := moved / (fmt.width : Int)
  let region : Int := (base / 256) * 256 + 256 * sx 28 (at_ 7) + elements / 32
  let off : Int := (region - ((to_ / 256 * 256 : Nat) : Int)) / 256
  wlkBad (fmt.isMx && (decide (elements % 32 ≠ 0) || decide ((region - ((to_ / 256 * 256 : Nat) : Int)) % 256 ≠ 0)
    || decide (off < -(2 ^ 27)) || decide (2 ^ 27 ≤ off))) a.u
  pure (ws.zipIdx.map (fun (w, k) =>
    let w := if k = 0 then putBits w 47 0 to_ else w
    let w := if code = 1 ∧ k = dim + 1 then putBits w 61 40 n else w
    if fmt.isMx ∧ k = 7 then putBits w 27 0 (ux 28 off) else w))

/-- The skip-table entry of a chunk (R344): its address, group, blocks, pred and miss bits. -/
def skipEntry (a : WalkArgs) (e : WalkEntry) (j : Nat) : Run (Nat × Nat × Nat × List Byte × List Byte) := do
  let va := e.skipPtr + 512 * j
  let b ← wlkRead a.u va 512
  wlkBad ((b.drop 6).take 0x3A |>.any (fun x => x != 0)) a.u
  pure (va, field b 0 4, field b 4 2, (b.drop 0x40).take 128, (b.drop 0xC0).take 128)

/-- The audited blocks of a group (R345). -/
def audited (d : Dev) (a : WalkArgs) (group blocks : Nat) (pred : List Byte) : List Nat :=
  (List.range (min 1024 blocks)).filter (fun b => bit (leNat pred) b &&
    decide (srDraw (d.fld F.WLK_AUDIT_SEED_seed a.u.core) a.layer (group * 1024 + b) / 256 < d.fld F.WLK_AUDIT_rate a.u.core))

/-- The audit of a chunk before its first skip_out pass: the audit bits go into the entry and the blocks are counted
(R345). -/
def auditChunk (a : WalkArgs) (e : WalkEntry) (j : Nat) : Run Unit := do
  let (va, group, blocks, pred, _) ← skipEntry a e j
  let d ← dev
  let hit := audited d a group blocks pred
  let n := ((List.range (min 1024 blocks)).filter (fun b => bit (leNat pred) b)).length
  putBytes a.u ((va + 0x140 : Nat) : Int) (leBytes 128 (hit.foldl (fun m b => m + 2 ^ b) 0))
  upd (fun d => (d.bump F.WLK_AUDIT_CNT_blocks a.u.core 0 hit.length).bump F.WLK_SKIP_CNT_blocks a.u.core 0 (n - hit.length))

/-- A word patched for n rows of a chunk (R340, R344), with the audit bits that go beside it (R345). A word outside the
chunks, or of an entry without skipping, skips nothing. -/
def patchWord (a : WalkArgs) (e : WalkEntry) (n : Nat) (chunk : Option Nat) (w : Nat × Nat) (patch : Nat) :
    Run ((Nat × Nat) × (Nat × Nat × Nat)) := do
  let opcode := bits w.1 7 0
  wlkBad (bit patch 0 && hasRows opcode && (decide (256 < n) || (decide (bits w.1 9 8 ≠ 3) && decide (128 < n)))) a.u
  let w0 := if bit patch 0 && hasRows opcode then putBits w.1 39 32 (n - 1) else w.1
  if !(bit patch 1 || bit patch 2) then pure ((w0, w.2), (0, 0, 0))
  else
    match e.skip, chunk with
    | true, some j => do
      let (va, group, blocks, pred, miss) ← skipEntry a e j
      let d ← dev
      let hit := (audited d a group blocks pred).foldl (fun m b => m + 2 ^ b) 0
      let valid := 2 ^ (min 1024 blocks) - 1
      let p := leNat pred &&& valid
      let back := if d.isSet F.WLK_AUDIT_makeup a.u.core then leNat miss else 0
      let outOff := bits w.2 63 32
      let redOff := bits w.2 31 0
      let w1 := if bit patch 1 then putBits w.2 63 32 (bits (p - (p &&& hit)) (outOff + 31) outOff) else w.2
      let w1 := if bit patch 2 then putBits w1 31 0 (bits (p - (p &&& back)) (redOff + 31) redOff) else w1
      pure ((w0, w1), if bit patch 1 then (bits hit (outOff + 31) outOff, va, outOff) else (0, 0, 0))
    | _, _ =>
      let w1 := if bit patch 1 then putBits w.2 63 32 0 else w.2
      pure ((w0, if bit patch 2 then putBits w1 31 0 0 else w1), (0, 0, 0))

/-- A value relocated into a frame (R338). -/
def relocate (frame v : Nat) : Nat := if imageRelative v then frame + bits v 15 0 else v

/-- The words of an issue unit prepared in a frame: patched templates and relocated parameter blocks are written into
it, and the words come back as they are issued (R338-R341). -/
def prepare (a : WalkArgs) (e : WalkEntry) (b : Body) (k frame : Nat) : Run (List ((Nat × Nat) × (Nat × Nat × Nat))) := do
  let (p, n, chunk) := e.part a.chunk k
  let lo := if k = 0 then 0 else if chunk.isSome then b.nPro else b.nPro + b.nLoop
  let len := if k = 0 then b.nPro else if chunk.isSome then b.nLoop else b.nEpi
  let ws := (b.words.zip b.patch).drop lo |>.take len
  let at_ := fun (off : Nat) => ((frame + off : Nat) : Int)
  (b.templates.zip b.roles).zipIdx.forM (fun ((t, role), i) => do
    let t ← patchTemplate a e p n t role
    putBytes a.u (at_ (0x480 + 64 * i)) (wordBytes t))
  let audits := e.skip && ws.any (fun w => bit w.2 1)
  match audits, chunk with
  | true, some j => auditChunk a e j
  | _, _ => pure ()
  let out ← ws.mapM (fun (w, patch) => do
    let (w, aud) ← patchWord a e n chunk w patch
    if hasParam (bits w.1 7 0) && imageRelative w.2 then do
      let off := bits w.2 15 0
      let blk ← wlkRead a.u ((a.body + off : Nat) : Int) 128
      let ptrs := if bits w.1 7 0 < 0x20 ∨ (0x30 ≤ bits w.1 7 0 ∧ bits w.1 7 0 < 0x40) then [0, 1, 2, 3, 4, 5] else []
      let blk' := (leWords 16 blk).zipIdx.map (fun (v, i) => if ptrs.contains i then relocate frame v else v)
      putBytes a.u (at_ off) (wordBytes blk')
      pure ((w.1, relocate frame w.2), aud)
    else pure (w, aud))
  putBytes a.u (at_ (0x40 + 16 * lo)) (out.flatMap (fun w => wordBytes [w.1.1, w.1.2]))
  pure out

/-- The zero fills of an empty entry (R336): every byte of each target, scale bytes included. -/
def zeroFill (a : WalkArgs) (e : WalkEntry) (b : Body) : Run Unit :=
  (b.templates.zip b.roles).forM (fun (t, role) => do
    if bit role 6 then do
      let t ← patchTemplate a e e.first e.rows t role
      match Desc.ofWords t with
      | none => wlkBad true a.u
      | some t => do
        let v ← viewOf a.u.req t 0
        let d ← dev
        let n := v.desc.rowLen
        (List.range v.desc.rows).forM (fun r => do
          let (_, s) ← writeElems a.u.req (v.rowPlaces d.deviceId r 0 n) (List.replicate n {})
          rethrow s
          let nb := if v.desc.fmt.isMx then ceilDiv n 32 else 0
          let (_, s) ← writeElems a.u.req (v.rowScales d.deviceId r n) (List.replicate nb {})
          rethrow s)
    else pure ())

/-- The operation's own state: the issue unit inside the entry, the words of it already issued, and the frame that holds
it, 4 when none is prepared. -/
def walkAt (a : WalkArgs) (unit words frame : Nat) : Run Unit :=
  held a.u a.op.id (fun o => { o with work := [unit, words, frame] })

/-- The words of a prepared unit issued from the n-th on; where a list is full the walker waits (R341). -/
def issueUnit (a : WalkArgs) (unit frame : Nat) (ws : List ((Nat × Nat) × (Nat × Nat × Nat))) (n : Nat) : Run Unit :=
  ((ws.zipIdx).drop n).forM (fun (w, i) => do
    let opcode := bits w.1.1 7 0
    let list := if (0x10 ≤ opcode ∧ opcode ≤ 0x14) ∨ opcode = 0x19 ∨ opcode = 0x1A then 8 else a.list
    wlkBad (!routable opcode list) a.u
    let id ← issueFor a.u a.op list w.1.1 w.1.2 w.2
    upd (fun d => d.onCore a.u.core (fun k =>
      { k with wlkFrames := Sp.set (fun _ => []) k.wlkFrames frame (Sp.get (fun _ => []) k.wlkFrames frame ++ [id]) }))
    walkAt a unit (i + 1) frame)

/-- The lowest frame from which every issued operation has completed (R342). -/
def freeFrame (d : Dev) (c : Nat) : Option Nat :=
  (List.range 4).find? (fun f => (Sp.get (fun _ => []) (d.core c).wlkFrames f).all (fun id => !d.outstanding c id))

/-- Issue unit k of an entry, from where the operation stands in it. -/
def walkUnit (a : WalkArgs) (e : WalkEntry) (b : Body) (k : Nat) : Run Unit := do
  let d ← dev
  let st := ((d.heldOp a.u.core a.op.id).map Op.work).getD []
  let (n, fr) ← match st with
    | [unit, n, f] => if unit = k ∧ f < 4 then pure (n, some f) else pure (0, none)
    | _ => pure (0, none)
  match fr with
  | some f => do
    -- the frame is prepared: its words stand in it
    let lo := if k = 0 then 0 else if ((e.part a.chunk k).2.2).isSome then b.nPro else b.nPro + b.nLoop
    let len := if k = 0 then b.nPro else if ((e.part a.chunk k).2.2).isSome then b.nLoop else b.nEpi
    let frame := a.scratch + 0x4000 * f
    let ws ← wlkRead a.u ((frame + 0x40 + 16 * lo : Nat) : Int) (16 * len)
    let (_, rowsN, chunk) := e.part a.chunk k
    let auds ← ((b.words.zip b.patch).drop lo |>.take len).mapM (fun (w, patch) => do
      let (_, aud) ← patchWord a e rowsN chunk w patch
      pure aud)
    issueUnit a k f ((List.range len).map (fun i => ((field ws (16 * i) 8, field ws (16 * i + 8) 8), (auds[i]?).getD (0, 0, 0)))) n
  | none =>
    match freeFrame d a.u.core with
    | none => wait
    | some f => do
      let ws ← prepare a e b k (a.scratch + 0x4000 * f)
      upd (fun d => d.onCore a.u.core (fun x => { x with wlkFrames := Sp.set (fun _ => []) x.wlkFrames f [] }))
      walkAt a k 0 f
      issueUnit a k f ws 0

/-- The cursor of a WALK: its entry and chunk (R350). -/
def walkCursor (entry chunk : Nat) : Nat := entry * 2 ^ 24 + chunk

/-- One entry walked from where the operation stands in it (R335, R336, R341). -/
def walkOne (a : WalkArgs) (b : Body) (i : Nat) : Run Unit := do
  let e ← walkEntry a i
  let d ← dev
  let c := a.u.core
  if e.rows = 0 then do
    if e.zf && d.isSet F.WLK_CTRL_zf_en c then do
      zeroFill a e b
      upd (fun d => d.bump F.WLK_ZF_CNT_fills c 0 1)
    upd (fun d => d.bump F.WLK_EMPTY_CNT_entries c 0 1)
  else do
    let st := ((d.heldOp c a.op.id).map Op.work).getD []
    let start := match st with | unit :: _ => unit | [] => 0
    let units := e.chunks a.chunk + 2
    ((List.range units).drop start).forM (fun k => do
      walkUnit a e b k
      walkAt a (k + 1) 0 4
      held a.u a.op.id (fun o => { o with cursor := walkCursor i (min k (e.chunks a.chunk)) }))
    upd (fun d => d.bump F.WLK_ENTRY_CNT_entries c 0 1)
  held a.u a.op.id (fun o => { o with cursor := walkCursor (i + 1) 0, work := [] })

/-- WALK (R335-R342): it completes when every operation that it issued has (R318). -/
def walk (u : UnitId) (o : Op) : Run Unit := do
  let a ← walkArgs u o
  let b ← walkBody a
  ((List.range a.count).drop (o.cursor / 2 ^ 24)).forM (walkOne a b)
  let d ← dev
  waitIf ((d.core u.core).wlkFrames.any (fun f => f.2.any (d.outstanding u.core)))
  upd (fun d => d.onCore u.core (fun k => { k with wlkFrames := [] }))

end Run

namespace Dev

/-- The walker takes an operation when it runs none and an active place is free (R318). -/
def walkerFree (d : Dev) (c : Nat) : Bool :=
  !(d.core c).held.any (fun o => o.opcode == 0x40 || o.opcode == 0x41) && decide (d.activePlaces c < 32)

/-- WLK_STATUS (R353). -/
def wlkStatus (d : Dev) (c : Nat) : Nat :=
  let k := d.core c
  let op := k.held.find? (fun o => o.opcode == 0x40 || o.opcode == 0x41)
  let frames := (List.range 4).foldl (fun m f =>
    m + b2n ((Sp.get (fun _ => []) k.wlkFrames f).any (d.outstanding c)) * 2 ^ f) 0
  let at_ := (op.map (fun o => if o.opcode = 0x41 then o.cursor else 0)).getD 0
  bits at_ 23 0 * 2 ^ 24 + bits at_ 39 24 * 2 ^ 8 + frames * 2 ^ 4
    + b2n ((op.map (fun o => o.stopped.isSome)).getD false) * 2 + b2n op.isSome

end Dev

end Sys2Proof.Machine
end

