-- ==== Sys2Proof/Machine/Hoard.lean ====
section
/-!
DEFINITION. The Hoard controller and the W queue (10_backward_pass_and_hoard.md R362-R396): frames and their placement,
resident copies, and the deferred weight-gradient entries.
-/

namespace Sys2Proof.Machine

/-- The code of a format (02 R45). -/
def Fmt.code (f : Fmt) : Nat := ((List.range 16).find? (fun c => Fmt.ofCode c = f)).getD 0

/-- A part's places in its frame (R363), from its own offset. -/
structure PartLayout where
  fmt : Fmt := .fp32
  rank : Nat := 1
  sizes : List Nat := []
  at_ : Nat := 0
deriving DecidableEq, Repr

namespace PartLayout

/-- Size of a dimension. -/
def size (p : PartLayout) (k : Nat) : Nat := (p.sizes[k]?).getD 1
/-- Rows of the part. -/
def rows (p : PartLayout) : Nat := (List.range 5).foldl (fun a k => a * p.size (k + 1)) 1
/-- Stored row width. -/
def width (p : PartLayout) : Nat := if p.fmt.isMx then alignUp (p.size 0) 32 else p.size 0
/-- Offset of the row maxima. -/
def rowMaxAt (p : PartLayout) : Nat := p.at_ + 0x100
/-- Offset of the feature maxima. -/
def featMaxAt (p : PartLayout) : Nat := p.rowMaxAt + alignUp (2 * p.rows) 256
/-- Offset of the scales, or of the data where there are none. -/
def scalesAt (p : PartLayout) : Nat := p.featMaxAt + alignUp (2 * p.size 0) 256
/-- Offset of the data. -/
def dataAt (p : PartLayout) : Nat := p.scalesAt + (if p.fmt.isMx then alignUp (p.rows * p.width / 32) 256 else 0)
/-- Offset past the part. -/
def last (p : PartLayout) : Nat := p.dataAt + alignUp (p.fmt.packed (p.rows * p.width)) 256

/-- The strides of the dense layout (R363). -/
def strides (p : PartLayout) : List Int :=
  (List.range p.rank).map (fun d =>
    if d = 0 then 1 else (((List.range (d - 1)).foldl (fun s k => s * p.size (k + 1)) p.width : Nat) : Int))

/-- The part of a source descriptor, at an offset (R363). -/
def ofDesc (t : Desc) (at_ : Nat) : PartLayout := { fmt := t.fmt, rank := t.rank, sizes := t.sizes.take t.rank, at_ }

end PartLayout

/-- The words of a tensor descriptor (07 R252). -/
def descWords (fmt : Fmt) (sizes : List Nat) (strides : List Int) (base : Nat) (hint : Bool) (scaleOff : Int) : List Nat :=
  let n := sizes.length
  [b2n hint * 2 ^ 55 + n * 2 ^ 52 + fmt.code * 2 ^ 48 + base % 2 ^ 48]
    ++ (List.range 6).map (fun k => (sizes[k]?).getD 0 % 2 ^ 22 * 2 ^ 40 + ux 40 ((strides[k]?).getD 0))
    ++ [ux 28 scaleOff]

namespace Hoard

/-- A frame by its push number. -/
def frame (h : Hoard) (id : Nat) : Option HoardFrame := h.frames.find? (fun f => f.id = id)
/-- A frame changed. -/
def onFrame (h : Hoard) (id : Nat) (g : HoardFrame → HoardFrame) : Hoard :=
  { h with frames := h.frames.map (fun f => if f.id = id then g f else f) }
/-- The stack of a slot, top first. -/
def stack (h : Hoard) (slot : Nat) : List HoardFrame := (h.frames.filter (fun f => f.slot = slot ∧ ¬ f.removed)).reverse
/-- A frame's resident copy. -/
def copy (h : Hoard) (id : Nat) : Option ResidentCopy := h.resident.find? (fun r => r.frame = id)
/-- A frame is pinned by an HD_FETCH or by a W entry, or its push is not complete. -/
def pinned (h : Hoard) (id : Nat) : Bool :=
  match h.frame id with
  | some f => f.fetched || f.wPins != 0 || decide (h.pushNo < id)
  | none => false
/-- The slot of a frame is turned. -/
def isTurned (h : Hoard) (id : Nat) : Bool :=
  match h.frame id with
  | some f => h.turned.contains f.slot
  | none => false
/-- A frame stands in the home ring (R377). -/
def clean (h : Hoard) (id : Nat) : Bool := match h.frame id with | some f => f.home | none => true

/-- home_alloc of R373: the place of a frame of a size in a ring, with the new head and tail. -/
def alloc (ring live head tail size : Nat) : Option (Nat × Nat × Nat) :=
  let (head, tail) := if live = 0 then (0, 0) else (head, tail)
  if live = 0 ∨ tail < head then
    if head + size ≤ ring then some (head, head + size, tail)
    else if size ≤ tail then some (0, size, tail)
    else none
  else if head + size ≤ tail then some (head, head + size, tail)
  else none

/-- reclaim of R373: the free frames at the ring's end give up their places. -/
def reclaim (h : Hoard) : Hoard :=
  let fs := h.frames.dropWhile HoardFrame.free
  { h with frames := fs, tail := match fs with | f :: _ => f.at_ | [] => h.tail }

/-- Frames that hold a place (R373). -/
def live (h : Hoard) : Nat := h.frames.length

/-- Removed frames leave the resident region once no pin remains (R371). -/
def dropCopies (h : Hoard) : Hoard :=
  { h with resident := h.resident.filter (fun r => match h.frame r.frame with
      | none => false
      | some f => !f.removed || h.pinned r.frame) }

/-- A slot's mark goes when its stack is empty (R372). -/
def unturn (h : Hoard) : Hoard := { h with turned := h.turned.filter (fun s => !(h.stack s).isEmpty) }

/-- Removal of a frame from its stack (R371, R374): its fetch pin goes, and it is reclaimable at once unless some WQ_PUSH
has referenced it. -/
def remove (h : Hoard) (id : Nat) : Hoard :=
  (h.onFrame id (fun f => { f with removed := true, fetched := false, free := !f.wRef })).dropCopies.unturn.reclaim

/-- What a WQ_FLUSH makes reclaimable (R374). -/
def reclaimFlushed (h : Hoard) : Hoard :=
  ({ h with frames := h.frames.map (fun (f : HoardFrame) => if f.removed then { f with free := true } else f) } : Hoard).reclaim

end Hoard

/-- What asks for resident space (R377). -/
inductive Asker where
  | push | prefetch | fetch
deriving DecidableEq, Repr

/-- The job's declaration for a core's Hoard (R362). -/
def Dev.hoardItem (d : Dev) (c : Nat) : HoardItem :=
  ((d.job (d.coreCtx c)).hoards.find? (fun h => h.core = c)).getD
    { core := c, task := 0, maxFrames := 0, resBase := 0, resBytes := 0, homeBase := 0, homeBytes := 0, directory := 0, wqArea := 0 }

namespace Run

/-- The Hoard of a core changed. -/
def hoard (c : Nat) (f : Hoard → Hoard) : Run Unit := upd (fun d => d.onCore c (fun k => { k with hoard := f k.hoard }))

/-- The Hoard of a core. -/
def theHoard (c : Nat) : Run Hoard := do
  let d ← dev
  pure (d.core c).hoard

/-- An illegal Hoard operation (R365, R394). -/
def hdBad (c : Bool) (u : UnitId) : Run Unit := do
  if c then do
    upd (fun d => d.raise F.HD_ERR_STATUS_illegal u.core)
    fault 0x09
  else pure ()

/-- An illegal W-queue operation (R382, R394). -/
def wqBad (c : Bool) (u : UnitId) : Run Unit := do
  if c then do
    upd (fun d => d.raise F.WQ_ERR_STATUS_illegal u.core)
    fault 0x09
  else pure ()

/-- Work in the Hoard's regions, whose pages the loader maps: a missing page there is fatal at once (R381). -/
def inRegion {α : Type} (x : Run α) : Run α := do
  match ← attempt x with
  | .ok a => pure a
  | .error (.page va _) => stop (.fatal 0x01 va 0 0 none)
  | .error s => stop s

/-- The virtual address of a frame's home copy, and of its resident copy. With H_home = 0 the home ring is the resident
region (R362). -/
def homeAt (i : HoardItem) (f : HoardFrame) : Nat := (if i.homeBytes = 0 then i.resBase else i.homeBase) + f.at_

/-- Where a frame's bytes stand: in the resident region, or in the home ring (R363, R369). -/
def frameAt (c : Nat) (f : HoardFrame) : Run Nat := do
  let d ← dev
  let i := d.hoardItem c
  match (d.core c).hoard.copy f.id with
  | some r => pure (i.resBase + r.at_)
  | none => pure (homeAt i f)

/-- A frame's bytes moved, with their poison (R391). -/
def moveFrame (u : UnitId) (src dst size : Nat) : Run Unit := inRegion do
  let bs ← vread u.req src size
  vwrite u.req dst bs

/-- A write-back: the frame's copy goes to the home ring (R378). -/
def writeBackFrame (u : UnitId) (f : HoardFrame) (r : ResidentCopy) : Run Unit := do
  let d ← dev
  let i := d.hoardItem u.core
  moveFrame u (i.resBase + r.at_) (homeAt i f) f.size
  hoard u.core (fun h => h.onFrame f.id (fun f => { f with home := true }))
  upd (fun d => d.bump F.HD_WB_BYTES_bytes u.core 0 f.size)

/-- Whether a copy may be evicted for a request (R377). -/
def mayEvict (h : Hoard) (a : Asker) (r : ResidentCopy) : Bool :=
  !h.pinned r.frame && (a == .fetch || !h.isTurned r.frame)

/-- Resident space for a frame (R377): copies are evicted from the oldest on, and written back first where the home ring
does not hold them, until the frame fits; none where a copy stands that may not go. -/
def residentSpace (u : UnitId) (a : Asker) (size : Nat) : Nat → Run (Option Nat)
  | 0 => pure none
  | n + 1 => do
    let d ← dev
    let i := d.hoardItem u.core
    let h := (d.core u.core).hoard
    let tail := (h.resident.head?.map ResidentCopy.at_).getD 0
    match (if i.resBytes < size then none else Hoard.alloc i.resBytes h.resident.length h.resHead tail size) with
    | some (at_, head, _) => do
      hoard u.core (fun h => { h with resHead := head })
      pure (some at_)
    | none =>
      match h.resident with
      | [] => pure none
      | r :: _ =>
        if i.resBytes < size || !mayEvict h a r then pure none
        else do
          match h.frame r.frame with
          | some f => if !f.home then writeBackFrame u f r
          | none => pure ()
          hoard u.core (fun h => { h with resident := h.resident.drop 1 })
          residentSpace u a size n

/-- A home-only frame copied into the resident region (R370, R379). -/
def copyIn (u : UnitId) (a : Asker) (f : HoardFrame) : Run Bool := do
  let h ← theHoard u.core
  match ← residentSpace u a f.size (h.resident.length + 1) with
  | none => pure false
  | some at_ => do
    let d ← dev
    let i := d.hoardItem u.core
    moveFrame u (homeAt i f) (i.resBase + at_) f.size
    hoard u.core (fun h => { h with resident := h.resident ++ [{ frame := f.id, at_, size := f.size, unread := a == .prefetch }] })
    upd (fun d => d.bump F.HD_PF_BYTES_bytes u.core 0 f.size)
    pure true

/-- The word of a Hoard or W-queue operation checked (R365): its slot. -/
def hdWord (bad : Bool → UnitId → Run Unit) (u : UnitId) (o : Op) (block : Bool) : Run Nat := do
  let slot := bits o.w0 13 8
  let d ← dev
  bad (bits o.w0 63 14 != 0 || (if block then bits o.w1 63 48 != 0 || o.w1 % 128 != 0
    else bits o.w1 63 32 != 0 || (u.opcode != 0x52 && o.w1 != 0)) || (u.opcode != 0x58 && u.opcode != 0x59 &&
    decide ((d.job u.ctx).seqSlots ≤ slot))) u
  pure slot

/-- Poison that the Hoard controller consumes (R391). -/
def hdConsume {α : Type} (u : UnitId) (x : Run α) : Run α := noting F.HD_ERR_STATUS_poison u.core x

/-- The directory is read at the start of every Hoard operation (R391). -/
def hdDirectory (u : UnitId) : Run Unit := hdConsume u (do
  let d ← dev
  faultIf d.env.hoardPoison 0x0B)

/-! ### HD_PUSH -/

/-- The parts of a push: descriptors and layouts, from offset 0x100 on (R363, R367). -/
def pushParts (u : UnitId) (o : Op) (p : List Byte) : Run (List (View × PartLayout)) := do
  let srcs := (List.range 4).map (fun k => field p (8 * k) 8)
  let n := (srcs.takeWhile (· ≠ 0)).length
  hdBad (n == 0 || (srcs.drop n).any (· ≠ 0)) u
  (List.range n).foldlM (fun (acc : List (View × PartLayout)) k => do
    let v ← hdConsume u (view u.req ((srcs[k]?).getD 0) false ((o.work[k + 1]?).getD 0))
    let at_ := match acc.getLast? with | some (_, q) => q.last | none => 0x100
    pure (acc ++ [(v, PartLayout.ofDesc v.desc at_)])) []

/-- Elements of a row of a part copied from column `j` on, bit for bit (R368); the columns copied and the stop. -/
def copyRow (u : UnitId) (v : View) (p : PartLayout) (base r j : Nat) : Run (Nat × Option Stop) := do
  let d ← dev
  let n := p.size 0
  let rq := { u.req with stream := v.desc.hint }
  let w := p.fmt.width
  let at_ := fun (i : Nat) => ({ device := d.deviceId, bit := 8 * ((base + p.dataAt : Nat) : Int) + (((r * p.width + i) * w : Nat) : Int), width := w } : Place)
  let scale := fun (b : Nat) => ({ device := d.deviceId, bit := 8 * ((base + p.scalesAt + r * (p.width / 32) + b : Nat) : Int), width := 8 } : Place)
  let heads := if p.fmt.isMx then (List.range (p.width / 32)).filter (fun b => j ≤ 32 * b) else []
  let (ss, s1) ← readElems rq (heads.map (fun b => (v.locateAt d.deviceId (v.cell r (32 * b))).map v.scaleAt))
  let (_, _) ← inRegion (writeElems u.req ((heads.take ss.length).map (fun b => some (scale b))) ss)
  if s1.isSome then pure (j, s1)
  else do
    let (es, s2) ← readElems rq (v.rowPlaces d.deviceId r j (n - j))
    let pad := if s2.isNone then List.replicate (p.width - n) ({} : Elem) else []
    let (_, s3) ← inRegion (writeElems u.req ((List.range (es.length + pad.length)).map (fun i => some (at_ (j + i)))) (es ++ pad))
    rethrow s3
    pure (j + es.length, s2)

/-- A copied row of a part, as it stands in the frame. -/
def frameRow (u : UnitId) (p : PartLayout) (base r : Nat) : Run (List Elem × List Elem) := do
  let w := p.fmt.width
  let lo := r * p.width * w
  let bs ← inRegion (vread u.req ((base + p.dataAt + lo / 8 : Nat) : Int) ((lo % 8 + p.size 0 * w + 7) / 8))
  let ss ← if p.fmt.isMx then inRegion (vread u.req ((base + p.scalesAt + r * (p.width / 32) : Nat) : Int) (p.width / 32)) else pure []
  pure (cutElems w (lo % 8) (p.size 0) bs, cutElems 8 0 ss.length ss)

/-- Sixteen-bit maxima written with their poison. -/
def putMaxima (u : UnitId) (va : Nat) (l : List Elem) : Run Unit :=
  vwrite u.req va (l.flatMap (fun e => (leBytes 2 e.code).map (fun b => { val := b, poison := e.poison })))

/-- Sixteen-bit maxima read. -/
def getMaxima (u : UnitId) (va n : Nat) : Run (List Elem) := do
  let bs ← vread u.req va (2 * n)
  pure ((List.range n).map (fun i =>
    let w := (bs.drop (2 * i)).take 2
    { code := leNat (w.map PByte.val), poison := w.any PByte.poison }))

/-- The larger of two coded maxima, with either's poison (R368, R391). -/
def maxElem (x y : Elem) : Elem :=
  { code := ((MaxExp.ofCode x.code).max (MaxExp.ofCode y.code)).code, poison := x.poison || y.poison }

/-- The maxima of a copied part: its rows' and its features' (R368). -/
def finishPart (u : UnitId) (p : PartLayout) (base rmax facc : Nat) : Run Unit := do
  let n := p.size 0
  let rows ← (List.range p.rows).mapM (fun r => frameRow u p base r)
  let elem := fun (row : List Elem × List Elem) (i : Nat) =>
    ({ code := (maxExpOf [rowValue p.fmt row.1 row.2 i]).code, poison := rowPoisoned p.fmt row.1 row.2 i } : Elem)
  let rowMax ← if rmax ≠ 0 then getMaxima u rmax p.rows
    else pure (rows.map (fun row => (List.range n).foldl (fun m i => maxElem m (elem row i)) { code := 0x8000 }))
  let feat := (List.range n).map (fun i => rows.foldl (fun m row => maxElem m (elem row i)) { code := 0x8000 })
  inRegion (putMaxima u (base + p.rowMaxAt) rowMax)
  inRegion (putMaxima u (base + p.featMaxAt) feat)
  let desc := descWords p.fmt p.sizes p.strides 0 false 0
  inRegion (putBytes u ((base + p.at_ : Nat) : Int) (wordBytes desc ++ List.replicate 192 0))
  if facc ≠ 0 then do
    let old ← getMaxima u facc n
    putMaxima u facc ((old.zip feat).map (fun (x, y) => maxElem x y))

/-- The place of a new frame (R373, R377): its number, or the HOARD_FULL fault of R375. -/
def pushFrame (u : UnitId) (o : Op) (slot tag size : Nat) : Run HoardFrame := do
  let d ← dev
  let c := u.core
  let i := d.hoardItem c
  let h := (d.core c).hoard
  let ring := if i.homeBytes = 0 then i.resBytes else i.homeBytes
  let full := fun (detail : Nat) => (do
    upd (fun d => d.raise F.HD_ERR_STATUS_hoard_full c)
    stop (.fatal 0x0D 0 0 detail none) : Run HoardFrame)
  if h.live = i.maxFrames then full 0
  else
    match Hoard.alloc ring h.live h.head h.tail size with
    | none => full (size / 256)
    | some (at_, head, tail) => do
      let f : HoardFrame := { id := h.pushNo + 1, at_, size, slot, tag, home := i.homeBytes = 0 }
      hoard c (fun h => { h with frames := h.frames ++ [f], head, tail })
      let peak := ((head : Int) - tail) % (ring : Int)
      upd (fun d => (d.setFld F.HD_PEAK_peak_span c 0 (max (d.fld F.HD_PEAK_peak_span c) peak.toNat)).setFld F.HD_PEAK_peak_live c 0
        (min 65535 (max (d.fld F.HD_PEAK_peak_live c) (h.live + 1))))
      if i.homeBytes ≠ 0 then do
        match ← residentSpace u .push size (h.resident.length + 1) with
        | some r => hoard c (fun h => { h with resident := h.resident ++ [{ frame := f.id, at_ := r, size }] })
        | none => do
          upd (fun d => d.raise F.HD_ERR_STATUS_bypass c)
          hoard c (fun h => h.onFrame f.id (fun f => { f with home := true }))
      held u o.id (fun o => { o with work := f.id :: o.work.drop 1 })
      pure f

/-- HD_PUSH (R367, R368, R375, R390). The frame is not on its stack until the push completes; the cursor is the part
number times 2^44 with the element in descriptor order. -/
def hdPush (u : UnitId) (o : Op) : Run Unit := do
  let slot ← hdWord hdBad u o true
  hdDirectory u
  let p ← hdConsume u (vsolid u.req (bits o.w1 47 0) 128)
  hdBad ((p.drop 0x64).any (fun b => b != 0)) u
  let parts ← pushParts u o p
  held u o.id (fun o => { o with work := (o.work.headD 0) :: parts.map (fun x => x.1.select) })
  let size := match parts.getLast? with | some (_, q) => q.last | none => 0x100
  hdBad (decide (2 ^ 30 < size)) u
  let h ← theHoard u.core
  let f ← match h.frame (o.work.headD 0) with
    | some f => pure f
    | none => pushFrame u o slot (field p 0x60 4) size
  let base ← frameAt u.core f
  parts.zipIdx.forM (fun ((v, q), k) => do
    let d ← dev
    let cur := ((d.heldOp u.core o.id).map Op.cursor).getD 0
    if k < cur / 2 ^ 44 then pure ()
    else do
      let n := q.size 0
      let done := if cur / 2 ^ 44 = k then cur % 2 ^ 44 else 0
      (List.range (q.rows - (if n = 0 then q.rows else done / n))).forM (fun i => do
        let r := done / n + i
        let j := if i = 0 then done % n else 0
        let (to_, e) ← copyRow u v q base r j
        held u o.id (fun o => { o with cursor := k * 2 ^ 44 + r * n + to_ })
        rethrow e)
      finishPart u q base (field p (0x20 + 8 * k) 8) (field p (0x40 + 8 * k) 8)
      held u o.id (fun o => { o with cursor := (k + 1) * 2 ^ 44 }))
  let bad ← parts.foldlM (fun (bad : Bool) x => do
    let bs ← inRegion (vread u.req ((base + x.2.scalesAt : Nat) : Int) (x.2.last - x.2.scalesAt))
    pure (bad || bs.any PByte.poison)) false
  let at_ := fun k => ((parts[k]?).map (fun x => x.2.at_ / 256)).getD 0
  let hdr := [0x6B01 * 2 ^ 48 + slot * 2 ^ 34 + (parts.length - 1) * 2 ^ 32 + field p 0x60 4, h.pushNo,
    b2n bad * 2 ^ 63 + size / 256, at_ 1 * 2 ^ 32 + at_ 0, at_ 3 * 2 ^ 32 + at_ 2]
  inRegion (putBytes u (base : Int) (wordBytes hdr ++ List.replicate 216 0))
  hoard u.core (fun h => { h with pushNo := h.pushNo + 1 })
  upd (fun d => d.bump F.HD_PUSH_CNT_frames u.core 0 1)

/-! ### HD_FETCH, HD_POP, HD_TURN and HD_DROP -/

/-- The parts of a frame from its header and part descriptors (R363, R364). -/
def frameParts (u : UnitId) (base : Nat) : Run (List PartLayout) := hdConsume u (inRegion (do
  let hd ← vsolid u.req (base : Int) 256
  (List.range (bits (field hd 0 8) 33 32 + 1)).mapM (fun k => do
    let off := 256 * field hd (24 + 4 * k) 4
    let ds ← vsolid u.req ((base + off : Nat) : Int) 64
    let w := leWords 8 ds
    let rank := bits ((w[0]?).getD 0) 54 52
    pure { fmt := Fmt.ofCode (bits ((w[0]?).getD 0) 51 48), rank
           sizes := (List.range rank).map (fun d => bits ((w[d + 1]?).getD 0) 61 40), at_ := off })))

/-- What HD_FETCH writes for a part (R369): its descriptor, and the addresses of its maxima and of the frame header. -/
def fetchedPart (base : Nat) (home transposed : Bool) (p : PartLayout) : List Nat × List Nat :=
  let off : Int := ((p.scalesAt : Int) - p.dataAt) / 256
  let sizes := if transposed then [p.rows, p.size 0] else p.sizes
  let strides : List Int := if transposed then [(p.width : Int), 1] else p.strides
  (descWords p.fmt sizes strides (base + p.dataAt) home (if p.fmt.isMx then off else 0),
   [base + p.rowMaxAt, base + p.featMaxAt, base, 0])

/-- HD_FETCH (R369, R370, R377). -/
def hdFetch (u : UnitId) (o : Op) : Run Unit := do
  let slot ← hdWord hdBad u o true
  hdDirectory u
  let p ← hdConsume u (vsolid u.req (bits o.w1 47 0) 128)
  let out := field p 0 8
  hdBad ((p.drop 0x11).any (fun b => b != 0) || decide (1 < field p 0x10 1) || decide (out % 64 ≠ 0)) u
  let h ← theHoard u.core
  match (h.stack slot)[field p 8 4]? with
  | none => hdBad true u
  | some f => do
    hdBad (f.tag ≠ field p 0xC 4) u
    let d ← dev
    let i := d.hoardItem u.core
    let resident ← if i.homeBytes = 0 ∨ (h.copy f.id).isSome then pure true else copyIn u .fetch f
    let base ← frameAt u.core f
    let parts ← frameParts u base
    let transposed := field p 0x10 1 == 1
    hdBad (transposed && parts.any (fun q => q.fmt.isMx || decide (q.rank ≠ 2))) u
    let made := parts.map (fetchedPart base (!resident) transposed)
    let part := fun (k : Nat) => (made[k]?).getD (List.replicate 8 0, List.replicate 4 0)
    putBytes u (out : Int) (wordBytes ((List.range 4).flatMap (fun k => (part k).1)))
    putBytes u ((out + 256 : Nat) : Int) (wordBytes ((List.range 4).flatMap (fun k => (part k).2)))
    if !resident then
      upd (fun d => (d.bump F.HD_HOME_FETCH_CNT_fetches u.core 0 1).raise F.HD_ERR_STATUS_bypass u.core)
    hoard u.core (fun h =>
      let h := h.onFrame f.id (fun f => { f with fetched := true })
      { h with resident := h.resident.map (fun r => if r.frame = f.id then { r with unread := false } else r) })

/-- HD_POP (R371). -/
def hdPop (u : UnitId) (o : Op) : Run Unit := do
  let slot ← hdWord hdBad u o false
  hdDirectory u
  let h ← theHoard u.core
  match h.stack slot with
  | [] => hdBad true u
  | f :: _ => do
    hdBad (f.tag ≠ bits o.w1 31 0) u
    hoard u.core (fun h => h.remove f.id)
    upd (fun d => d.bump F.HD_POP_CNT_frames u.core 0 1)

/-- HD_TURN (R372). -/
def hdTurn (u : UnitId) (o : Op) : Run Unit := do
  let slot ← hdWord hdBad u o false
  hdDirectory u
  hoard u.core (fun h => if h.turned.contains slot then h else ({ h with turned := h.turned ++ [slot] } : Hoard).unturn)

/-- HD_DROP (R371). -/
def hdDrop (u : UnitId) (o : Op) : Run Unit := do
  let slot ← hdWord hdBad u o false
  hdDirectory u
  let h ← theHoard u.core
  (h.stack slot).forM (fun f => do
    hoard u.core (fun h => h.remove f.id)
    upd (fun d => d.bump F.HD_POP_CNT_frames u.core 0 1))

/-! ### The W queue -/

/-- The words of the entry in issue sent on, from the first that is not issued; the rest wait where a list is full
(R384, R385). When all are sent the entry runs. -/
def wqIssue (u : UnitId) : Run Unit := do
  let h ← theHoard u.core
  match h.issuing with
  | none => pure ()
  | some e => do
    let d ← dev
    let task := d.fld F.WQ_CFG_task u.core
    ((List.range e.count).drop e.ids.length).forM (fun i => do
      let bs ← noting F.WQ_ERR_STATUS_poison u.core (vsolid u.req ((e.body + 16 * i : Nat) : Int) 16)
      let w0 := field bs 0 8
      let opcode := bits w0 7 0
      let list := if 0x10 ≤ opcode ∧ opcode < 0x20 then 8 else task
      wqBad ((decide (0x40 ≤ opcode) && decide (opcode < 0x60)) || !routable opcode list) u
      let id ← issueFor u e.by_ list w0 (field bs 8 8) (0, 0, 0)
      hoard u.core (fun h => { h with issuing := h.issuing.map (fun e => { e with ids := e.ids ++ [id] }) }))
    hoard u.core (fun h => { h with issuing := none, running := h.running ++ h.issuing.toList })

/-- The oldest queued entry put into issue (R384). -/
def wqNext (u : UnitId) (counter : Field) : Run Unit := do
  let h ← theHoard u.core
  match h.issuing, h.queue with
  | none, e :: es => do
    hoard u.core (fun h => { h with issuing := some e, queue := es })
    upd (fun d => d.bump counter u.core 0 1)
  | _, _ => pure ()

/-- The groups that the job's layer table lists (R382, 14 R521). -/
def layerGroups (u : UnitId) : Run (List Nat) := do
  let d ← dev
  let j := d.job u.ctx
  let bs ← vsolid u.req (j.layerTable : Int) (4 * j.layerCount)
  pure ((List.range j.layerCount).map (fun i => field bs (4 * i) 4))

/-- WQ_PUSH (R382, R383). -/
def wqPush (u : UnitId) (o : Op) : Run Unit := do
  let _ ← hdWord wqBad u o true
  let d ← dev
  noting F.WQ_ERR_STATUS_poison u.core (faultIf d.env.hoardPoison 0x0B)
  let p ← noting F.WQ_ERR_STATUS_poison u.core (vsolid u.req (bits o.w1 47 0) 128)
  let count := field p 8 1
  let refs := field p 9 1
  let body := field p 0 8
  let group := field p 0xC 4
  let h ← theHoard u.core
  let rf := (List.range refs).map (fun k => field p (0x10 + 4 * k) 4)
  let groups ← layerGroups u
  wqBad ((p.drop 0x20).any (fun b => b != 0) || field p 0xA 2 != 0 || body % 256 != 0 || count == 0 || decide (32 < count)
    || decide (2 < refs) || rf.any (fun r => bits r 15 6 != 0 || ((h.stack (bits r 5 0))[bits r 31 16]?).isNone)
    || group == 0xFFFFFFFF || !groups.contains group) u
  let frames := rf.filterMap (fun r => ((h.stack (bits r 5 0))[bits r 31 16]?).map HoardFrame.id)
  let e0 ← noting F.WQ_ERR_STATUS_poison u.core (vsolid u.req ((d.env.groupTable + 192 * group : Nat) : Int) 8)
  if bit (leNat e0) 4 then upd (fun d => d.bump F.WQ_FROZEN_CNT_pushes u.core 0 1)
  else do
    if 256 ≤ h.queue.length then do
      wqIssue u
      wqNext u F.WQ_FULL_CNT_entries
      upd (fun d => d.raise F.WQ_ERR_STATUS_full u.core)
      wqIssue u
    let d ← dev
    waitIf (256 ≤ (d.core u.core).hoard.queue.length)
    let e : WEntry := { body, count, frames, group, bucket := field p 0x18 4, bytes := field p 0x1C 4, by_ := o }
    hoard u.core (fun h =>
      let h := frames.foldl (fun (h : Hoard) id => h.onFrame id (fun f => { f with wRef := true, wPins := f.wPins + 1 })) h
      { h with queue := h.queue ++ [e] })
    upd (fun d => d.bump F.WQ_PUSH_CNT_entries u.core 0 1)

/-- Every queued entry issued in order. -/
def wqIssueAll (u : UnitId) : Nat → Run Unit
  | 0 => pure ()
  | n + 1 => do
    wqIssue u
    wqNext u F.WQ_FLUSH_CNT_entries
    wqIssue u
    wqIssueAll u n

/-- WQ_FLUSH (R386): it completes when every entry has, with the reclaims of R374. -/
def wqFlush (u : UnitId) (o : Op) : Run Unit := do
  let _ ← hdWord wqBad u o false
  let h ← theHoard u.core
  wqIssueAll u (h.queue.length + 1)
  let h ← theHoard u.core
  waitIf (!h.queue.isEmpty || h.issuing.isSome || !h.running.isEmpty)
  hoard u.core Hoard.reclaimFlushed

end Run

namespace Dev

/-- The Hoard controller takes an operation when it runs none and an active place is free (R366). -/
def hoardFree (d : Dev) (c : Nat) : Bool :=
  !(d.core c).held.any (fun o => decide (0x50 ≤ o.opcode) && decide (o.opcode < 0x60)) && decide (d.activePlaces c < 32)

/-- The unit that moves the Hoard's data and issues W entries on its own. -/
def hoardUnit (d : Dev) (c : Nat) (by_ : Op := {}) : UnitId :=
  { engine := 0x20 + c, core := c, ctx := d.coreCtx c, opcode := by_.opcode, opId := by_.id, pc := by_.pc }

/-- Work of the Hoard controller outside any operation: a stop of it is recorded, a page fault holds the W queue's
issue. -/
def runHoard (d : Dev) (c : Nat) (u : UnitId) (work : Run Unit) : Dev :=
  if !d.coreRuns c then d
  else
    match work d with
    | (.ok (), d) => d
    | (.error (.page va dev), d) =>
      (d.onCore c (fun k => { k with hoard := { k.hoard with stopped := some va } })).stopped u 0 (.page va dev)
    | (.error s, d) => d.stopped u 0 s

/-- HOARD_WRITE_BACK (R378). -/
def hoardWriteBack (d : Dev) (c : Nat) : Dev :=
  let i := d.hoardItem c
  let h := (d.core c).hoard
  let used := h.resident.foldl (fun n r => n + r.size) 0
  let cleanBytes := (h.resident.filter (fun r => h.clean r.frame && Run.mayEvict h .push r)).foldl (fun n r => n + r.size) 0
  if i.homeBytes = 0 ∨ d.fld F.HD_CTRL_wb_ahead c * 2 ^ 21 ≤ i.resBytes - used + cleanBytes then d
  else
    match h.resident.find? (fun r => !h.pinned r.frame && !h.clean r.frame) with
    | none => d
    | some r =>
      match h.frame r.frame with
      | none => d
      | some f => d.runHoard c (d.hoardUnit c) (Run.writeBackFrame (d.hoardUnit c) f r)

/-- HOARD_PREFETCH (R379). -/
def hoardPrefetch (d : Dev) (c : Nat) : Dev :=
  let i := d.hoardItem c
  let h := (d.core c).hoard
  let ahead := (h.resident.filter ResidentCopy.unread).foldl (fun n r => n + r.size) 0
  match h.turned.findSome? (fun s => (h.stack s).find? (fun f => (h.copy f.id).isNone && decide (f.id ≤ h.pushNo))) with
  | none => d
  | some f =>
    if !d.isSet F.HD_CTRL_pf_en c || i.homeBytes == 0 || decide (d.fld F.HD_CTRL_pf_window c * 2 ^ 21 < ahead + f.size) then d
    else d.runHoard c (d.hoardUnit c) (do let _ ← Run.copyIn (d.hoardUnit c) .prefetch f; pure ())

/-- W_BUBBLE_ISSUE (R384): the command says that the idle cycles have passed. An entry whose words are not all sent goes
on first. -/
def bubbleIssue (d : Dev) (c : Nat) (busy : Bool) : Dev :=
  let h := (d.core c).hoard
  if h.stopped.isSome then d
  else
    match h.issuing with
    | some e => d.runHoard c (d.hoardUnit c e.by_) (Run.wqIssue (d.hoardUnit c e.by_))
    | none =>
      match h.queue with
      | [] => d
      | e :: _ =>
        if busy || !d.isSet F.WQ_CTRL_drain_en c || !(d.tasks c (d.fld F.WQ_CFG_task c)).isEmpty then d
        else d.runHoard c (d.hoardUnit c e.by_) (do
          Run.wqNext (d.hoardUnit c e.by_) F.WQ_BUBBLE_CNT_entries
          Run.wqIssue (d.hoardUnit c e.by_))

/-- WQ_ENTRY_COMPLETE (R385): the oldest issued entry whose operations have all completed gives up its pins; its bucket
and bytes are handed on. -/
def entryComplete (d : Dev) (c : Nat) : Option (Nat × Nat) × Dev :=
  let h := (d.core c).hoard
  match h.running.find? (fun e => e.ids.all (fun id => !d.outstanding c id)) with
  | none => (none, d)
  | some e =>
    let h' := e.frames.foldl (fun (h : Hoard) id => h.onFrame id (fun f => { f with wPins := f.wPins - 1 })) h
    (some (e.bucket, e.bytes), d.onCore c (fun k => { k with hoard := ({ h' with running := h.running.erase e } : Hoard).dropCopies }))

/-- HD_STATUS (R394). -/
def hdStatus (d : Dev) (c : Nat) : Nat :=
  let op := (d.core c).held.find? (fun o => decide (0x50 ≤ o.opcode) && decide (o.opcode < 0x58))
  (d.core c).hoard.live % 2 ^ 17 * 2 ^ 16 + b2n ((op.map (fun o => o.stopped.isSome)).getD false) * 2 + b2n op.isSome

/-- WQ_STATUS (R394). -/
def wqStatus (d : Dev) (c : Nat) : Nat :=
  let k := d.core c
  k.hoard.queue.length * 2 ^ 16 + b2n (k.held.any (fun o => o.opcode == 0x59)) * 2 + b2n k.hoard.issuing.isSome

end Dev

end Sys2Proof.Machine
end

