-- ==== Sys2Proof/Machine/Power.lean ====
section
/-!
DEFINITION. Power, temperature and their throttles (16_power_thermal_and_measurement.md R560-R581).
-/

namespace Sys2Proof.Machine

/-- What a window of 4 µs counted (R560, R561, R581): classes 0 to 2 by core, classes 3 to 6 of the whole device, and the
request bytes of each context that passed the switch ports. -/
structure Window where
  cores : List (Nat × Nat × Nat) := []
  shared : List Nat := []
  bytes : List (Nat × Nat) := []
deriving DecidableEq, Repr

namespace Dev

/-! ### Limits (R564-R570) -/

/-- The lowest frequency step (R587): values below 0x10 act as 0x10, and no step lies above 44. -/
def fMin (d : Dev) : Nat := min 44 (max 0x10 (d.fld F.PWR_LOOP_CFG_f_min))

/-- The highest duty level (R587). -/
def dutyMax (d : Dev) : Nat := d.fld F.PWR_LOOP_CFG_duty_max

/-- The cap in watts (R563, R587). -/
def capWatts (d : Dev) : Nat := 10 * min 0x140 (max 0x50 (d.fld F.PWR_CAP_cap))

/-- The loop's step and duty (R565, R587). -/
def loopStep (d : Dev) : Nat := min 44 (max d.fMin (d.fld F.PWR_FREQ_step))
/-- See `loopStep`. -/
def loopDuty (d : Dev) : Nat := min d.dutyMax (d.fld F.PWR_FREQ_duty)

/-- The step and duty that each active reason allows (R570); droop and DDR_HOT hold neither down. -/
def reasonLimits (d : Dev) : List (Nat × Nat × Nat) :=
  let p := d.power
  (if d.loopStep < 44 ∨ 0 < d.loopDuty then [(p.loopReason.getD 1, d.loopStep, d.loopDuty)] else []) ++
    (if p.thermal < 44 then [(3, max d.fMin p.thermal, 0)] else []) ++
    (if d.pins.prochotLow then [(4, d.fMin, d.dutyMax)] else []) ++
    (if p.stretched ≠ [] then [(5, 44, 0)] else []) ++
    (if p.ddrHot ≠ [] then [(6, 44, 0)] else []) ++
    (if p.forced then [(7, d.fMin, d.dutyMax)] else [])

/-- The effective step and duty (R566, R567). -/
def effStep (d : Dev) : Nat := d.reasonLimits.foldl (fun a x => min a x.2.1) 44
/-- See `effStep`. -/
def effDuty (d : Dev) : Nat := d.reasonLimits.foldl (fun a x => max a x.2.2) 0

/-- The binding reason (R570): the lowest step, then the highest duty, then the lower code; 0 when none is active. -/
def bindingReason (d : Dev) : Nat :=
  match d.reasonLimits with
  | [] => 0
  | x :: xs => (xs.foldl (fun (b : Nat × Nat × Nat) y =>
      if y.2.1 < b.2.1 ∨ (y.2.1 = b.2.1 ∧ (b.2.2 < y.2.2 ∨ (y.2.2 = b.2.2 ∧ y.1 < b.1))) then y else b) x).1

/-- PWR_STATUS with the current estimate it holds (R587). -/
def pwrStatus (d : Dev) : Nat :=
  d.fld F.PWR_STATUS_i_est * 2 ^ 48 + d.reasonLimits.foldl (fun a x => a ||| 2 ^ x.1) 0 * 2 ^ 32 + d.bindingReason * 2 ^ 28
    + d.effDuty * 2 ^ 8 + d.effStep

/-- PWR_THR_NS(r) with the time since it was last brought up to date (R571). -/
def throttleNs (d : Dev) (r : Nat) : Nat :=
  satAdd 64 (d.rd .PWR_THR_NS 0 (r - 1)) (if d.power.active.any (fun a => a.1 = r) then d.now - d.power.countedAt else 0)

/-- The leaf that a reason sets as it becomes active (R587). -/
def reasonLeaf (d : Dev) (r : Nat) : Dev :=
  match r with
  | 1 => d.raise F.PWR_ERR_STATUS_cap_throttle
  | 2 => d.raise F.PWR_ERR_STATUS_icc_limit
  | 3 => d.raise F.PWR_ERR_STATUS_thermal_throttle
  | 6 => d.raise F.TEL_ERR_STATUS_ddr_hot
  | _ => d

/-- THROTTLE (R572): for an episode that lasted at least thr_event_min, at most 10 a second for each reason. -/
def throttleEvent (d : Dev) (r : Nat) (e : Episode) : Dev :=
  let us := (d.now - e.since) / 1000
  let sent := (Sp.get (fun _ => []) d.power.events r).filter (fun t => d.now < t + 1000000000)
  if us < d.fld F.PWR_CTRL_thr_event_min ∨ 10 ≤ sent.length then d
  else
    let d := { d with power := { d.power with events := Sp.set (fun _ => []) d.power.events r (sent ++ [d.now]) } }
    d.deviceEvent 0x8009 (leBytes 1 r ++ leBytes 4 (min us (2 ^ 32 - 1)) ++ leBytes 1 e.step ++ leBytes 1 e.duty)

/-- The reasons brought up to date after a limit may have changed (R571, R572): nanoseconds are added, episodes begin and
end, and the running ones note the lowest step and the highest duty. -/
def syncReasons (d : Dev) : Dev :=
  let was := d.power.active
  let now := d.reasonLimits.map Prod.fst
  let d := was.foldl (fun d a => d.bump F.PWR_THR_NS_ns 0 (a.1 - 1) (d.now - d.power.countedAt)) d
  let kept := (was.filter (fun a => now.contains a.1)).map (fun a =>
    (a.1, { a.2 with step := min a.2.step d.effStep, duty := max a.2.duty d.effDuty }))
  let new := (now.filter (fun r => !was.any (fun a => a.1 = r))).map (fun r =>
    (r, ({ since := d.now, step := d.effStep, duty := d.effDuty } : Episode)))
  let d := { d with power := { d.power with active := kept ++ new, countedAt := d.now } }
  let d := new.foldl (fun d a => (d.bump F.PWR_THR_CNT_episodes 0 (a.1 - 1) 1).reasonLeaf a.1) d
  (was.filter (fun a => !now.contains a.1)).foldl (fun d a => d.throttleEvent a.1 a.2) d

/-! ### The estimator (R560-R562) -/

/-- A junction sensor's reading in 1/16 °C, when it has one and is not failed (R575). -/
def junction (d : Dev) (s : Nat) : Option Int :=
  if d.isSet F.TEL_SENSOR_valid 0 s && !d.isSet F.TEL_SENSOR_failed 0 s then some (sx 16 (d.fld F.TEL_SENSOR_temp 0 s)) else none

/-- The mean of the valid junction sensors in °C; with none valid it is not stated (log entry 32). -/
def meanTemp (d : Dev) : Rat × Dev :=
  let ts := (List.range 98).filterMap d.junction
  if ts = [] then
    let (v, d) := d.draw 16
    (((sx 16 v : Int) : Rat) / 16, d)
  else (((ts.foldl (· + ·) 0 : Int) : Rat) / (16 * (ts.length : Int)), d)

/-- P_leak in watts: linear between the points of PWR_LEAK, clamped at the ends (R562). -/
def leak (d : Dev) (t : Rat) : Rat :=
  let pt := fun (k : Nat) => (((d.fld F.PWR_LEAK_temp 0 k : Nat) : Rat), ((d.fld F.PWR_LEAK_watts 0 k : Nat) : Rat))
  if t ≤ (pt 0).1 then (pt 0).2
  else if (pt 7).1 ≤ t then (pt 7).2
  else
    match (List.range 7).find? (fun k => decide ((pt k).1 ≤ t ∧ t < (pt (k + 1)).1)) with
    | some k =>
      let (t0, w0) := pt k
      let (t1, w1) := pt (k + 1)
      w0 + (w1 - w0) * (t - t0) / (t1 - t0)
    | none => (pt 7).2

/-- The energy of a class in a window, in pJ. -/
def classPj (d : Dev) (i n : Nat) : Nat := d.fld F.PWR_W_pj 0 i * n

/-- The energy of classes 0 to 2 of one core's islands, in pJ. -/
def corePj (d : Dev) (x : Nat × Nat × Nat) : Nat := d.classPj 0 x.1 + d.classPj 1 x.2.1 + d.classPj 2 x.2.2

/-- The energy of classes 3 to 6, in pJ. -/
def sharedPj (d : Dev) (l : List Nat) : Nat := (l.take 4).zipIdx.foldl (fun a (n, i) => a + d.classPj (3 + i) n) 0

/-- The estimates of a window in W and A (R560), with the leakage at the present temperature. -/
def estimate (d : Dev) (w : Window) : (Rat × Rat) × Dev :=
  let (t, d) := d.meanTemp
  let cores := (w.cores.take 4).foldl (fun a x => a + d.corePj x) 0
  let lk := d.leak t
  let watts := fun (pj : Nat) => ((pj : Nat) : Rat) / 4000000
  let all := cores + d.sharedPj w.shared
  let core := cores + d.sharedPj (w.shared.take 2)
  ((watts all + ((d.fld F.PWR_FIXED_watts : Nat) : Rat) + lk, (watts core + 44 / 100 * lk) / (3 / 4)), d)

/-! ### The cap loop (R565) -/

/-- The loop's step and duty after `n` steps down, and the steps that found no room. -/
def stepDown (fmin dmax : Nat) : Nat → Nat → Nat → Nat × Nat × Nat
  | 0, s, q => (s, q, 0)
  | n + 1, s, q =>
    if fmin < s then stepDown fmin dmax n (s - 1) q
    else if q < dmax then stepDown fmin dmax n s (q + 1)
    else (s, q, n + 1)

/-- PWR_FREQ written (R565, R567, R587): the watchdog restarts and its limit ends. -/
def writeFreq (d : Dev) (step duty : Nat) : Dev :=
  let d := d.wr .PWR_FREQ 0 0 (min d.dutyMax duty * 2 ^ 8 + min 44 (max d.fMin step))
  ({ d with power := { d.power with freqAt := d.now, forced := false } }).syncReasons

/-- A decision (R565): step and duty, the reason of a throttling, and whether the limits were reached. -/
def capDecision (d : Dev) (p i : Rat) : Nat × Nat × Option Nat × Bool :=
  let cap : Rat := ((d.capWatts : Nat) : Rat)
  let icc : Rat := ((d.fld F.PWR_LOOP_CFG_icc_max : Nat) : Rat)
  let hyst : Rat := ((d.fld F.PWR_LOOP_CFG_hyst : Nat) : Rat)
  let overP := p - cap
  let overI := (i - icc) * (3 / 4)
  let e := if overI ≤ overP then overP else overI
  if 0 < e then
    let n := (e / ((max 1 (d.fld F.PWR_LOOP_CFG_step_w) : Nat) : Rat)).ceil.toNat
    let (s, q, left) := stepDown d.fMin d.dutyMax n d.loopStep d.loopDuty
    (s, q, some (if overI ≤ overP then 1 else 2), decide (0 < left))
  else if p < cap - hyst ∧ i < icc - hyst / (3 / 4) then
    if 0 < d.loopDuty then (d.loopStep, d.loopDuty - 1, none, false) else (min 44 (d.loopStep + 1), 0, none, false)
  else (d.loopStep, d.loopDuty, none, false)

/-- A die whose sensors have all failed is at t_hot (R575): the first sensor and the number of each die. -/
def sensorDies : List (Nat × Nat) :=
  ((List.range 8).map (fun a => (4 * a, 4))) ++ ((List.range 8).map (fun k => (32 + 2 * k, 2))) ++
    ((List.range 46).map (fun k => (48 + k, 1))) ++ [(94, 2), (96, 2)]

/-- t_hot in 1/16 °C (R587). -/
def tHot (d : Dev) : Int := 16 * (min 105 (d.fld F.TEL_THERM_CFG_t_hot) : Nat)

/-- The temperatures that the thermal limit looks at. -/
def thermalReadings (d : Dev) : List Int :=
  (List.range 98).filterMap d.junction ++
    sensorDies.filterMap (fun x =>
      if (List.range x.2).all (fun k => d.isSet F.TEL_SENSOR_failed 0 (x.1 + k)) then some d.tHot else none)

/-- The thermal limit after a decision (R576). -/
def thermalStep (d : Dev) : Nat :=
  let ts := d.thermalReadings
  let t := d.power.thermal
  if ts.any (fun x => decide (d.tHot < x)) then max d.fMin (t - 1)
  else if ts.all (fun x => decide (x ≤ d.tHot - 48)) then min 44 (t + 1)
  else t

/-- One decision of control processor 1 at a window's end (R565, R576): not in a window in which the settings changed. -/
def decision (d : Dev) (window : Nat) (p i : Rat) : Dev :=
  if d.power.changedIn = some window then d.writeFreq d.loopStep d.loopDuty
  else
    let (s, q, why, miss) := d.capDecision p i
    let t := d.thermalStep
    let changed := decide (s ≠ d.loopStep) || decide (q ≠ d.loopDuty) || decide (t ≠ d.power.thermal)
    let d := d.raiseIf miss F.PWR_ERR_STATUS_cap_miss
    let d := { d with power := { d.power with
      thermal := t, loopReason := why.or d.power.loopReason, changedIn := if changed then some (window + 1) else d.power.changedIn } }
    d.writeFreq s q

/-! ### Energy (R581) -/

/-- Energy in nanojoules added to a counter of microjoules, its remainder kept: `k` is a context, or 16 for the total. -/
def addEnergy (d : Dev) (k nj : Nat) : Dev :=
  let all := Sp.get (fun _ => 0) d.power.rest k + nj
  let d := { d with power := { d.power with rest := Sp.set (fun _ => 0) d.power.rest k (all % 1000) } }
  if k = 16 then d.bump F.PWR_ENERGY_TOTAL_uj 0 0 (all / 1000) else d.bump F.PWR_ENERGY_uj 0 k (all / 1000)

/-- A window's energy divided among the contexts (R581). -/
def shareEnergy (d : Dev) (w : Window) (e : Nat) : Dev :=
  let own := (List.range 4).map (fun c => ((d.runsOn c).getD 0, d.corePj ((w.cores[c]?).getD (0, 0, 0)) / 1000))
  let total := w.bytes.foldl (fun a x => a + x.2) 0
  let shared := d.sharedPj w.shared / 1000
  let shares : List (Nat × Nat) := if total = 0 then [] else w.bytes.map (fun x => (x.1 % 16, shared * x.2 / total))
  let parts : List (Nat × Nat) := (own ++ shares).filter (fun x => x.1 ≠ 0)
  let given := parts.foldl (fun a x => a + x.2) 0
  (parts.foldl (fun d x => d.addEnergy x.1 x.2) d).addEnergy 0 (e - given)

/-- POWER_WINDOW_END (R560): the estimate, the energy and, while Prois runs, the decision. -/
def windowEnd (d : Dev) (w : Window) : Dev :=
  let n := d.now / 4000 - 1
  let ((p, i), d) := d.estimate w
  let d := d.wr .PWR_EST 0 0 (n % 2 ^ 32 * 2 ^ 32 + (p * 1000).floor.toNat % 2 ^ 32)
  let d := d.setFld F.PWR_STATUS_i_est 0 0 (min 65535 i.floor.toNat)
  let e := (p * 4000).floor.toNat
  let d := d.addEnergy 16 e
  let d := if d.isSet F.PWR_CTRL_attr_en then d.shareEnergy w e else d
  if d.boot.runs = .prois then d.decision n p i else d.syncReasons

/-! ### Watchdog, PROCHOT_N and droop -/

/-- Some compute island is ungated: an array whose groups run, or a core with a context. -/
def ungated (d : Dev) : Bool :=
  (List.range 8).any (fun a => decide (0 < (d.array a).groups)) || (List.range 4).any (fun c => (d.runsOn c).isSome)

/-- LOOP_WATCHDOG (R567). -/
def loopWatchdog (d : Dev) : Dev :=
  if d.isSet F.PWR_CTRL_wd_en && d.ungated && decide (d.power.freqAt + 100000 ≤ d.now) && !d.power.forced then
    (({ d with power := { d.power with forced := true } }).raise F.PWR_ERR_STATUS_loop_wd).syncReasons
  else d

/-- PROCHOT_ASSERT (R577, 20 R659). -/
def prochotAssert (d : Dev) : Dev :=
  (({ d with pins := { d.pins with prochotLow := true } }).raise F.PWR_ERR_STATUS_prochot).syncReasons

/-- PROCHOT_RELEASE (R577). -/
def prochotRelease (d : Dev) : Dev := ({ d with pins := { d.pins with prochotLow := false } }).syncReasons

/-- DROOP_EVENT (R573): an island's clock is stretched. -/
def droopEvent (d : Dev) (island : Nat) : Dev :=
  if d.power.stretched.contains island then d
  else
    let d := { d with power := { d.power with stretched := d.power.stretched ++ [island] } }
    ((d.bump F.PWR_DROOP_CNT_events 0 0 1).raise F.PWR_ERR_STATUS_droop).syncReasons

/-- DROOP_END (R573). -/
def droopEnd (d : Dev) (island : Nat) : Dev :=
  ({ d with power := { d.power with stretched := d.power.stretched.filter (fun x => x ≠ island) } }).syncReasons

/-! ### Temperature (R575-R580) -/

/-- THERMAL (R580). -/
def thermalEvent (d : Dev) (s temp kind : Nat) : Dev := d.deviceEvent 0x800A (leBytes 1 s ++ leBytes 2 temp ++ leBytes 1 kind)

/-- A sensor's reading stored, or its failure (R575). -/
def storeReading (d : Dev) (s : Nat) (r : Option Int) : Dev :=
  match r with
  | some t => d.wr .TEL_SENSOR 0 s (2 ^ 16 + ux 16 t)
  | none =>
    let new := !d.isSet F.TEL_SENSOR_failed 0 s
    let d := (d.raise F.TEL_SENSOR_failed 0 s).raise F.TEL_ERR_STATUS_sensor_fail
    if new then d.thermalEvent s (d.fld F.TEL_SENSOR_temp 0 s) 4 else d

/-- One threshold of a junction sensor: whether it stands above it, and the events of its crossings (R576). -/
def crossing (d : Dev) (s : Nat) (t limit : Int) (above : Bool) (kind : Nat) (leaf : Field) : Bool × Dev :=
  if !above && decide (limit < t) then (true, (d.raise leaf).thermalEvent s (ux 16 t) kind)
  else if above && decide (t ≤ limit - 48) then (false, d.thermalEvent s (ux 16 t) 3)
  else (above, d)

/-- One junction sensor's sample. -/
def sampleJunction (d : Dev) (s : Nat) (r : Option Int) : Dev :=
  let first := (List.range 98).all (fun k => (d.junction k).isNone) && d.rd .TEL_MAX = 0
  let d := d.storeReading s r
  match r with
  | none => d
  | some t =>
    let d := if first || decide (sx 16 (d.fld F.TEL_MAX_temp) < t) then d.wr .TEL_MAX 0 0 (s * 2 ^ 16 + ux 16 t) else d
    let (w, d) := d.crossing s t (16 * (d.fld F.TEL_THERM_CFG_t_warn : Nat)) (d.power.warm.contains s) 0 F.TEL_ERR_STATUS_thermal_warn
    let (h, d) := d.crossing s t d.tHot (d.power.hot.contains s) 1 F.TEL_ERR_STATUS_thermal_hot
    let put := fun (l : List Nat) (b : Bool) => l.filter (fun x => x ≠ s) ++ (if b then [s] else [])
    { d with power := { d.power with warm := put d.power.warm w, hot := put d.power.hot h } }

/-- A sensor's own comparator (R578), which works with RESET_N low as well (20 R660). -/
def compareTrip (d : Dev) (s : Nat) (r : Option Int) : Dev :=
  let hot := match r with | some t => decide (16 * 115 ≤ t) | none => false
  { d with power := { d.power with
    trip := d.power.trip.filter (fun x => x ≠ s) ++ (if hot then [s] else [])
    tripDue := d.power.tripDue || (hot && d.power.trip.contains s) } }

/-- THERMAL_SAMPLE (R575, R576): the readings of the 98 junction sensors, none where one returns no reading. While RESET_N is
low, the comparators alone work. -/
def thermalSample (d : Dev) (rs : List (Option Int)) : Dev :=
  let l := (rs.take 98).zipIdx
  let d := if d.pins.power then l.foldl (fun d (r, s) => d.compareTrip s r) d else d
  if d.awake then (l.foldl (fun d (r, s) => d.sampleJunction s r) d).syncReasons else d

/-- THERMTRIP (R578, 20 R660): the compute clocks stop until the supplies are removed. -/
def thermtrip (d : Dev) : Dev := if d.pins.power && d.power.tripDue then { d with pins := { d.pins with tripped := true } } else d

/-- One module sensor's reading (R579, 06 R235). -/
def sampleModule (d : Dev) (n : Nat) (r : Option Int) : Dev :=
  let d := d.storeReading (98 + n) r
  match r with
  | none => d
  | some t =>
    let (h, d) := d.crossing (98 + n) t (16 * (d.fld F.TEL_THERM_CFG_ddr_hot : Nat)) (d.power.ddrHot.contains n) 2 F.TEL_ERR_STATUS_ddr_hot
    let put := fun (l : List Nat) (b : Bool) => l.filter (fun x => x ≠ n) ++ (if b then [n] else [])
    { d with power := { d.power with ddrHot := put d.power.ddrHot h, refresh2 := put d.power.refresh2 (decide (16 * 85 < t)) } }

/-- DDR_SENSOR_READ (R575, R579): the readings of the 32 module sensors. -/
def ddrSensors (d : Dev) (rs : List (Option Int)) : Dev :=
  ((rs.take 32).zipIdx.foldl (fun d (r, n) => d.sampleModule n r) d).syncReasons

end Dev

end Sys2Proof.Machine
end

