-- ==== Sys2Proof/Machine/Requests.lean ====
section
/-!
DEFINITION. Requests as their targets serve them: at the memory levels (06_memory_hierarchy.md R198, R208-R211), through the
husk (18_hang_detection_reset_and_recovery.md R621-R623), and from other devices and hosts (08 R293, 13 R477-R489).
-/

namespace Sys2Proof.Machine

namespace Dev

/-- Whether the husk refuses a request (18 R621): from a target's fence on, every request but those whose last flit it took
before. `accepted` says of a request that its target had. -/
def fenced (d : Dev) (accepted : Bool) : Bool :=
  match d.reset with
  | none => false
  | some r => !accepted || r.drained

/-- A FENCED answer counted (18 R623). -/
def countFenced (d : Dev) : Dev := d.bump F.RST_FENCED_CNT_requests 0 0 1

/-- Whether an address belongs to the compute side (18 R619): the memory levels. Register space answers for itself. -/
def onComputeSide (d : Dev) (a : Nat) : Bool :=
  match d.home a with
  | .ddr | .shared _ | .coreMem _ => true
  | _ => false

/-- The R29 code that a request to a range of this device meets before its data (R36, R39, 01 R34, 18 R621). Register space
is not reached this way. -/
def requestCode (d : Dev) (rq : Req) (pa len : Nat) (accepted : Bool) : Nat × Option Nat :=
  let last := d.accessCode rq (pa + (len - 1))
  match d.accessCode rq pa with
  | (0, _) => if last.1 ≠ 0 then last else if d.fenced accepted then (1, none) else (0, none)
  | r => r

/-- An answer without data noted: the fabric's error leaves, or the husk's count. -/
def noteCode (d : Dev) (rq : Req) (pa code : Nat) (link : Option Nat) : Dev :=
  if code = 1 then d.countFenced else d.fabError rq (d.deviceId * 2 ^ 48 + pa) code link

/-- A read of a range of this device (R198, R29): its code and data. -/
def serveRead (d : Dev) (rq : Req) (pa len : Nat) (accepted : Bool) : (Nat × List PByte) × Dev :=
  match d.requestCode rq pa len accepted with
  | (0, _) =>
    let (bs, d) := d.readMem rq pa len
    let bs := match d.home pa with | .coreMem _ => bs | _ => transit pa bs
    ((if bs.any PByte.poison then 3 else 0, bs), d)
  | (code, link) => ((code, []), d.noteCode rq pa code link)

/-- A write of a range of this device (R225): its code. -/
def serveWrite (d : Dev) (rq : Req) (pa : Nat) (bs : List PByte) (accepted : Bool) : Nat × Dev :=
  match d.requestCode rq pa bs.length accepted with
  | (0, _) => (0, d.writeMem rq pa bs)
  | (code, link) => (code, d.noteCode rq pa code link)

/-! ### Slot-state requests (R208-R211) -/

/-- A fill advance as a request (R208, R210, R211): refused with ACCESS_ERR from another context than the slot's owner, refused
without effect where the slot is full. -/
def serveFill (d : Dev) (rq : Req) (key upTo len : Nat) (poison accepted : Bool) : Nat × Dev :=
  let d := if d.env.slotError then d.loseSlot key len else d
  if d.fenced accepted then (1, d.countFenced)
  else if (d.slot key).owner ≠ rq.ctx then (5, d.fabError rq (d.deviceId * 2 ^ 48) 5 none)
  else (0, d.fillTo key upTo len poison none)

/-- A drain as a request (R208, R210). -/
def serveDrain (d : Dev) (rq : Req) (key : Nat) (accepted : Bool) : Nat × Dev :=
  if d.fenced accepted then (1, d.countFenced)
  else if (d.slot key).owner ≠ rq.ctx then (5, d.fabError rq (d.deviceId * 2 ^ 48) 5 none)
  else (0, d.drainKey key)

/-- FILL_ADVANCE: a fill advance for a slot of a core's queue, in each of its entries; a slot that no queue has is nobody's. -/
def fillAdvance (d : Dev) (rq : Req) (c q slot upTo : Nat) (poison accepted : Bool) : Dev :=
  match d.queue c q with
  | some e =>
    if slot < e.count then
      let (code, d) := (e.keys c slot).foldl (fun (acc : Nat × Dev) k =>
        let (r, d) := acc.2.serveFill rq k upTo e.slotLen poison accepted
        (max acc.1 r, d)) (0, d)
      d.emit (.response rq.master code [])
    else (d.fabError rq (d.deviceId * 2 ^ 48) 5 none).emit (.response rq.master 5 [])
  | none => (d.fabError rq (d.deviceId * 2 ^ 48) 5 none).emit (.response rq.master 5 [])

/-- DRAIN: a drain for a slot of a core's queue. -/
def drainRequest (d : Dev) (rq : Req) (c q slot : Nat) (accepted : Bool) : Dev :=
  match d.queue c q with
  | some e =>
    if slot < e.count then
      let (code, d) := (e.keys c slot).foldl (fun (acc : Nat × Dev) k =>
        let (r, d) := acc.2.serveDrain rq k accepted
        (max acc.1 r, d)) (0, d)
      d.emit (.response rq.master code [])
    else (d.fabError rq (d.deviceId * 2 ^ 48) 5 none).emit (.response rq.master 5 [])
  | none => (d.fabError rq (d.deviceId * 2 ^ 48) 5 none).emit (.response rq.master 5 [])

/-! ### Requests from outside the device -/

/-- A context serves requests from outside (08 R293, 15 R555): it holds a job whose memory a compute reset has not cleared. -/
def serves (d : Dev) (n : Nat) : Bool :=
  n != 0 && (d.ctx n).job.isSome && !(d.ctx n).aborted &&
    (d.ctx n).st != .free && (d.ctx n).st != .loading && (d.ctx n).st != .unloading

/-- The physical pieces of a range in a context, or ACCESS_ERR where the context does not serve it or its pages do not admit
the access (08 R293). -/
def outsidePages (d : Dev) (rq : Req) (va len : Nat) (need : Need) : Option (List (Nat × Nat × Bool)) × Dev :=
  if !d.serves rq.ctx then (none, d)
  else
    (pagePieces va len).foldl (fun (acc : Option (List (Nat × Nat × Bool)) × Dev) (p : Nat × Nat) =>
      match acc.1 with
      | none => acc
      | some l =>
        let (w, d) := acc.2.walk rq p.1 need
        match w with
        | .ok pa stream => (some (l ++ [(pa, p.2, stream)]), d)
        | _ => (none, d)) (some [], d)

/-- A read of a range in a context from outside: the pieces in order, up to the first that is refused. -/
def outsideRead (d : Dev) (rq : Req) (va len : Nat) (need : Need) (accepted : Bool) : (Nat × List PByte) × Dev :=
  match d.outsidePages rq va len need with
  | (none, d) => ((5, []), d.fabError rq (d.deviceId * 2 ^ 48 + va) 5 none)
  | (some ps, d) =>
    ps.foldl (fun (acc : (Nat × List PByte) × Dev) (p : Nat × Nat × Bool) =>
      if acc.1.1 ≠ 0 ∧ acc.1.1 ≠ 3 then acc
      else
        let ((code, bs), d) := acc.2.serveRead rq p.1 p.2.1 accepted
        ((if code = 0 then acc.1.1 else code, acc.1.2 ++ bs), d)) ((0, []), d)

/-- A write of a range in a context from outside. -/
def outsideWrite (d : Dev) (rq : Req) (va : Nat) (bs : List PByte) (need : Need) (accepted : Bool) : Nat × Dev :=
  match d.outsidePages rq va bs.length { need with write := true } with
  | (none, d) => (5, d.fabError rq (d.deviceId * 2 ^ 48 + va) 5 none)
  | (some ps, d) =>
    let r := ps.foldl (fun (acc : (Nat × Dev) × List PByte) (p : Nat × Nat × Bool) =>
      if acc.1.1 ≠ 0 then acc
      else (acc.1.2.serveWrite rq p.1 (acc.2.take p.2.1) accepted, acc.2.drop p.2.1)) ((0, d), bs)
    r.1

/-- The slot-state entries of the core-memory slot that holds a physical address, with the slot's first byte and length (R207,
R246): a remote fill advance or drain names its slot by an address in it (log entry 30). -/
def slotAt (d : Dev) (pa : Nat) : Option (List Nat × Nat × Nat) :=
  match d.home pa with
  | .coreMem c =>
    (List.range 256).findSome? (fun q =>
      match d.queue c q with
      | none => none
      | some e =>
        if e.home ≠ 0 then none
        else
          (List.range e.count).findSome? (fun k =>
            if e.addr c k ≤ pa ∧ pa < e.addr c k + e.slotLen then some (e.keys c k, e.addr c k, e.slotLen) else none))
  | _ => none

/-- A request of another device carried out here (08 R293, 13 R471, R482, R484). `accepted` as in `fenced`. -/
def serveRemote (d : Dev) (entry : Nat) (p : Packet) (accepted : Bool) : Dev :=
  let rq : Req := { master := 0x80 + bits (d.routeEntry p.src) 30 24, ctx := p.ctx, stream := true, die := .link (entry / 4) }
  let va := bits p.addr 47 0
  let need : Need := { remote := true }
  if d.fenced accepted then d.countFenced.refuse (some entry) p 1
  else if p.kind = 0 then
    let ((code, bs), d) := d.outsideRead rq va p.lengthBytes need accepted
    if code = 0 ∨ code = 3 then d.answerPacket (some entry) p code (code == 3) (bs.map PByte.val)
    else d.refuse (some entry) p code
  else if p.op < 2 then
    let (code, d) := d.outsideWrite rq va (p.data.map (fun b => { val := b, poison := p.poison || p.op == 1 })) need accepted
    d.refuse (some entry) p code
  else
    match d.outsidePages rq va 1 { need with write := true } with
    | (some ((pa, _, _) :: _), d) =>
      match d.slotAt pa with
      | some (keys, base, len) =>
        let (code, d) := keys.foldl (fun (acc : Nat × Dev) k =>
          let (c, d) := if p.op = 2 then acc.2.serveFill rq k (pa - base + p.data.length) len p.poison accepted
                        else acc.2.serveDrain rq k accepted
          (max acc.1 c, d)) (0, d)
        d.refuse (some entry) p code
      | none => (d.fabError rq (d.deviceId * 2 ^ 48 + va) 5 none).refuse (some entry) p 5
    | (_, d) => (d.fabError rq (d.deviceId * 2 ^ 48 + va) 5 none).refuse (some entry) p 5

/-! ### Packets (13 R475, R480, R489) -/

/-- The hop sequence that an arriving packet has on its link: its cur_seq, except that a rerouted packet carries the cur_seq of
the link it was held for and takes the next sequence of this one (13 R488). -/
def hopOf (d : Dev) (p : Nat) (pkt : Packet) : Nat :=
  if pkt.rerouted then Sp.get (fun _ => 0) (d.port p).rxHop pkt.cls else pkt.cur

/-- A packet is accepted on a port: it is counted, its sequences noted and its credit returned (13 R473, R475, R489). -/
def acceptPacket (d : Dev) (p : Nat) (pkt : Packet) : Dev :=
  let hop := d.hopOf p pkt
  let d := d.bumpPort F.RHK_PORT_RX_BYTES_bytes p pkt.size
  let d := d.onPort p (fun x => { x with
    rxHop := Sp.set (fun _ => 0) x.rxHop pkt.cls ((hop + 1) % 2 ^ 24)
    last := if pkt.rerouted then x.last else Sp.set (fun _ => none) x.last pkt.cls (some pkt.cur)
    lastPrev := if pkt.prevValid then Sp.set (fun _ => none) x.lastPrev pkt.cls (some pkt.prev) else x.lastPrev })
  d.emit (.rhanak p "credit" [pkt.cls, pkt.credits])

/-- The ring direction in which a packet that arrives on a port travels: opposite to the port's own (13 R485). -/
def travelDir (d : Dev) (p : Nat) : Option Nat := ((d.primaryDir p).or (d.skipDir p)).map (fun x => 1 - x)

/-- A packet goes on its way from a port, or is carried out here (13 R475, R480): `hop` is its sequence on the link it came by.
It keeps its place in the ring where it leaves on the primary port of the direction it travels in. -/
def routeOn (d : Dev) (p hop : Nat) (pkt : Packet) (accepted : Bool) : Dev :=
  let ack := fun (d : Dev) => d.forwardAck p pkt.cls hop
  match d.route (some p) pkt.dest with
  | .here =>
    let d := ack d
    if pkt.kind < 2 then d.serveRemote p pkt accepted
    else if pkt.kind < 4 then d.response p pkt
    else d.emit (.rhanak p "collective packet" [pkt.src, pkt.ctx])
  | .port q =>
    let along := (d.travelDir p).isSome && d.travelDir p == d.primaryDir q
    let ring := along && (d.primaryDir p).isSome
    let pkt' := { pkt with prev := if ring then pkt.cur else 0, prevValid := ring, rerouted := false }
    let (left, d') := d.leave (some p) q pkt' (if along then some (p, hop) else none)
    if left then (if along then d' else ack d')
    else
      let d' := ack d'
      if pkt.isRequest then d'.refuse (some p) pkt 6 else d'
  | .answer code =>
    let d := ack (d.rhkError F.RHK_ERR_STATUS_no_route (some p) pkt code)
    if pkt.isRequest then d.refuse (some p) pkt code else d

/-- A malformed packet dropped (13 R472). -/
def dropMalformed (d : Dev) (p hop : Nat) (pkt : Packet) : Dev :=
  let d := (d.rhkError F.RHK_ERR_STATUS_malformed (some p) pkt 4).forwardAck p pkt.cls hop
  if pkt.cls = 0 then d.refuse (some p) pkt 4 else d

/-- The port whose link a rerouted packet for this device was held for (13 R489): of a ring, the primary port of the direction
opposite to the one it arrives on; elsewhere the lowest-numbered port that is down (log entry 29). -/
def downLink (d : Dev) (p : Nat) : Option Nat :=
  match d.primaryDir p with
  | some dir => d.primaryOf (1 - dir)
  | none => (List.range 24).find? (fun q => q != p && !d.portUp q)

/-- The oldest packet that has arrived on a port, taken from it. -/
def takeArrived (d : Dev) (p : Nat) : Option (Packet × Dev) :=
  match (d.port p).arrived with
  | [] => none
  | k :: ks => some (k, d.setPort p { d.port p with arrived := ks })

/-- A rerouted packet on a skip port is REROUTED_PACKET's. -/
def reroutedHere (d : Dev) (p : Nat) : Bool :=
  match (d.port p).arrived with
  | k :: _ => k.rerouted && (d.skipDir p).isSome
  | [] => false

/-- PACKET_ARRIVAL (13 R472, R480, R482, R489): the oldest packet of a port is judged. -/
def packetArrival (d : Dev) (p : Nat) (accepted : Bool) : Dev :=
  if d.reroutedHere p then d
  else
    match d.takeArrived p with
    | none => d
    | some (pkt, d) =>
      let seen := (d.downLink p).bind (fun q => Sp.get (fun _ => none) (d.port q).last pkt.cls)
      let hop := d.hopOf p pkt
      let d := d.acceptPacket p pkt
      if pkt.malformed then d.dropMalformed p hop pkt
      else if pkt.rerouted && d.idValid && pkt.dest == d.deviceId && (seen.map (fun s => Packet.notLater pkt.cur s)).getD false then
        (d.bumpPort F.RHK_PORT_DUP_CNT_packets p 1).forwardAck p pkt.cls hop
      else d.routeOn p hop pkt accepted

/-- REROUTED_PACKET (13 R489): a rerouted packet on a skip port. The device that the skip bypasses is the neighbour on the ring
primary port of the skip's direction (log entry 29). -/
def reroutedPacket (d : Dev) (p : Nat) (accepted : Bool) : Dev :=
  if !d.reroutedHere p then d
  else
    match d.takeArrived p with
    | none => d
    | some (pkt, d) =>
      let hop := d.hopOf p pkt
      let d := d.acceptPacket p pkt
      if pkt.malformed then d.dropMalformed p hop pkt
      else
        match (d.skipDir p).bind d.primaryOf with
        | none => d.routeOn p hop pkt accepted
        | some q =>
          let seen := Sp.get (fun _ => none) (d.port q).lastPrev pkt.cls
          if d.pfld F.RHK_PORT_STATUS_nb_valid q = 1 ∧ pkt.dest = d.pfld F.RHK_PORT_STATUS_nb_id q then
            let d := d.forwardAck p pkt.cls hop
            if d.portUp q then (d.leave (some p) q pkt none).2
            else
              let d := d.rhkError F.RHK_ERR_STATUS_no_route (some p) pkt 6
              if pkt.isRequest then d.refuse (some p) pkt 6 else d
          else if (seen.map (fun s => Packet.notLater pkt.cur s)).getD false then
            (d.bumpPort F.RHK_PORT_DUP_CNT_packets p 1).forwardAck p pkt.cls hop
          else d.routeOn p hop pkt accepted

end Dev

end Sys2Proof.Machine
end

