-- ==== Sys2Proof/Machine/Ethernet.lean ====
section
/-!
DEFINITION. The Ethernet port: frames, flow control, the RoCEv2 responder, messages in SEND packets and bindings
(15_host_ethernet_interface.md R530-R558).
-/

namespace Sys2Proof.Machine

/-- A received READ or WRITE packet (R538, R543): its PSN, the R_Key, address and length of its message, and for a WRITE the
packet's place in the message and its bytes. -/
structure Rdma where
  psn : Nat
  key : Nat
  va : Nat
  len : Nat
  off : Nat := 0
  data : List Byte := []
  /-- Its fabric requests were accepted before the fence of a husk (18 R621). -/
  accepted : Bool := false
deriving DecidableEq, Repr

/-- What an accepted frame carries (R533). -/
inductive Proto where
  | pause
  | lldp
  | arp (target : List Byte)
  | neighbour (target : List Byte)
  | echo (target payload : List Byte)
  /-- A RoCEv2 packet: its queue pair, ICRC, CE mark, and whether its transport and queue pair are of R538. What a packet that is
  kept does is its own command. -/
  | roce (qp : Nat) (icrcOk ce supported : Bool)
  /-- An acknowledgement of a SEND of this device: 0 acknowledged, 1 RNR NAK, 2 another NAK. -/
  | sendAnswer (qp psn kind : Nat)
  /-- A datagram to the management port, which is a command of its own. -/
  | management
  | other
deriving DecidableEq, Repr

/-- A received frame. -/
structure Frame where
  bytes : Nat
  fcsOk : Bool := true
  /-- FEC: codewords corrected, and uncorrectable ones that the frame spans. -/
  corrected : Nat := 0
  uncorrected : Nat := 0
  src : List Byte := []
  vlan : Option Nat := none
  stacked : Bool := false
  /-- The share of a priority without PFC is full (R536). -/
  full : Bool := false
  /-- Bytes that priorities hold in the receive buffer once the frame is in. -/
  fill : List (Nat × Nat) := []
  proto : Proto := .other
deriving DecidableEq, Repr

namespace Dev

/-! ### The port's state -/

/-- The port changed. -/
def onEth (d : Dev) (f : Eth → Eth) : Dev := { d with eth := f d.eth }

/-- Queue pair q. -/
def qp (d : Dev) (q : Nat) : QPair := Sp.get (fun _ => {}) d.eth.qps q

/-- Queue pair q replaced. -/
def setQp (d : Dev) (q : Nat) (x : QPair) : Dev := d.onEth (fun e => { e with qps := Sp.set (fun _ => {}) e.qps q x })

/-- Queue pair q changed. -/
def onQp (d : Dev) (q : Nat) (f : QPair → QPair) : Dev := d.setQp q (f (d.qp q))

/-- An identity bound to one of channels 2 to 7 (R554). -/
def managerIdentity (d : Dev) (i : Nat) : Bool :=
  [2, 3, 4, 5, 6, 7].any (fun c =>
    let b := d.binding c
    b.valid && (b.sender == i || b.receiver == i))

/-- A queue pair is stopped with the Ethernet function (R554). -/
def qpStopped (d : Dev) (q : Nat) : Bool := bit d.stops 7 && !d.managerIdentity (d.qp q).identity

/-- A queue pair answers and sends: the link is up, it is ready and not stopped (R541, R546, R554). -/
def qpRuns (d : Dev) (q : Nat) : Bool := d.eth.up && (d.qp q).state == 1 && !d.qpStopped q

/-- ETH_QP(q) (R557). -/
def ethQp (d : Dev) (q : Nat) : Nat :=
  let x := d.qp q
  let st := if x.state = 1 ∧ d.qpStopped q then 3 else x.state
  x.rate * 2 ^ 24 + x.ctx * 2 ^ 16 + x.identity * 2 ^ 8 + st

/-- ETH_STATUS (R557). -/
def ethStatus (d : Dev) : Nat :=
  d.eth.lanes * 2 ^ 8 + b2n (bit d.stops 7) * 4 + b2n d.eth.up * 2 + b2n (d.eth.lanes == 0xFF)

/-! ### Sending -/

/-- Bytes of a RoCEv2 frame with `n` bytes after its transport header: Ethernet, VLAN tag, IP, UDP, the 12-byte transport header,
padding to 4 bytes, ICRC and FCS (log entry 33). -/
def roceBytes (d : Dev) (q n : Nat) : Nat :=
  18 + (if d.isSet F.ETH_CTRL_vlan_en then 4 else 0) + (if (d.qp q).ipv6 then 40 else 20) + 8 + 12 + alignUp n 4 + 4

/-- A frame sent, with its bytes counted. -/
def ethSend (d : Dev) (kind : String) (peer bytes : Nat) (body : List Byte) : Dev :=
  (d.bump F.ETH_TX_BYTES_bytes 0 0 bytes).emit (.ethernet kind peer body)

/-- An acknowledgement of every packet before the one expected (R539). -/
def sendAck (d : Dev) (q : Nat) : Dev :=
  let x := d.qp q
  let d := d.setQp q { x with owed := 0 }
  d.ethSend "ACK" q (d.roceBytes q 4) (leBytes 3 ((x.recvPsn + 2 ^ 24 - 1) % 2 ^ 24))

/-- ETH_ERR_INFO captures while bits 6, 5 and 0 of ETH_ERR_STATUS are all 0 (R557). -/
def ethCapture (d : Dev) (q psn code : Nat) : Dev :=
  let s := d.rd .ETH_ERR_STATUS
  let x := d.qp q
  if bit s 6 || bit s 5 || bit s 0 then d
  else d.wr .ETH_ERR_INFO 0 0 (psn % 2 ^ 24 * 2 ^ 40 + q % 1024 * 2 ^ 24 + x.identity % 256 * 2 ^ 16 + x.ctx % 16 * 2 ^ 12 + code % 8)

/-- A queue pair enters the error state (R546). -/
def qpFail (d : Dev) (q psn code : Nat) : Dev :=
  ((d.ethCapture q psn code).raise F.ETH_ERR_STATUS_qp_error).onQp q (fun x => { x with state := 2, sent := [], owed := 0 })

/-- The QP status entry written before a NAK (R544, step QP_STATUS_WRITE). The device writes it in a husk too (log entry 34). -/
def qpStatus (d : Dev) (q psn code : Nat) : Dev :=
  match Sp.get (fun _ => (none : Option (Nat × Nat))) (d.eth.windows.map (fun w => (w.1, some w.2))) (d.qp q).identity with
  | none => d
  | some (base, _) =>
    let a := base + 16 * q
    let n := leNat ((List.range 4).map (fun i => d.cell (a + 4 + i)))
    d.pokeRange a (leBytes 1 code ++ leBytes 3 psn ++ leBytes 4 (satAdd 32 n 1) ++ leBytes 8 d.now)

/-- Kinds of NAK (R545), and the sequence error of the transport. -/
inductive Nak where
  | rnr | access | operational | invalid | sequence
deriving DecidableEq, Repr

/-- The name of a NAK on the wire. -/
def Nak.name : Nak → String
  | .rnr => "RNR NAK" | .access => "NAK remote access error" | .operational => "NAK remote operational error"
  | .invalid => "NAK invalid request" | .sequence => "NAK PSN sequence error"

/-- A NAK sent (R544, R545): the status entry, the counters, the capture, and the queue pair's state afterwards. -/
def sendNak (d : Dev) (q psn code : Nat) (k : Nak) : Dev :=
  let d := d.qpStatus q psn code
  let d := (d.ethCapture q psn code).raise F.ETH_ERR_STATUS_nak_sent
  let d := if k = .rnr then d.bump F.ETH_NAK_CNT_rnr 0 0 1 else d.bump F.ETH_NAK_CNT_nak 0 0 1
  let d := d.ethSend k.name q (d.roceBytes q 4) (leBytes 3 psn ++ (if k = .rnr then leBytes 1 (d.fld F.ETH_CTRL_rnr_timer) else []))
  match k with
  | .rnr | .sequence => d.onQp q (fun x => { x with asked := true })
  | _ => d.qpFail q psn code

/-! ### The responder (R538-R546) -/

/-- The place of a packet's PSN: the one expected, an earlier one, or a later one. -/
inductive Place where
  | expected | duplicate | later
deriving DecidableEq, Repr

/-- The place of a PSN on a queue pair. -/
def place (d : Dev) (q psn : Nat) : Place :=
  let k := (psn + 2 ^ 24 - (d.qp q).recvPsn) % 2 ^ 24
  if k = 0 then .expected else if k < 2 ^ 23 then .later else .duplicate

/-- A packet that is out of its turn: one NAK asks for the packet expected, and the rest are dropped. -/
def outOfTurn (d : Dev) (q : Nat) : Dev := if (d.qp q).asked then d else d.sendNak q (d.qp q).recvPsn 7 .sequence

/-- What a request of the queue pair reaches (R543, R544): the staging window or the context, or remote access error. -/
inductive Target where
  | window | context | refused
deriving DecidableEq, Repr

/-- The target of an access. -/
def target (d : Dev) (q : Nat) (p : Rdma) (write : Bool) : Target :=
  let x := d.qp q
  if bits p.key 23 0 ≠ x.rkey ∨ (if write then !x.canWrite else !x.canRead) then .refused
  else if p.key / 2 ^ 24 = 1 then
    match d.eth.windows.find? (fun w => w.1 = x.identity) with
    | none => .refused
    | some (_, base, n) =>
      if base ≤ p.va ∧ p.va + p.len ≤ base + n ∧ ¬(write = true ∧ p.va < base + 16384 ∧ 0 < p.len) then .window else .refused
  else if p.key / 2 ^ 24 = 2 ∧ x.ctx ≠ 0 then .context
  else .refused

/-- The request that a queue pair's access makes (R539, R540). -/
def hostReq (d : Dev) (q : Nat) : Req := { master := (d.qp q).identity, ctx := (d.qp q).ctx, stream := true, die := .cd }

/-- A packet is done: the next one is expected, and a WRITE or SEND is owed an acknowledgement (R539). A duplicate is acknowledged
again at once. -/
def packetDone (d : Dev) (q span : Nat) (dup owes : Bool) : Dev :=
  if dup then d.sendAck q
  else d.onQp q (fun x => { x with
    recvPsn := (x.recvPsn + span) % 2 ^ 24, asked := false
    owed := if owes then x.owed + 1 else x.owed, owedAt := if owes && x.owed == 0 then d.now else x.owedAt })

/-- The NAK that a fabric response draws, none for OKAY (R545); the reserved code acts as PATH_ERR (01 R29). -/
def nakOf (code : Nat) : Option Nak :=
  match code with
  | 0 => none | 1 => some .rnr | 4 => some .access | 5 => some .access | _ => some .operational

/-- A WRITE packet's effect (R539, R543-R545): whether it completed, and the device. -/
def writePacket (d : Dev) (q : Nat) (p : Rdma) : Bool × Dev :=
  if !d.qpRuns q then (false, d)
  else
    match d.place q p.psn with
    | .later => (false, d.outOfTurn q)
    | pl =>
      if 2 ^ 31 < p.len then (false, d.sendNak q p.psn 7 .invalid)
      else
        let put := fun (r : Nat × Dev) =>
          match nakOf r.1 with
          | none => (true, r.2.packetDone q 1 (pl == .duplicate) true)
          | some k => (false, r.2.sendNak q p.psn (if r.1 = 7 then 6 else r.1) k)
        match d.target q p true with
        | .refused => (false, d.sendNak q p.psn 7 .access)
        | .window => put (d.serveWrite (d.hostReq q) (p.va + p.off) (clean p.data) p.accepted)
        | .context => put (d.outsideWrite (d.hostReq q) (p.va + p.off) (clean p.data) { host := true } p.accepted)

/-- RDMA_WRITE (R539). -/
def rdmaWrite (d : Dev) (q : Nat) (p : Rdma) : Dev := (d.writePacket q p).2

/-- Response packets of a READ (R538). -/
def readPackets (d : Dev) (q len : Nat) : Nat := max 1 (ceilDiv len (2 ^ (7 + (d.qp q).mtu)))

/-- RDMA_READ (R543, R545): `served` READs of the queue pair are being served already. -/
def rdmaRead (d : Dev) (q : Nat) (p : Rdma) (served : Nat) : Dev :=
  if !d.qpRuns q then d
  else
    match d.place q p.psn with
    | .later => d.outOfTurn q
    | pl =>
      if 2 ^ 31 < p.len ∨ 16 ≤ served then d.sendNak q p.psn 7 .invalid
      else
        let give := fun (r : (Nat × List PByte) × Dev) =>
          match nakOf r.1.1 with
          | none =>
            let n := r.2.readPackets q p.len
            let d := r.2.ethSend "READ response" q (n * r.2.roceBytes q 4 + p.len) (r.1.2.map PByte.val)
            if pl = .duplicate then d else d.packetDone q n false false
          | some k =>
            let code := if r.1.1 = 7 then 6 else r.1.1
            let d := if code = 3 then (r.2.ethCapture q p.psn code).raise F.ETH_ERR_STATUS_poison_read else r.2
            d.sendNak q p.psn code k
        match d.target q p false with
        | .refused => d.sendNak q p.psn 7 .access
        | .window => give (d.serveRead (d.hostReq q) p.va p.len p.accepted)
        | .context => give (d.outsideRead (d.hostReq q) p.va p.len { host := true } p.accepted)

/-- A message from a host at the mailbox unit (R547, 14 R506, R528). -/
def hostMessage (d : Dev) (identity : Nat) (bs : List Byte) : Dev :=
  if !d.isSet F.MBX_CTRL_host_en then d else (d.mbxArrive identity (bits (field bs 4 1) 5 0) .ethernet bs).2

/-- RDMA_SEND (R547). -/
def rdmaSend (d : Dev) (q psn : Nat) (bs : List Byte) : Dev :=
  if !d.qpRuns q then d
  else
    match d.place q psn with
    | .later => d.outOfTurn q
    | pl =>
      if !(d.qp q).canSend then d.sendNak q psn 7 .access
      else
        let d :=
          if pl = .duplicate then d
          else if bs.length < 16 ∨ 256 < bs.length ∨ bs.length ≠ 16 + field bs 6 2 then
            d.mbxDrop F.MBX_ERR_STATUS_overlong (d.qp q).identity (bits (field bs 4 1) 5 0) .ethernet
          else d.hostMessage (d.qp q).identity bs
        d.packetDone q 1 (pl == .duplicate) true

/-- WRITE_WITH_IMMEDIATE (R549): the last packet of the write, then the message to the binding's immediate channel. -/
def writeImmediate (d : Dev) (q : Nat) (p : Rdma) (imm : Nat) : Dev :=
  let dup := d.place q p.psn == .duplicate
  let (ok, d) := d.writePacket q p
  let x := d.qp q
  if ok && !dup && x.imm != 0xFF then
    d.hostMessage x.identity ({ code := 0xFFFF, channel := x.imm, arg0 := imm } : Msg).toBytes
  else d

/-- ACK_COALESCE (R539): one acknowledgement per 8 packets or per 4 µs. -/
def ackCoalesce (d : Dev) (q : Nat) : Dev :=
  let x := d.qp q
  if d.qpRuns q && (decide (8 ≤ x.owed) || (decide (0 < x.owed) && decide (x.owedAt + 4000 ≤ d.now))) then d.sendAck q else d

/-! ### Messages to hosts (R546, R548) -/

/-- The queue pair that carries messages to an identity: its lowest-numbered ready one with the send flag (R548). -/
def sendQp (d : Dev) (i : Nat) : Option Nat :=
  (d.eth.qps.map Prod.fst).find? (fun q => d.qpRuns q && (d.qp q).identity == i && (d.qp q).canSend)

/-- A SEND packet put on the wire. -/
def sendPacket (d : Dev) (q : Nat) (x : Sent) : Dev :=
  d.ethSend "SEND" q (d.roceBytes q x.bytes.length) (leBytes 3 x.psn ++ x.bytes)

/-- HOST_MESSAGE_SEND (R548): the oldest message of a channel to a host, once the last one of the channel is acknowledged. -/
def hostMessageSend (d : Dev) (c : Nat) : Dev :=
  let b := d.binding c
  if !b.valid || decide (b.receiver < 0x40) || decide (0x7F < b.receiver) || (d.ring c).msgs.isEmpty
      || d.eth.qps.any (fun x => x.2.sent.any (fun s => s.channel == c)) then d
  else
    match d.sendQp b.receiver with
    | none => d
    | some q =>
      if bit d.eth.paused (d.qp q).pcp then d
      else
        match d.ringTake c with
        | (none, d) => d
        | (some m, d) =>
          let x := d.qp q
          let s : Sent := { channel := c, psn := x.sendPsn, bytes := m, tries := 0, at_ := d.now }
          (d.setQp q { x with sendPsn := (x.sendPsn + 1) % 2 ^ 24, sent := x.sent ++ [s] }).sendPacket q s

/-- A host's answer to a SEND (R546, R548). -/
def sendAnswered (d : Dev) (q psn kind : Nat) : Dev :=
  let x := d.qp q
  if !d.qpRuns q then d
  else
    match kind with
    | 0 => d.setQp q { x with sent := x.sent.filter (fun s => decide ((psn + 2 ^ 24 - s.psn) % 2 ^ 24 ≥ 2 ^ 23)) }
    | 1 => d.setQp q { x with sent := x.sent.map (fun s => if s.psn = psn then { s with held := true, at_ := d.now } else s) }
    | _ => if x.sent.any (fun s => s.psn = psn) then d.qpFail q psn 7 else d

/-- SEND_RETRY_TIMEOUT (R540, R546): a SEND without an acknowledgement is sent again, or its queue pair enters the error state. One
that the host holds back by RNR NAK is sent again without end. -/
def sendRetry (d : Dev) (q c : Nat) : Dev :=
  let x := d.qp q
  if !d.qpRuns q then d
  else
    match x.sent.find? (fun s => s.channel = c) with
    | none => d
    | some s =>
      if d.now < s.at_ + 4096 * 2 ^ x.timeout then d
      else if !s.held && decide (x.retries ≤ s.tries) then d.qpFail q s.psn 7
      else
        let s' : Sent := { s with tries := if s.held then s.tries else s.tries + 1, held := false, at_ := d.now }
        (d.setQp q { x with sent := x.sent.map (fun y => if y.channel = c then s' else y) }).sendPacket q s'

/-! ### Frames (R531-R537) -/

/-- The IPv6 link-local address formed from the MAC by EUI-64 (R533). -/
def linkLocal (mac : List Byte) : List Byte :=
  [0xFE, 0x80, 0, 0, 0, 0, 0, 0] ++ [mac.headD 0 ^^^ 2] ++ (mac.drop 1).take 2 ++ [0xFF, 0xFE] ++ (mac.drop 3).take 3

/-- An address of the device's own (R533). -/
def ownAddress (d : Dev) (a : List Byte) : Bool :=
  let c := d.eth.config
  (d.isSet F.ETH_CTRL_ipv4_en && a == c.ipv4 && a.length == 4) ||
    (d.isSet F.ETH_CTRL_ipv6_en && (a == linkLocal c.mac || (a == c.ipv6 && c.ipv6 != List.replicate 16 0)) && a.length == 16)

/-- A dropped frame counted. -/
def ethDrop (d : Dev) : Dev := d.bump F.ETH_DROP_CNT_frames 0 0 1

/-- PFC sent as a priority's share of the receive buffer crosses xoff or xon (R536, step PFC_SEND). -/
def pfcSend (d : Dev) (p : Nat) : Dev :=
  let held := Sp.get (fun _ => 0) d.eth.fill p
  if !bit (d.fld F.ETH_PFC_pfc_en) p then d
  else if !bit d.eth.pausing p && decide (1024 * d.fld F.ETH_PFC_xoff < held) then
    (d.onEth (fun e => { e with pausing := e.pausing ||| 2 ^ p })).ethSend "PFC pause" p 64 []
  else if bit d.eth.pausing p && decide (held < 1024 * d.fld F.ETH_PFC_xon) then
    (d.onEth (fun e => { e with pausing := e.pausing ^^^ 2 ^ p })).ethSend "PFC release" p 64 []
  else d

/-- A congestion notification for a packet marked CE, at most one per queue pair in an interval (R537, step CNP_SEND). -/
def cnpSend (d : Dev) (q : Nat) : Dev :=
  let x := d.qp q
  let due := match x.cnpAt with | none => true | some t => decide (t + 1000 * d.fld F.ETH_CC_cnp_interval ≤ d.now)
  if d.isSet F.ETH_CC_cc_en && due then
    ((d.setQp q { x with cnpAt := some d.now }).bump F.ETH_CNP_CNT_sent 0 0 1).ethSend "CNP" q (d.roceBytes q 16) []
  else d

/-- An accepted frame dispatched by its protocol (R533-R538). -/
def dispatch (d : Dev) (f : Frame) : Dev :=
  match f.proto with
  | .pause | .lldp | .management => d
  | .arp t =>
    if d.ownAddress t && t.length == 4 then d.ethSend "ARP reply" 0 64 (f.src ++ d.eth.config.mac ++ t) else d
  | .neighbour t =>
    if d.ownAddress t && t.length == 16 then d.ethSend "neighbour advertisement" 0 90 (f.src ++ d.eth.config.mac ++ t) else d
  | .echo t payload =>
    let recent := d.eth.echoAt.filter (fun x => d.now < x + 1000000000)
    if !d.ownAddress t || decide (1472 < payload.length) || decide (1000 ≤ recent.length) then d
    else (d.onEth (fun e => { e with echoAt := d.now :: recent })).ethSend "echo reply" 0 f.bytes (f.src ++ t ++ payload)
  | .roce q icrcOk ce supported =>
    if !icrcOk then d.raise F.ETH_ERR_STATUS_icrc
    else if !supported then d
    else if ce && d.qpRuns q then d.cnpSend q else d
  | .sendAnswer q psn kind => d.sendAnswered q psn kind
  | .other => d.ethDrop

/-- The VLAN tag is the one the port is set to (R533). -/
def vlanOk (d : Dev) (f : Frame) : Bool :=
  !f.stacked && (match f.vlan with
    | none => !d.isSet F.ETH_CTRL_vlan_en
    | some v => d.isSet F.ETH_CTRL_vlan_en && v == d.eth.config.vlan)

/-- ETH_FRAME_RECEIVE (R531, R533, R536): a frame is accepted or dropped, and dispatched. -/
def frameReceive (d : Dev) (f : Frame) : Dev :=
  if !d.eth.up then d
  else
    let d := (d.bump F.ETH_FEC_CNT_corrected 0 0 f.corrected).bump F.ETH_FEC_CNT_uncorrected 0 0 f.uncorrected
    let d := d.raiseIf (decide (0 < f.uncorrected)) F.ETH_ERR_STATUS_fec_uncorrected
    if 9216 < f.bytes ∨ f.fcsOk = false ∨ 0 < f.uncorrected ∨ f.full = true then d.ethDrop
    else if !d.vlanOk f then d.ethDrop
    else
      let d := d.bump F.ETH_RX_BYTES_bytes 0 0 f.bytes
      let d := d.onEth (fun e => { e with fill := f.fill.foldl (fun t x => Sp.set (fun _ => 0) t (x.1 % 8) x.2) e.fill })
      let d := (List.range 8).foldl (fun d p => d.pfcSend p) d
      d.dispatch f

/-- PFC_FRAME (R536): priorities paused and released by the peer, of those enabled. -/
def pfcFrame (d : Dev) (pause release : Nat) : Dev :=
  if !d.eth.up then d
  else
    let en := d.fld F.ETH_PFC_pfc_en
    d.onEth (fun e => { e with paused := (List.range 8).foldl (fun a p =>
      if bit en p && bit pause p then a ||| 2 ^ p else if bit en p && bit release p && bit a p then a ^^^ 2 ^ p else a) e.paused })

/-- CNP_RECEIVE (R537): the send rate halves, down to 1/64 of line rate. -/
def cnpReceive (d : Dev) (q : Nat) : Dev :=
  if !d.qpRuns q || !d.isSet F.ETH_CC_cc_en then d
  else (d.bump F.ETH_CNP_CNT_received 0 0 1).onQp q (fun x => { x with rate := (x.rate + 1) / 2 - 1, rateAt := d.now })

/-- RATE_RECOVERY (R537): the send rate rises by 1/64 of line rate after an interval without a notification. -/
def rateRecovery (d : Dev) (q : Nat) : Dev :=
  let x := d.qp q
  if d.qpRuns q && decide (x.rate < 63) && decide (x.rateAt + 1000 * d.fld F.ETH_CC_recovery ≤ d.now) then
    d.setQp q { x with rate := x.rate + 1, rateAt := d.now }
  else d

/-- ETH_LINK_DOWN (R532): alignment has been lost for 1 ms on a lane; queue pairs keep their state. -/
def ethLinkDown (d : Dev) (lanes : Nat) : Dev :=
  if d.eth.up ∧ lanes % 256 ≠ 0xFF then
    (d.onEth (fun e => { e with up := false, lanes := lanes % 256, fill := [] })).raise F.ETH_ERR_STATUS_link_down
  else d

/-- The MAC address that device identity gives (19 R640, R641). -/
def derivedMac (d : Dev) : List Byte :=
  match Config.deviceSecret d.flash.identity with
  | none => [0x02, 0x00, 0x5A, 0x47, 0x00, 0x00]
  | some k =>
    match (Config.derived k "mac").take 6 with
    | [] => []
    | b :: t => ((b ||| 2) &&& 0xFE) :: t

/-- Bytes of a management datagram's frame with a message of `n` bytes (R550, log entry 33). -/
def datagramBytes (d : Dev) (v6 : Bool) (n : Nat) : Nat :=
  18 + (if d.isSet F.ETH_CTRL_vlan_en then 4 else 0) + (if v6 then 40 else 20) + 8 + 8 + n

/-- The header of a management datagram (R550): its kind and sequence. -/
def datagramHeader (kind seq : Nat) : List Byte := leBytes 2 0x7E01 ++ leBytes 1 kind ++ leBytes 1 0 ++ leBytes 4 seq

/-- RESET_DONE after a chip reset (14 R524, R529, R552): on channel 1, and for channel 3 as a management datagram to the management
host, where the record in use names one. Its duration counts from the release, at which the time base restarts. -/
def greet (d : Dev) : Dev :=
  match d.eth.greet with
  | none => d
  | some kind =>
    let body := leBytes 1 kind ++ leBytes 4 (min (d.now / 1000) (2 ^ 32 - 1)) ++ leBytes 2 0
    let d := (d.onEth (fun e => { e with greet := none })).eventOn 1 0x8007 0 body
    match d.boot.record with
    | none => d
    | some k =>
      let c := Sp.get (fun _ => []) d.flash.records k
      let (n, d) := d.nextEvent 3
      let m : Msg := { code := 0x8007, flags := 2, channel := 3, length := body.length, tag := n, body }
      d.ethSend "datagram" (field c 0x40 2) (d.datagramBytes (bit (field c 0x65 1) 3) m.toBytes.length)
        ((c.drop 0x78).take 6 ++ (c.drop 0x80).take 16 ++ datagramHeader 2 0 ++ m.toBytes)

/-- ETH_LINK_UP (R532): all 8 lanes have regained alignment. -/
def ethLinkUp (d : Dev) : Dev :=
  let d := d.onEth (fun e => { e with up := true, lanes := 0xFF })
  if d.boot.runs = .prois then d.greet else d

/-- LLDP_SEND (R533): one LLDPDU every 30 s, its chassis and port ID the MAC address. -/
def lldpSend (d : Dev) : Dev :=
  let due := match d.eth.lldpAt with | none => true | some t => decide (t + 30000000000 ≤ d.now)
  if d.eth.up && d.isSet F.ETH_CTRL_lldp_en && due then
    (d.onEth (fun e => { e with lldpAt := some d.now })).ethSend "LLDPDU" 0 64
      (d.eth.config.mac ++ leBytes 2 120 ++ [0x5A, 0x47, 0x2D, 0x36, 0x34, 0x30])
  else d

/-! ### Bindings and settings (R540-R542, R553) -/

/-- The reserved bits and bytes of a BIND_HOST body are 0 and the fields that its op uses in range (R540; log entry 72). -/
def bindFields (b : List Byte) : Bool :=
  let z := fun (o n : Nat) => field b o n == 0
  decide (field b 0 2 < 1024) && decide (field b 2 1 < 2) && decide (field b 5 1 < 16) && z 7 1 && z 23 1 && z 30 2 && z 53 3
    && (field b 2 1 == 0 ||
      (decide (0x40 ≤ field b 3 1) && decide (field b 3 1 ≤ 0x7F)
        && decide (field b 4 1 < 16) && decide (field b 6 1 < 8) && decide (field b 8 4 < 2 ^ 24)
        && decide (field b 12 4 < 2 ^ 24) && decide (field b 16 4 < 2 ^ 24) && decide (1 ≤ field b 20 1) && decide (field b 20 1 ≤ 5)
        && decide (field b 21 1 < 8) && decide (1 ≤ field b 22 1) && decide (field b 22 1 ≤ 31) && decide (field b 48 4 < 2 ^ 24)
        && ((decide (8 ≤ field b 52 1) && decide (field b 52 1 ≤ 63)) || field b 52 1 == 0xFF)))

/-- The queue pair that a BIND_HOST body describes. -/
def boundQp (b : List Byte) : QPair where
  state := 1
  identity := field b 3 1
  ctx := field b 4 1
  canWrite := bit (field b 5 1) 0
  canRead := bit (field b 5 1) 1
  canSend := bit (field b 5 1) 2
  ipv6 := bit (field b 5 1) 3
  pcp := field b 6 1
  remoteQpn := field b 8 4
  sendPsn := field b 12 4
  recvPsn := field b 16 4
  mtu := field b 20 1
  retries := field b 21 1
  timeout := field b 22 1
  mac := (b.drop 24).take 6
  ip := (b.drop 32).take 16
  rkey := field b 48 4
  imm := field b 52 1

/-- The identity's window when it has one (R541). -/
def windowOf (d : Dev) (i : Nat) : Option (Nat × Nat) := (d.eth.windows.find? (fun w => w.1 = i)).map Prod.snd

/-- The identity's last queue pair has gone: its window ends (R541). -/
def dropWindow (d : Dev) (i : Nat) : Dev :=
  if d.eth.qps.any (fun x => x.2.identity == i && x.2.state != 0) then d
  else d.onEth (fun e => { e with windows := e.windows.filter (fun w => w.1 ≠ i) })

/-- A queue pair bound, with its identity's window on the first bind. -/
def bindQp (d : Dev) (b : List Byte) : Dev :=
  let q := field b 0 2
  let x := boundQp b
  let old := (d.qp q).identity
  let d := d.setQp q x
  let d := d.dropWindow old
  if (d.windowOf x.identity).isSome then d
  else d.onEth (fun e => { e with windows := e.windows ++ [(x.identity, field b 56 8, field b 64 8)] })

/-- A queue pair unbound. -/
def unbindQp (d : Dev) (q : Nat) : Dev :=
  let i := (d.qp q).identity
  (d.setQp q {}).dropWindow i

/-- The settings of a SET_ETH_CONFIG body or of the configuration record put into force (R553, 19 R638). -/
def applyEthConfig (d : Dev) (b : List Byte) : Dev :=
  let mac := b.take 6
  let fl := field b 6 2
  let d := d.onEth (fun e => { e with next := none, config := {
    mac := if mac = List.replicate 6 0 then d.derivedMac else mac
    vlan := field b 8 2 % 4096, ipv4 := (b.drop 12).take 4, ipv4Len := field b 16 1
    ipv6 := (b.drop 24).take 16, ipv6Len := field b 40 1 } })
  let d := (d.setFld F.ETH_CTRL_ipv4_en 0 0 (b2n (bit fl 0))).setFld F.ETH_CTRL_ipv6_en 0 0 (b2n (bit fl 1))
  let d := (d.setFld F.ETH_CTRL_vlan_en 0 0 (b2n (bit fl 2))).setFld F.ETH_CTRL_mgmt_en 0 0 (b2n (bit fl 3))
  let d := (d.setFld F.ETH_CTRL_lldp_en 0 0 (b2n (bit fl 4))).setFld F.ETH_CTRL_mgmt_port 0 0 (field b 10 2)
  d.setFld F.ETH_PFC_pfc_en 0 0 (field b 17 1)

end Dev

end Sys2Proof.Machine
end

