-- ==== Sys2Proof/Machine/Tiles.lean ====
section
/-!
DEFINITION. Tile images: their sections, patterns and position codes (03_dense_arrays.md R84, R88,
04_structured_sparsity.md R129-R133), and ST_TILE, which assembles them (07_streams_descriptors_and_layouts.md
R268-R271).
-/

namespace Sys2Proof.Machine

/-- Values kept per group, group length, code width and positions of the cell form (R129, R131); none for a reserved
code. A dense tile keeps one of one. -/
structure Pattern where
  kept : Nat
  group : Nat
  codeBits : Nat
  cellPositions : Nat
deriving DecidableEq, Repr

/-- The pattern of a code (R129). -/
def Pattern.ofCode (c : Nat) : Option Pattern :=
  match c with
  | 0 => some ⟨1, 1, 0, 1⟩
  | 1 => some ⟨2, 4, 2, 2⟩
  | 2 => some ⟨4, 8, 3, 4⟩
  | 3 => some ⟨1, 4, 2, 2⟩
  | 4 => some ⟨2, 8, 3, 4⟩
  | _ => none

/-- Whether a format code is an array operand, 0x1 to 0xB (R85). -/
def isOperand (c : Nat) : Bool := decide (1 ≤ c) && decide (c ≤ 0xB)

/-- The number of lanes of two operand formats (R84). -/
def lanes (a w : Fmt) : Nat :=
  if a.width = 16 ∨ w.width = 16 then 1 else if a = .mxE2m1 ∧ w = .mxE2m1 then 4 else 2

/-- Lane counts that R84 allows with a format as one operand (R268). -/
def lanesWith (f : Fmt) : List Nat := if f.width = 16 then [1] else if f = .mxE2m1 then [1, 2, 4] else [1, 2]

/-- Where the sections of a tile image lie (R88, R132): stored values in a column, row_max entries, the format and the
code width. -/
structure ImageLayout where
  stored : Nat
  depth : Nat
  fmt : Fmt
  codeBits : Nat
deriving DecidableEq, Repr

namespace ImageLayout

/-- The layout for two operand formats and a pattern (R84, R88, R132): a sparse tile stores D × N / M of D = 2 K_t. -/
def of (a w : Fmt) (pattern : Nat) : ImageLayout :=
  let kt := 512 * lanes a w
  match Pattern.ofCode pattern with
  | some p =>
    if pattern = 0 then { stored := kt, depth := kt, fmt := w, codeBits := 0 }
    else { stored := 2 * kt * p.kept / p.group, depth := 2 * kt, fmt := w, codeBits := p.codeBits }
  | none => { stored := kt, depth := kt, fmt := w, codeBits := 0 }

/-- Bytes of a column's elements. -/
def colBytes (l : ImageLayout) : Nat := l.stored * l.fmt.width / 8
/-- Scale bytes of a column. -/
def colScales (l : ImageLayout) : Nat := if l.fmt.isMx then l.stored / 32 else 0
/-- Offset of the scales section. -/
def scalesAt (l : ImageLayout) : Nat := alignUp (512 * l.colBytes) 256
/-- Offset of col_max. -/
def colMaxAt (l : ImageLayout) : Nat := alignUp (l.scalesAt + 512 * l.colScales) 256
/-- Offset of row_max. -/
def rowMaxAt (l : ImageLayout) : Nat := alignUp (l.colMaxAt + 1024) 256
/-- Offset of the position codes. -/
def codesAt (l : ImageLayout) : Nat := alignUp (l.rowMaxAt + 2 * l.depth) 256
/-- Bytes of a column's codes. -/
def colCodes (l : ImageLayout) : Nat := l.stored * l.codeBits / 8
/-- Bytes of the whole image. -/
def bytes (l : ImageLayout) : Nat := if l.codeBits = 0 then l.rowMaxAt + 2 * l.depth else l.codesAt + 512 * l.colCodes

end ImageLayout

/-- The logical reduction index of stored value n with code c (R131). -/
def logicalIndex (p : Pattern) (n c : Nat) : Nat := p.group * (n / p.kept) + c

/-- Bytes of 16-bit codes with their poison. -/
def maxBytes (l : List Elem) : List PByte :=
  l.flatMap (fun e => (leBytes 2 e.code).map (fun b => ({ val := b, poison := e.poison } : PByte)))

/-- Sections laid one after the other, each from the next multiple of 256 bytes (R88). -/
def layOut (sections : List (List PByte)) : List PByte :=
  sections.foldl (fun acc s => acc ++ List.replicate (alignUp acc.length 256 - acc.length) { val := 0 } ++ s) []

/-- Elements packed at a byte boundary (R52). -/
def packPoisoned (w : Nat) (es : List Elem) : List PByte :=
  putElems w 0 es (List.replicate (ceilDiv (es.length * w) 8) { val := 0 })

namespace Run

/-- The layout that an ST_TILE's view and pattern give (R268): none where the first size fits no lane count. -/
def tileLayout (v : View) (pattern : Nat) : Option ImageLayout :=
  let n := v.desc.rowLen
  match Pattern.ofCode pattern with
  | none => none
  | some p =>
    let fits := (lanesWith v.desc.fmt).any (fun l =>
      if pattern = 0 then n == 512 * l else n == 2 * (512 * l) * p.kept / p.group)
    if fits then some { stored := n, depth := if pattern = 0 then n else n * p.group / p.kept, fmt := v.desc.fmt
                        codeBits := if pattern = 0 then 0 else p.codeBits }
    else none

/-- The elements of column j of a view, with its scale bytes; a column past the tensor's last holds values that the spec
does not state, which are free values. -/
def tileColumn (rq : Req) (v : View) (l : ImageLayout) (j : Nat) : Run (List Elem × List Elem) :=
  if j < v.desc.size 1 then readRow rq v j
  else do
    let es ← (List.range l.stored).mapM (fun _ => lift (fun d => d.draw l.fmt.width))
    let ss ← (List.range l.colScales).mapM (fun _ => lift (fun d => d.draw 8))
    pure (es.map (fun c => { code := c }), ss.map (fun c => { code := c }))

/-- Maxima entries read at a pointer. -/
def maxEntries (rq : Req) (ptr : Int) (n : Nat) : Run (List Elem) := do
  let bs ← vread rq ptr (2 * n)
  pure (cutElems 16 0 n bs)

/-- The tile image of columns 512 m to 512 m + 511 (R88, R132, R268). -/
def tileImage (a : StreamArgs) (v : View) (l : ImageLayout) (m : Nat) : Run (List PByte) := do
  let rq := { a.u.req with stream := v.desc.hint }
  let p := (Pattern.ofCode a.pattern).getD ⟨1, 1, 0, 1⟩
  let cols ← (List.range 512).mapM (fun j => tileColumn rq v l (512 * m + j))
  let codeCols ← if l.codeBits = 0 then pure [] else
    (List.range 512).mapM (fun j => vread a.u.req (a.codesPtr + (512 * m + j) * a.codesStride : Nat) l.colCodes)
  let value := fun (j n : Nat) => rowValue l.fmt ((cols[j]?).getD ([], [])).1 ((cols[j]?).getD ([], [])).2 n
  let bad := fun (j n : Nat) => rowPoisoned l.fmt ((cols[j]?).getD ([], [])).1 ((cols[j]?).getD ([], [])).2 n
  let colMax ← if a.maxPtr = 0 then
      pure ((List.range 512).map (fun j =>
        ({ code := (maxExpOf ((List.range l.stored).map (value j))).code
           poison := (List.range l.stored).any (bad j) } : Elem)))
    else maxEntries a.u.req (a.maxPtr + 1024 * m : Nat) 512
  let rowMax ← if a.rmaxPtr = 0 then
      pure ((List.range l.depth).map (fun k =>
        let at_ := (List.range 512).flatMap (fun j =>
          if l.codeBits = 0 then [(j, k)]
          else
            let codes := cutElems l.codeBits 0 l.stored ((codeCols[j]?).getD [])
            (List.range p.kept).filterMap (fun i =>
              let n := k / p.group * p.kept + i
              if logicalIndex p n (((codes[n]?).getD {}).code) = k then some (j, n) else none))
        ({ code := (maxExpOf (at_.map (fun x => value x.1 x.2))).code
           poison := at_.any (fun x => bad x.1 x.2) } : Elem)))
    else maxEntries a.u.req a.rmaxPtr l.depth
  pure (layOut ([cols.flatMap (fun c => packPoisoned l.fmt.width c.1), cols.flatMap (fun c => packPoisoned 8 c.2),
    maxBytes colMax, maxBytes rowMax] ++ (if l.codeBits = 0 then [] else [codeCols.flatten])))

/-- The cores that an ST_TILE names: 0 is the issuing core alone (R262). -/
def tileCores (a : StreamArgs) : List Nat :=
  if a.cores = 0 then [a.u.core] else (List.range 4).filter (fun c => bit a.cores c)

/-- One image delivered into the tail slot of every named core's queue; none of them before all are drained (R269,
R270). -/
def tileUnit (a : StreamArgs) (v : View) (l : ImageLayout) (es : List (Nat × QEntry)) (m : Nat) : Run Unit := do
  let d ← dev
  waitIf (es.any (fun (c, e) => !d.slotEmpty c e (d.tail c a.q)))
  let img ← tileImage a v l m
  es.forM (fun (c, e) => do
    let d ← dev
    let k := d.tail c a.q
    upd (fun d => d.writeMem a.u.req (e.addr c k) img)
    slotFillTo c e k e.slotLen (img.any PByte.poison) (some (a.op.id, m))
    upd (fun d => d.moveTail c a.q 1 e))
  upd (fun d => d.bump F.FD_BYTE_CNT_bytes a.u.core 0 img.length)
  if img.any PByte.poison then upd (fun d => d.raise F.FD_ERR_STATUS_poison a.u.core)
  if 1 < es.length then upd (fun d => d.bump F.FD_MCAST_CNT_images a.u.core 0 1)
  setCursor a (min v.desc.count (l.stored * 512 * (m + 1)))

/-- ST_TILE (R264, R268-R270). -/
def stTile (u : UnitId) (o : Op) : Run Unit := do
  let a ← streamArgs u o
  let d ← dev
  let cs := tileCores a
  let mask := (d.job u.ctx).mask
  faultIf (cs.any (fun c => !bit mask c)) 0x09
  faultIf (a.chain && (!cs.contains u.core || !d.isSet F.FD_CTRL_zl1_en u.core)) 0x09
  let es ← cs.mapM (fun c => do
    let d ← dev
    match d.queue c a.q with
    | some e => if e.home = 0 then pure (c, e) else fault 0x09
    | none => fault 0x09)
  required 0x09 a.dSrc
  let v ← streamView a a.dSrc 0
  keepSelects a [v]
  let fmtCode := bits (leNat ((← vsolid u.req a.dSrc 8).take 8)) 51 48
  faultIf (v.desc.rank ≠ 2 || !isOperand fmtCode || (a.pattern ≠ 0 && a.codesPtr = 0)) 0x09
  match tileLayout v a.pattern with
  | none => fault 0x09
  | some l => do
    faultIf (es.any (fun x => decide (x.2.slotLen < l.bytes))) 0x09
    let cur ← cursor a
    let n := ceilDiv (v.desc.size 1) 512
    let m0 := ceilDiv cur (max 1 (l.stored * 512))
    (List.range (n - m0)).forM (fun i => tileUnit a v l es (m0 + i))
    uncovered a v (List.range v.desc.count)

end Run

end Sys2Proof.Machine
end

