-- ==== Sys2Proof/Machine/Arrays.lean ====
section
/-!
DEFINITION. The dense arrays: operation words, tiles, passes, row checks, arbitration, retirement, exports and imports
(03_dense_arrays.md R83-R125, 04_structured_sparsity.md R129-R148, 09_conditional_computation.md R346).
-/

namespace Sys2Proof.Machine

/-- The fields of an array operation word (R95). -/
structure DaWord where
  sel : Nat
  mode : Nat
  slot : Nat
  bank : Nat
  acc : Bool
  aFmt : Nat
  wFmt : Nat
  pattern : Nat
  raw : Bool
  sat : Bool
  barrier : Bool
  keep : Bool
  rows : Nat
  src : Nat
  dst : Nat
  skipRed : Nat
  skipOut : Nat
deriving DecidableEq, Repr

/-- The word's fields (R95). -/
def DaWord.of (o : Op) : DaWord where
  sel := bits o.w0 9 8
  mode := bits o.w0 11 10
  slot := bits o.w0 13 12
  bank := bits o.w0 14 14
  acc := bit o.w0 15
  aFmt := bits o.w0 19 16
  wFmt := bits o.w0 23 20
  pattern := bits o.w0 26 24
  raw := bit o.w0 27
  sat := bit o.w0 28
  barrier := bit o.w0 29
  keep := bit o.w0 30
  rows := bits o.w0 39 32 + 1
  src := bits o.w0 47 40
  dst := bits o.w0 55 48
  skipRed := bits o.w1 31 0
  skipOut := bits o.w1 63 32

namespace DaWord

/-- The arrays of core c that a word selects (R95). -/
def arrays (w : DaWord) (c : Nat) : List Nat :=
  match w.sel with
  | 1 => [2 * c]
  | 2 => [2 * c + 1]
  | 3 => [2 * c, 2 * c + 1]
  | _ => []

/-- The engine code of a fault found in the word itself: the selected array's, the even one's for a pair (R305). -/
def engine (w : DaWord) (c : Nat) : Nat := 0x30 + (if w.sel = 2 then 2 * c + 1 else 2 * c)

/-- An array's share of the word's rows (R103). -/
def share (w : DaWord) (a : Nat) : Nat :=
  if w.sel = 3 then (if a % 2 = 0 then Run.evenShare w.rows else w.rows - Run.evenShare w.rows) else w.rows

/-- The tile layout of the word's formats and pattern (R84, R88, R132). -/
def layout (w : DaWord) : ImageLayout := .of (Fmt.ofCode w.aFmt) (Fmt.ofCode w.wFmt) w.pattern

/-- Outputs per row of a pass (R93, R138). -/
def outputs (w : DaWord) : Nat := if w.mode = 1 then w.layout.depth else 512

/-- Reduction length of a pass: elements in a streamed row (R93, R137). -/
def reduction (w : DaWord) : Nat := if w.mode = 1 then 512 else w.layout.depth

/-- The largest number of rows on one array (R93, R138). -/
def maxRows (w : DaWord) : Nat :=
  if w.mode = 1 then (if w.pattern = 0 then 128 else 64) / lanes (Fmt.ofCode w.aFmt) (Fmt.ofCode w.wFmt) else 128

/-- Whether a sparse tile occupies a pair of slots (R134). -/
def paired (w : DaWord) : Bool :=
  match lanes (Fmt.ofCode w.aFmt) (Fmt.ofCode w.wFmt), w.pattern with
  | 2, 2 => true
  | 4, 1 => true
  | 4, 2 => true
  | 4, 4 => true
  | _, _ => false

end DaWord

namespace Dev

/-- Array a is retired (R119, R120). -/
def retired (d : Dev) (a : Nat) : Bool := d.isSet F.DA_RETIRE_retired a

/-- Tile slot s of array a. -/
def tile (d : Dev) (a s : Nat) : Option Tile := Sp.get (fun _ => none) (d.array a).tiles s

/-- Tile slot s of array a replaced. -/
def setTile (d : Dev) (a s : Nat) (t : Option Tile) : Dev :=
  d.onArray a (fun x => { x with tiles := Sp.set (fun _ => none) x.tiles s t })

/-- Bank b of array a. -/
def bank (d : Dev) (a b : Nat) : Bank := Sp.get (fun _ => {}) (d.array a).banks b

/-- Bank b of array a replaced. -/
def setBank (d : Dev) (a b : Nat) (x : Bank) : Dev :=
  d.onArray a (fun y => { y with banks := Sp.set (fun _ => {}) y.banks b x })

/-- Block slot s of array a. -/
def block (d : Dev) (a s : Nat) : Option Block := Sp.get (fun _ => none) (d.array a).blocks s

/-- The retirement of an array: its registers, the health log's record and the event (R119, R120, 17 R610). -/
def retire (d : Dev) (a reason : Nat) : Dev :=
  if d.retired a then d
  else
    let d := ((d.setFld F.DA_RETIRE_reason a 0 reason).setFld F.DA_RETIRE_retired a 0 1).raise F.DA_ERR_STATUS_retired a
    let d := { d with health := d.health.retire a reason (d.fld F.DA_PASS_CNT_passes a) d.now }
    d.deviceEvent 0x8004 (leBytes 1 a ++ leBytes 1 reason)

/-- A flag on an array (R119): the pass counts of the three most recent ones, and retirement when the third most recent
lies fewer than 2^20 passes back. -/
def flag (d : Dev) (a : Nat) : Dev :=
  let p := d.fld F.DA_PASS_CNT_passes a
  let f0 := d.fld F.DA_FLAG_PASS_pass a 0
  let f1 := d.fld F.DA_FLAG_PASS_pass a 1
  let d := ((d.setFld F.DA_FLAG_PASS_pass a 0 p).setFld F.DA_FLAG_PASS_pass a 1 f0).setFld F.DA_FLAG_PASS_pass a 2 f1
  let n := (d.array a).flagCount + 1
  let d := d.onArray a (fun x => { x with flagCount := n })
  if 3 ≤ n ∧ p < f1 + 2 ^ 20 then d.retire a 1 else d

/-- An operand-buffer word found wrong (03 R124, 06 R200): counted, and where it is uncorrectable what it holds is
poisoned. -/
def bufferError (d : Dev) (a : Nat) (e : Nat × Nat × Nat × Bool) : Dev :=
  let (kind, s, i, ue) := e
  if !ue then d.bump F.DA_BUF_CE_CNT_words a 0 1
  else
    let d := (d.bump F.DA_BUF_UE_CNT_words a 0 1).raise F.DA_ERR_STATUS_operand_poison a
    let at_ := fun (l : List Bool) => l.take i ++ List.replicate (i - l.length) false ++ [true] ++ l.drop (i + 1)
    let onTile := fun (f : Tile → Tile) => d.setTile a s ((d.tile a s).map f)
    if kind = 0 then onTile (fun t => { t with elemPoison := at_ t.elemPoison })
    else if kind = 1 then
      onTile (fun t => { t with elemPoison := (List.range 32).foldl (fun l j =>
        let k := 32 * i + j; l.take k ++ List.replicate (k - l.length) false ++ [true] ++ l.drop (k + 1)) t.elemPoison })
    else if kind = 2 then onTile (fun t => { t with colPoison := at_ t.colPoison })
    else if kind = 3 then onTile (fun t => { t with rowPoison := at_ t.rowPoison })
    else if kind = 4 then onTile (fun t => { t with codePoison := at_ t.codePoison })
    else if kind = 5 then
      let spoil := fun (b : Block) =>
        { b with rows := b.rows.zipIdx.map (fun (r, j) => if j = i then { r with poison := true } else r) }
      d.onArray a (fun x =>
        { x with blocks := Sp.set (fun _ => none) x.blocks s ((Sp.get (fun _ => none) x.blocks s).map spoil) })
    else if kind = 6 then
      d.setBank a s { d.bank a s with rowPoison := Sp.set (fun _ => false) (d.bank a s).rowPoison i true }
    else d.setBank a s { d.bank a s with outPoison := Sp.set (fun _ => false) (d.bank a s).outPoison i true }

/-- The operand-buffer errors that the command meets on an array. -/
def bufferErrors (d : Dev) (a : Nat) : Dev := d.env.bufErrs.foldl (fun d e => d.bufferError a e) d

end Dev

/-! ### Tiles -/

/-- Items of a tile image cut from its bytes, with the flits' poison (R88, R123, R132). Poison takes whole 128-byte
flits as it arrives (R123, 06 R224). -/
def tileOf (w : DaWord) (src : Option (Nat × Nat)) (img : List PByte) : Tile :=
  let l := w.layout
  let bs := Dev.transit 0 img
  let section_ := fun (at_ len : Nat) => (bs.drop at_).take len
  let elems := (List.range 512).flatMap (fun j => cutElems l.fmt.width 0 l.stored (section_ (j * l.colBytes) l.colBytes))
  let scales := cutElems 8 0 (512 * l.colScales) (section_ l.scalesAt (512 * l.colScales))
  let cmax := cutElems 16 0 512 (section_ l.colMaxAt 1024)
  let rmax := cutElems 16 0 l.depth (section_ l.rowMaxAt (2 * l.depth))
  let codeBytes := if l.codeBits = 0 then [] else section_ l.codesAt (512 * l.colCodes)
  let codes := if l.codeBits = 0 then [] else
    (List.range 512).flatMap (fun j => cutElems l.codeBits 0 l.stored ((codeBytes.drop (j * l.colCodes)).take l.colCodes))
  { aFmt := w.aFmt, wFmt := w.wFmt, pattern := w.pattern, src
    elems := elems.map Elem.code, scales := scales.map Elem.code, colMax := cmax.map Elem.code
    rowMax := rmax.map Elem.code, codes := codes.map Elem.code, filler := []
    elemPoison := elems.zipIdx.map (fun (e, i) =>
      e.poison || (l.fmt.isMx && ((scales[i / 32]?).map Elem.poison).getD false))
    colPoison := cmax.map Elem.poison, rowPoison := rmax.map Elem.poison, codePoison := codeBytes.map PByte.poison }

/-- Whether stored value n of a column is chaff: its code is not greater than the one before it in its group (R143). -/
def isChaff (p : Pattern) (codes : List Nat) (n : Nat) : Bool :=
  n % p.kept != 0 && decide ((codes[n]?).getD 0 ≤ (codes[n - 1]?).getD 0)

/-- The physical position of a stored value in the cells (R131). -/
def physicalPosition (pattern n : Nat) : Nat := if pattern = 3 then 2 * n else if pattern = 4 then 4 * (n / 2) + n % 2 else n

/-- Whether a sparse tile is transposable (R140): every aligned block of M indices and M columns keeps each index in at
most N' columns. Chaff values are not counted. -/
def transposable (p : Pattern) (l : ImageLayout) (codes : List Nat) (filler : List Bool) : Bool :=
  let kept := (List.range 512).map (fun j =>
    ((List.range l.stored).filter (fun n => !(filler[j * l.stored + n]?).getD false)).map (fun n =>
      logicalIndex p n ((codes[j * l.stored + n]?).getD 0)))
  (List.range (512 / p.group)).all (fun jb =>
    let ks := ((kept.drop (jb * p.group)).take p.group).flatten
    (List.range l.depth).all (fun k => decide ((ks.filter (· = k)).length ≤ p.cellPositions)))

/-- A tile with its chaff replaced by zero and marked as filler, and its transposable mark; the chaff values' columns
and numbers come with it (R141, R143, R144). -/
def dropChaff (w : DaWord) (t : Tile) : Tile × List (Nat × Nat) :=
  match Pattern.ofCode w.pattern with
  | none => (t, [])
  | some p =>
    if w.pattern = 0 then (t, [])
    else
      let l := w.layout
      let marks : List Bool := (List.range 512).flatMap (fun j =>
        let cs := (t.codes.drop (j * l.stored)).take l.stored
        (List.range l.stored).map (fun n => isChaff p cs n))
      let found := (marks.zipIdx.filter (fun (e : Bool × Nat) => e.1)).map (fun e => (e.2 / l.stored, e.2 % l.stored))
      let t := { t with filler := marks, elems := (t.elems.zip marks).map (fun (x : Nat × Bool) => if x.2 then 0 else x.1)
                        chaff := found.length }
      ({ t with transposable := transposable p l t.codes marks }, found)

namespace Dev

/-- A tile written into a slot of an array, with the chaff it held counted (R97, R135, R144). -/
def loadTile (d : Dev) (a ctx : Nat) (w : DaWord) (t : Tile) (chaff : List (Nat × Nat)) : Dev :=
  -- a load into either slot of a pair invalidates the paired tile
  let d := if w.slot % 2 = 1 then (match d.tile a w.slot with | some x => if x.codesOnly then d.setTile a (w.slot - 1) none else d
                                                              | none => d)
    else (match d.tile a (w.slot + 1) with | some x => if x.codesOnly then d.setTile a (w.slot + 1) none else d | none => d)
  let d := d.setTile a w.slot (some t)
  let d := if w.paired then d.setTile a (w.slot + 1) (some { codesOnly := true, pattern := 7 }) else d
  match chaff with
  | [] => d
  | (j, n) :: _ =>
    let d := if d.isSet F.DA_SP_ERR_chaff a then d else
      d.wr .DA_SP_CHAFF_INFO a 0 (physicalPosition w.pattern n * 2 ^ 32 + j * 2 ^ 16 + ctx % 16 * 2 ^ 8 + w.slot)
    (d.bump F.DA_SP_CHAFF_CNT_values a 0 chaff.length).raise F.DA_SP_ERR_chaff a

end Dev

namespace Run

/-- What every array operation checks in its word (R94-R96, R120): the engine code of its faults is the selected
array's. -/
def daWord (u : UnitId) (o : Op) : Run DaWord := do
  let w := DaWord.of o
  let eng := w.engine u.core
  faultAt (w.sel = 0 || bit o.w0 31 || bits o.w0 63 56 ≠ 0) 0x06 eng
  let d ← dev
  let dead := fun a => d.retired a
  faultAt (dead (2 * u.core) && dead (2 * u.core + 1)) 0x07 eng
  faultAt (w.sel ≠ 3 && (w.arrays u.core).any dead) 0x07 eng
  pure w

/-- A queue of an array operation: every fault of it carries cause 0x06 (R96). -/
def daQueue (u : UnitId) (w : DaWord) (q : Nat) (homes : List Nat) : Run QEntry := do
  let d ← dev
  match d.queue u.core q with
  | none => stop (.fatal 0x06 0 0 0 (some (w.engine u.core)))
  | some e => if homes.contains e.home then pure e else stop (.fatal 0x06 0 0 0 (some (w.engine u.core)))

/-- The arrays' bridges: operands come over link a, results leave over link 8 + a (01 R24); a request over a failed one is
answered with PATH_ERR (01 R34, log entry 25). -/
def daLink (u : UnitId) (w : DaWord) (base addr : Nat) : Run Unit := do
  let d ← dev
  match (w.arrays u.core).find? (fun a => !d.retired a && (d.failedOn [base + a]).isSome) with
  | none => pure ()
  | some a => do
    upd (fun d => d.fabError { u.req with die := .vd u.core } (d.deviceId * 2 ^ 48 + addr) 6 (some (base + a)))
    stop (.fatal 0x0F 0 addr 6 (some (w.engine u.core)))

/-- DA_TILE (R97, R130, R135, R144). -/
def daTile (u : UnitId) (o : Op) : Run Unit := do
  let w ← daWord u o
  let eng := w.engine u.core
  faultAt (w.mode = 3 || !isOperand w.aFmt || !isOperand w.wFmt || decide (5 ≤ w.pattern) || (w.mode = 2 && w.pattern ≠ 0)
    || (w.paired && w.slot % 2 = 1)) 0x06 eng
  let e ← daQueue u w w.src [0]
  daLink u w 0 (e.addr u.core 0)
  let d ← dev
  let k := d.head u.core w.src
  let src := ((e.keys u.core k).head?.map (fun x => (d.slot x).src)).getD none
  let img ← slotRead u e k 0 w.layout.bytes
  let (t, chaff) := dropChaff w (tileOf w src img)
  let dirty := img.any PByte.poison
  (w.arrays u.core).forM (fun a => do
    upd (fun d => (d.loadTile a u.ctx w t chaff).raiseIf dirty F.DA_ERR_STATUS_operand_poison a)
    upd (fun d => d.bufferErrors a))
  upd (fun d => d.drainHead u.core w.src e)

/-! ### Passes -/

/-- Streamed row i of a block as a pass of a format and length reads it: the row's elements and scales, cut again from
the block's bytes where the unit was laid out otherwise. Bytes past the unit are not stated and are free values
(R90, 07 R249). -/
def streamedRow (b : Block) (f : Fmt) (len i : Nat) : Run (List Nat × List Nat) := do
  let bf := Fmt.ofCode b.fmt
  let row := (b.rows[i]?).getD ({} : BlockRow)
  if b.rowLen = len ∧ bf.width = f.width ∧ (row.scales.length = ceilDiv len 32 ∨ !f.isMx) then
    pure (row.elems, row.scales)
  else do
    let bytes := b.rows.flatMap (fun r => packElems bf.width r.elems)
    let sbytes := b.rows.flatMap (fun r => r.scales)
    let rowBytes := f.packed len
    let es ← (List.range len).mapM (fun j =>
      if i * rowBytes * 8 + (j + 1) * f.width ≤ bytes.length * 8 then pure (elemBits f.width (bytes.drop (i * rowBytes)) j)
      else lift (fun d => d.draw f.width))
    let ns := if f.isMx then ceilDiv len 32 else 0
    let ss ← (List.range ns).mapM (fun j =>
      match sbytes[i * ns + j]? with
      | some s => pure s
      | none => lift (fun d => d.draw 8))
    pure (es, ss)

end Run

/-- A tile's stored value n of column j. -/
def tileValue (t : Tile) (l : ImageLayout) (j n : Nat) : Num :=
  let c := (t.elems[j * l.stored + n]?).getD 0
  if l.fmt.isMx then l.fmt.decodeMx ((t.scales[j * l.colScales + n / 32]?).getD 0) c else l.fmt.decode c

/-- The products of output x in a mode: streamed index, column and stored value (R83, R93, R131, R137, R138). Filler
positions form none (R136), and neither do masked blocks (R99, R139). -/
def passTerms (w : DaWord) (t : Tile) (x : Nat) : List (Nat × Nat × Nat) :=
  let l := w.layout
  let p := (Pattern.ofCode w.pattern).getD ⟨1, 1, 0, 1⟩
  let live := fun (j n : Nat) => !(t.filler[j * l.stored + n]?).getD false
  let code := fun (j n : Nat) => (t.codes[j * l.stored + n]?).getD 0
  let redBlock := if w.mode ≠ 1 ∧ w.pattern ≠ 0 then 128 else 64
  let all := if w.mode = 1 then
      (List.range 512).flatMap (fun j =>
        if w.pattern = 0 then [(j, j, x)]
        else (List.range p.kept).filterMap (fun i =>
          let n := x / p.group * p.kept + i
          if live j n ∧ logicalIndex p n (code j n) = x then some (j, j, n) else none))
    else
      (List.range l.stored).filterMap (fun n =>
        if w.pattern = 0 then some (n, x, n)
        else if live x n then some (logicalIndex p n (code x n), x, n) else none)
  all.filter (fun e => !bit w.skipRed (e.1 / redBlock))

/-- Output x takes part in the pass (R99, R139). -/
def outputLive (w : DaWord) (x : Nat) : Bool :=
  !bit w.skipOut (x / (if w.mode = 1 ∧ w.pattern ≠ 0 then 128 else 64))

/-- The stated stationary maximum of output x: col_max, or row_max in DX mode (R88, R93). -/
def stationaryMax (w : DaWord) (t : Tile) (x : Nat) : MaxExp :=
  .ofCode (((if w.mode = 1 then t.rowMax else t.colMax)[x]?).getD 0x8000)

/-- Groups of a code byte of a column: the codes that lie in it (R133). -/
def codesInByte (codeBits b : Nat) : List Nat :=
  if codeBits = 2 then (List.range 4).map (fun i => 4 * b + i)
  else (List.range 8).filterMap (fun i =>
    let lo := 24 * (b / 3) + 3 * i
    if lo / 8 = b ∨ (lo + 2) / 8 = b then some (8 * (b / 3) + i) else none)

/-- Whether the tile's poison poisons output x (R123, R148). -/
def outputPoisoned (w : DaWord) (t : Tile) (x : Nat) : Bool :=
  let l := w.layout
  let p := (Pattern.ofCode w.pattern).getD ⟨1, 1, 0, 1⟩
  ((if w.mode = 1 then t.rowPoison else t.colPoison)[x]?).getD false
  || (passTerms w t x).any (fun e => (t.elemPoison[e.2.1 * l.stored + e.2.2]?).getD false)
  || (l.codeBits ≠ 0 && (t.codePoison.zipIdx.any (fun (bad, i) => bad &&
      (if w.mode = 1 then
        (codesInByte l.codeBits (i % l.colCodes)).any (fun n => decide (n / p.kept = x / p.group))
      else decide (i / l.colCodes = x)))))

/-- What one streamed row adds to an output, and whether one of its products raises invalid (R72, R673). -/
def rowOutput (w : DaWord) (t : Tile) (a : Nat → Num) (ea : MaxExp) (x : Nat) : Acc × Bool :=
  let l := w.layout
  let ew := stationaryMax w t x
  (passTerms w t x).foldl (fun (acc, inv) e =>
    let v := a e.1
    let s := tileValue t l e.2.1 e.2.2
    (acc.addProduct ea ew v s, inv || Acc.invalidProduct v s)) (Acc.start ea ew, false)

/-- The exact magnitude sum of a row: |a| times |w| over the products it forms (R112). -/
def rowMagnitude (w : DaWord) (t : Tile) (a : Nat → Num) : Num :=
  (List.range w.outputs).foldl (fun m x =>
    if outputLive w x then (passTerms w t x).foldl (fun m e => m.add ((a e.1).mul (tileValue t w.layout e.2.1 e.2.2)).abs) m
    else m) .zero

/-- The exact change that a set of differences makes to a row's outputs, and the row's tolerance T(i) and mag(i) (R113,
R115). A change above the upper limit always fails; the magnitude's own rounding is at most 2^-10 of it (R147). -/
def surelyFails (t : Nat) (e mag : Num) (amax : MaxExp) : Bool :=
  let tol : Num := ((match amax with | none => Num.zero | some a => .fin false 1 (a - 43)).add (.fin false 1 (-136))).scale 1
  let top := (mag.mul (.fin false 1025 (-10))).scale (1 - (t : Int))
  Num.lt (top.add tol) e.abs

/-- What a row check finds (R113-R116). -/
inductive Verdict where
  | pass | fail | skipped
deriving DecidableEq, Repr

namespace Dev

/-- The tolerance exponent in force (R113, R147). -/
def tolerance (d : Dev) (a : Nat) (w : DaWord) : Nat :=
  let t := min 11 (max 4 (d.fld F.DA_CHK_TOL_t a))
  if w.pattern ≠ 0 ∧ lanes (Fmt.ofCode w.aFmt) (Fmt.ofCode w.wFmt) = 4 then min t 10 else t

/-- The check of one row (R113-R116, R674): `good` are the contributions as the row's operands define them, `bad` those
that the array formed. -/
def rowVerdict (d : Dev) (a row : Nat) (w : DaWord) (mag : Num) (good bad : List Acc) (poisoned faulty : Bool) : Verdict :=
  let magCode := (FpFormat.fp32.convert .rup false mag).1
  let odd := fun (x : Acc) => x.nan || x.pinf || x.ninf || x.viol
  if !d.isSet F.DA_CTRL_chk_en a || poisoned || mag.isNonfinite || (ofFp32 magCode).isNonfinite || bad.any odd then .skipped
  else if faulty then .fail
  else if good = bad then .pass
  else
    let val := fun (x : Acc) => (if x.empty then Num.zero else .fin (decide (x.sum < 0)) x.sum.natAbs (x.anchor - 64))
    let e := (good.zip bad).foldl (fun (s : Num) (g, b) => s.add ((val b).sub (val g))) .zero
    let amax := bad.foldl (fun m (x : Acc) => m.max (if x.empty then none else some x.anchor)) none
    if surelyFails (d.tolerance a w) e mag amax then .fail
    else if Config.checkVerdict (d.fld F.DA_PASS_CNT_passes a) row then .fail else .pass

/-- A unit read by a bank's passes, entered in its block record: an entry covers a contiguous range of units of one
operation; more than 32 entries, or a unit that no stream filled, make the bank unreplayable (07 R280, R281). -/
def recordUnit (b : Bank) (src : Option (Nat × Nat)) : Bank :=
  match src with
  | none => { b with unreplayable := true }
  | some (id, n) =>
    if b.record.any (fun r => r.opId = id ∧ r.first ≤ n ∧ n < r.first + r.count) then b
    else if b.record.any (fun r => r.opId = id ∧ n = r.first + r.count) then
      { b with record := b.record.map (fun r => if r.opId = id ∧ n = r.first + r.count then { r with count := r.count + 1 } else r) }
    else if 32 ≤ b.record.length then { b with unreplayable := true }
    else { b with record := b.record ++ [{ opId := id, first := n, count := 1 }] }

/-- The accumulators of a pass's rows combined into a bank's (R80, R81, R98); the second component says whether anchors
differed. -/
def combineInto (acc : List (Nat × Acc)) (parts : List (Nat × Acc)) : List (Nat × Acc) × Bool :=
  parts.foldl (fun (t, mis) (k, x) =>
    let (y, m) := Acc.combine (Sp.get (fun _ => ({} : Acc)) t k) x
    (Sp.set (fun _ => ({} : Acc)) t k y, mis || m)) (acc, false)

/-- The wrong bits that an array puts into the accumulators of a pass. -/
def upset (d : Dev) (a : Nat) (parts : List (Nat × Acc)) : List (Nat × Acc) :=
  parts.map (fun (k, x) =>
    match d.env.upsets.find? (fun e => e.1 = a ∧ e.2.1 = k) with
    | some e => (k, Acc.ofWord (x.toWord ^^^ e.2.2))
    | none => (k, x))

/-- One pass on one array (R98, R99, R112-R116): `rows` are the rows its block delivered, `unit` the block's source. -/
def runPass (d : Dev) (a : Nat) (w : DaWord) (t : Tile) (rows : List (Nat × BlockRow × List Nat × List Nat))
    (unit : Option (Nat × Nat)) (audit : Nat × Nat × Nat) : Flags × Dev :=
  let n := w.outputs
  let f := Fmt.ofCode w.aFmt
  let xs := (List.range n).filter (outputLive w)
  let b0 := d.bank a w.bank
  let b := if w.acc then (if b0.started then b0 else { b0 with started := true, outputs := n })
    else ({ started := true, outputs := n } : Bank)
  let b := { b with rows := max b.rows (w.share a), busy := true, passes := b.passes + 1
                    chaff := b.chaff + (if t.src.isSome && (recordUnit b t.src).record == b.record then 0 else t.chaff)
                    audit := b.audit ||| audit.1
                    auditAt := if audit.1 = 0 then b.auditAt else b.auditAt ++ [(audit.2.1, audit.2.2, audit.1)] }
  let b := recordUnit (recordUnit b t.src) unit
  let badOut := xs.filter (outputPoisoned w t)
  let rowPoison := rows.foldl (fun p r => if r.2.1.poison then Sp.set (fun _ => false) p r.1 true else p) b.rowPoison
  let b := { b with outPoison := badOut.foldl (fun p x => Sp.set (fun _ => false) p x true) b.outPoison, rowPoison }
  let results := rows.map (fun (i, r, es, ss) =>
    let v := fun k => if f.isMx then f.decodeMx ((ss[k / 32]?).getD 0) ((es[k]?).getD 0) else f.decode ((es[k]?).getD 0)
    let outs := xs.map (fun x => (i * n + x, rowOutput w t v (.ofCode r.rowMax) x))
    (i, r, rowMagnitude w t v, outs))
  let good := results.flatMap (fun (_, _, _, outs) => outs.map (fun (k, x) => (k, x.1)))
  let bad := d.upset a good
  let sum := combineInto b.acc bad
  let verdicts := results.map (fun (i, r, mag, _) =>
    let mine := fun (l : List (Nat × Acc)) =>
      (l.filter (fun (e : Nat × Acc) => decide (i * n ≤ e.1) && decide (e.1 < i * n + n))).map Prod.snd
    d.rowVerdict a i w mag (mine good) (mine bad) (r.poison || !badOut.isEmpty) (d.env.checkFaults.contains (a, i)))
  let fails := (verdicts.filter (· = .fail)).length
  let skips := (verdicts.filter (· = .skipped)).length
  let b := { b with acc := sum.1, redo := (combineInto b.redo good).1, suspect := b.suspect || decide (0 < fails) }
  let d := (d.setBank a w.bank b).bump F.DA_PASS_CNT_passes a 0 1
  let d := ((d.bump F.DA_CHK_FAIL_CNT_rows a 0 fails).raiseIf (decide (0 < fails)) F.DA_ERR_STATUS_chk_fail a).bump
    F.DA_CHK_SKIP_CNT_rows a 0 skips
  let d := d.raiseIf (!badOut.isEmpty || rows.any (fun r => r.2.1.poison)) F.DA_ERR_STATUS_operand_poison a
  ({ invalid := results.any (fun (_, _, _, outs) => outs.any (fun e => e.2.2))
     anchorViolation := bad.any (fun e => e.2.viol), anchorMismatch := sum.2 }, d)

end Dev

namespace Dev

/-- The barrier release that a DA_PASS waits for, when it has occurred: that of the armed COL_BARRIER issued most
recently before the pass, or of the first one for a pass issued before any (R110, 12 R458). A COL_BARRIER issued
earlier that has not started yet may turn out to be armed. -/
def passRelease (d : Dev) (c id : Nat) : Option Nat :=
  let k := d.core c
  let pass := id % 2 ^ 48
  if k.waiting.any (fun o => decide (o.id < pass) && o.opcode == 0x76) then none
  else
    match ((k.armed.filter (fun b => decide (b.1 < pass))).getLast?).orElse (fun _ => k.armed.head?) with
    | some (id, true) => some id
    | _ => none

/-- A barrier-gated pass may start on an array: the release has occurred and its stagger has elapsed (R110). -/
def barrierOpen (d : Dev) (a : Nat) (o : Op) : Bool :=
  match d.passRelease (a / 2) o.id with
  | none => false
  | some id => !d.isSet F.DA_CTRL_stagger_en a || (d.array a).staggered.contains id

end Dev

namespace Run

/-- What a DA_PASS needs before it starts on an array: its tile in the shadow registers, the column groups ungated,
and, behind a barrier, the release and its stagger (R89, R98, R108, R110). -/
def passReady (o : Op) (w : DaWord) (a : Nat) : Run Unit := do
  let d ← dev
  let x := d.array a
  waitIf (w.barrier && !d.barrierOpen a o)
  waitIf (x.groups ≠ 8)
  waitIf (match x.shadow with | some (s, _) => s ≠ w.slot | none => true)

/-- DA_PASS (R98, R99, R103, R130, R141). -/
def daPass (u : UnitId) (o : Op) : Run Unit := do
  let w ← daWord u o
  let eng := w.engine u.core
  faultAt (w.mode = 3 || !isOperand w.aFmt || !isOperand w.wFmt || decide (5 ≤ w.pattern) || (w.mode = 2 && w.pattern ≠ 0)
    || (w.sel ≠ 3 && decide (128 < w.rows))) 0x06 eng
  let e ← daQueue u w w.src [w.sel]
  daLink u w 0 (coreMemBase u.core)
  let as := w.arrays u.core
  as.forM (fun a => do
    let d ← dev
    let ea := 0x30 + a
    match d.tile a w.slot with
    | none => stop (.fatal 0x06 0 0 0 (some ea))
    | some t => do
      faultAt (t.codesOnly || t.aFmt ≠ w.aFmt || t.wFmt ≠ w.wFmt || t.pattern ≠ w.pattern) 0x06 ea
      if w.mode = 1 ∧ w.pattern ≠ 0 ∧ !t.transposable then do
        upd (fun d => d.raise F.DA_SP_ERR_dx_nontransposable a)
        stop (.fatal 0x06 0 0 0 (some ea))
    let b := d.bank a w.bank
    faultAt (decide (w.maxRows < w.share a) || decide (65536 < w.share a * w.outputs)
      || (w.acc && b.started && b.outputs ≠ w.outputs)) 0x06 ea)
  let d ← dev
  let k := d.head u.core w.src
  let span := d.unitSpan u.core e k
  waitIf ((List.range span).any (fun i => !d.slotFull u.core e ((k + i) % e.count)))
  as.forM (passReady o w)
  let fls ← as.mapM (fun a => do
    upd (fun d => d.bufferErrors a)
    let d ← dev
    let s := ((e.blocks u.core k).find? (fun x => x.1 = a)).map Prod.snd
    let key := 16384 + 8 * a + s.getD 0
    let blk := (s.bind (fun s => d.block a s)).getD {}
    let lost := (d.slot key).lost
    let n := min (w.share a) blk.rows.length
    let rows ← (List.range n).mapM (fun i => do
      let (es, ss) ← streamedRow blk (Fmt.ofCode w.aFmt) w.reduction i
      let r := (blk.rows[i]?).getD {}
      pure (i, { r with poison := r.poison || lost }, es, ss))
    let t := (((d.array a).shadow).map Prod.snd).getD {}
    upd (fun d => d.onArray a (fun x => { x with shadow := none, ramp := .running }))
    lift (fun d => d.runPass a w t rows (d.slot key).src o.audit))
  upd (fun d => d.reportFlags u.ctx (Flags.orAll fls))
  if !w.keep then upd (fun d => d.drainHead u.core w.src e)

end Run

/-! ### Arbitration (R117-R119) -/

namespace Dev

/-- What the recomputation of a bank gives: the accumulators as its operands define them, with the bits that the
partner gets wrong. -/
def recomputed (d : Dev) (b : Bank) : List (Nat × Acc) :=
  d.env.redoUpsets.foldl (fun t e =>
    Sp.set (fun _ => ({} : Acc)) t e.1 (Acc.ofWord ((Sp.get (fun _ => ({} : Acc)) t e.1).toWord ^^^ e.2))) b.redo

/-- The arbitration of a suspect bank (R117, 07 R280, R281): whether all of the export is poisoned, and the bank as it is
exported. The array's own bank stays as it is. -/
def arbitrate (d : Dev) (a bk : Nat) : (Bool × Bank) × Dev :=
  let b := d.bank a bk
  let p := if a % 2 = 0 then a + 1 else a - 1
  let c := a / 2
  let poison := fun (d : Dev) =>
    ((d.bump F.DA_ARB_CNT_poison a 0 1).raise F.DA_ERR_STATUS_arb_poison a).flag a
  if !b.suspect then ((false, b), d)
  else if b.unreplayable then ((true, b), poison (d.raise F.FD_ERR_STATUS_record_ovf c))
  else if d.retired p || !d.isSet F.DA_CTRL_arb_en a then ((true, b), poison d)
  else
    let d := d.bump F.FD_REFETCH_CNT_units c 0 (b.record.foldl (fun s r => s + r.count) 0)
    if d.env.refetchError then ((true, b), poison d)
    else
      let pb := d.recomputed b
      let d := (d.bump F.DA_PASS_CNT_passes p 0 b.passes).bump F.DA_SP_CHAFF_CNT_values p 0 b.chaff
      let d := d.raiseIf (decide (0 < b.chaff)) F.DA_SP_ERR_chaff p
      let failed := d.env.redoUpsets.any (fun e => Config.checkVerdict (d.fld F.DA_PASS_CNT_passes p) (e.1 / max 1 b.outputs))
      if pb = b.acc then
        ((false, b), ((d.bump F.DA_ARB_CNT_checker a 0 1).raise F.DA_ERR_STATUS_arb_checker a).flag a)
      else if !failed then
        ((false, { b with acc := pb }), ((d.bump F.DA_ARB_CNT_array a 0 1).raise F.DA_ERR_STATUS_arb_array a).flag a)
      else ((true, b), (poison d).flag p)

/-- The outputs of a bank's rows as an export writes them: code or raw word, poison and flags (R75-R77, R100). -/
def exportElem (b : Bank) (w : DaWord) (allBad : Bool) (r x : Nat) : Elem × Flags :=
  let acc := Sp.get (fun _ => ({} : Acc)) b.acc (r * b.outputs + x)
  let bad := allBad || Sp.get (fun _ => false) b.rowPoison r || Sp.get (fun _ => false) b.outPoison x
  if w.raw then ({ code := acc.toWord, poison := bad }, .none)
  else
    let (c, f) := acc.output (Fmt.ofCode w.wFmt) w.sat
    ({ code := c, poison := bad }, f)

/-- The audited blocks of a bank that miss (09 R346): a row's value, rounded to FP32, is above the threshold or NaN. -/
def auditMisses (d : Dev) (c : Nat) (b : Bank) (rows : Nat) : List Nat :=
  let thr := ofFp32 (d.fld F.WLK_AUDIT_thr c)
  (List.range 64).filter (fun k => bit b.audit k && (List.range rows).any (fun r => (List.range 64).any (fun i =>
    let x := 64 * k + i
    decide (x < b.outputs) &&
      (let v := ofFp32 ((Sp.get (fun _ => ({} : Acc)) b.acc (r * b.outputs + x)).output .fp32 false).1
       v.isNaN || Num.lt thr v))))

end Dev

namespace Run

/-- Missed blocks reported: the entry's miss bits, the counter and the leaf (09 R346). -/
def reportMisses (u : UnitId) (b : Bank) (misses : List Nat) : Run Unit := do
  b.auditAt.forM (fun (entry, off, mask) => do
    let mine := misses.filter (fun k => bit mask k)
    mine.forM (fun k => do
      let i := off + k
      let va := entry + 0xC0 + i / 8
      let old ← vread u.req va 1
      let v := leNat (old.map PByte.val)
      vwrite u.req va [{ val := BitVec.ofNat 8 (v ||| 2 ^ (i % 8)), poison := old.any PByte.poison }]))
  if !misses.isEmpty then
    upd (fun d => (d.bump F.WLK_MISS_CNT_blocks u.core 0 misses.length).raise F.WLK_ERR_STATUS_miss u.core)

/-- DA_EXPORT (R100, R103, R117, 09 R346). -/
def daExport (u : UnitId) (o : Op) : Run Unit := do
  let w ← daWord u o
  let eng := w.engine u.core
  faultAt ((!w.raw && !([0, 1, 2, 3, 4, 0xC].contains w.wFmt)) || (w.sel ≠ 3 && decide (128 < w.rows))) 0x06 eng
  let e ← daQueue u w w.dst [0]
  daLink u w 8 (e.addr u.core 0)
  let as := w.arrays u.core
  let d ← dev
  let width := if w.raw then 128 else (Fmt.ofCode w.wFmt).width
  let size := as.foldl (fun n a => n + w.share a * (d.bank a w.bank).outputs) 0 * width / 8
  faultAt (decide (e.slotLen < size)) 0x06 eng
  waitIf (!d.slotEmpty u.core e (d.tail u.core w.dst))
  let parts ← as.mapM (fun a => do
    upd (fun d => d.bufferErrors a)
    let (allBad, b) ← lift (fun d => d.arbitrate a w.bank)
    let d ← dev
    pure (a, b, allBad, d.auditMisses u.core b (w.share a)))
  let makeup := (← dev).isSet F.WLK_AUDIT_makeup u.core
  let missed := (parts.flatMap (fun p => p.2.2.2)).eraseDups
  let outs := parts.flatMap (fun (a, b, allBad, _) =>
    (List.range (w.share a)).flatMap (fun r => (List.range b.outputs).map (fun x =>
      if bit b.audit (x / 64) ∧ ¬ (makeup ∧ missed.contains (x / 64)) then
        (({ code := if w.raw then ({} : Acc).toWord else 0 } : Elem), Flags.none)
      else Dev.exportElem b w allBad r x)))
  parts.forM (fun (_, b, _, misses) => reportMisses u b (misses.filter (fun k => missed.contains k)))
  produce u w.dst e (packPoisoned width (outs.map Prod.fst))
  upd (fun d => as.foldl (fun d a => d.setBank a w.bank { d.bank a w.bank with busy := false }) d)
  upd (fun d => d.reportFlags u.ctx (Flags.orAll (outs.map Prod.snd)))

/-- DA_IMPORT (R101). -/
def daImport (u : UnitId) (o : Op) : Run Unit := do
  let w ← daWord u o
  let eng := w.engine u.core
  faultAt (w.mode = 3 || !isOperand w.aFmt || !isOperand w.wFmt || decide (5 ≤ w.pattern) || (w.mode = 2 && w.pattern ≠ 0)
    || (w.sel ≠ 3 && decide (128 < w.rows))) 0x06 eng
  let e ← daQueue u w w.src [0]
  daLink u w 0 (e.addr u.core 0)
  let as := w.arrays u.core
  let n := w.outputs
  as.forM (fun a => do
    let d ← dev
    let b := d.bank a w.bank
    faultAt (decide (65536 < w.share a * n) || (w.mode = 1 && decide (w.maxRows < w.share a))
      || (w.acc && b.started && b.outputs ≠ n)) 0x06 (0x30 + a))
  faultAt (decide (e.slotLen < w.rows * n * 16)) 0x06 eng
  let d ← dev
  let k := d.head u.core w.src
  let src := ((e.keys u.core k).head?.map (fun x => (d.slot x).src)).getD none
  let bs ← slotRead u e k 0 (w.rows * n * 16)
  let es := cutElems 128 0 (w.rows * n) (Dev.transit 0 bs)
  let fls ← as.mapM (fun a => do
    let d ← dev
    let first := if w.sel = 3 ∧ a % 2 = 1 then evenShare w.rows else 0
    let mine := (es.drop (first * n)).take (w.share a * n)
    let parts := mine.zipIdx.map (fun (x, i) => (i, Acc.ofWord x.code))
    let b0 := d.bank a w.bank
    let b := if w.acc then (if b0.started then b0 else { b0 with started := true, outputs := n })
      else ({ started := true, outputs := n } : Bank)
    let sum := Dev.combineInto b.acc parts
    let bad := mine.zipIdx.filter (fun (x, _) => x.poison)
    let b := Dev.recordUnit { b with acc := sum.1, redo := (Dev.combineInto b.redo parts).1, busy := true, rows := max b.rows (w.share a)
                                     outPoison := bad.foldl (fun p (_, i) => Sp.set (fun _ => false) p (i % n) true) b.outPoison } src
    upd (fun d => (d.setBank a w.bank b).raiseIf (!bad.isEmpty) F.DA_ERR_STATUS_operand_poison a)
    pure ({ anchorMismatch := sum.2 } : Flags))
  upd (fun d => d.drainHead u.core w.src e)
  upd (fun d => d.reportFlags u.ctx (Flags.orAll fls))

/-- DA_SYNC (R102): every operation of the arrays is complete when the one before it is. -/
def daSync (u : UnitId) (o : Op) : Run Unit := do
  let _ ← daWord u o
  pure ()

end Run

/-! ### Events of an array -/

namespace Dev

/-- The pass that array a runs next: the head DA_PASS that names it, in the order in which the execute engine looks at
its task lists (R89, 07 R244). -/
def nextPass (d : Dev) (a : Nat) : Option (Op × DaWord) :=
  let c := a / 2
  (List.range 8).findSome? (fun i =>
    match d.tasks c (((d.core c).runTask + i) % 8) with
    | [] => none
    | o :: _ => if o.opcode = 0x21 ∧ ((DaWord.of o).arrays c).contains a then some (o, DaWord.of o) else none)

/-- TILE_SHADOW_COPY (R89, R136): the tile of the next pass goes from its slot into the shadow registers. -/
def shadowCopy (d : Dev) (a : Nat) : Dev :=
  match d.nextPass a with
  | none => d
  | some (_, w) =>
    match d.tile a w.slot with
    | none => d
    | some t => if d.coreRuns (a / 2) && !t.codesOnly then d.onArray a (fun x => { x with shadow := some (w.slot, t) }) else d

/-- Whether the next pass of array a is ready but for its column groups (R108). -/
def rampDue (d : Dev) (a : Nat) : Bool :=
  match d.nextPass a with
  | none => false
  | some (o, w) =>
    let c := a / 2
    let x := d.array a
    let blockFull := match d.queue c w.src with
      | none => false
      | some e => (List.range (d.unitSpan c e (d.head c w.src))).all (fun i => d.slotFull c e ((d.head c w.src + i) % e.count))
    d.coreRuns c && blockFull && (x.shadow.map Prod.fst == some w.slot) &&
      (!w.barrier || d.barrierOpen a o)

/-- START_RAMP (R108): the column groups still gated are ungated, lowest first, and the array runs. -/
def startRamp (d : Dev) (a : Nat) : Dev :=
  let x := d.array a
  if !d.rampDue a || x.groups = 8 then d
  else
    let d := if x.groups = 0 then d.bump F.DA_RAMP_CNT_starts a 0 1 else d
    d.onArray a (fun x => { x with groups := 8, ramp := .running })

/-- STOP_RAMP (R109): an array with no pass ready gates `n` groups, highest first; the ramp ends when all are gated. -/
def stopRamp (d : Dev) (a n : Nat) : Dev :=
  let x := d.array a
  if d.rampDue a || x.groups = 0 then d
  else
    let left := x.groups - n
    d.onArray a (fun x => { x with groups := left, ramp := if left = 0 then .gated else .rampingDown })

/-- BARRIER_STAGGER_START (R110): the 8a cycles since the release that array a's next barrier-gated pass waits for have
passed. -/
def staggerStart (d : Dev) (a : Nat) : Dev :=
  match d.nextPass a with
  | none => d
  | some (o, w) =>
    match d.passRelease (a / 2) o.id with
    | some id => if w.barrier ∧ ¬ (d.array a).staggered.contains id then d.onArray a (fun x => { x with staggered := x.staggered ++ [id] }) else d
    | none => d

/-- DA_STATUS (R126). -/
def daStatus (d : Dev) (a : Nat) : Nat :=
  let x := d.array a
  let sum := fun (n : Nat) (f : Nat → Bool) => (List.range n).foldl (fun s i => s + b2n (f i) * 2 ^ i) 0
  let st := if d.retired a then 5 else if x.arbitrating then 4 else
    match x.ramp with | .gated => 0 | .rampingUp => 1 | .running => 2 | .rampingDown => 3
  sum 8 (fun s => (d.slot (16384 + 8 * a + s)).full) * 2 ^ 16 + sum 2 (fun b => (d.bank a b).suspect) * 2 ^ 10
    + sum 2 (fun b => (d.bank a b).busy) * 2 ^ 8 + sum 4 (fun s => (d.tile a s).isSome) * 2 ^ 4 + st

/-- DA_SP_STATUS (04 R150). -/
def daSpStatus (d : Dev) (a : Nat) : Nat :=
  (List.range 4).foldl (fun n s =>
    match d.tile a s with
    | none => n
    | some t => n + (if t.codesOnly then 7 else t.pattern + b2n t.transposable * 8) * 2 ^ (4 * s)) 0

end Dev

end Sys2Proof.Machine
end

