-- ==== Sys2Proof/Machine/Contexts.lean ====
section
/-!
DEFINITION. Contexts: starting, completing, stopping and resuming them, and serving their page faults
(08_jobs_contexts_and_translation.md R289-R292, R303, R309-R313, R675, 09_conditional_computation.md R348).
-/

namespace Sys2Proof.Machine

namespace Dev

/-- Cores of a context's job. -/
def coresOf (d : Dev) (n : Nat) : List Nat := (List.range 4).filter (fun c => bit (d.job n).mask c)

/-- The slot-state entries of a core's valid queues. -/
def queueKeys (d : Dev) (c : Nat) : List Nat :=
  (List.range 256).flatMap (fun q =>
    match d.queue c q with
    | none => []
    | some e => (List.range e.count).flatMap (fun k => e.keys c k))

/-- Every slot-state entry of a core: those of its core memory and of its arrays' block slots. -/
def coreKeys (d : Dev) (c : Nat) : List Nat :=
  (d.mem.slots.map Prod.fst).filter (fun k =>
    decide (4096 * c ≤ k ∧ k < 4096 * (c + 1)) || decide (16384 + 16 * c ≤ k ∧ k < 16384 + 16 * (c + 1)))

/-- A context's number put into a state. -/
def setCtxState (d : Dev) (n : Nat) (s : CtxState) : Dev := d.onCtx n (fun x => { x with st := s })

/-- The queue table of a context on a core, read through its translation when the core is switched to it (R675): the
256 entries, or the cause that stops the context. -/
def readQueueTable (d : Dev) (c n va : Nat) : Except Nat (List (Nat × (Nat × Nat))) × Dev :=
  let rq : Req := { master := 0x10 + c, ctx := n, die := .vd c }
  let (w, d) := d.walk rq va {}
  match w with
  | .cause 0x0B _ => (.error 0x0B, d)
  | .ok pa _ =>
    if d.home pa ≠ .coreMem c then (.error 0x09, d)
    else
      let (bs, d) := d.readMem rq pa 4096
      if bs.any PByte.poison then (.error 0x0B, d)
      else
        let ws := leWords 512 (bs.map PByte.val)
        let es := (List.range 256).map (fun q => (q, (((ws[2 * q]?).getD 0), ((ws[2 * q + 1]?).getD 0))))
        if es.any (fun e => !QEntry.wellFormed e.2) then (.error 0x09, d)
        else (.ok (es.filter (fun e => e.2 ≠ (0, 0))), d)
  | _ => (.error 0x09, d)

/-- The settings that Prois writes when it switches a core to a context: FD_QTABLE, the audit setting (09 R348) and the
W queue's task (10 R394). -/
def switchRegs (d : Dev) (c n : Nat) : Dev :=
  let j := d.job n
  let (rate, thr, makeup, seed) := (d.ctx n).audit
  let qt := ((j.coreItems.find? (fun i => i.core = c)).map CoreItem.qtable).getD 0
  let task := ((j.hoards.find? (fun h => h.core = c)).map HoardItem.task).getD 0
  let d := d.wr .FD_QTABLE c 0 qt
  let d := ((d.setFld F.WLK_AUDIT_rate c 0 rate).setFld F.WLK_AUDIT_thr c 0 thr).setFld F.WLK_AUDIT_makeup c 0 makeup
  (d.wr .WLK_AUDIT_SEED c 0 seed).setFld F.WQ_CFG_task c 0 task

/-- A core switched to a context: its settings and its queue table; a fault stops the context (R675). The second
component says whether the switch succeeded. -/
def switchCore (d : Dev) (c n : Nat) : Bool × Dev :=
  let d := d.switchRegs c n
  let (r, d) := d.readQueueTable c n (d.fld F.FD_QTABLE_addr c)
  match r with
  | .error cause =>
    (false, d.fatal { cause, ctx := n, engine := 0x20 + c, master := 0x10 + c, vaddr := d.fld F.FD_QTABLE_addr c })
  | .ok es => (true, d.onCore c (fun k => { k with qtable := es, ctx := some n }))

/-- Every core of a context switched to it, in core order; after a fault the rest are left. -/
def switchAll (d : Dev) (n : Nat) (cs : List Nat) : Bool × Dev :=
  cs.foldl (fun (ok, d) c => if ok then d.switchCore c n else (ok, d)) (true, d)

/-- A core as a program starts on it (R289, R298, R301): empty lists and counters, the program counter at the entry. The fetch
engine goes on numbering its streams (07 R272, log entry 24).
The registers keep what they held, since no rule sets them (log entry 15). -/
def freshCore (k : Core) (entry : Nat) : Core :=
  { sregs := k.sregs, pc := entry, live := true, ctx := k.ctx, qtable := k.qtable, nextStream := k.nextStream }

/-- START_CONTEXT's effect (R289, R675): the programs of every named core start at once. -/
def startContext (d : Dev) (n : Nat) : Dev :=
  let cs := d.coresOf n
  let (ok, d) := d.switchAll n cs
  if !ok then d
  else
    let d := cs.foldl (fun d c =>
      let entry := (((d.job n).coreItems.find? (fun i => i.core = c)).map CoreItem.entry).getD 0
      let d := (d.onCore c (fun k => freshCore k entry)).wr .HD_PEAK c 0 0
      (d.queueKeys c).foldl (fun d k => d.setSlot k { owner := n }) d) d
    let d := d.wr .COL_BKT 0 n 0
    d.onCtx n (fun x => { x with
      st := .running, startedAt := d.now, pageFaults := [], colSeq := [], buckets := [], stepRecord := 0, slotWaits := [] })

/-- A core has halted and holds no operation (R303). -/
def coreDone (d : Dev) (c : Nat) : Bool :=
  let k := d.core c
  k.halted && k.waiting.isEmpty && k.streams.isEmpty && k.held.isEmpty && k.hoard.queue.isEmpty && k.hoard.issuing.isNone
    && k.hoard.running.isEmpty
    && (List.range 8).all (fun t => (d.tasks c t).isEmpty)

/-- CONTEXT_DONE (R303): the context is loaded again, and the event carries the time base. -/
def contextDone (d : Dev) (n : Nat) : Dev :=
  if (d.ctx n).st = .running ∧ n ≠ 0 ∧ (d.coresOf n).all (fun c => d.coreDone c) then
    let d := (d.coresOf n).foldl (fun d c => d.onCore c (fun k => { k with ctx := none })) d
    (d.setCtxState n .loaded).contextEvent n 0x8001 (leBytes 8 d.now)
  else d

/-- PREEMPT_CONTEXT's effect (R310, R311): every unit stands at its stop point, since each command leaves it there; the
state of the context is saved and its cores are free. -/
def preempt (d : Dev) (n : Nat) : Dev :=
  let cs := d.coresOf n
  let saved := cs.map (fun c => (c, d.core c, d.array (2 * c), d.array (2 * c + 1)))
  let slots := cs.flatMap (fun c => (d.coreKeys c).map (fun k => (k, d.slot k)))
  let d := d.onCtx n (fun x => { x with st := .preempted, saved, savedSlots := slots.filter (fun e => e.2.owner = n) })
  let d := cs.foldl (fun d c =>
    let d := (d.coreKeys c).foldl (fun d k => if (d.slot k).owner = n then d.setSlot k {} else d) d
    d.onCore c (fun k => { sregs := k.sregs, nextStream := k.nextStream })) d
  d.bump F.CTX_PREEMPT_CNT_count 0 n 1

/-- A unit stopped by a page fault goes on once its page is present (R309, R312): its address translates to no missing
page. -/
def pagePresent (d : Dev) (n va : Nat) : Bool := (d.walk { ctx := n } va {}).1 ≠ .cause 0x01 0

/-- The units of context n that a page fault at an address stops go on from their stop points (R309). -/
def resumeUnits (d : Dev) (n : Nat) (served : Nat → Bool) : Dev :=
  let free := fun (o : Op) => match o.stopped with | some va => if served va then { o with stopped := none } else o | none => o
  let d := (List.range 4).foldl (fun d c =>
    if (d.core c).ctx = some n then
      d.onCore c (fun k => { k with
        streams := k.streams.map free, held := k.held.map free
        seqStopped := k.seqStopped.bind (fun va => if served va then none else some va)
        hoard := { k.hoard with stopped := k.hoard.stopped.bind (fun va => if served va then none else some va) } })
    else d) d
  d.onCtx n (fun x => { x with
    pageFaults := x.pageFaults.filter (fun f => !served f.vaddr)
    buckets := x.buckets.map (fun (b, k) => (b, { k with stopped := k.stopped.bind (fun va => if served va then none else some va) })) })

/-- PAGE_FAULT_RESUME (R309). -/
def pageFaultResume (d : Dev) (n va : Nat) : Dev :=
  if (d.ctx n).st = .running ∧ d.pagePresent n va then d.resumeUnits n (fun x => x / 4096 = va / 4096) else d

/-- FAULT_DEADLINE (R309): an unanswered page fault of a running context becomes fatal with cause 0x01. -/
def faultDeadline (d : Dev) (n va : Nat) : Dev :=
  match (d.ctx n).pageFaults.find? (fun f => f.vaddr = va) with
  | some f => if (d.ctx n).st = .running then d.fatal f else d
  | none => d

/-- RESUME_CONTEXT's effect (R312, R675): every saved item is restored before anything of the context runs; a page made
present meanwhile takes effect. -/
def resume (d : Dev) (n : Nat) : Dev :=
  let x := d.ctx n
  let cs := d.coresOf n
  let (ok, d) := d.switchAll n cs
  if !ok then d
  else
    let d := x.saved.foldl (fun d (c, k, even, odd) =>
      let keep := fun (now old : DArray) => { old with groups := now.groups, ramp := now.ramp, flagCount := now.flagCount }
      let d := d.onCore c (fun now => { k with qtable := now.qtable, ctx := some n })
      (d.onArray (2 * c) (fun a => keep a even)).onArray (2 * c + 1) (fun a => keep a odd)) d
    let d := x.savedSlots.foldl (fun d (k, s) => d.setSlot k s) d
    let d := d.onCtx n (fun x => { x with st := .running, saved := [], savedSlots := [] })
    d.resumeUnits n (fun va => d.pagePresent n va)

/-- KILL_CONTEXT's effect (R309): a fatal fault with cause 0x14, by Prois. -/
def kill (d : Dev) (n : Nat) : Dev := d.fatal { cause := 0x14, ctx := n, engine := 0xA0 }

/-- CTX_STATE (R314). -/
def ctxStates (d : Dev) : Nat := (List.range 16).foldl (fun s n => s + (d.ctx n).st.code * 16 ^ n) 0

/-- CTX_CORE_RUN (R314). -/
def coreRun (d : Dev) : Nat :=
  (List.range 4).foldl (fun s c =>
    match d.runsOn c with
    | some n => s + n * 16 ^ c
    | none => s + 2 ^ (16 + c)) 0

end Dev

end Sys2Proof.Machine
end

