-- ==== Sys2Proof/Machine/Collective.lean ====
section
/-!
DEFINITION. The collective sequencer and the barrier unit (12_collectives_and_gradient_reduction.md R431-R463): plans,
groups, the exchange of messages with the members of a group, the collectives, the gradient buckets and the barrier.
-/

namespace Sys2Proof.Machine

/-- An active plan header (R431). -/
structure ColPlan where
  groupTable : Nat
  groups : Nat
  bucketTable : Nat
  buckets : Nat
  staging : Nat
  slots : Nat
  timeout : Nat
deriving DecidableEq, Repr

/-- A group as this device sees it (R432). -/
structure ColGroup where
  num : Nat
  rank : Nat
  core : Option Nat
  members : List Nat
deriving DecidableEq, Repr

namespace ColGroup

/-- Number of members. -/
def size (g : ColGroup) : Nat := g.members.length

/-- Headroom h = ceil(log2 P) (R432). -/
def headroom (g : ColGroup) : Nat := if g.size ≤ 1 then 0 else Nat.log2 (g.size - 1) + 1

/-- Device of a rank. -/
def device (g : ColGroup) (r : Nat) : Nat := (g.members[r]?).getD 0

end ColGroup

/-- A bucket-table entry (R433). -/
structure BucketEntry where
  addr : Nat
  sign : Bool
  core : Nat
  round : Nat
  bytes : Nat
  group : Nat
  error : Nat
  tensor : Nat
deriving DecidableEq, Repr

/-- What a collective's messages say of it (R438), and the unit that runs it. -/
structure ColId where
  u : UnitId
  group : Nat
  stream : Nat
  seq : Nat
  opcode : Nat
  kind : Nat := 0
  count : Nat := 0
  step : Nat := 0
deriving DecidableEq, Repr

namespace ColId

/-- Engine code of the collective's records (08 R305). -/
def engine (x : ColId) : Nat := if x.opcode = 0x76 then 0x81 else 0x80

/-- A message belongs to this collective. -/
def owns (x : ColId) (m : ColMsg) : Bool := m.group == x.group && m.stream == x.stream && m.seq == x.seq

/-- A message of this collective agrees with it (R438). -/
def agrees (x : ColId) (m : ColMsg) : Bool :=
  m.opcode == x.opcode && m.kind == x.kind && m.count == x.count && m.step == x.step

end ColId

namespace Dev

/-- COL_ERR_INFO captures while bits [4:0] of COL_ERR_STATUS are all 0 (R462); the status bit is set. -/
def colNote (d : Dev) (f : Field) (source group stream ctx cause : Nat) : Dev :=
  let d := if bits (d.rd .COL_ERR_STATUS) 4 0 = 0 then
      d.wr .COL_ERR_INFO 0 0 (source % 2 ^ 16 * 2 ^ 48 + group % 2 ^ 16 * 2 ^ 32 + stream % 4 * 2 ^ 30 + ctx % 16 * 2 ^ 20
        + cause % 256)
    else d
  d.raise f

/-- Cores on which a context's collectives run. -/
def ctxCores (d : Dev) (n : Nat) : List Nat := (List.range 4).filter (fun c => (d.core c).ctx == some n)

/-- Staging slots that a context holds (R437): its started collectives and its fired buckets; UPD_NORMRED's exchanges hold
one as well. -/
def slotsHeld (d : Dev) (n : Nat) : Nat :=
  let ops := (d.ctxCores n).flatMap (fun c => (d.core c).held.filter (fun o =>
    o.ctx == n && ((decide (0x70 ≤ o.opcode) && decide (o.opcode ≤ 0x75)) || o.opcode == 0x69) && !o.work.isEmpty))
  ops.length + ((d.ctx n).buckets.filter (fun b => b.2.fired && !b.2.done)).length

/-- The next sequence number of a group's stream, and the device with it advanced (R438). -/
def nextSeq (d : Dev) (n group stream : Nat) : Nat × Dev :=
  let k := group * 4 + stream
  let v := Sp.get (fun _ => 0) (d.ctx n).colSeq k
  (v, d.onCtx n (fun x => { x with colSeq := Sp.set (fun _ => 0) x.colSeq k (v + 1) }))

end Dev

namespace Run

/-! ### Faults of collectives -/

/-- A collective's fault (R435, R438, R459): the leaf, the capture and the record. -/
def colFault {α : Type} (x : ColId) (f : Field) (cause source detail : Nat) : Run α := do
  upd (fun d => d.colNote f source x.group x.stream x.u.ctx cause)
  stop (.fatal cause 0 0 detail (some x.engine))

/-- An illegal collective (R435, R450). -/
def colBad (x : ColId) (c : Bool) : Run Unit := do
  let d ← dev
  if c then colFault x F.COL_ERR_STATUS_mismatch 0x12 d.deviceId 0 else pure ()

/-- Poison that the collective sequencer consumes (R461). -/
def colConsume {α : Type} (x : ColId) (r : Run α) : Run α := do
  match ← attempt r with
  | .ok a => pure a
  | .error s => do
    let d ← dev
    match s with
    | .fatal 0x0B _ _ _ _ => upd (fun d' => d'.colNote F.COL_ERR_STATUS_poison d.deviceId x.group x.stream x.u.ctx 0x0B)
    | _ => pure ()
    stop s

/-- Poison in what decides a whole bucket (R461). -/
def colPoisonIf (x : ColId) (c : Bool) : Run Unit := colConsume x (faultIf c 0x0B)

/-! ### Plans and groups -/

/-- The active plan (R431, R462). A job without a plan has group 0 alone, and one slot. -/
def colPlan (x : ColId) : Run ColPlan := do
  let d ← dev
  let n := x.u.ctx
  if (d.job n).planCount = 0 then pure { groupTable := 0, groups := 0, bucketTable := 0, buckets := 0, staging := 0, slots := 1, timeout := 100000 }
  else do
    let bs ← colConsume x (vsolid x.u.req (d.fld F.COL_PLAN_addr 0 n + 64 * d.fld F.COL_PLAN_active 0 n : Nat) 64)
    let w := fun k => field bs (8 * k) 8
    pure { groupTable := bits (w 0) 47 0, groups := bits (w 0) 63 48, bucketTable := bits (w 1) 47 0, buckets := bits (w 1) 63 48
           staging := bits (w 2) 47 0, slots := bits (w 2) 51 48 + 1
           timeout := if bits (w 3) 31 0 = 0 then 100000 else bits (w 3) 31 0 }

/-- A group of the active plan (R432). -/
def colGroup (x : ColId) (p : ColPlan) (g : Nat) : Run ColGroup := do
  let d ← dev
  if g = 0 then pure { num := 0, rank := 0, core := none, members := [d.deviceId] }
  else do
    let bs ← colConsume x (vsolid x.u.req (p.groupTable + 32 * (g - 1) : Nat) 32)
    let w0 := field bs 0 8
    let n := bits w0 16 0
    let ms ← colConsume x (vsolid x.u.req (bits (field bs 8 8) 47 0 : Nat) (2 * n))
    pure { num := g, rank := bits w0 47 32, core := some (bits w0 53 52), members := (List.range n).map (fun i => field ms (2 * i) 2) }

/-- A bucket-table entry (R433). -/
def bucketEntry (x : ColId) (p : ColPlan) (b : Nat) : Run BucketEntry := do
  let bs ← colConsume x (vsolid x.u.req (p.bucketTable + 32 * b : Nat) 32)
  let w := fun k => field bs (8 * k) 8
  pure { addr := bits (w 0) 47 0, sign := bits (w 0) 49 48 == 1, core := bits (w 0) 51 50, round := bits (w 0) 54 52
         bytes := bits (w 1) 39 0, group := bits (w 1) 63 48, error := bits (w 2) 47 0, tensor := bits (w 3) 31 0 }

/-! ### Matching and the exchange -/

/-- One phase of a collective (R438, R439): this device's part goes to every other member once, and the phase is over
when every member's message is there; they are answered in rank order. `parts` gives the part for each rank. -/
def exchange (x : ColId) (g : ColGroup) (phase : Nat) (parts : Run (Nat → List (Nat × Bool))) : Run (List ColMsg) := do
  let d ← dev
  let mine := fun (m : ColMsg) => x.owns m && m.phase == phase && m.src == d.deviceId
  if !(d.ctx x.u.ctx).inbox.any mine then do
    let part ← parts
    let msg := fun (r : Nat) =>
      ({ src := d.deviceId, group := x.group, stream := x.stream, seq := x.seq, opcode := x.opcode, kind := x.kind
         count := x.count, step := x.step, phase, data := part r } : ColMsg)
    let peers := (List.range g.size).filter (· ≠ g.rank)
    upd (fun d => d.onCtx x.u.ctx (fun c => { c with inbox := c.inbox ++ [msg g.rank] }))
    peers.forM (fun r => do
      let n ← lift (fun d => d.draw 32)
      upd (fun d => (d.bump F.COL_TX_BYTES_bytes 0 0 n).emit (.rhanak (d.portTo (g.device r)) "collective"
        ([g.device r, x.u.ctx, x.group, x.stream, x.seq, x.opcode, x.kind, x.count, x.step, phase] ++ (part r).map Prod.fst))))
  else pure ()
  let d ← dev
  let box := (d.ctx x.u.ctx).inbox.filter (fun m => x.owns m)
  match box.find? (fun m => !x.agrees m) with
  | some m => colFault x F.COL_ERR_STATUS_mismatch 0x12 m.src m.src
  | none => do
    let found := g.members.map (fun v => box.find? (fun m => m.src == v && m.phase == phase))
    waitIf (found.any Option.isNone)
    pure (found.map (fun m => m.getD { src := 0, group := 0, stream := 0, seq := 0, opcode := 0 }))

/-- The messages of a finished collective are used up. -/
def exchanged (x : ColId) : Run Unit :=
  upd (fun d => d.onCtx x.u.ctx (fun c => { c with inbox := c.inbox.filter (fun m => !x.owns m) }))

/-- Element i of a message. -/
def sentElem (m : ColMsg) (i : Nat) : Elem := match m.data[i]? with | some (c, p) => { code := c, poison := p } | none => {}

/-- A list of elements as a message's data. -/
def asData (es : List Elem) : List (Nat × Bool) := es.map (fun e => (e.code, e.poison))

/-! ### Reduction adders -/

/-- The residue check of the reduction adders (R461): whether element i of a reduction is poisoned by a second mismatch. -/
def residues (x : ColId) (n : Nat) : Run (List Bool) := do
  let d ← dev
  let on := d.isSet F.COL_CTRL_res_en
  let hits := (List.range n).map (fun i => if on then min 2 (d.env.residue.count i) else 0)
  let all := hits.foldl (· + ·) 0
  if all ≠ 0 then
    upd (fun d => (d.bump F.COL_RES_CNT_mismatches 0 0 all).colNote F.COL_ERR_STATUS_residue_replay d.deviceId x.group x.stream x.u.ctx 0)
  if hits.contains 2 then
    upd (fun d => d.colNote F.COL_ERR_STATUS_residue_poison d.deviceId x.group x.stream x.u.ctx 0)
  pure (hits.map (· == 2))

/-- Elements summed modulo 2^32 over the members (R441, R443): every partial sum is exact and order does not matter. -/
def sumElems (x : ColId) (ms : List ColMsg) (n : Nat) : Run (List Elem) := do
  let bad ← residues x n
  pure ((List.range n).map (fun i =>
    let es := ms.map (fun m => sentElem m i)
    { code := (es.foldl (fun s e => s + e.code) 0) % 2 ^ 32, poison := es.any Elem.poison || (bad[i]?).getD false }))

/-- The order of ranks that a group combines in: `Config.order`, with the ranks that it leaves out behind it. -/
def rankOrder (g : ColGroup) : List Nat :=
  let l := ((Config.order g.num g.size).filter (fun r => decide (r < g.size))).eraseDups
  l ++ (List.range g.size).filter (fun r => !l.contains r)

/-- Partial results joined until one is left (R443). -/
def joinAll (group p : Nat) : Nat → List Acc → Bool → Acc × Bool
  | 0, l, mis => (l.headD {}, mis)
  | n + 1, l, mis =>
    match l with
    | [] => ({}, mis)
    | [a] => (a, mis)
    | l =>
      let j := Config.joinAt group p l.length % (l.length - 1)
      let (a, m) := Acc.combine ((l[j]?).getD {}) ((l[j + 1]?).getD {})
      joinAll group p n (l.take j ++ [a] ++ l.drop (j + 2)) (mis || m)

/-- Raw accumulators combined over the members (R443): four elements each. The second component is the flag of R81. -/
def joinElems (x : ColId) (g : ColGroup) (ms : List ColMsg) (n : Nat) : Run (List Elem × Bool) := do
  let bad ← residues x (n / 4)
  let word := fun (m : ColMsg) (k : Nat) => (List.range 4).foldl (fun w j => w + (sentElem m (4 * k + j)).code % 2 ^ 32 * 2 ^ (32 * j)) 0
  let outs := (List.range (n / 4)).map (fun k =>
    let accs := (rankOrder g).map (fun r => match ms[r]? with | some m => Acc.ofWord (word m k) | none => {})
    let poison := ms.any (fun m => (List.range 4).any (fun j => (sentElem m (4 * k + j)).poison)) || (bad[k]?).getD false
    let (a, mis) := joinAll g.num g.size accs.length accs false
    ((List.range 4).map (fun j => ({ code := bits a.toWord (32 * j + 31) (32 * j), poison } : Elem)), mis))
  pure (outs.flatMap Prod.fst, outs.any Prod.snd)

/-! ### Scales (R441) -/

/-- A local exponent with its flag as the words of an exponent-max message. -/
def expPart (e : MaxExp) (poison nf : Bool) : List (Nat × Bool) := [(e.code, poison), (b2n nf, false)]

/-- The exponent-max of one entry over the members, and the OR of the flags words (R440). -/
def expOver (ms : List ColMsg) : Elem × Nat :=
  (ms.foldl (fun a m => maxElem a (sentElem m 0)) { code := 0x8000 }, ms.foldl (fun f m => f ||| (sentElem m 1).code) 0)

/-- The scale of an exponent (R441). -/
def sharedScale (e : MaxExp) (h : Nat) : Int := match e with | some v => v + (h : Int) - 29 | none => 0

/-- An element at the shared scale (R441): a non-finite one is 0. -/
def scaledCode (mode : Rounding) (s : Int) (v : Num) : Nat := if v.isNonfinite then 0 else (convertInt 32 mode (v.scale (-s))).1

/-- The elements of this device at the shared scale (R441). -/
def scaledPart (es : List Elem) (s : Int) (round seed tensor rank : Nat) : List Elem :=
  es.zipIdx.map (fun (e, i) =>
    { e with code := scaledCode (Rounding.ofCode round (srDraw seed ((tensor + rank) % 2 ^ 32) i)) s (ofFp32 e.code) })

/-- The largest exponent of the finite nonzero elements, and whether one is not finite (R441). -/
def localExp (es : List Elem) : MaxExp × Bool :=
  (maxExpOf ((es.map (fun e => ofFp32 e.code)).filter (fun v => !v.isNonfinite)), es.any (fun e => (ofFp32 e.code).isNonfinite))

/-- A reduction that returned the non-finite flag counted (R448, R462). -/
def noteNonfinite (nf : Bool) : Run Unit :=
  if nf then upd (fun d => (d.bump F.COL_NONFINITE_CNT_reductions 0 0 1).raise F.COL_ERR_STATUS_nonfinite) else pure ()

/-- The phases of an exact all-reduce (R441): the exponents, then the elements; the sums, the scale, the flag, and whether
some member's exponent came from a poisoned element. -/
def scaledSum (x : ColId) (g : ColGroup) (es : Run (List Elem)) (round seed tensor : Nat) (solid : Bool)
    (part : List Elem → Nat → List Elem) : Run (List ColMsg × Int × Bool × Bool) := do
  let ex ← exchange x g 0 (do
    let es ← es
    let (e, nf) := localExp es
    let bad := es.any Elem.poison
    colPoisonIf x (solid && bad)
    pure (fun _ => expPart e bad nf))
  let (e, flags) := expOver ex
  let s := sharedScale (MaxExp.ofCode e.code) g.headroom
  let ms ← exchange x g 1 (do
    let es ← es
    let gs := scaledPart es s round seed tensor g.rank
    pure (fun r => asData (part gs r)))
  pure (ms, s, flags ≠ 0, e.poison)

/-! ### Sign mode (R444) -/

/-- mean_abs of R444. -/
def meanAbs (v : List Num) : Num :=
  if v.isEmpty then Num.zero
  else
    let parts := (List.range (min 1024 v.length)).map (fun j =>
      (List.range (ceilDiv (v.length - j) 1024)).foldl (fun a k => toFp32 (a.add ((v[j + 1024 * k]?).getD Num.zero).abs)) Num.zero)
    let total := (pairSums 10 (parts ++ List.replicate (1024 - parts.length) Num.zero)).headD Num.zero
    toFp32 (Fn.div total (toFp32 (Num.ofInt v.length)))

/-- Shard k of n elements over P members, ceiling-size first (R444): its start and its length. -/
def shard (n p k : Nat) : Nat × Nat :=
  let q := n / p
  let rr := n % p
  (k * q + min k rr, if k < rr then q + 1 else q)

/-- FP32 elements read at a virtual address. -/
def fp32At (x : ColId) (va n : Nat) : Run (List Elem) := do
  let bs ← vread x.u.req (va : Nat) (4 * n)
  pure (cutElems 32 0 n bs)

/-- INT32 or FP32 elements written at a virtual address. -/
def put32 (x : ColId) (va : Nat) (es : List Elem) : Run Unit :=
  vwrite x.u.req (va : Nat) (es.flatMap (fun e => (leBytes 4 e.code).map (fun b => { val := b, poison := e.poison })))

/-- Sign mode (R444, R445): `write` stores the elements and the scale. It answers the non-finite flag. -/
def signMode (x : ColId) (g : ColGroup) (src : Run (List Elem)) (n error : Nat) (write : List Elem → Int → Run Unit) :
    Run Bool := do
  let worker : Run (List Num) := do
    let es ← src
    let rs ← fp32At x error n
    colPoisonIf x ((es ++ rs).any Elem.poison)
    pure ((es.zip rs).map (fun (e, r) => toFp32 ((ofFp32 e.code).add (ofFp32 r.code))))
  let mine := shard n g.size g.rank
  let server : Run (List Num) := do
    let es ← fp32At x (error + 4 * n) mine.2
    colPoisonIf x (es.any Elem.poison)
    pure (es.map (fun e => ofFp32 e.code))
  let neg := fun (v : Num) => b2n (Num.lt v Num.zero)
  let one := exchange x g 0 (do
    let xs ← worker
    let alpha := meanAbs xs
    pure (fun k =>
      let (at_, len) := shard n g.size k
      [(fp32Code alpha, false), (b2n alpha.isNonfinite, false)] ++ ((xs.drop at_).take len).map (fun v => (neg v, false))))
  let ms ← one
  let sums := (List.range mine.2).map (fun i =>
    let terms := ms.map (fun m =>
      let a := ofFp32 (sentElem m 0).code
      toFp32 (a.mul (if (sentElem m (2 + i)).code = 1 then Num.one.neg else Num.one)))
    match terms with | [] => Num.zero | t :: ts => ts.foldl (fun s t => toFp32 (s.add t)) t)
  let zed : Run (List Num) := do
    let es ← server
    pure ((sums.zip es).map (fun (y, e) => toFp32 (y.add e)))
  let nfMine := ms.any (fun m => (sentElem m 1).code ≠ 0)
  let ys ← exchange x g 1 (do
    let zs ← zed
    pure (fun _ => [(fp32Code (meanAbs zs), false), (b2n nfMine, false)] ++ zs.map (fun z => (neg z, false))))
  let betas := ys.map (fun m => ofFp32 (sentElem m 0).code)
  if ys.any (fun m => (sentElem m 1).code ≠ 0) || betas.any Num.isNonfinite then do
    atomically (write (List.replicate n {}) 0)
    pure true
  else do
    let s : Int := match maxExpOf betas with | some e => e - 29 | none => 0
    let ints := betas.map (fun b => (convertInt 32 .rne (b.scale (-s))).1)
    let out := ((List.range g.size).flatMap (fun k =>
      let (_, len) := shard n g.size k
      (List.range len).map (fun i =>
        let b := (ints[k]?).getD 0
        let bit := (match ys[k]? with | some m => (sentElem m (2 + i)).code | none => 0)
        ({ code := if bit = 1 then (2 ^ 32 - b) % 2 ^ 32 else b } : Elem))))
    let xs ← worker
    let zs ← zed
    let alpha := meanAbs xs
    let beta := (betas[g.rank]?).getD Num.zero
    let sgn1 := fun (v : Num) => if Num.lt v Num.zero then Num.one.neg else Num.one
    let fma := fun (a v : Num) => fp32Code ((a.neg.mul (sgn1 v)).add v)
    atomically (do
      put32 x error (xs.map (fun v => ({ code := fma alpha v } : Elem)))
      put32 x (error + 4 * n) (zs.map (fun z => ({ code := fma beta z } : Elem)))
      write out s)
    pure false

/-! ### Tensors of collectives -/

/-- Every element of a tensor in descriptor order. -/
def colRead (x : ColId) (v : View) : Run (List Elem) := do
  let d ← dev
  readAll { x.u.req with stream := v.desc.hint } ((List.range v.desc.count).map (v.place d.deviceId))

/-- Elements written at linear indices. -/
def colWrite (x : ColId) (v : View) (es : List (Nat × Elem)) : Run Unit := do
  let d ← dev
  let (_, e) ← writeElems { x.u.req with stream := v.desc.hint } (es.map (fun e => v.place d.deviceId e.1)) (es.map Prod.snd)
  rethrow e

/-- Linear indices that start a block of an MX tensor (02 R49). -/
def blockHeads (v : View) : List Nat :=
  if v.desc.fmt.isMx then (List.range v.desc.count).filter (fun n => (v.desc.coords n).headD 0 % 32 = 0) else []

/-- The scale bytes of blocks. -/
def colScales (x : ColId) (v : View) (ns : List Nat) : Run (List Elem) := do
  let d ← dev
  readAll { x.u.req with stream := v.desc.hint } (ns.map (v.scalePlace d.deviceId))

/-- Scale bytes written. -/
def colPutScales (x : ColId) (v : View) (es : List (Nat × Elem)) : Run Unit := do
  let d ← dev
  let (_, e) ← writeElems { x.u.req with stream := v.desc.hint } (es.map (fun e => v.scalePlace d.deviceId e.1)) (es.map Prod.snd)
  rethrow e

/-- The device that owns a linear index of a distributed tensor (07 R260). -/
def ownerOf (v : View) (n : Nat) : Option Nat := (v.locate 0 n).map Prod.fst

/-- The owner table of a collective names the members in rank order (R450). -/
def shardsMatch (g : ColGroup) (v : View) : Bool :=
  match v.owners with
  | none => false
  | some o => o.entries.map Prod.fst == g.members

/-- A scale entry (R403, R442). -/
def scaleEntry (addr : Nat) (s : Int) (n : Nat) : List Byte := leBytes 8 (addr % 2 ^ 48 + ux 16 s * 2 ^ 48) ++ leBytes 8 (n % 2 ^ 40)

/-- A scale entry written, poisoned where an exponent was. -/
def putScaleEntry (x : ColId) (at_ addr : Nat) (s : Int) (n : Nat) (poison : Bool) : Run Unit :=
  vwrite x.u.req (at_ : Nat) ((scaleEntry addr s n).map (fun b => { val := b, poison }))

end Run

/-- The parameter block of a collective (R436). -/
structure ColParam where
  src : Nat
  dst : Nat
  aux : Nat
  count : Nat
  kind : Nat
  round : Nat
  flags : Nat
  tensor : Nat
  seed : Nat
  error : Nat
deriving DecidableEq, Repr

namespace Run

/-- A collective's word checked (R434, R435): the collective's identity before it is numbered. -/
def colWord (u : UnitId) (o : Op) (stream : Nat) : Run ColId := do
  let w := o.w0
  let x : ColId := { u, group := bits w 31 16, stream, seq := o.work.headD 1 - 1, opcode := o.opcode }
  colBad x (bits w 15 8 != 0 || bits w 63 32 != 0 || (if o.opcode = 0x79 then bits o.w1 63 32 != 0
    else bits o.w1 63 48 != 0 || o.w1 % 128 != 0))
  pure x

/-- The parameter block (R436). -/
def colParam (x : ColId) (o : Op) : Run ColParam := do
  let p ← colConsume x (vsolid x.u.req (bits o.w1 47 0 : Nat) 128)
  colBad x ((p.drop 0x38).any (fun b => b != 0))
  pure { src := field p 0 8, dst := field p 8 8, aux := field p 0x10 8, count := field p 0x18 4, kind := field p 0x1C 1
         round := field p 0x1D 1, flags := field p 0x1E 1, tensor := field p 0x20 4, seed := field p 0x28 8, error := field p 0x30 8 }

/-- A group that the word names: it exists, and this core may issue its collectives (R435). -/
def colGroupOf (x : ColId) (p : ColPlan) : Run ColGroup := do
  colBad x (decide (p.groups < x.group))
  let g ← colGroup x p x.group
  colBad x (match g.core with | some c => c != x.u.core | none => false)
  pure g

/-- The start of a collective that holds a staging slot (R437, R438): it waits behind those that wait for a slot before it,
and for a slot; then it has its sequence number. -/
def colStart (x : ColId) (p : ColPlan) (o : Op) : Run ColId := do
  let c := x.u.core
  let n := x.u.ctx
  if !o.work.isEmpty then pure x
  else do
    let d ← dev
    let waits := (d.ctx n).slotWaits
    let first := match waits with | [] => true | w :: _ => w == (c, o.id)
    if !first || decide (p.slots ≤ d.slotsHeld n) then do
      if !waits.contains (c, o.id) then upd (fun d => d.onCtx n (fun x => { x with slotWaits := x.slotWaits ++ [(c, o.id)] }))
      wait
    else do
      let seq ← lift (fun d => d.nextSeq n x.group x.stream)
      upd (fun d => d.onCtx n (fun x => { x with slotWaits := x.slotWaits.erase (c, o.id) }))
      held x.u o.id (fun o => { o with work := [seq + 1] })
      pure { x with seq }

/-- A later collective does not start before one that waits for a slot (R437). -/
def colBehind (x : ColId) : Run Unit := do
  let d ← dev
  waitIf (!(d.ctx x.u.ctx).slotWaits.isEmpty)

/-! ### Gradient buckets (R446-R449) -/

/-- try_fire of R447: buckets start in order while one is full, or forced, and a slot is free. -/
def tryFire (x : ColId) (p : ColPlan) : Nat → Run Unit
  | 0 => pure ()
  | fuel + 1 => do
    let d ← dev
    let n := x.u.ctx
    let b := d.fld F.COL_BKT_next 0 n
    if !d.isSet F.COL_BKT_armed 0 n || decide (p.buckets ≤ b) then pure ()
    else do
      let e ← bucketEntry x p b
      let k := Sp.get (fun _ => ({} : Bucket)) (d.ctx n).buckets b
      let full := decide (e.bytes ≤ k.filled)
      if (!full && !d.isSet F.COL_BKT_forcing 0 n) || decide (p.slots ≤ d.slotsHeld n) then pure ()
      else do
        upd (fun d => (d.onCtx n (fun x => { x with buckets := Sp.set (fun _ => {}) x.buckets b { k with fired := true } })).setFld
          F.COL_BKT_next 0 n (b + 1))
        if !full then upd (fun d => (d.bump F.COL_FORCED_CNT_buckets 0 0 1).raise F.COL_ERR_STATUS_forced)
        tryFire x p fuel

/-- Buckets retried because a slot has become free (R447). What the retry meets on its way is met again by the next one. -/
def slotFreed (x : ColId) : Run Unit := do
  let _ ← attempt (do
    let p ← colPlan x
    tryFire x p (p.buckets + 1))
  pure ()

/-- The end of a collective that held a slot. -/
def colDone (x : ColId) (o : Op) : Run Unit := do
  exchanged x
  held x.u o.id (fun o => { o with work := [] })
  upd (fun d => d.bump F.COL_OP_CNT_ops 0 0 1)
  slotFreed x

/-- A fill report (R446, R447). -/
def fillReport (x : ColId) (b bytes : Nat) : Run Unit := do
  let d ← dev
  let n := x.u.ctx
  let p ← colPlan x
  if !d.isSet F.COL_BKT_armed 0 n || decide (p.buckets ≤ b) then upd (fun d => d.raise F.COL_ERR_STATUS_stray)
  else do
    let e ← bucketEntry x p b
    let k := Sp.get (fun _ => ({} : Bucket)) (d.ctx n).buckets b
    let filled := k.filled + bytes
    upd (fun d => (d.onCtx n (fun x => { x with buckets := Sp.set (fun _ => {}) x.buckets b { k with filled } })).raiseIf
      (decide (e.bytes < filled)) F.COL_ERR_STATUS_overfill)
    tryFire x p (p.buckets + 1)

/-- COL_FILL (R446). -/
def colFill (u : UnitId) (o : Op) : Run Unit := do
  let x ← colWord u o 0
  colBehind x
  fillReport { x with group := 0 } (bits o.w0 31 16) (bits o.w1 31 0)

/-- COL_GRADSTEP (R446). -/
def colGradstep (u : UnitId) (o : Op) : Run Unit := do
  let x ← colWord u o 0
  let q ← colParam x o
  let p ← colPlan x
  let _ ← colGroupOf x p
  colBehind x
  let d ← dev
  colBad x (d.isSet F.COL_BKT_armed 0 u.ctx)
  let _ ← colConsume x (vsolid u.req (bits q.aux 47 0 : Nat) 256)
  upd (fun d => (((d.setFld F.COL_BKT_armed 0 u.ctx 1).setFld F.COL_BKT_next 0 u.ctx 0).setFld F.COL_BKT_forcing 0 u.ctx 0).onCtx u.ctx
    (fun x => { x with buckets := [], stepRecord := bits q.aux 47 0 }))

/-- COL_GRADWAIT (R447, R449). -/
def colGradwait (u : UnitId) (o : Op) : Run Unit := do
  let x ← colWord u o 0
  let p ← colPlan x
  let _ ← colGroupOf x p
  colBehind x
  let d ← dev
  if d.isSet F.COL_BKT_armed 0 u.ctx then do
    upd (fun d => d.setFld F.COL_BKT_forcing 0 u.ctx 1)
    tryFire x p (p.buckets + 1)
    let d ← dev
    waitIf (decide (d.fld F.COL_BKT_next 0 u.ctx < p.buckets) || (d.ctx u.ctx).buckets.any (fun b => b.2.fired && !b.2.done))
    upd (fun d => ((d.setFld F.COL_BKT_armed 0 u.ctx 0).setFld F.COL_BKT_forcing 0 u.ctx 0).onCtx u.ctx
      (fun x => { x with buckets := [] }))
  else pure ()

/-- A fired bucket's reduction (R448), to its scale-table entry and its flag. -/
def bucketWork (u : UnitId) (b : Nat) : Run Unit := do
  let x0 : ColId := { u, group := 0, stream := 1, seq := b, opcode := 0x71 }
  let p ← colPlan x0
  let e ← bucketEntry x0 p b
  let u := { u with core := e.core }
  let g ← colGroup { x0 with u } p e.group
  let d ← dev
  let rec_ ← colConsume { x0 with u } (vsolid u.req ((d.ctx u.ctx).stepRecord : Nat) 256)
  let n := e.bytes / 4
  let x : ColId := { x0 with u, group := e.group, kind := if e.sign then 3 else 0, count := n, step := field rec_ 0 8 }
  let table := bits (field rec_ 0x18 8) 47 0
  let finish := fun (es : List Elem) (s : Int) => (do
    put32 x e.addr es
    putScaleEntry x (table + 16 * b) e.addr s n false : Run Unit)
  let nf ← if e.sign then signMode x g (fp32At x e.addr n) n e.error finish
    else do
      let (ms, s, nf, _) ← scaledSum x g (fp32At x e.addr n) e.round (field rec_ 0x30 8) e.tensor true (fun es _ => es)
      let es ← sumElems x ms n
      atomically (finish es s)
      pure nf
  let at_ := (d.ctx u.ctx).stepRecord + 0x48
  let old ← colConsume x (vsolid u.req (at_ : Nat) 8)
  vwrite u.req (at_ : Nat) (Dev.clean (leBytes 8 (leNat old ||| b2n nf)))
  noteNonfinite nf
  exchanged x
  upd (fun d => ((d.bump F.COL_OP_CNT_ops 0 0 1).bump F.COL_BUCKET_CNT_buckets 0 0 1).onCtx u.ctx (fun c =>
    { c with buckets := c.buckets.map (fun (i, k) => if i = b then (i, { k with done := true }) else (i, k)) }))
  slotFreed x

/-! ### All-reduce, reduce-scatter, all-gather -/

/-- COL_EXPMAX (R440). -/
def colExpmax (u : UnitId) (o : Op) : Run Unit := do
  let x ← colWord u o 0
  let p ← colPlan x
  let g ← colGroupOf x p
  let q ← colParam x o
  let x := { x with count := q.count }
  colBad x (q.count == 0 || decide (65536 < q.count))
  let x ← colStart x p o
  let ms ← exchange x g 0 (do
    let es ← getMaxima u q.src q.count
    let fl ← vread u.req (q.aux : Nat) 8
    pure (fun _ => asData (es ++ [{ code := leNat (fl.map PByte.val), poison := fl.any PByte.poison }])))
  let outs := (List.range q.count).map (fun i => ms.foldl (fun a m => maxElem a (sentElem m i)) { code := 0x8000 })
  let flags := ms.foldl (fun f m => f ||| (sentElem m q.count).code) 0
  let bad := ms.any (fun m => (sentElem m q.count).poison)
  atomically (do
    putMaxima u q.dst outs
    vwrite u.req (q.aux : Nat) ((leBytes 8 flags).map (fun b => { val := b, poison := bad })))
  colDone x o

/-- The two tensors of a reduction: their formats and element counts fit the kind (R441-R443). -/
def reducible (kind : Nat) (a b : View) : Bool :=
  let fmts := if kind = 0 ∨ kind = 3 then a.desc.fmt == .fp32 && b.desc.fmt == .int32 else a.desc.fmt == .int32 && b.desc.fmt == .int32
  let raw := fun (v : View) => v.desc.stride 0 == 1 && v.desc.rowLen % 4 == 0
  fmts && a.desc.count == b.desc.count && (kind != 2 || (raw a && raw b))

/-- COL_ALLREDUCE (R441-R445). -/
def colAllreduce (u : UnitId) (o : Op) : Run Unit := do
  let x ← colWord u o 0
  let p ← colPlan x
  let g ← colGroupOf x p
  let q ← colParam x o
  colBad x (decide (3 < q.kind))
  let src ← colConsume x (view u.req q.src false ((o.work[1]?).getD 0))
  let dst ← colConsume x (view u.req q.dst false ((o.work[2]?).getD 0))
  let n := src.desc.count
  let x := { x with kind := q.kind, count := n }
  colBad x (!reducible q.kind src dst)
  let x ← colStart x p o
  held u o.id (fun o => { o with work := [x.seq + 1, src.select, dst.select] })
  let put := fun (es : List Elem) => colWrite x dst (es.zipIdx.map (fun (e, i) => (i, e)))
  if q.kind = 0 then do
    let (ms, s, nf, bad) ← scaledSum x g (colRead x src) q.round q.seed q.tensor false (fun es _ => es)
    let es ← sumElems x ms n
    atomically (do
      put es
      putScaleEntry x q.aux dst.desc.base s n bad)
    noteNonfinite nf
  else if q.kind = 3 then do
    let nf ← signMode x g (colRead x src) n q.error (fun es s => do
      put es
      putScaleEntry x q.aux dst.desc.base s n false)
    noteNonfinite nf
  else do
    let ms ← exchange x g 0 (do
      let es ← colRead x src
      pure (fun _ => asData es))
    if q.kind = 1 then do
      let es ← sumElems x ms n
      atomically (put es)
    else do
      let (es, mis) ← joinElems x g ms n
      atomically (put es)
      upd (fun d => d.reportFlags u.ctx { anchorMismatch := mis })
  colDone x o

/-- Elements of a member's shard, with their linear indices; a raw accumulator lies where its first element does. -/
def shardIndices (kind device : Nat) (v : View) : List Nat :=
  (List.range v.desc.count).filter (fun n => ownerOf v (if kind = 2 then n / 4 * 4 else n) == some device)

/-- COL_REDSCAT (R450, R451). -/
def colRedscat (u : UnitId) (o : Op) : Run Unit := do
  let x ← colWord u o 0
  let p ← colPlan x
  let g ← colGroupOf x p
  let q ← colParam x o
  colBad x (decide (2 < q.kind))
  let src ← colConsume x (view u.req q.src false ((o.work[1]?).getD 0))
  let dst ← colConsume x (view u.req q.dst false ((o.work[2]?).getD 0))
  let x := { x with kind := q.kind, count := src.desc.count }
  colBad x (src.owners.isSome || !shardsMatch g dst || !reducible q.kind src dst)
  let x ← colStart x p o
  held u o.id (fun o => { o with work := [x.seq + 1, src.select, dst.select] })
  let d ← dev
  let mine := shardIndices q.kind d.deviceId dst
  let part := fun (es : List Elem) (r : Nat) => (shardIndices q.kind (g.device r) dst).map (fun n => (es[n]?).getD {})
  let base := match dst.owners with
    | some t => (((t.entries.find? (fun e => e.1 = d.deviceId)).map (fun e => e.2.1))).getD 0
    | none => 0
  let put := fun (es : List Elem) => colWrite x dst (mine.zip es)
  if q.kind = 0 then do
    let (ms, s, nf, bad) ← scaledSum x g (colRead x src) q.round q.seed q.tensor false part
    let es ← sumElems x ms mine.length
    atomically (do
      put es
      putScaleEntry x q.aux base s mine.length bad)
    noteNonfinite nf
  else do
    let ms ← exchange x g 0 (do
      let es ← colRead x src
      pure (fun r => asData (part es r)))
    if q.kind = 1 then do
      let es ← sumElems x ms mine.length
      atomically (put es)
    else do
      let (es, mis) ← joinElems x g ms mine.length
      atomically (put es)
      upd (fun d => d.reportFlags u.ctx { anchorMismatch := mis })
  colDone x o

/-- COL_ALLGATHER (R450, R451): elements, and the scale bytes of an MX tensor, bit for bit. -/
def colAllgather (u : UnitId) (o : Op) : Run Unit := do
  let x ← colWord u o 0
  let p ← colPlan x
  let g ← colGroupOf x p
  let q ← colParam x o
  let src ← colConsume x (view u.req q.src false ((o.work[1]?).getD 0))
  let dst ← colConsume x (view u.req q.dst false ((o.work[2]?).getD 0))
  let x := { x with count := src.desc.count }
  colBad x (dst.owners.isSome || !shardsMatch g src || src.desc.fmt != dst.desc.fmt || src.desc.count != dst.desc.count)
  let x ← colStart x p o
  held u o.id (fun o => { o with work := [x.seq + 1, src.select, dst.select] })
  let heads := fun (r : Nat) => (blockHeads src).filter (fun n => ownerOf src n == some (g.device r))
  let elems := fun (r : Nat) => shardIndices 0 (g.device r) src
  let ms ← exchange x g 0 (do
    let d ← dev
    let rq := { u.req with stream := src.desc.hint }
    let es ← readAll rq ((elems g.rank).map (src.place d.deviceId))
    let ss ← colScales x src (heads g.rank)
    pure (fun _ => asData (es ++ ss)))
  atomically (ms.zipIdx.forM (fun (m, r) => do
    let is := elems r
    colWrite x dst (is.zipIdx.map (fun (n, k) => (n, sentElem m k)))
    colPutScales x dst ((heads r).zipIdx.map (fun (n, k) => (n, sentElem m (is.length + k))))))
  colDone x o

end Run

end Sys2Proof.Machine
end

