-- ==== Sys2Proof/Machine/Update.lean ====
section
/-!
DEFINITION. The update engine (11_parameter_update.md R397-R427) and the loss-spike detector that it asks
(16_power_thermal_and_measurement.md R584).
-/

namespace Sys2Proof.Machine

/-! ### FP32 arithmetic with its flags -/

/-- FP32 operations that gather the flags they raise (02 R68). -/
abbrev Fp := StateM Flags

namespace Fp

/-- One operation's exact result rounded by RNE; a NaN formed of numbers is invalid. -/
def round (x : Num) (ins : List Num) : Fp Num := do
  let (c, fl) := FpFormat.fp32.convert .rne false x
  modify (fun f => f.or (fl.or { invalid := x.isNaN && !ins.any Num.isNaN }))
  pure (ofFp32 c)

/-- add_rne32. -/
def add (x y : Num) : Fp Num := round (x.add y) [x, y]
/-- sub_rne32. -/
def sub (x y : Num) : Fp Num := round (x.sub y) [x, y]
/-- mul_rne32. -/
def mul (x y : Num) : Fp Num := round (x.mul y) [x, y]
/-- fma_rne32. -/
def fma (x y z : Num) : Fp Num := round ((x.mul y).add z) [x, y, z]
/-- div_rne32. -/
def div (x y : Num) : Fp Num := round (Fn.div x y) [x, y]
/-- sqrt_rne32. -/
def sqrt (x : Num) : Fp Num := round (Fn.sqrt x) [x]
/-- A conversion to FP32 by RNE with saturation bit 1 (R415, R416). -/
def narrow (x : Num) : Fp Num := do
  let (c, fl) := FpFormat.fp32.convert .rne true x
  modify (fun f => f.or fl)
  pure (ofFp32 c)
/-- cvt_rne32 of an unsigned integer. -/
def ofNat (n : Nat) : Fp Num := round (Num.ofInt n) []

/-- pw of R414. -/
def pow (b : Num) (n : Nat) : Fp Num :=
  (List.range (Nat.log2 n + 1)).foldlM (fun r i => do
    let r ← mul r r
    if n.testBit (Nat.log2 n - i) then mul r b else pure r) Num.one

/-- curve of R408. -/
def curve (points : List (Nat × Num)) (tau : Nat) : Fp Num := do
  let ks := (List.range points.length).filter (fun p => decide (((points[p]?).getD (0, Num.zero)).1 ≤ tau))
  let at_ := fun (k : Nat) => (points[k]?).getD (0, Num.zero)
  match ks.getLast? with
  | none => pure (at_ 0).2
  | some k =>
    if k + 1 = points.length ∨ (at_ (k + 1)).1 ≤ (at_ k).1 then pure (at_ k).2
    else do
      let d ← sub (at_ (k + 1)).2 (at_ k).2
      let n ← ofNat (tau - (at_ k).1)
      let m ← ofNat ((at_ (k + 1)).1 - (at_ k).1)
      let f ← div n m
      fma d f (at_ k).2

end Fp

/-! ### The loss-spike detector (16 R584, R585) -/

namespace Dev

/-- A word of the detector state of a context. -/
def spikeWord (d : Dev) (n k : Nat) : Nat := d.rd .TEL_SPIKE_STATE 0 (4 * n + k)

/-- A word of the detector state stored. -/
def setSpike (d : Dev) (n k v : Nat) : Dev := d.wr .TEL_SPIKE_STATE 0 (4 * n + k) v

/-- The judgement of a loss that has not been judged before: the verdict and the device with its statistics. -/
def judgeLoss (d : Dev) (n : Nat) (lossCode : Nat) : Bool × Dev :=
  let loss := ofFp32 lossCode
  let mean := ofFp32 (bits (d.spikeWord n 0) 63 32)
  let var := ofFp32 (bits (d.spikeWord n 0) 31 0)
  let spikes := bits (d.spikeWord n 1) 63 32
  let count := bits (d.spikeWord n 1) 31 0
  let spike := d.setSpike n 1 (satAdd 32 spikes 1 * 2 ^ 32 + count)
  let dl := toFp32 (loss.sub mean)
  let lim := Fn.maxNum (toFp32 ((ofFp32 (d.fld F.TEL_SPIKE_CFG_k)).mul (toFp32 (Fn.sqrt var))))
    (toFp32 ((ofFp32 (d.fld F.TEL_SPIKE_REL_rel)).mul mean.abs))
  if loss.isNonfinite then (true, spike)
  else if d.fld F.TEL_SPIKE_CFG_warm ≤ count ∧ Num.lt lim dl then (true, spike)
  else
    let e := d.fld F.TEL_SPIKE_CFG_alpha_exp
    let a : Num := .fin false 1 (-((if e = 0 ∨ 24 < e then 24 else e : Nat) : Int))
    let (mean, var) :=
      if count = 0 then (loss, Num.zero)
      else (toFp32 ((a.mul dl).add mean), toFp32 ((a.mul (toFp32 ((toFp32 (dl.mul dl)).sub var))).add var))
    (false, (d.setSpike n 0 (fp32Code mean * 2 ^ 32 + fp32Code var)).setSpike n 1 (spikes * 2 ^ 32 + satAdd 32 count 1))

/-- spike_verdict of R584: a step that is asked again has the verdict it had. -/
def spikeVerdict (d : Dev) (n step lossCode : Nat) : Bool × Dev :=
  if bit (d.spikeWord n 3) 1 ∧ d.spikeWord n 2 = step then (bit (d.spikeWord n 3) 0, d)
  else
    let (v, d) := d.judgeLoss n lossCode
    (v, ((d.setSpike n 2 step).setSpike n 3 (2 + b2n v)).raiseIf v F.TEL_ERR_STATUS_spike)

/-- A post of UPD_NORMRED (R412, 16 R584). -/
def postStep (d : Dev) (n step loss norm outcome : Nat) (verdict : Bool) : Dev :=
  ((d.wr .TEL_POST_STEP 0 0 step).wr .TEL_POST_VAL 0 0 (loss % 2 ^ 32 * 2 ^ 32 + norm % 2 ^ 32)).wr .TEL_POST_INFO 0 0
    (b2n verdict * 2 ^ 16 + n % 16 * 2 ^ 8 + outcome)

end Dev

/-! ### The step record, the scale table and the group table -/

/-- A step record (R400) with its address. -/
structure StepRecord where
  at_ : Nat
  step : Nat
  groups : Nat
  curves : Nat
  curveCount : Nat
  scales : Nat
  entries : Nat
  scratch : Nat
  factored : Nat
  seed : Nat
  clipMax : Nat
  loss : Nat
  normCores : Nat
  lead : Nat
  gate : Bool
  normGroup : Nat
  gradFlags : Nat
  normDone : List Nat
  outcome : Nat
  clip : Nat
  torn : Nat
deriving DecidableEq, Repr

/-- A scale-table entry (R403). -/
structure ScaleEntry where
  addr : Nat
  s : Int
  count : Nat
deriving DecidableEq, Repr

/-- A group-table entry (R404) with its address. -/
structure ParamGroup where
  at_ : Nat
  opt : Nat
  frozen : Bool
  normExcl : Bool
  clipExcl : Bool
  nesterov : Bool
  biasCorr : Bool
  dbuf : Bool
  bf16 : Bool
  stateRound : Nat
  curve : Nat
  tensor : Nat
  addrs : List Nat
  n : Nat
  cols : Nat
  pattern : Nat
  beta1 : Num
  beta2 : Num
  eps : Num
  lambda : Num
  eps1 : Num
  lrScale : Num
  altOff : Int
  t : Nat
  doneStep : Nat
  frozenSkips : Nat
  start : Nat
  indexBase : Nat
  colMax : Nat
  rowMax : Nat
  codes : Nat
  codesStride : Nat
deriving DecidableEq, Repr

namespace ParamGroup

/-- Columns, one for a vector. -/
def columns (e : ParamGroup) : Nat := max 1 e.cols
/-- Stored elements of a column: K, or S_K of a sparse group (R405, R421). -/
def depth (e : ParamGroup) : Nat := e.n / e.columns
/-- The pattern of the group. -/
def pat (e : ParamGroup) : Pattern := (Pattern.ofCode e.pattern).getD ⟨1, 1, 0, 1⟩
/-- Logical rows of a column (R421). -/
def logical (e : ParamGroup) : Nat := e.depth / e.pat.kept * e.pat.group
/-- Address `i` of words 1 to 6: high half, low half, gradient, state0, state1, state2. -/
def addr (e : ParamGroup) (i : Nat) : Nat := (e.addrs[i]?).getD 0
/-- An address in a bank (R423). -/
def bank (e : ParamGroup) (i b : Nat) : Int := (e.addr i : Int) + (b : Int) * e.altOff
/-- Blocks of 4,096 elements (R425). -/
def blocks (e : ParamGroup) : Nat := ceilDiv e.n 4096

end ParamGroup

namespace Run

/-- An illegal update operation or entry (R398, R405, R428). -/
def updBad (u : UnitId) (c : Bool) : Run Unit :=
  if c then do
    upd (fun d => d.raise F.UPD_ERR_STATUS_illegal u.core)
    fault 0x10
  else pure ()

/-- What the update engine consumes (R427). -/
def updRead (u : UnitId) (va len : Nat) : Run (List Byte) := noting F.UPD_ERR_STATUS_poison u.core (vsolid u.req (va : Nat) len)

/-- The word of an update operation and its step record (R397, R398, R400). -/
def updRecord (u : UnitId) (o : Op) : Run StepRecord := do
  let range := if u.opcode = 0x69 then bits o.w0 47 16 else 0
  updBad u (bits o.w0 15 8 != 0 || bits o.w0 63 48 != 0 || bits o.w1 63 48 != 0 || o.w1 % 256 != 0 || range != 0)
  let p ← updRead u (bits o.w1 47 0) 256
  let w := fun (k n : Nat) => field p k n
  let zero := fun (k n : Nat) => w k n == 0
  updBad u (!(zero 0x0E 2 && zero 0x41 1 && zero 0x44 4 && zero 0x57 1 && zero 0x7C 4) || (p.drop 0x80).any (fun b => b != 0)
    || bit (w 0x40 1) 7 || bits (w 0x20 8) 63 48 != 0 || bits (w 0x28 8) 63 48 != 0)
  pure { at_ := bits o.w1 47 0, step := w 0 8, groups := bits (w 8 8) 47 0, curves := bits (w 0x10 8) 47 0
         curveCount := bits (w 0x10 8) 63 48, scales := bits (w 0x18 8) 47 0, entries := bits (w 0x18 8) 63 48
         scratch := bits (w 0x20 8) 47 0, factored := bits (w 0x28 8) 47 0, seed := w 0x30 8, clipMax := w 0x38 4, loss := w 0x3C 4
         normCores := bits (w 0x40 1) 3 0, lead := bits (w 0x40 1) 5 4, gate := bit (w 0x40 1) 6, normGroup := w 0x42 2
         gradFlags := w 0x48 8, normDone := (List.range 4).map (fun c => w (0x50 + c) 1), outcome := w 0x56 1
         clip := w 0x74 4, torn := w 0x78 4 }

/-- An update operation can start (R397): no other runs on the core, and what it waits for is there. -/
def updReady (u : UnitId) (o : Op) : Run Unit := do
  let d ← dev
  waitIf ((d.core u.core).held.any (fun x => decide (0x68 ≤ x.opcode) && decide (x.opcode < 0x70) && x.id != o.id))
  let r ← updRecord u o
  if u.opcode = 0x69 then
    waitIf ((maskBits 4 r.normCores).any (fun c => (r.normDone[c]?).getD 0 ≠ 1))
  else if u.opcode = 0x6A then waitIf (r.outcome = 0)
  else pure ()

/-- The scale table (R403). -/
def scaleTable (u : UnitId) (r : StepRecord) : Run (List ScaleEntry) := do
  let bs ← updRead u r.scales (16 * r.entries)
  pure ((List.range r.entries).map (fun b =>
    let w0 := field bs (16 * b) 8
    { addr := bits w0 47 0, s := sx 16 (bits w0 63 48), count := bits (field bs (16 * b + 8) 8) 39 0 }))

/-- The scale entry that covers a gradient element (R403). -/
def scaleOf (u : UnitId) (ss : List ScaleEntry) (a : Nat) : Run (Nat × Int) :=
  match ss.zipIdx.find? (fun (e, _) => decide (e.addr ≤ a) && decide (a < e.addr + 4 * e.count)) with
  | some (e, b) => do
    updBad u (decide (e.s < -8192) || decide (8191 < e.s))
    pure (b, e.s)
  | none => do
    updBad u true
    pure (0, 0)

/-- A group-table entry read and checked (R404-R406). -/
def paramGroup (u : UnitId) (r : StepRecord) (ss : List ScaleEntry) (i : Nat) : Run ParamGroup := do
  let a := r.groups + 192 * i
  let bs ← updRead u a 192
  let w := fun (k : Nat) => field bs (8 * k) 8
  let num := fun (k hi : Nat) => ofFp32 (bits (w k) (32 * hi + 31) (32 * hi))
  let w0 := w 0
  let e : ParamGroup :=
    { at_ := a, opt := bits w0 3 0, frozen := bit w0 4, normExcl := bit w0 5, clipExcl := bit w0 6, nesterov := bit w0 7
      biasCorr := bit w0 8, dbuf := bit w0 9, bf16 := bit w0 10, stateRound := bits w0 13 11, curve := bits w0 31 16
      tensor := bits w0 63 32, addrs := (List.range 6).map (fun k => bits (w (k + 1)) 47 0), n := bits (w 7) 39 0
      cols := bits (w 8) 31 0, pattern := bits (w 8) 34 32, beta1 := num 9 0, beta2 := num 9 1, eps := num 10 0
      lambda := num 10 1, eps1 := num 11 0, lrScale := num 11 1, altOff := sx 48 (bits (w 12) 47 0), t := bits (w 13) 63 32
      doneStep := bits (w 13) 31 0, frozenSkips := bits (w 14) 63 32, start := bits (w 14) 31 0, indexBase := bits (w 15) 47 0
      colMax := bits (w 16) 47 0, rowMax := bits (w 17) 47 0, codes := bits (w 18) 47 0, codesStride := bits (w 19) 31 0 }
  let reserved := bits w0 15 14 != 0 || [1, 2, 3, 4, 5, 6, 12, 15, 16, 17, 18].any (fun k => bits (w k) 63 48 != 0)
    || bits (w 7) 63 40 != 0 || bits (w 8) 63 35 != 0 || bits (w 19) 63 32 != 0 || [20, 21, 22, 23].any (fun k => w k != 0)
  updBad u (reserved || decide (3 < e.opt) || decide (r.curveCount ≤ e.curve) || (e.cols != 0 && e.n % e.cols != 0))
  updBad u (decide (5 ≤ e.pattern) || (e.pattern != 0 && (e.cols == 0 || e.depth % e.pat.kept != 0)))
  if e.opt = 3 then do
    let bytes := 4 * e.logical * e.cols
    let single := ss.any (fun s => decide (s.addr ≤ e.addr 2) && decide (e.addr 2 + bytes ≤ s.addr + 4 * s.count))
    updBad u (e.cols == 0 || decide (65536 < e.depth + e.cols) || !single || (bits (w 9) 31 0 == 0 && e.addr 3 != 0))
  pure e

/-! ### Gradients -/

/-- A gradient element of a stored element: its value, its poison, the scale entry, and whether R143 makes it chaff. -/
structure Gradient where
  g : Int
  poison : Bool
  entry : Nat
  s : Int
  chaff : Bool

/-- The position code of stored value `n` of a column, with its poison (R133). -/
def positionCode (u : UnitId) (e : ParamGroup) (j n : Nat) : Run Elem := do
  let w := e.pat.codeBits
  let bit0 := 8 * (e.codes + j * e.codesStride) + n * w
  let bs ← vread u.req (bit0 / 8 : Nat) ((bit0 % 8 + w + 7) / 8)
  pure ((cutElems w (bit0 % 8) 1 bs).headD {})

/-- Where the gradient of stored element `i` lies (R405, R421), and whether the element is chaff or its code poisoned. -/
def gradientAt (u : UnitId) (e : ParamGroup) (i : Nat) : Run (Nat × Bool × Bool × Nat) := do
  if e.pattern = 0 then pure (e.addr 2 + 4 * i, false, false, i % max 1 e.depth)
  else do
    let j := i / e.depth
    let n := i % e.depth
    let c ← positionCode u e j n
    let before ← if n % e.pat.kept = 0 then pure { code := 0 } else positionCode u e j (n - 1)
    let k := logicalIndex e.pat n c.code
    pure (e.addr 2 + 4 * (j * e.logical + k), n % e.pat.kept ≠ 0 && decide (c.code ≤ before.code), c.poison || before.poison, k)

/-- The gradient of a stored element. -/
def gradient (u : UnitId) (e : ParamGroup) (ss : List ScaleEntry) (i : Nat) : Run Gradient := do
  let (a, chaff, bad, _) ← gradientAt u e i
  let (b, s) ← scaleOf u ss a
  let bs ← vread u.req (a : Nat) 4
  pure { g := if chaff then 0 else sx 32 (leNat (bs.map PByte.val)), poison := bad || bs.any PByte.poison, entry := b, s, chaff }

/-! ### The cursor -/

/-- The progress cursor: group index times 2^28 plus block (R428). -/
def updCursor (u : UnitId) (o : Op) (group block : Nat) : Run Unit :=
  held u o.id (fun o => { o with cursor := group * 2 ^ 28 + block })

/-- Where the operation stands: group index and block. -/
def updAt (u : UnitId) (o : Op) (first : Nat) : Run (Nat × Nat) := do
  let d ← dev
  let c := ((d.heldOp u.core o.id).map Op.cursor).getD 0
  pure (if c = 0 then (first, 0) else (c / 2 ^ 28, c % 2 ^ 28))

/-- An operation's work list as it stands. -/
def updWork (u : UnitId) (o : Op) : Run (List Nat) := do
  let d ← dev
  pure (((d.heldOp u.core o.id).map Op.work).getD [])

/-! ### UPD_NORM (R409) -/

/-- Where Q[c][b] lies (R400, R409). -/
def normAt (r : StepRecord) (c b : Nat) : Nat := r.scratch + 16 * (c * r.entries + b)

/-- The squares of one block added to their Q values. -/
def normBlock (u : UnitId) (r : StepRecord) (ss : List ScaleEntry) (e : ParamGroup) (block : Nat) : Run Unit := atomically (do
  let gs ← ((List.range (min 4096 (e.n - block * 4096))).map (fun i => block * 4096 + i)).mapM (gradient u e ss)
  let gs := gs.filter (fun g => !g.chaff)
  (gs.map Gradient.entry).eraseDups.forM (fun b => do
    let mine := gs.filter (fun g => g.entry == b)
    let old ← vread u.req (normAt r u.core b : Nat) 16
    let sum := mine.foldl (fun s g => s + g.g.natAbs * g.g.natAbs) (leNat (old.map PByte.val))
    let bad := old.any PByte.poison || mine.any Gradient.poison
    vwrite u.req (normAt r u.core b : Nat) ((leBytes 16 (sum % 2 ^ 128)).map (fun v => { val := v, poison := bad }))))

/-- UPD_NORM. -/
def updNorm (u : UnitId) (o : Op) : Run Unit := do
  let r ← updRecord u o
  let ss ← scaleTable u r
  let first := bits o.w0 31 16
  let count := bits o.w0 47 32
  if o.work.isEmpty then do
    vwrite u.req (normAt r u.core 0 : Nat) (Dev.clean (List.replicate (16 * r.entries) 0))
    held u o.id (fun o => { o with work := [1] })
  else pure ()
  let (g0, b0) ← updAt u o first
  ((List.range count).map (first + ·)).forM (fun g => do
    if g < g0 then pure ()
    else do
      let e ← paramGroup u r ss g
      if e.frozen || e.normExcl then pure ()
      else ((List.range e.blocks).drop (if g = g0 then b0 else 0)).forM (fun b => do
        normBlock u r ss e b
        updCursor u o g (b + 1))
      updCursor u o (g + 1) 0)
  vwrite u.req (r.at_ + 0x50 + u.core : Nat) (Dev.clean [1])

/-! ### UPD_NORMRED (R410-R412) -/

/-- The fifteen-bit limbs of a sum, and the number that limb sums spell. -/
def limbs (s : Nat) : List Nat := (List.range 10).map (fun i => bits s (15 * i + 14) (15 * i))

/-- The results written to the step record, then the outcome; the posts and counters (R410-R412). -/
def decide_ (u : UnitId) (r : StepRecord) (outcome : Nat) (verdict : Bool) (res : Option (Nat × Nat × Num × Num)) : Run Unit := do
  atomically (do
    match res with
    | some (a, s, norm, c) => do
      vwrite u.req (r.at_ + 0x54 : Nat) (Dev.clean (leBytes 2 a))
      vwrite u.req (r.at_ + 0x58 : Nat) (Dev.clean (leBytes 24 s ++ leBytes 4 (fp32Code norm) ++ leBytes 4 (fp32Code c)))
    | none => pure ()
    vwrite u.req (r.at_ + 0x56 : Nat) (Dev.clean [BitVec.ofNat 8 outcome]))
  let norm ← match res with
    | some (_, _, norm, _) => pure (fp32Code norm)
    | none => lift (fun d => d.draw 32)
  upd (fun d =>
    let d := if outcome = 1 then d else d.bump F.UPD_SKIP_CNT_steps u.core 0 1
    let d := (d.raiseIf (outcome == 2) F.UPD_ERR_STATUS_skip_nonfinite u.core).raiseIf (outcome == 3) F.UPD_ERR_STATUS_skip_spike u.core
    d.postStep u.ctx r.step r.loss norm outcome verdict)

/-- UPD_NORMRED. `work` holds the first collective's sequence number plus 1, the stage, the anchor and the flags. -/
def updNormred (u : UnitId) (o : Op) : Run Unit := do
  let r ← updRecord u o
  updBad u (r.lead != u.core)
  let ss ← scaleTable u r
  let x : ColId := { u, group := r.normGroup, stream := 2, seq := o.work.headD 1 - 1, opcode := 0x70, count := 1 }
  let p ← colPlan x
  let g ← colGroupOf x p
  let qs ← (List.range r.entries).mapM (fun b => (maskBits 4 r.normCores).foldlM (fun (n : Nat) c => do
    let bs ← updRead u (normAt r c b) 16
    pure (n + leNat bs)) 0)
  let rows := (qs.zip ss).filter (fun e => e.1 ≠ 0)
  rows.forM (fun e => updBad u (decide (e.2.s < -8192) || decide (8191 < e.2.s)))
  let x ← colStart x p o
  let verdict ← if r.gate then lift (fun d => d.spikeVerdict u.ctx r.step r.loss) else pure false
  let w ← updWork u o
  let (a, flags) ← if (w[1]?).getD 0 = 0 then do
      let es := rows.map (fun e => (Nat.log2 e.1 : Int) + 2 * e.2.s)
      let loc : MaxExp := es.foldl (fun (m : MaxExp) e => m.max (some e)) none
      let ms ← exchange x g 0 (pure (fun _ => [(loc.code, false), (r.gradFlags % 2 + 2 * b2n verdict, false)]))
      let (e, f) := expOver ms
      exchanged x
      upd (fun d => d.bump F.COL_OP_CNT_ops 0 0 1)
      held u o.id (fun o => { o with work := [x.seq + 1, 1, e.code, f] })
      pure (e.code, f)
    else pure ((w[2]?).getD 0x8000, (w[3]?).getD 0)
  let d ← dev
  let skip := d.isSet F.UPD_CTRL_skip_en u.core
  let finish := fun (outcome : Nat) (res : Option (Nat × Nat × Num × Num)) => (do
    decide_ u r outcome verdict res
    slotFreed x : Run Unit)
  if skip && bit flags 0 then finish 2 none
  else if skip && bit flags 1 then finish 3 none
  else do
    let w ← updWork u o
    let y := { x with opcode := 0x71, kind := 1, count := 10 }
    let y ← if (w[4]?).getD 0 = 0 then do
        let seq ← lift (fun d => d.nextSeq u.ctx r.normGroup 2)
        held u o.id (fun o => { o with work := [x.seq + 1, 1, a, flags, seq + 1] })
        pure { y with seq }
      else pure { y with seq := (w[4]?).getD 1 - 1 }
    let anchor := MaxExp.ofCode a
    let local_ := match anchor with
      | none => 0
      | some A => rows.foldl (fun n e => n + ((e.1 : Int) * (if 0 ≤ 2 * e.2.s - A + 120 then 2 ^ (2 * e.2.s - A + 120).toNat else 1)
          / (if 0 ≤ 2 * e.2.s - A + 120 then 1 else 2 ^ (A - 120 - 2 * e.2.s).toNat)).toNat) 0
    let ms ← exchange y g 0 (pure (fun _ => (limbs local_).map (fun v => (v, false))))
    let es ← sumElems y ms 10
    faultIf (es.any Elem.poison) 0x0B
    let s := es.zipIdx.foldl (fun n (e, i) => n + e.code * 2 ^ (15 * i)) 0
    exchanged y
    upd (fun d => d.bump F.COL_OP_CNT_ops 0 0 1)
    let clipMax := ofFp32 r.clipMax
    let ((norm, c), fl) := (do
      let n2 ← match anchor with | none => pure Num.zero | some A => Fp.narrow (.fin false s (A - 120))
      let norm ← Fp.sqrt n2
      let c ← if Num.lt .zero clipMax && Num.lt clipMax norm then Fp.div clipMax norm else pure Num.one
      pure (norm, c) : Fp (Num × Num)).run Flags.none
    upd (fun d => d.reportFlags u.ctx fl)
    finish 1 (some (a, s, norm, c))

/-! ### UPD_APPLY (R413-R422) -/

/-- The constants of a group (R414). -/
structure GroupConst where
  eta : Num
  etaLambda : Num
  a1 : Num
  a2 : Num
  bc1 : Num
  bc2 : Num

/-- The constants formed (R414). -/
def groupConst (e : ParamGroup) (points : List (Nat × Num)) : Fp GroupConst := do
  let tau := (e.t + 1) % 2 ^ 32
  let y ← Fp.curve points tau
  let eta ← Fp.mul y e.lrScale
  let etaLambda ← Fp.mul eta e.lambda
  let a1 ← Fp.sub Num.one e.beta1
  let a2 ← Fp.sub Num.one e.beta2
  if e.opt = 1 ∧ e.biasCorr then do
    let p1 ← Fp.pow e.beta1 tau
    let bc1 ← Fp.sub Num.one p1
    let p2 ← Fp.pow e.beta2 tau
    let bc2 ← Fp.sub Num.one p2
    pure { eta, etaLambda, a1, a2, bc1, bc2 }
  else pure { eta, etaLambda, a1, a2, bc1 := Num.one, bc2 := Num.one }

/-- The points of a group's curve (R407). -/
def curvePoints (u : UnitId) (r : StepRecord) (e : ParamGroup) : Run (List (Nat × Num)) := do
  let h ← updRead u (r.curves + 16 * e.curve) 16
  let w0 := field h 0 8
  let n := bits w0 63 48
  let bs ← updRead u (bits w0 47 0) (8 * n)
  pure ((List.range n).map (fun p => (field bs (8 * p) 4, ofFp32 (field bs (8 * p + 4) 4))))

/-- One element's update (R415): the new m, v and master. `stat` holds a factored group's v̂. -/
def elementStep (e : ParamGroup) (k : GroupConst) (clip g w m v stat : Num) : Fp (Num × Num × Num) := do
  let g ← if e.clipExcl || Num.same clip Num.one then pure g else Fp.mul g clip
  let w ← Fp.fma k.etaLambda.neg w w
  match e.opt with
  | 0 => do
    let m ← Fp.fma e.beta1 m g
    let d ← if e.nesterov then Fp.fma e.beta1 m g else pure m
    let w ← Fp.fma k.eta.neg d w
    pure (m, v, w)
  | 1 => do
    let bm ← Fp.mul e.beta1 m
    let m ← Fp.fma k.a1 g bm
    let gg ← Fp.mul g g
    let bv ← Fp.mul e.beta2 v
    let v ← Fp.fma k.a2 gg bv
    let mh ← Fp.div m k.bc1
    let vh ← Fp.div v k.bc2
    let sq ← Fp.sqrt vh
    let den ← Fp.add sq e.eps
    let u ← Fp.div mh den
    let w ← Fp.fma k.eta.neg u w
    pure (m, v, w)
  | 2 => do
    let bm ← Fp.mul e.beta1 m
    let t ← Fp.fma k.a1 g bm
    let u := Fn.sgn t
    let b2 ← Fp.mul e.beta2 m
    let m ← Fp.fma k.a2 g b2
    let w ← Fp.fma k.eta.neg u w
    pure (m, v, w)
  | _ => do
    let m ← if e.addr 3 ≠ 0 then do
        let bm ← Fp.mul e.beta1 m
        Fp.fma k.a1 g bm
      else pure g
    let sq ← Fp.sqrt stat
    let den ← Fp.add sq e.eps
    let u ← Fp.div m den
    let w ← Fp.fma k.eta.neg u w
    pure (m, v, w)

/-- Elements of `n` bytes read from a virtual address. -/
def readWide (u : UnitId) (va : Int) (bytes n : Nat) : Run (List Elem) := do
  let bs ← vread u.req va (bytes * n)
  pure (cutElems (8 * bytes) 0 n bs)

/-- Elements of `n` bytes written. -/
def writeWide (u : UnitId) (va : Int) (bytes : Nat) (es : List Elem) : Run Unit :=
  vwrite u.req va (es.flatMap (fun e => (leBytes bytes e.code).map (fun b => { val := b, poison := e.poison })))

/-- The statistics of a factored group (R416): the sums in the scratch, the new r and c in the bank that is written. -/
def factorStats (u : UnitId) (r : StepRecord) (ss : List ScaleEntry) (e : ParamGroup) (k : GroupConst) (src dst : Nat) :
    Run Flags := atomically (do
  let gs ← (List.range e.n).mapM (fun i => do
    let g ← gradient u e ss i
    pure (i % max 1 e.depth, i / max 1 e.depth, g))
  let K := e.depth
  let N := e.cols
  let s := ((gs.head?).map (fun x => x.2.2.s)).getD 0
  let base := r.factored + u.core * 2 ^ 20
  let sum := fun (f : Nat × Nat × Gradient → Bool) =>
    let mine := gs.filter f
    ({ code := mine.foldl (fun n x => n + x.2.2.g.natAbs * x.2.2.g.natAbs) 0, poison := mine.any (fun x => x.2.2.poison) } : Elem)
  let rho := (List.range K).map (fun i => sum (fun x => x.1 == i))
  let kappa := (List.range N).map (fun j => sum (fun x => x.2.1 == j))
  writeWide u (base : Nat) 16 (rho ++ kappa)
  let clip := ofFp32 r.clip
  let stats := fun (sums olds : List Elem) (share : Nat) => ((sums.zip olds).mapM (fun (q, old) => do
    let v ← Fp.narrow (Fn.div (.fin false q.code (2 * s)) (Num.ofInt share))
    let v ← if e.clipExcl || Num.same clip Num.one then pure v else do
        let c2 ← Fp.mul clip clip
        Fp.mul v c2
    let a ← Fp.add v e.eps1
    let b ← Fp.mul e.beta2 (ofFp32 old.code)
    let z ← Fp.fma k.a2 a b
    pure ({ code := fp32Code z, poison := q.poison || old.poison } : Elem)) : Fp (List Elem))
  let oldR ← readWide u (e.bank 4 src) 4 K
  let oldC ← readWide u (e.bank 5 src) 4 N
  let ((newR, newC), fl) := (do
    let a ← stats rho oldR N
    let b ← stats kappa oldC K
    pure (a, b) : Fp (List Elem × List Elem)).run Flags.none
  writeWide u (e.bank 4 dst) 4 newR
  writeWide u (e.bank 5 dst) 4 newC
  pure fl)

/-- One block of elements updated (R415-R419, R425); the flags and how many new masters are not finite. -/
def updateBlock (u : UnitId) (r : StepRecord) (ss : List ScaleEntry) (e : ParamGroup) (k : GroupConst) (src dst block : Nat) :
    Run (Flags × Nat) := atomically (do
  let lo := block * 4096
  let n := min 4096 (e.n - lo)
  let gs ← ((List.range n).map (lo + ·)).mapM (gradient u e ss)
  let hs ← readWide u (e.bank 0 src + 2 * lo) 2 n
  let ls ← readWide u (e.bank 1 src + 2 * lo) 2 n
  let sb : Nat := if e.bf16 ∧ e.opt ≠ 3 then 2 else 4
  let hasM := e.opt ≠ 3 ∨ e.addr 3 ≠ 0
  let ms ← if hasM then readWide u (e.bank 3 src + (sb * lo : Nat)) sb n else pure []
  let vs ← if e.opt = 1 then readWide u (e.bank 4 src + (sb * lo : Nat)) sb n else pure []
  let stats ← if e.opt = 3 then do
      let rs ← readWide u (e.bank 4 dst) 4 e.depth
      let cs ← readWide u (e.bank 5 dst) 4 e.cols
      pure (rs, cs, (List.range n).map (fun i => ((lo + i) % max 1 e.depth, (lo + i) / max 1 e.depth)))
    else pure ([], [], [])
  let fromState := fun (c : Nat) => if sb = 2 then ofFp32 (c * 2 ^ 16) else ofFp32 c
  let clip := ofFp32 r.clip
  let (outs, fl) := (do
    let Rs ← stats.1.foldlM (fun s x => Fp.add s (ofFp32 x.code)) Num.zero
    (gs.zipIdx).mapM (fun (g, i) => do
      let h := (hs[i]?).getD {}
      let l := (ls[i]?).getD {}
      let m := (ms[i]?).getD {}
      let v := (vs[i]?).getD {}
      let gv ← Fp.narrow ((Num.ofInt g.g).scale g.s)
      let at_ := (stats.2.2[i]?).getD (0, 0)
      let rk := (stats.1[at_.1]?).getD {}
      let cj := (stats.2.1[at_.2]?).getD {}
      let stat ← if e.opt = 3 then do
          let p ← Fp.mul (ofFp32 rk.code) (ofFp32 cj.code)
          Fp.div p Rs
        else pure Num.zero
      let (m', v', w) ← elementStep e k clip gv (ofFp32 (h.code * 2 ^ 16 + l.code)) (fromState m.code) (fromState v.code) stat
      let idx := e.indexBase + lo + i
      let state := fun (x : Nat) (z : Num) => (if sb = 4 then pure (fp32Code z) else do
        let (c, fl) := FpFormat.bf16.convert (Rounding.ofCode e.stateRound (srDraw r.seed ((e.tensor + x) % 2 ^ 32) idx)) true z
        modify (fun f => f.or fl)
        pure c : Fp Nat)
      let mc ← if hasM then state 0 m' else pure 0
      let vc ← if e.opt = 1 then state 1 v' else pure 0
      pure (fp32Code w, mc, vc, h.poison || l.poison || m.poison || v.poison || g.poison || rk.poison || cj.poison))
    : Fp (List (Nat × Nat × Nat × Bool))).run Flags.none
  writeWide u (e.bank 0 dst + 2 * lo) 2 (outs.map (fun x => { code := x.1 / 2 ^ 16, poison := x.2.2.2 }))
  writeWide u (e.bank 1 dst + 2 * lo) 2 (outs.map (fun x => { code := x.1 % 2 ^ 16, poison := x.2.2.2 }))
  if hasM then writeWide u (e.bank 3 dst + (sb * lo : Nat)) sb (outs.map (fun x => { code := x.2.1, poison := x.2.2.2 })) else pure ()
  if e.opt = 1 then writeWide u (e.bank 4 dst + (sb * lo : Nat)) sb (outs.map (fun x => { code := x.2.2.1, poison := x.2.2.2 })) else pure ()
  pure (fl, (outs.filter (fun x => (ofFp32 x.1).isNonfinite)).length))

/-- The maxima of the new high half (R420, R421). -/
def writeMaxima (u : UnitId) (e : ParamGroup) (dst : Nat) : Run Unit :=
  if e.colMax = 0 ∧ e.rowMax = 0 then pure ()
  else atomically (do
    let hs ← readWide u (e.bank 0 dst) 2 e.n
    let xs ← hs.zipIdx.mapM (fun (h, i) => do
      let (_, chaff, _, k) ← gradientAt u e i
      pure (k, i / max 1 e.depth, chaff, ({ code := (maxExpOf [FpFormat.bf16.decode h.code]).code, poison := h.poison } : Elem)))
    let xs := xs.filter (fun x => !x.2.2.1)
    let most := fun (f : Nat × Nat × Bool × Elem → Bool) => (xs.filter f).foldl (fun m x => maxElem m x.2.2.2) ({ code := 0x8000 } : Elem)
    if e.colMax ≠ 0 then writeWide u (e.colMax : Nat) 2 ((List.range e.columns).map (fun j => most (fun x => x.2.1 == j))) else pure ()
    if e.rowMax ≠ 0 then writeWide u (e.rowMax : Nat) 2 ((List.range e.logical).map (fun k => most (fun x => x.1 == k))) else pure ())

/-- The procedure of R422 for one group. `work` holds whether the group is begun, whether its statistics are done, and the
flags so far. -/
def applyGroup (u : UnitId) (o : Op) (r : StepRecord) (ss : List ScaleEntry) (g block : Nat) : Run Unit := do
  let e ← paramGroup u r ss g
  let c := u.core
  let step := r.step % 2 ^ 32
  let w ← updWork u o
  let begun := (w[0]?).getD 0 = 1
  let commit := fun (t : Nat) => vwrite u.req (e.at_ + 104 : Nat) (Dev.clean (leBytes 8 (t % 2 ^ 32 * 2 ^ 32 + step)))
  if !begun ∧ e.doneStep = step then upd (fun d => d.bump F.UPD_RECOMMIT_CNT_groups c 0 1)
  else if !begun ∧ e.frozen then do
    atomically (do
      vwrite u.req (e.at_ + 116 : Nat) (Dev.clean (leBytes 4 ((e.frozenSkips + 1) % 2 ^ 32)))
      commit e.t)
    upd (fun d => d.bump F.UPD_FROZEN_CNT_groups c 0 1)
  else if !begun ∧ e.start = step ∧ !e.dbuf then do
    let t ← updRead u (r.at_ + 0x78) 4
    vwrite u.req (r.at_ + 0x78 : Nat) (Dev.clean (leBytes 4 (leNat t + 1)))
    upd (fun d => (d.bump F.UPD_TORN_CNT_groups c 0 1).raise F.UPD_ERR_STATUS_torn c)
  else do
    if !begun then do
      vwrite u.req (e.at_ + 112 : Nat) (Dev.clean (leBytes 4 step))
      held u o.id (fun o => { o with work := [1, 0, (o.work[2]?).getD 0] })
    else pure ()
    let src := if e.dbuf then e.t % 2 else 0
    let dst := if e.dbuf then (e.t + 1) % 2 else 0
    let points ← curvePoints u r e
    let (k, kf) := (groupConst e points).run Flags.none
    let flag := fun (fl : Flags) => held u o.id (fun o =>
      { o with work := [(o.work[0]?).getD 0, (o.work[1]?).getD 0, (o.work[2]?).getD 0 ||| fl.toNat] })
    flag kf
    if e.opt = 3 ∧ (w[1]?).getD 0 = 0 then do
      let fl ← factorStats u r ss e k src dst
      held u o.id (fun o => { o with work := [1, 1, (o.work[2]?).getD 0] })
      flag fl
    else pure ()
    ((List.range e.blocks).drop block).forM (fun b => do
      let (fl, bad) ← updateBlock u r ss e k src dst b
      flag fl
      upd (fun d => ((d.bump F.UPD_ELEM_CNT_elements c 0 (min 4096 (e.n - b * 4096))).bump F.UPD_NONFINITE_CNT_elements c 0 bad).raiseIf
        (bad != 0) F.UPD_ERR_STATUS_nonfinite_result c)
      updCursor u o g (b + 1))
    writeMaxima u e dst
    commit (e.t + 1)
    upd (fun d => d.bump F.UPD_GROUP_CNT_groups c 0 1)

/-- UPD_APPLY (R413): only the outcome APPLY updates anything. -/
def updApply (u : UnitId) (o : Op) : Run Unit := do
  let r ← updRecord u o
  if r.outcome ≠ 1 then pure ()
  else do
    let ss ← scaleTable u r
    let first := bits o.w0 31 16
    let (g0, b0) ← updAt u o first
    ((List.range (bits o.w0 47 32)).map (first + ·)).forM (fun g => do
      if g < g0 then pure ()
      else do
        applyGroup u o r ss g (if g = g0 then b0 else 0)
        held u o.id (fun o => { o with work := [0, 0, (o.work[2]?).getD 0] })
        updCursor u o (g + 1) 0)
    let w ← updWork u o
    upd (fun d => d.reportFlags u.ctx (Flags.ofNat ((w[2]?).getD 0)))

end Run

namespace Dev

/-- UPD_STATUS (R428). -/
def updStatus (d : Dev) (c : Nat) : Nat :=
  match (d.core c).held.find? (fun o => decide (0x68 ≤ o.opcode) && decide (o.opcode < 0x70)) with
  | none => 0
  | some o => bits o.cursor 27 0 * 2 ^ 36 + bits o.cursor 43 28 * 2 ^ 20 + (o.opcode - 0x67) % 4 * 4 + b2n o.stopped.isSome * 2 + 1

end Dev

end Sys2Proof.Machine
end

