-- ==== Sys2Proof/Machine/Schedule.lean ====
section
/-!
DEFINITION. The execute engine's choice among its task lists (07_streams_descriptors_and_layouts.md R244, R245), the
synchronisation operations that either engine runs (R251), Q_DRAIN (R264) and the operations of the mailboxes that a core
program issues (14_control_mailboxes_and_interrupts.md R512, R513).
-/

namespace Sys2Proof.Machine

namespace Run

/-! ### Queue and event operations -/

/-- The word of a stream operation without a parameter block: its reserved fields must be 0 (R262). -/
def plainWord (o : Op) : Run Unit := faultIf (bits o.w0 31 24 ≠ 0 ∨ bits o.w0 63 48 ≠ 0 ∨ bits o.w1 63 48 ≠ 0) 0x09

/-- Q_DRAIN (R264): it waits until the head slot is full, then drains it. -/
def qDrain (u : UnitId) (o : Op) : Run Unit := do
  plainWord o
  let q := bits o.w0 15 8
  let e ← queueOf u.core q 0x09 [0, 1, 2, 3]
  let d ← dev
  waitIf (!d.slotFull u.core e (d.head u.core q))
  upd (fun d => d.drainHead u.core q e)

/-- Operations issued before this one to its list, or to the fetch engine, that are not complete. Those of the list itself
have all started. -/
def earlier (d : Dev) (u : UnitId) (o : Op) : Bool :=
  let k := d.core u.core
  k.held.any (fun x => decide (x.id ≠ o.id) && x.task == o.task) || (o.task == 8 && !k.streams.isEmpty)

/-- EV_SIGNAL (R251). -/
def evSignal (u : UnitId) (o : Op) : Run Unit := do
  plainWord o
  let d ← dev
  waitIf (earlier d u o)
  let n := bits o.w0 11 8
  upd (fun d => d.onCore u.core (fun k =>
    { k with events := Sp.set (fun _ => 0) k.events n ((Sp.get (fun _ => 0) k.events n + 1) % 2 ^ 32) }))

/-- EV_WAIT (R251). -/
def evWait (u : UnitId) (o : Op) : Run Unit := do
  plainWord o
  let d ← dev
  let v := Sp.get (fun _ => 0) (d.core u.core).events (bits o.w0 11 8)
  waitIf (2 ^ 31 ≤ (v + 2 ^ 32 - bits o.w1 31 0) % 2 ^ 32)

/-! ### Mailbox operations -/

/-- The word of MB_POST or MB_TAKE (R512): its channel and its message area, whose address a record of a bad word carries
(R304; log entry 72). -/
def mbWord (o : Op) : Run (Nat × Nat) := do
  if bits o.w0 63 14 ≠ 0 ∨ bits o.w1 63 48 ≠ 0 ∨ o.w1 % 256 ≠ 0 then stop (.fatal 0x09 (o.w1 % 2 ^ 48) 0 0 none)
  else pure (bits o.w0 13 8, o.w1)

/-- MB_POST (R512): the header and its length bytes of body go to the mailbox unit; an area holds 240 bytes of body, and
a longer length is delivered to be discarded (R528). A drop for
its binding is answered with ACCESS_ERR (R506). -/
def mbPost (u : UnitId) (o : Op) : Run Unit := do
  let (c, a) ← mbWord o
  let h ← vsolid u.req a 16
  let m ← vsolid u.req a (16 + min 240 (field h 6 2))
  let long := decide (240 < field h 6 2)
  let taken ← lift (fun d => d.mbxArrive (0x10 + u.core) c .core m)
  if !taken && !long then do
    upd (fun d => d.fabError u.req (d.deviceId * 2 ^ 48 + a) 5 none)
    errorResponse a 0 5
  else pure ()

/-- MB_TAKE (R512, R513). The area's pages are reached before the message leaves its channel. -/
def mbTake (u : UnitId) (o : Op) : Run Unit := do
  let (c, a) ← mbWord o
  let d ← dev
  if (d.binding c).receiver ≠ 0x10 + u.core then errorResponse a 0 5
  else do
    let _ ← pagesForWrite u.req a 256 {}
    let m ← lift (fun d => d.ringTake c)
    let bs := m.getD Dev.emptyMarker
    vwrite u.req a (Dev.clean (bs ++ List.replicate (256 - bs.length) 0))

end Run

namespace Dev

/-! ### The execute engine -/

/-- Engines of a GME or vector-engine operation, by their local numbers. -/
def engineMask (o : Op) : Nat := if o.opcode < 0x90 then bits o.w0 15 8 else bits o.w0 11 8

/-- An operation of the GMEs or of the vector engines. -/
def isEngineOp (o : Op) : Bool :=
  (decide (0x30 ≤ o.opcode) && decide (o.opcode < 0x40)) || (decide (0x90 ≤ o.opcode) && decide (o.opcode < 0xA0))

/-- Two operations name one engine. -/
def sharesEngine (x o : Op) : Bool :=
  isEngineOp x && isEngineOp o && decide (x.opcode / 16 < 9 ↔ o.opcode / 16 < 9) && decide (engineMask x &&& engineMask o ≠ 0)

/-- Every engine that an operation names has room in its queue of 16 (05 R158, R186); the vector engines take nothing
while an update operation runs (11 R398). -/
def engineRoom (d : Dev) (c : Nat) (o : Op) : Bool :=
  let k := d.core c
  (maskBits 8 (engineMask o)).all (fun g =>
    decide ((k.held.filter (fun x => isEngineOp x && decide (x.opcode / 16 < 9 ↔ o.opcode / 16 < 9) && bit (engineMask x) g)).length < 16)) &&
  !(decide (0x90 ≤ o.opcode) && k.held.any (fun x => decide (0x68 ≤ x.opcode) && decide (x.opcode < 0x70)))

/-- Engine code of an operation of the execute engine, for its records (08 R304). -/
def execEngine (c : Nat) (o : Op) : Nat :=
  let low := fun n => ((maskBits 8 n).head?).getD 0
  if o.opcode < 0x20 then 0x10 + c
  else if o.opcode < 0x30 then (DaWord.of o).engine c
  else if o.opcode < 0x40 then 0x50 + 8 * c + low (bits o.w0 15 8)
  else if o.opcode < 0x70 then 0x70 + c
  else if o.opcode < 0x90 then 0x30 + 2 * c
  else 0x40 + 4 * c + low (bits o.w0 11 8)

/-- What the start of an operation does: the whole of it; for the GMEs and vector engines, its entry into their queues;
for the update engine, what R397 asks of the start. -/
def startWork (o : Op) : UnitId → Op → Run Unit :=
  match o.opcode with
  | 0x18 => Run.qDrain
  | 0x19 => Run.evSignal
  | 0x1A => Run.evWait
  | 0x20 => Run.daTile
  | 0x21 => Run.daPass
  | 0x22 => Run.daExport
  | 0x23 => Run.daImport
  | 0x24 => Run.daSync
  | 0x68 | 0x69 | 0x6A => Run.updReady
  | _ => fun u o => do
    let d ← Run.dev
    Run.waitIf (isEngineOp o && !d.engineRoom u.core o)

/-- The head operation of a task list can start (R244). -/
def canStart (d : Dev) (c t : Nat) : Bool :=
  match d.tasks c t with
  | [] => false
  | o :: _ =>
    match (startWork o (d.unitOf c o (execEngine c o)) o d).1 with
    | .error .wait => false
    | _ => true

/-- The task list whose head operation the execute engine starts next: the running task's, or that of the first task
after it, modulo 8, that can start (R244). -/
def nextTask (d : Dev) (c : Nat) : Option Nat :=
  ((List.range 8).map (fun i => ((d.core c).runTask + i) % 8)).find? (d.canStart c)

/-- The operation that the execute engine starts next, when it has an opcode; it leaves its list for its unit. -/
def takeTask (d : Dev) (c code : Nat) : Option (Op × Dev) :=
  if !d.coreRuns c then none
  else
    match d.nextTask c with
    | none => none
    | some t =>
      match d.tasks c t with
      | [] => none
      | o :: rest =>
        if o.opcode ≠ code then none
        else some (o, (d.setTasks c t rest).onCore c (fun k => { k with runTask := t, held := k.held ++ [o] }))

/-- An operation that the execute engine carries out in one go (R244, R245). -/
def runExec (d : Dev) (c code : Nat) (work : UnitId → Op → Run Unit) : Dev :=
  match d.takeTask c code with
  | none => d
  | some (o, d) => d.attemptHeld c (execEngine c o) o work

/-- An operation of the GMEs or of the vector engines: it enters their queues, and runs when no earlier one that names
one of its engines is left (05 R158, R187). -/
def runEngine (d : Dev) (c : Nat) (p : Pick) (code : Nat) (work : UnitId → Op → Run Unit) : Dev :=
  let first := fun (d : Dev) (o : Op) => !((d.core c).held.takeWhile (fun x => x.id ≠ o.id)).any (fun x => sharesEngine x o)
  match p with
  | .start =>
    match d.takeTask c code with
    | none => d
    | some (o, d) => if first d o then d.attemptHeld c (execEngine c o) o work else d
  | .held id =>
    match d.heldOp c id with
    | none => d
    | some o =>
      if !d.coreRuns c ∨ o.opcode ≠ code ∨ o.stopped.isSome ∨ !first d o then d else d.attemptHeld c (execEngine c o) o work

/-- An update operation: the next one that the execute engine starts, or the one that runs (R397, R398). -/
def runUpdate (d : Dev) (c : Nat) (p : Pick) (code : Nat) (work : UnitId → Op → Run Unit) : Dev :=
  match p with
  | .start =>
    match d.takeTask c code with
    | none => d
    | some (o, d) => d.attemptHeld c (0x70 + c) o work
  | .held id =>
    match d.heldOp c id with
    | none => d
    | some o => if !d.coreRuns c ∨ o.opcode ≠ code ∨ o.stopped.isSome then d else d.attemptHeld c (0x70 + c) o work

/-- EV_SIGNAL or EV_WAIT at the fetch engine: the head of what waits there; a waiting one holds back every later operation
(R251). -/
def runEvent (d : Dev) (c code : Nat) (fetch : Bool) (work : UnitId → Op → Run Unit) : Dev :=
  if !fetch then d.runExec c code work
  else if !d.coreRuns c then d
  else
    match (d.core c).waiting with
    | [] => d
    | o :: rest =>
      if o.opcode ≠ code then d
      else
        let (r, d') := work (d.unitOf c o (0x20 + c)) o d
        match r with
        | .error .wait => d
        | r => ((d'.onCore c (fun k => { k with waiting := rest, held := k.held ++ [o] })).endHeld c (d.unitOf c o (0x20 + c)) o.id r)

/-- An array of the core has a pass that is ramping or able to start (10 R384). -/
def passPending (d : Dev) (c : Nat) : Bool :=
  [2 * c, 2 * c + 1].any (fun a => d.rampDue a || (d.array a).ramp == .rampingUp || (d.array a).ramp == .rampingDown) ||
    (List.range 8).any (fun t => ((d.tasks c t).head?.map Op.opcode == some 0x21) && d.canStart c t)

end Dev

end Sys2Proof.Machine
end

