-- ==== Sys2Proof/Machine/Screens.lean ====
section
/-!
DEFINITION. Screens, their results and the health log (17_reliability_and_silent_errors.md R594-R610).
-/

namespace Sys2Proof.Machine

namespace Screen

/-- A field of bits OR-ed over the failed tests of some classes. -/
def mask (s : Screen) (classes : List Nat) : Nat :=
  s.failed.foldl (fun a t => if classes.contains t.cls then a ||| t.units else a) 0

/-- The 64 bytes of a screen's result (R603). -/
def result (s : Screen) (verdict now : Nat) : List Byte :=
  leBytes 1 s.kind ++ leBytes 1 verdict ++ leBytes 2 0 ++ leBytes 4 s.pack.version ++ leBytes 8 s.startedAt
    ++ leBytes 4 (min ((now - s.startedAt) / 1000) (2 ^ 32 - 1)) ++ leBytes 2 s.run ++ leBytes 2 s.failed.length
    ++ leBytes 1 s.tested ++ leBytes 1 (s.mask [0, 1]) ++ leBytes 2 (s.mask [2]) ++ leBytes 4 (s.mask [3]) ++ leBytes 8 s.links
    ++ leBytes 4 s.channels ++ leBytes 4 (s.failed.foldl (fun a t => a ||| t.other) (b2n s.mismatch * 2 ^ 13))
    ++ leBytes 2 ((s.failed.head?.map FailedTest.id).getD 0xFFFF) ++ leBytes 1 ((s.failed.head?.map FailedTest.engine).getD 0xFF)
    ++ List.replicate 13 0

/-- A screen without a failure of any kind. -/
def clean (s : Screen) : Bool := s.failed.isEmpty && s.links == 0 && s.channels == 0 && !s.mismatch

end Screen

namespace Dev

/-- Entries of a pack that a screen of a kind runs (R594): bit 20 marks quick ones and bit 21 full ones. -/
def packTests (p : Pack) (kind : Nat) : List (Nat × Nat) :=
  p.entries.filter (fun e => if kind = 0 then bit e.1 20 && decide (bits e.1 19 16 < 2) else bit e.1 21)

/-- Arrays that are not retired. -/
def goodArrays (d : Dev) : List Nat := (List.range 8).filter (fun a => !d.retired a)

/-- Slices of the running quick screen on an array: completed and owed. -/
def slicesOf (s : Screen) (a : Nat) : Nat × Nat := Sp.get (fun _ => (0, 0)) s.slices a

/-- The array of a core that the next slice tests (R597): of those that are not retired and owe one, the one with fewer slices
completed, the lower-numbered on a tie. -/
def sliceArray (d : Dev) (s : Screen) (c : Nat) : Option Nat :=
  let ok := fun (a : Nat) => !d.retired a && decide (0 < (slicesOf s a).2)
  match ok (2 * c), ok (2 * c + 1) with
  | true, true => if (slicesOf s (2 * c + 1)).1 < (slicesOf s (2 * c)).1 then some (2 * c + 1) else some (2 * c)
  | true, false => some (2 * c)
  | false, true => some (2 * c + 1)
  | false, false => none

/-- A core owes the running quick screen a slice. -/
def owesSlice (d : Dev) (c : Nat) : Bool :=
  match d.screen with
  | none => false
  | some s => s.kind == 0 && !s.aborted && (d.sliceArray s c).isSome

/-- SCR_STATUS (R612). -/
def scrStatus (d : Dev) : Nat :=
  match d.screen with
  | none => 0
  | some s =>
    let done := (List.range 8).foldl (fun a x => a + (slicesOf s x).1) 0
    let left := (List.range 8).foldl (fun a x => a + (slicesOf s x).2) 0
    let wait := (List.range 4).foldl (fun a c => a + b2n (d.owesSlice c && (d.runsOn c).isSome) * 2 ^ c) 0
    (if s.kind = 0 then min 255 done * 2 ^ 40 + min 255 (done + left) * 2 ^ 32 else 0) + wait * 2 ^ 16 + (s.kind + 1)

/-- The next copy of the health log written to flash (R610): the one that does not hold the newest. -/
def writeHealth (d : Dev) : Dev :=
  let h := { d.health with seq := d.health.seq + 1 }
  let k := h.seq % 2
  { d with health := h, flash := { d.flash with logs := d.flash.logs.filter (fun e => e.1 ≠ k) ++ [(k, (true, h))] } }

/-- A screen's result kept, reported and acted on (R603, R604, R610, step SCREEN_DONE): verdict 0 pass, 1 fail, 2 incomplete and
3 aborted. -/
def finishScreen (d : Dev) (s : Screen) (verdict : Nat) : Dev :=
  let r := s.result verdict d.now
  let d := (List.range 8).foldl (fun d w => d.wr .SCR_LAST 0 w (field r (8 * w) 8)) { d with screen := none }
  let d := if s.kind = 0 then d.bump F.SCR_QUICK_CNT_screens 0 0 1 else d.bump F.SCR_FULL_CNT_screens 0 0 1
  let d := if verdict = 1 then (d.bump F.SCR_FAIL_CNT_screens 0 0 1).raise F.SCR_ERR_STATUS_screen_fail else d
  let d := if 2 ≤ verdict then d.bump F.SCR_INCOMPLETE_CNT_screens 0 0 1 else d
  let d := if verdict = 2 then d.raise F.SCR_ERR_STATUS_incomplete else if verdict = 3 then d.raise F.SCR_ERR_STATUS_aborted else d
  let bad := s.mask [0, 1]
  let d := (List.range 8).foldl (fun d a =>
    if bit bad a && !d.retired a then
      let d := d.retire a 2
      let m := d.fld F.SCR_RETIRED_reasons
      (d.setFld F.SCR_RETIRED_mask 0 0 (d.fld F.SCR_RETIRED_mask ||| 2 ^ a)).setFld F.SCR_RETIRED_reasons 0 0 (putBits m (2 * a + 1) (2 * a) 2)
    else d) d
  let h := d.health
  let d := ({ d with
    health := { h with
      quick := if s.kind = 0 then h.quick + 1 else h.quick, full := if s.kind = 0 then h.full else h.full + 1
      failed := if verdict = 1 then h.failed + 1 else h.failed, results := (r :: h.results).take 8 }
    boot := { d.boot with screenedAt := d.now } }).writeHealth
  let d := match s.asked with
    | some (c, tag) =>
      d.proisSend c { code := 0x0032, status := if verdict = 2 then 10 else if verdict = 3 then 8 else 0, flags := 1, tag } r
    | none => d
  d.deviceEvent 0x8008 r

/-- The verdict of a screen that has run its tests. -/
def screenVerdict (s : Screen) : Nat := if s.clean then 0 else 1

/-- A quick screen whose arrays owe no slice any more ends. -/
def quickEnd (d : Dev) : Dev :=
  match d.screen with
  | some s =>
    if s.kind = 0 ∧ s.aborted = false ∧ (List.range 4).all (fun c => (d.sliceArray s c).isNone) then d.finishScreen s (screenVerdict s) else d
  | none => d

/-- One slice on a core (R597, step QUICK_SCREEN_SLICE): what it uses of the array is saved and restored bit for bit, so that
only the screen's own record changes; `fails` are the tests that fail in it. -/
def runSlice (d : Dev) (c : Nat) (fails : List FailedTest) : Dev :=
  match d.screen with
  | none => d
  | some s =>
    match d.sliceArray s c with
    | none => d
    | some a =>
      let (done, owed) := slicesOf s a
      let mine := fails.filter (fun t => decide (t.cls < 2) && bit t.units a)
      let d := d.bump F.SCR_SLICE_CNT_slices 0 0 1
      { d with screen := some { s with
        slices := Sp.set (fun _ => (0, 0)) s.slices a (done + 1, owed - 1), failed := s.failed ++ mine
        tested := if owed = 1 then s.tested ||| 2 ^ a else s.tested } }

/-- Slices that need no yield point (R598): on cores without a context, and on all cores while compute is stopped. -/
def idleSlices (d : Dev) (fails : List FailedTest) : Dev :=
  let d := (List.range 4).foldl (fun d c =>
    if (d.runsOn c).isNone || bit d.stops 0 then
      (List.range ((slicesOf (d.screen.getD { kind := 0, startedAt := 0, deadline := 0 }) (2 * c)).2
        + (slicesOf (d.screen.getD { kind := 0, startedAt := 0, deadline := 0 }) (2 * c + 1)).2)).foldl
        (fun d _ => if d.owesSlice c then d.runSlice c fails else d) d
    else d) d
  d.quickEnd

/-- A quick screen starts (R594, R597): its deadline in ns from now, and what asked for it. -/
def startQuick (d : Dev) (deadline : Nat) (asked : Option (Nat × Nat)) (fails : List FailedTest) : Dev :=
  let p := d.boot.pack
  let s : Screen := { kind := 0, startedAt := d.now, deadline := d.now + deadline, asked, pack := p, run := (packTests p 0).length
                      slices := d.goodArrays.map (fun a => (a, (0, max 1 (Config.sliceCount p.version a)))) }
  ({ d with screen := some s }).idleSlices fails

/-- Bytes of core and shared memory that a full screen marches over (R601): those of no loaded job, window or firmware area. Bytes
stored there are left open by the rule (log entry 38). -/
def marched (d : Dev) (a : Nat) : Bool :=
  (match d.home a with | .coreMem _ | .shared _ => true | _ => false) &&
    !(List.range 16).any (fun n =>
      match (d.ctx n).job with
      | none => false
      | some j => j.sections.any (fun x => decide (x.pa ≤ a ∧ a < x.pa + x.size)) || j.coreItems.any (fun x => decide (x.pa ≤ a ∧ a < x.pa + x.bytes))) &&
    !decide (d.fld F.CTX_RING_BASE_base * 2 ^ 14 ≤ a ∧ a < d.fld F.CTX_RING_BASE_base * 2 ^ 14 + 16384)

/-- The destruction that a full screen does (R601). -/
def march (d : Dev) : Dev :=
  let d := ((d.mem.cells.map Prod.fst).filter d.marched).foldl (fun d a =>
    let (v, d) := d.draw 8
    d.setCell a (BitVec.ofNat 8 v)) d
  (List.range 8).foldl (fun d a => d.onArray a (fun x => { groups := x.groups, ramp := x.ramp, flagCount := x.flagCount })) d

/-- A full or power-on screen (R594, R601) that has run to its end or to its deadline: `took` is its duration in ns, and its
deadline is counted from its start. -/
def runFull (d : Dev) (s : Screen) (fails : List FailedTest) (took : Nat) : Dev :=
  let p := s.pack
  let tests := packTests p s.kind
  let arrays := tests.foldl (fun a e => if bits e.1 19 16 < 2 then a ||| bits e.1 39 32 else a) 0
  let ok := d.goodArrays.foldl (fun a x => a + 2 ^ x) 0
  let fails := fails.filter (fun t => decide (2 ≤ t.cls) || decide (t.units &&& ok ≠ 0))
  let late := decide (s.deadline < took)
  let s := { s with startedAt := d.now - took, run := tests.length, failed := s.failed ++ fails, tested := if late then 0 else arrays &&& ok }
  let d := d.march
  d.finishScreen s (if !s.clean then 1 else if late then 2 else 0)

/-- SCREEN_DEADLINE (R600, R602): incomplete, or fail when a test has already failed. -/
def screenDeadline (d : Dev) : Dev :=
  match d.screen with
  | some s => if s.deadline ≤ d.now ∧ s.aborted = false then d.finishScreen s (if s.clean then 2 else 1) else d
  | none => d

/-- AUTO_SCREEN_TIMER (R595): a quick screen auto_hours after the end of the previous screen; of a running one, the slices of the
cores that have become idle. -/
def autoScreen (d : Dev) (fails : List FailedTest) : Dev :=
  let hours := d.fld F.SCR_CTRL_auto_hours
  if d.screen.isSome then d.idleSlices fails
  else if d.boot.runs == .prois && d.boot.screened && d.reset.isNone && decide (hours ≠ 0)
      && decide (d.boot.screenedAt + hours * 3600000000000 ≤ d.now) then
    d.startQuick (1000000 * max 1 (d.fld F.SCR_CTRL_qs_deadline)) none fails
  else d

end Dev

namespace Run

/-- SCR_YIELD (R596, R597): a yield point in the order of both arrays of its core. -/
def scrYield (fails : List FailedTest) (u : UnitId) (o : Op) : Run Unit := do
  faultIf (bits o.w0 63 8 ≠ 0 ∨ o.w1 ≠ 0) 0x06
  let d ← dev
  waitIf ((d.core u.core).held.any (fun x => decide (x.id ≠ o.id) && decide (0x20 ≤ x.opcode) && decide (x.opcode < 0x30)))
  waitIf ([2 * u.core, 2 * u.core + 1].any (fun a => (d.array a).arbitrating))
  if d.owesSlice u.core then upd (fun d => (d.runSlice u.core fails).quickEnd) else pure ()

end Run

end Sys2Proof.Machine
end

