-- ==== Sys2Proof/Machine/TimeSync.lean ====
section
/-!
DEFINITION. Time synchronisation over Rhanak (13_rhanak_links_and_topology.md R494-R497): sync flits, time parents, the first
lock and the hold. Stamps are in units of 0.125 ns.
-/

namespace Sys2Proof.Machine

namespace Dev

/-- A field of RHK_SYNC set in every link die's window. -/
def setSync (d : Dev) (x : Field) (v : Nat) : Dev := (List.range 6).foldl (fun d n => d.setFld x n 0 v) d

/-- The device may become root (R495): valid ID, root_en, and its time base has locked once since it restarted. -/
def mayLead (d : Dev) : Bool := d.idValid && d.isSet F.RHK_SYNC_root_en && d.rhk.lockedOnce

/-- The announcements of the ports that are up: root, hops and port; only locked ones where there are any (R495). -/
def candidates (d : Dev) : List (Nat × Nat × Nat × Bool) :=
  let all := (List.range 24).filterMap (fun p =>
    match (d.port p).announce with
    | some a => if d.portUp p then some (a.root, a.hops, p, a.locked) else none
    | none => none)
  if all.any (fun x => x.2.2.2) then all.filter (fun x => x.2.2.2) else all

/-- The candidate with the lowest root, then the fewest hops, then the lowest port (R495). -/
def bestParent (d : Dev) : Option (Nat × Nat × Nat × Bool) :=
  d.candidates.foldl (fun (b : Option (Nat × Nat × Nat × Bool)) x =>
    match b with
    | none => some x
    | some y => if x.1 < y.1 ∨ (x.1 = y.1 ∧ (x.2.1 < y.2.1 ∨ (x.2.1 = y.2.1 ∧ x.2.2.1 < y.2.2.1))) then some x else b) none

/-- The time base is locked or not (R498, 16 R587). -/
def setLocked (d : Dev) (v : Bool) : Dev :=
  let d := (d.setSync F.RHK_SYNC_locked (b2n v)).setFld F.TB_STATUS_locked 0 0 (b2n v)
  if v then { d with rhk := { d.rhk with lockedOnce := true } } else d

/-- The device leads: root with no parent, and locked (R495). -/
def becomeRoot (d : Dev) : Dev :=
  let d := ((d.setSync F.RHK_SYNC_root d.deviceId).setSync F.RHK_SYNC_hops 0).setSync F.RHK_SYNC_parent 0x1F
  d.setLocked true

/-- The resolution of an offset at a first lock (R496): a step forward by whole nanoseconds, or a hold until the parent's time
comes. -/
def resolve (d : Dev) (offset : Int) : Dev :=
  if 0 ≤ offset then
    let ns := (offset / 8).toNat
    let d := { d with now := (d.now + ns) % 2 ^ 64 }
    ((if ns = 0 then d else d.wr .TB_STEP_NS 0 0 ns).raise F.TB_STATUS_stepped).setLocked true
  else d.raise F.TB_STATUS_held

/-- A rate correction within 200 ppm; how it follows from the offset is not stated (R496, log entry 31). -/
def adjustRate (d : Dev) (offset : Int) : Dev :=
  if offset = 0 then d.setFld F.TB_STATUS_rate_ppb 0 0 0
  else
    let (v, d) := d.draw 32
    d.setFld F.TB_STATUS_rate_ppb 0 0 (ux 32 ((v % 400001 : Nat) - 200000))

/-- The parent chosen anew and its time followed (R495, R496). -/
def chooseParent (d : Dev) : Dev :=
  let best := d.bestParent
  let lower := match best with | some x => decide (x.1 < d.deviceId) | none => false
  if d.mayLead && !lower then d.becomeRoot
  else
    match best with
    | none => d
    | some (root, hops, p, locked) =>
      let changed := d.fld F.RHK_SYNC_root ≠ root ∨ d.fld F.RHK_SYNC_parent ≠ p
      let first := !d.isSet F.TB_STATUS_locked && !d.rhk.lockedOnce
      let d := ((d.setSync F.RHK_SYNC_root root).setSync F.RHK_SYNC_hops (hops + 1)).setSync F.RHK_SYNC_parent p
      if !locked || d.isSet F.TB_STATUS_held || (d.port p).syncSent.isNone then d
      else
        let off := (d.port p).offset
        if first ∨ (changed ∧ 80000 ≤ off.natAbs) then d.resolve off
        else (d.adjustRate off).setLocked true

/-- SYNC_EXCHANGE (R494): a sync flit on each up port, with the time base at the instant it leaves. -/
def syncExchange (d : Dev) (fraction : Nat) : Dev :=
  (List.range 24).foldl (fun d p =>
    if d.portUp p then
      let t := 8 * d.now + fraction
      let d := (d.sendFlit p 4 []).onPort p (fun x => { x with syncSent := some t })
      d.emit (.rhanak p "sync" [t, d.fld F.RHK_SYNC_root, d.fld F.RHK_SYNC_hops, d.fld F.RHK_SYNC_locked])
    else d) d

/-- SYNC_FLIT (R494-R496): a neighbour's announcement with the stamp of its departure, the neighbour's stamp of this device's
last sync flit on its arrival there, and the fraction of this one's arrival. From the four stamps each end has the link delay
and its neighbour's offset. -/
def syncFlit (d : Dev) (p : Nat) (a : Announce) (sent theirs fraction : Nat) : Dev :=
  if !d.portUp p then d
  else
    let got : Int := (8 * d.now + fraction : Nat)
    let d := d.onPort p (fun x =>
      let x := { x with announce := some a }
      match x.syncSent with
      | none => x
      | some mine =>
        { x with delay := (((got - sent) + ((theirs : Int) - mine)) / 2).toNat
                 offset := (((sent : Int) - got) + ((theirs : Int) - mine)) / 2 })
    d.chooseParent

/-- ROOT_TIMEOUT (R495): no neighbour announces a locked time base within 10 ms of the first port coming up. -/
def rootTimeout (d : Dev) : Dev :=
  match d.rhk.firstUp with
  | none => d
  | some t =>
    if d.idValid && d.isSet F.RHK_SYNC_root_en && !d.rhk.lockedOnce && decide (t + 10000000 ≤ d.now) &&
        !d.candidates.any (fun x => x.2.2.2) then d.becomeRoot
    else d

/-- TIME_HOLD_END (R496): the parent's time has reached the held time base, which locks and counts on. -/
def holdEnd (d : Dev) : Dev :=
  if d.isSet F.TB_STATUS_held then (d.setFld F.TB_STATUS_held 0 0 0).setLocked true else d

end Dev

end Sys2Proof.Machine
end

