-- ==== Sys2Proof/Machine/Transport.lean ====
section
/-!
DEFINITION. The expert all-to-all, the re-sharding permute, the change of plan and the barrier
(12_collectives_and_gradient_reduction.md R452-R458, 09_conditional_computation.md R329-R333), and what messages, releases
and timeouts do (R438, R439, R456-R460).
-/

namespace Sys2Proof.Machine

/-- An all-to-all record (R452). -/
structure AllToAll where
  counts : Nat
  sendTags : Nat
  sendRows : Nat
  recvTags : Nat
  recvRows : Nat
  table : Nat
  owners : Nat
  rowBytes : Nat
  experts : Nat
  step : Nat
  version : Nat
  layer : Nat
  back : Bool
  matrix : Nat
deriving DecidableEq, Repr

namespace AllToAll

/-- The two words of a segment header (09 R329). -/
def header (a : AllToAll) (source expert rows : Nat) (poison : Bool) : Nat × Nat :=
  (0x5A01 + expert % 2 ^ 16 * 2 ^ 16 + rows % 2 ^ 24 * 2 ^ 32 + b2n a.back * 2 ^ 56 + b2n poison * 2 ^ 57,
   source % 2 ^ 16 + a.layer * 2 ^ 16 + a.version * 2 ^ 32 + a.step * 2 ^ 48)

/-- A header agrees with this device's own values (09 R332). -/
def accepts (a : AllToAll) (w0 w1 : Nat) : Bool :=
  bits w0 15 0 == 0x5A01 && bits w1 63 48 == a.step && bits w1 47 32 == a.version && bits w1 31 16 == a.layer

end AllToAll

namespace Run

/-! ### All-to-all -/

/-- The record at aux (R452). -/
def allToAllRecord (x : ColId) (aux : Nat) : Run AllToAll := do
  let p ← colConsume x (vsolid x.u.req (bits aux 47 0 : Nat) 128)
  colBad x ((p.drop 0x50).any (fun b => b != 0))
  let w := fun (k : Nat) => bits (field p (8 * k) 8) 47 0
  let s := field p 0x40 8
  pure { counts := w 0, sendTags := w 1, sendRows := w 2, recvTags := w 3, recvRows := w 4, table := w 5, owners := w 6
         rowBytes := field p 0x38 4, experts := field p 0x3C 2, step := bits s 15 0, version := bits s 31 16
         layer := bits s 47 32, back := bit s 48, matrix := w 9 }

/-- Unsigned 32-bit values that are consumed. -/
def solid32 (x : ColId) (va n : Nat) : Run (List Nat) := do
  let bs ← colConsume x (vsolid x.u.req (va : Nat) (4 * n))
  pure ((List.range n).map (fun i => field bs (4 * i) 4))

/-- Bytes as a message's data. -/
def byteData (bs : List PByte) : List (Nat × Bool) := bs.map (fun b => (b.val.toNat, b.poison))

/-- A message's data as bytes. -/
def dataBytes (l : List (Nat × Bool)) : List PByte := l.map (fun e => { val := BitVec.ofNat 8 e.1, poison := e.2 })

/-- Sums of the numbers before each place. -/
def prefixes (l : List Nat) : List Nat := (List.range l.length).map (fun i => (l.take i).foldl (· + ·) 0)

/-- The segments of one device's send buffer: for each rank, expert, first row and rows. In the dispatch the experts' runs
follow each other; in the return they go back to their sources, in the order in which they came (09 R323, R331, R333). -/
def segmentsTo (a : AllToAll) (g : ColGroup) (own : Nat → List Nat) (counts : List Nat) (matrix : List (List Nat)) (r : Nat) :
    List (Nat × Nat × Nat) :=
  let rank := fun (k : Nat) => decide (g.device k < g.device r)
  if !a.back then
    let starts := prefixes counts
    (own r).map (fun e => (e, (starts[e]?).getD 0, (counts[e]?).getD 0))
  else
    let mine := own g.rank
    let cell := fun (s j : Nat) => (((matrix[s]?).getD [])[j]?).getD 0
    let totals := (List.range mine.length).map (fun j => (List.range g.size).foldl (fun n s => n + cell s j) 0)
    mine.zipIdx.map (fun (e, j) =>
      (e, ((prefixes totals)[j]?).getD 0 + ((List.range g.size).filter rank).foldl (fun n s => n + cell s j) 0, cell r j))

/-- COL_ALLTOALL (R452, 09 R329-R333). -/
def colAlltoall (u : UnitId) (o : Op) : Run Unit := do
  let x ← colWord u o 0
  let p ← colPlan x
  let g ← colGroupOf x p
  let q ← colParam x o
  let a ← allToAllRecord x q.aux
  let v ← colConsume x (viewOf u.req { dist := true, owner := a.owners } ((o.work[1]?).getD 0))
  let x := { x with count := a.experts, step := a.step, kind := b2n a.back }
  let x ← colStart x p o
  held u o.id (fun o => { o with work := [x.seq + 1, v.select] })
  let own := fun (r : Nat) => (List.range a.experts).filter (fun e =>
    match v.owners with
    | some t => (View.entryOf t e).map Prod.fst == some (g.device r)
    | none => false)
  let mine := own g.rank
  let counts ← solid32 x a.counts a.experts
  let counts := counts.map (fun n => n % 2 ^ 24)
  let matrix ← if a.back then do
      let ms ← solid32 x a.matrix (g.size * mine.length)
      pure ((List.range g.size).map (fun s => (ms.drop (s * mine.length)).take mine.length))
    else pure []
  let segs := segmentsTo a g own counts matrix
  let load := fun (s : Nat × Nat × Nat) => (do
    let tags ← vread u.req (a.sendTags + 4 * s.2.1 : Nat) (4 * s.2.2)
    let rows ← vread u.req (a.sendRows + a.rowBytes * s.2.1 : Nat) (a.rowBytes * s.2.2)
    pure (tags, rows) : Run (List PByte × List PByte))
  let hs ← exchange x g 0 (do
    let d ← dev
    let all ← (List.range g.size).mapM (fun r => (segs r).mapM (fun s => do
      let (_, rows) ← load s
      let (w0, w1) := a.header d.deviceId s.1 s.2.2 (rows.any PByte.poison)
      pure [(w0, false), (w1, false)]))
    pure (fun r => ((all[r]?).getD []).flatten))
  let wrong := (hs.zip g.members).find? (fun (m, _) =>
    !(List.range (m.data.length / 2)).all (fun j => a.accepts (sentElem m (2 * j)).code (sentElem m (2 * j + 1)).code))
  match wrong with
  | some (_, s) => colFault x F.COL_ERR_STATUS_mismatch 0x12 s s
  | none => do
    let rowsOf := fun (s j : Nat) => match hs[s]? with | some m => bits (sentElem m (2 * j)).code 55 32 | none => 0
    let totals := (List.range mine.length).map (fun j => (List.range g.size).foldl (fun n s => n + rowsOf s j) 0)
    if !a.back then
      atomically (do
        mine.zipIdx.forM (fun (_, j) => do
          let at_ := a.table + 64 * j
          let w ← colConsume x (vsolid u.req (at_ : Nat) 8)
          vwrite u.req (at_ : Nat) (Dev.clean (leBytes 8 (putBits (leNat w) 39 16 ((totals[j]?).getD 0)))))
        vwrite u.req (a.matrix : Nat) (Dev.clean ((List.range g.size).flatMap (fun s =>
          (List.range mine.length).flatMap (fun j => leBytes 4 (rowsOf s j))))))
    else pure ()
    let ms ← exchange x g 1 (do
      let all ← (List.range g.size).mapM (fun r => (segs r).mapM (fun s => do
        let (tags, rows) ← load s
        pure (byteData (tags ++ rows))))
      pure (fun r => ((all[r]?).getD []).flatten))
    let starts := prefixes counts
    let place := fun (s j : Nat) =>
      if a.back then (starts[((own s)[j]?).getD 0]?).getD 0
      else ((prefixes totals)[j]?).getD 0 + ((List.range g.size).filter (fun k => decide (g.device k < g.device s))).foldl (fun n k => n + rowsOf k j) 0
    atomically (ms.zipIdx.forM (fun (m, s) => do
      let lens := (List.range (if a.back then (own s).length else mine.length)).map (fun j => (4 + a.rowBytes) * rowsOf s j)
      let offs := prefixes lens
      lens.zipIdx.forM (fun (n, j) => do
        let bs := dataBytes ((m.data.drop ((offs[j]?).getD 0)).take n)
        let k := rowsOf s j
        vwrite u.req (a.recvTags + 4 * place s j : Nat) (bs.take (4 * k))
        vwrite u.req (a.recvRows + a.rowBytes * place s j : Nat) (bs.drop (4 * k)))))
    colDone x o

/-! ### Permute -/

/-- COL_PERMUTE (R453, R454). -/
def colPermute (u : UnitId) (o : Op) : Run Unit := do
  let x ← colWord u o 0
  let p ← colPlan x
  let g ← colGroupOf x p
  let q ← colParam x o
  let src ← colConsume x (view u.req q.src false ((o.work[1]?).getD 0))
  let x := { x with count := src.desc.count }
  colBad x src.owners.isNone
  let dst ← colConsume x (viewOf u.req src.desc q.aux)
  let x ← colStart x p o
  held u o.id (fun o => { o with work := [x.seq + 1, src.select] })
  let d ← dev
  let idx := fun (s r : Nat) => (List.range src.desc.count).filter (fun n =>
    ownerOf src n == some (g.device s) && ownerOf dst n == some (g.device r))
  let heads := fun (s r : Nat) => (blockHeads src).filter (fun n =>
    ownerOf src n == some (g.device s) && ownerOf dst n == some (g.device r))
  let ms ← exchange x g 0 (do
    let rq := { u.req with stream := src.desc.hint }
    let all ← (List.range g.size).mapM (fun r => do
      let es ← readAll rq ((idx g.rank r).map (src.place d.deviceId))
      let ss ← colScales x src (heads g.rank r)
      pure (asData (es ++ ss)))
    pure (fun r => (all[r]?).getD []))
  let olds := (List.range src.desc.count).map (src.place d.deviceId)
  let clash := (List.range src.desc.count).any (fun n => olds.any (fun b => overlaps (dst.place d.deviceId n) b))
  let take := fun (e : Elem) => (if clash then (do
      let v ← lift (fun d => d.draw src.desc.fmt.width)
      pure { code := v }) else pure e : Run Elem)
  if ((o.work[2]?).getD 0) = 0 then do
    atomically (ms.zipIdx.forM (fun (m, s) => do
      let is := idx s g.rank
      let es ← is.zipIdx.mapM (fun (n, k) => do
        let e ← take (sentElem m k)
        pure (n, e))
      colWrite x dst es
      colPutScales x dst ((heads s g.rank).zipIdx.map (fun (n, k) => (n, sentElem m (is.length + k))))))
    held u o.id (fun o => { o with work := [x.seq + 1, src.select, 1] })
  else pure ()
  let _ ← exchange x g 1 (pure (fun _ => []))
  vwrite u.req (src.desc.owner : Nat) (Dev.clean (leBytes 8 q.aux))
  colDone x o

/-! ### Change of plan -/

/-- Collectives of a context that other operations than `o` still hold, or that its buckets run. -/
def otherCollectives (d : Dev) (u : UnitId) (o : Op) : Bool :=
  (d.ctxCores u.ctx).any (fun c => (d.core c).held.any (fun y =>
    decide (0x70 ≤ y.opcode) && decide (y.opcode < 0x80) && y.ctx == u.ctx && !(c == u.core && y.id == o.id))) ||
    (d.ctx u.ctx).buckets.any (fun b => b.2.fired && !b.2.done)

/-- COL_REMAP (R455). -/
def colRemap (u : UnitId) (o : Op) : Run Unit := do
  let x ← colWord u o 0
  let d ← dev
  let n := x.group
  colBad { x with group := 0 } (decide (d.fld F.COL_PLAN_plans 0 u.ctx < n))
  waitIf (otherCollectives d u o)
  upd (fun d => (d.setFld F.COL_PLAN_active 0 u.ctx n).onCtx u.ctx (fun c => { c with colSeq := [] }))

/-! ### Barrier -/

/-- Every operation that the issuing core issued before a barrier is complete (R456); the words that the walker and the
W queue issue count with the operation that they work for. -/
def earlierDone (d : Dev) (u : UnitId) (o : Op) : Bool :=
  let k := d.core u.core
  !((k.waiting ++ k.streams ++ k.held ++ (List.range 8).flatMap (d.tasks u.core)).any (fun y =>
    decide (y.id ≠ o.id) && decide (y.id % 2 ^ 48 < o.id % 2 ^ 48)))

/-- The release of a barrier (R456-R458): the armed mark, the counters and the end of its operation. -/
def released (x : ColId) (o : Op) : Run Unit := do
  upd (fun d => ((d.bump F.BAR_CNT_releases 0 0 1).wr .BAR_LAST_REL 0 0 d.now).onCore x.u.core (fun k =>
    { k with armed := k.armed.map (fun b => if b.1 = o.id then (b.1, true) else b) }))

/-- COL_BARRIER (R456-R458): `work` holds the sequence number, whether the arrival is sent, the time of a timed release
plus 1, and whether the release has come. -/
def colBarrier (u : UnitId) (o : Op) : Run Unit := do
  let x ← colWord u o 0
  let p ← colPlan x
  let g ← colGroupOf x p
  let q ← colParam x o
  colBad x (q.flags / 4 != 0)
  let d ← dev
  if bit q.flags 0 && !(d.core u.core).armed.any (fun b => b.1 == o.id) then
    upd (fun d => d.onCore u.core (fun k => { k with armed := k.armed ++ [(o.id, false)] }))
  colBehind x
  let seq ← if o.work.isEmpty then do
      let seq ← lift (fun d => d.nextSeq u.ctx x.group 0)
      held u o.id (fun o => { o with work := [seq + 1] })
      pure seq
    else pure x.seq
  let d ← dev
  let w := ((d.heldOp u.core o.id).map Op.work).getD []
  if (w[1]?).getD 0 = 0 then do
    waitIf (!earlierDone d u o)
    if g.num ≠ 0 then
      upd (fun d => d.emit (.rhanak (d.portTo ((g.members.find? (· ≠ d.deviceId)).getD 0)) "arrival" [u.ctx, x.group, seq, q.flags, d.now]))
    held u o.id (fun o => { o with work := [seq + 1, 1, 0, if g.num = 0 then 1 else 0] })
  let d ← dev
  let w := ((d.heldOp u.core o.id).map Op.work).getD []
  waitIf ((w[3]?).getD 0 = 0)
  released x o

end Run

/-! ### What arrives -/

namespace Dev

/-- The held collective of a context with a group, stream 0 and a sequence number: its core and the operation. -/
def collective (d : Dev) (n group seq : Nat) : Option (Nat × Op) :=
  (List.range 4).findSome? (fun c =>
    ((d.core c).held.find? (fun o => decide (0x70 ≤ o.opcode) && decide (o.opcode ≤ 0x76) && o.ctx == n &&
      bits o.w0 31 16 == group && o.work.headD 0 == seq + 1)).map (fun o => (c, o)))

/-- The unit that a running collective's records name: an operation, a bucket, or UPD_NORMRED. -/
def collectiveUnit (d : Dev) (n group stream seq : Nat) : Option (UnitId × Nat) :=
  if stream = 0 then (d.collective n group seq).map (fun (c, o) => (d.unitOf c o (if o.opcode = 0x76 then 0x81 else 0x80), o.cursor))
  else if stream = 1 then
    match (d.ctx n).buckets.find? (fun b => b.1 = seq ∧ b.2.fired ∧ ¬ b.2.done) with
    | some _ => some ({ engine := 0x80, core := 0, ctx := n }, 0)
    | none => none
  else
    (List.range 4).findSome? (fun c => ((d.core c).held.find? (fun o => o.opcode == 0x69 && o.ctx == n && !o.work.isEmpty)).map
      (fun o => (d.unitOf c o 0x80, o.cursor)))

/-- A collective's fault found by a message or by its absence (R438, R459): the capture, the record with the peer's device
ID as its detail. -/
def collectiveFault (d : Dev) (n group stream seq source cause : Nat) : Dev :=
  match d.collectiveUnit n group stream seq with
  | none => d
  | some (u, cursor) =>
    if (d.ctx n).st ≠ .running then d
    else
      let d := d.colNote (if cause = 0x12 then F.COL_ERR_STATUS_mismatch else F.COL_ERR_STATUS_peer_lost) source group stream n cause
      d.fatal (u.info cause 0 0 source cursor none)

/-- COLLECTIVE_MESSAGE (R438, R439, R459, R460): a message of a running collective is judged at once, one that comes early
is held; an aborted context answers with an abort notice, a pre-empted one with a held notice. -/
def collectiveMessage (d : Dev) (n : Nat) (m : ColMsg) : Dev :=
  let x := d.ctx n
  let note := fun (kind : String) (d : Dev) => d.emit (.rhanak (d.portTo m.src) kind [m.src, n, m.group, m.stream, m.seq])
  if x.aborted then note "abort" d
  else if x.job.isNone then d
  else
    let (k, d) := d.draw 32
    let d := d.bump F.COL_RX_BYTES_bytes 0 0 k
    let own := x.inbox.find? (fun y => y.src == d.deviceId && y.group == m.group && y.stream == m.stream && y.seq == m.seq)
    let clash := match own with
      | some y => y.opcode != m.opcode || y.kind != m.kind || y.count != m.count || y.step != m.step
      | none => false
    let d := d.onCtx n (fun x => { x with inbox := x.inbox ++ [m] })
    let d := if x.st = .preempted then note "held" d else d
    if clash then d.collectiveFault n m.group m.stream m.seq m.src 0x12 else d

/-- A collective waits for a peer: its own message of a phase is sent, and the peer's of that phase is not there; a barrier
waits for its release. -/
def awaits (d : Dev) (n group stream seq source : Nat) : Bool :=
  let box := (d.ctx n).inbox.filter (fun m => m.group == group && m.stream == stream && m.seq == seq)
  let sent := (box.filter (fun m => m.src == d.deviceId)).map ColMsg.phase
  sent.any (fun p => !box.any (fun m => m.src == source && m.phase == p)) ||
    (stream == 0 && ((d.collective n group seq).map (fun b => b.2.opcode == 0x76 && (b.2.work[1]?).getD 0 == 1)).getD false)

/-- PEER_TIMEOUT (R459). -/
def peerTimeout (d : Dev) (n group stream seq source : Nat) : Dev :=
  if d.awaits n group stream seq source then d.collectiveFault n group stream seq source 0x13 else d

/-- A barrier that has sent its arrival and waits (R456). -/
def waitingBarrier (d : Dev) (n group seq : Nat) : Option (Nat × Op) :=
  (d.collective n group seq).filter (fun b => b.2.opcode == 0x76 && (b.2.work[1]?).getD 0 == 1 && (b.2.work[3]?).getD 0 == 0)

/-- The barrier's operation goes on when it is next looked at; the release itself takes effect at once (R456-R458). -/
def freeBarrier (d : Dev) (c : Nat) (o : Op) : Dev :=
  let u := d.unitOf c o 0x81
  let x : ColId := { u, group := bits o.w0 31 16, stream := 0, seq := o.work.headD 1 - 1, opcode := 0x76 }
  let (_, d) := Run.released x o d
  d.dropOp c o.id

/-- BARRIER_RELEASE (R456, R457): an untimed release frees the barrier; a timed one frees it at T, or at once when T has
passed. -/
def barrierRelease (d : Dev) (n group seq : Nat) (at_ : Option Nat) : Dev :=
  match d.waitingBarrier n group seq with
  | none => d
  | some (c, o) =>
    if (d.ctx n).st ≠ .running then d
    else
      match at_ with
      | none => d.freeBarrier c o
      | some t =>
        if t < d.now then (d.bump F.BAR_LATE_CNT_releases 0 0 1).freeBarrier c o
        else d.onHeld c o.id (fun o => { o with work := [o.work.headD 0, 1, t + 1, 0] })

/-- TIMED_RELEASE (R457): a barrier whose release time the time base has reached. -/
def timedRelease (d : Dev) (n group seq : Nat) : Dev :=
  match d.waitingBarrier n group seq with
  | none => d
  | some (c, o) =>
    let t := (o.work[2]?).getD 0
    if (d.ctx n).st ≠ .running ∨ t = 0 ∨ d.now < t - 1 then d else d.freeBarrier c o

/-- BUCKET_COMPLETE (R448): the reduction of a fired bucket goes on, and ends when every message is there. -/
def bucketComplete (d : Dev) (n b : Nat) : Dev :=
  match (d.ctx n).buckets.find? (fun k => k.1 = b ∧ k.2.fired ∧ ¬ k.2.done) with
  | none => d
  | some (_, k) =>
    if (d.ctx n).st ≠ .running ∨ k.stopped.isSome then d
    else
      let u : UnitId := { engine := 0x80, core := 0, ctx := n }
      match Run.bucketWork u b d with
      | (.ok (), d) => d
      | (.error (.page va dev), d) =>
        (d.onCtx n (fun x => { x with buckets := x.buckets.map (fun (i, k) => if i = b then (i, { k with stopped := some va }) else (i, k)) })).stopped
          u 0 (.page va dev)
      | (.error s, d) => d.stopped u 0 s

/-- WQ_ENTRY_COMPLETE (10 R385): a completed entry's bytes are reported to the collective sequencer. -/
def wqEntryComplete (d : Dev) (c : Nat) : Dev :=
  if !d.coreRuns c then d
  else
    match d.entryComplete c with
    | (none, d) => d
    | (some (b, n), d) =>
      let u := { d.hoardUnit c with engine := 0x80 }
      d.runHoard c u (Run.fillReport { u, group := 0, stream := 0, seq := 0, opcode := 0x79 } b n)

/-- COL_STATUS (R462): slots are counted from 0 in the order of the contexts and of the collectives that hold them. -/
def colStatus (d : Dev) : Nat :=
  let held := (List.range 16).flatMap (fun n =>
    ((d.ctxCores n).flatMap (fun c => (d.core c).held.filterMap (fun o =>
      if o.ctx = n ∧ 0x70 ≤ o.opcode ∧ o.opcode ≤ 0x75 ∧ !o.work.isEmpty then some o.stalled else none))) ++
    ((d.ctx n).buckets.filterMap (fun b => if b.2.fired && !b.2.done then some true else none)))
  held.zipIdx.foldl (fun s (w, i) => s + 2 ^ i + b2n w * 2 ^ (16 + i)) 0

/-- BAR_STATUS (R462). -/
def barStatus (d : Dev) : Nat :=
  ((List.range 4).flatMap (fun c => (d.core c).held.filter (fun o =>
    o.opcode == 0x76 && (o.work[1]?).getD 0 == 1 && (o.work[3]?).getD 0 == 0))).length

end Dev

end Sys2Proof.Machine
end

