-- ==== Sys2Proof/Machine/Access.lean ====
section
/-!
DEFINITION. Register space (01_package_and_fabric.md R36-R39, 00_scope.md R13-R15): what a register reads as, what a write of it
does, and the requests of the control processors and of the cores at physical addresses.
-/

namespace Sys2Proof.Machine

namespace Dev

/-! ### Reading -/

/-- FD_STATUS (07 R283). -/
def fdStatus (d : Dev) (c : Nat) : Nat :=
  (d.core c).streams.foldl (fun a o =>
    let a := a ||| 2 ^ (o.stream % 32)
    if o.stalled || o.stopped.isSome then a ||| 2 ^ (32 + o.stream % 32) else a) 0

/-- MBX_PTR(c) (14 R528). -/
def mbxPtr (d : Dev) (c : Nat) : Nat :=
  let r := d.ring c
  r.overwrites * 2 ^ 32 + (r.head + r.msgs.length) % 16 * 2 ^ 16 + r.head * 2 ^ 8 + r.msgs.length

/-- MBX_NONEMPTY (14 R528). -/
def mbxNonempty (d : Dev) : Nat := (List.range 64).foldl (fun a c => a + b2n (!(d.ring c).msgs.isEmpty) * 2 ^ c) 0

/-- SMB_STATUS (20 R670); the address field holds the sampled strap (20 R662). -/
def smbStatus (d : Dev) : Nat :=
  (0x58 + d.fld F.SMB_STRAP_smba) * 2 ^ 8 + b2n d.smbus.readBuf.isSome * 2 + b2n d.smbus.partial_.isSome

/-- What a register reads as: one that shows other state is formed here. The route table, its bank and route_en of every link die
read as those of L0, whose copies they are (13 R479, R481). -/
def regValue (d : Dev) (r : Reg) (w j : Nat) : Nat :=
  match r with
  | .DA_STATUS => d.daStatus w
  | .DA_SP_STATUS => d.daSpStatus w
  | .GME_STATUS => d.gmeStatus w
  | .VE_STATUS => d.veStatus w
  | .FD_STATUS => d.fdStatus w
  | .WLK_STATUS => d.wlkStatus w
  | .HD_STATUS => d.hdStatus w
  | .WQ_STATUS => d.wqStatus w
  | .UPD_STATUS => d.updStatus w
  | .COL_STATUS => d.colStatus
  | .BAR_STATUS => d.barStatus
  | .CTX_STATE => d.ctxStates
  | .CTX_CORE_RUN => d.coreRun
  | .TB_NOW => d.now
  | .INT_SUM => d.intSum
  | .INT_LEAF => d.leafWord j
  | .INT_ALERT => b2n (d.isSet F.INT_ALERT_force) * 2 + b2n d.alert
  | .MBX_NONEMPTY => d.mbxNonempty
  | .MBX_PTR => d.mbxPtr j
  | .ETH_STATUS => d.ethStatus
  | .ETH_QP => d.ethQp j
  | .PWR_STATUS => d.pwrStatus
  | .PWR_THR_NS => d.throttleNs (j + 1)
  | .RST_WD_COUNT => (d.core j).wdCount
  | .SMB_STATUS => d.smbStatus
  | .SCR_STATUS => d.scrStatus
  | .RHK_ROUTE => d.rd .RHK_ROUTE 0 j
  | .RHK_ROUTE_BANK => d.rd .RHK_ROUTE_BANK 0 0
  | .RHK_CTRL => putBits (d.rd .RHK_CTRL w 0) 0 0 (d.fld F.RHK_CTRL_route_en)
  | r => d.rd r w j

/-- The 8 bytes at an address inside register space (01 R38); a route entry takes 4. An address that is not a multiple of 8 reads
the word that holds it (log entry 39). -/
def regRead (d : Dev) (k : Nat) : Nat :=
  let k := k / 8 * 8
  match Reg.ofKey k with
  | some (.RHK_ROUTE, w, j) => d.regValue .RHK_ROUTE w j + d.regValue .RHK_ROUTE w (j + 1) * 2 ^ 32
  | some (r, w, j) => d.regValue r w j
  | none => 0

/-! ### Writing -/

/-- A message posted by control processor p from MBX_SEND(p) (14 R508, R528); one for the board controller raises board_msg. -/
def mbxPost (d : Dev) (p c : Nat) : Dev :=
  let bs := wordBytes ((List.range 32).map (fun i => d.rd .MBX_SEND 0 (32 * p + i)))
  let (ok, d) := d.mbxArrive p c .processor bs
  if ok && c == 1 then d.setFld F.INT_FW_board_msg 0 0 1 else d

/-- The oldest message of a channel, or the empty marker, taken into MBX_RECV(p) (14 R509, R528). -/
def mbxTake (d : Dev) (p c : Nat) : Dev :=
  let (m, d) := d.ringTake c
  let bs := m.getD emptyMarker
  (List.range 32).foldl (fun d i => d.wr .MBX_RECV 0 (32 * p + i) (field bs (8 * i) 8)) d

/-- MBX_DB_SET(p) (14 R515). -/
def dbSet (d : Dev) (p v : Nat) : Dev := d.setFld F.MBX_DB_bits 0 p (d.fld F.MBX_DB_bits 0 p ||| v % 2 ^ 32)

/-- TLB_INV (08 R314): the caches of translations, of which the model holds none (log entry 53). -/
def invalidate (d : Dev) (_n : Nat) : Dev := d

/-- RST_CP_KICK (18 R620). -/
def cpKick (d : Dev) : Dev := { d with boot := { d.boot with kickAt := d.now } }

/-- A route entry in every copy (13 R479): `i` is the bank times 65,536 plus the device ID. -/
def routeWrite (d : Dev) (i v : Nat) : Dev :=
  { d with regs := d.regs.swWrite .RHK_ROUTE 0 i (BitVec.ofNat 64 (v % 2 ^ 32)) }

/-- The bank selected in all seven copies (13 R481). -/
def routeBank (d : Dev) (b : Nat) : Dev := d.setFld F.RHK_ROUTE_BANK_bank 0 0 (b % 2)

/-- A software write of a register by its access codes alone (00 R13). -/
def plainWrite (d : Dev) (r : Reg) (w j v : Nat) : Dev := { d with regs := d.regs.swWrite r w j (BitVec.ofNat 64 v) }

/-- A write of RHK_PORT_CTRL (13 R468, R498): the enable acts on the port, and retrain takes it down. -/
def portCtrlWrite (d : Dev) (p v : Nat) : Dev :=
  let was := decide (d.pfld F.RHK_PORT_CTRL_enable p ≠ 0)
  let d := (d.plainWrite .RHK_PORT_CTRL (p / 4) (p % 4) v).portEnable p was
  if bit v 1 then d.retrain p else d

/-- A write of one register by a control processor (00 R13, 01 R38, R39). -/
def regWrite (d : Dev) (m : Nat) (r : Reg) (w j v : Nat) : Dev :=
  match r with
  | .DA_RETIRE => if bit v 8 then d.retire w 2 else d
  | .CTX_CMD => if bit v 17 then d.clearRecord (bits v 3 0) else d
  | .CTX_RING_PTR =>
    let d := d.plainWrite r w j v
    drainRecords d.pendingRecs.length d
  | .RHK_PORT_CTRL => d.portCtrlWrite (4 * w + j) v
  | .RHK_ROUTE => if w = 0 then (d.routeWrite j v).routeWrite (j + 1) (v / 2 ^ 32) else d
  | .RHK_ROUTE_BANK => if w = 0 then d.routeBank v else d
  | .MBX_CMD => if bits v 9 8 = 1 then d.mbxPost m (bits v 5 0) else if bits v 9 8 = 2 then d.mbxTake m (bits v 5 0) else d
  | .MBX_DB_SET => d.dbSet j v
  | .RST_CP_KICK => d.cpKick
  | .PWR_FREQ => d.writeFreq (bits v 5 0) (bits v 11 8)
  | r => (d.plainWrite r w j v).syncReasons

/-- REGISTER_WRITE: 8 bytes written at an address inside register space; an offset that no table names ignores them (01 R38). -/
def keyWrite (d : Dev) (m k v : Nat) : Dev :=
  match Reg.ofKey (k / 8 * 8) with
  | some (r, w, j) => d.regWrite m r w j v
  | none => d

/-! ### Requests to register space (01 R39) -/

/-- The R29 code of a request to register space. -/
def regCode (d : Dev) (master pa : Nat) (write : Bool) : Nat :=
  let w := (pa - regBase) / 2 ^ 24
  if d.home pa ≠ .regs then 4
  else if master < 4 then 0
  else if master = 0x20 ∧ write = false ∧ (w = 0x41 ∨ w = 0x42 ∨ w = 0x43) then 0
  else 5

/-- A read of register space: the words that the range touches, cut to it (log entry 39). -/
def regsRead (d : Dev) (pa len : Nat) : List Byte :=
  let base := pa / 8 * 8
  let ws := (granules 8 pa len).map (fun a => d.regRead (a - regBase))
  ((wordBytes ws).drop (pa - base)).take len

/-- A write of register space: whole words, the bytes that the range leaves out being 0 (log entry 39). -/
def regsWrite (d : Dev) (m pa : Nat) (bs : List Byte) : Dev :=
  let base := pa / 8 * 8
  let all := List.replicate (pa - base) 0 ++ bs
  (granules 8 pa bs.length).foldl (fun d a => d.keyWrite m (a - regBase) (field all (a - base) 8)) d

/-! ### Requests at global addresses (01 R37) -/

/-- MEMORY_READ (06 R198, 01 R29, R37): a read request of a master of this device at a global address. -/
def memoryRead (d : Dev) (rq : Req) (addr len : Nat) (accepted : Bool) : Dev :=
  let pa := bits addr 47 0
  match d.route none (bits addr 63 48) with
  | .here =>
    if regBase ≤ pa ∧ pa < regBase + 2 ^ 32 then
      match d.regCode rq.master pa false with
      | 0 => d.emit (.response rq.master 0 (clean (d.regsRead pa len)))
      | code => (d.fabError rq addr code none).emit (.response rq.master code [])
    else
      if d.pins.tripped && d.onComputeSide pa then d
      else
        let ((code, bs), d) := d.serveRead rq pa len accepted
        d.emit (.response rq.master code bs)
  | _ => d.request rq.master rq.ctx addr 0 len [] false

/-- MEMORY_WRITE (06 R225). -/
def memoryWrite (d : Dev) (rq : Req) (addr : Nat) (bs : List PByte) (accepted : Bool) : Dev :=
  let pa := bits addr 47 0
  match d.route none (bits addr 63 48) with
  | .here =>
    if regBase ≤ pa ∧ pa < regBase + 2 ^ 32 then
      match d.regCode rq.master pa true with
      | 0 => (d.regsWrite rq.master pa (bs.map PByte.val)).emit (.response rq.master 0 [])
      | code => (d.fabError rq addr code none).emit (.response rq.master code [])
    else
      if d.pins.tripped && d.onComputeSide pa then d
      else
        let (code, d) := d.serveWrite rq pa bs accepted
        d.emit (.response rq.master code [])
  | _ => d.request rq.master rq.ctx addr 1 bs.length (bs.map PByte.val) (bs.any PByte.poison)

/-! ### Scrub and patrol (06 R226, R233) -/

/-- The blocks that scrub (R226): an SRAM die, a half of a core's core memory, an array's operand buffers and the control die's
SRAM. -/
inductive ScrubBlock where
  | die (n : Nat)
  | half (core : Nat) (upper : Bool)
  | array (a : Nat)
  | control
deriving DecidableEq, Repr

/-- The block's place in the table of scrub positions, its lines and its line's bytes. -/
def ScrubBlock.shape : ScrubBlock → Nat × Nat × Nat
  | .die n => (n, 131072, 1024)
  | .half c u => (32 + 2 * c + b2n u, 65536, 512)
  | .array a => (40 + a, 1, 512)
  | .control => (48, 131072, 64)

/-- The block exists. -/
def ScrubBlock.wf : ScrubBlock → Bool
  | .die n => decide (n < 32)
  | .half c _ => decide (c < 4)
  | .array a => decide (a < 8)
  | .control => true

/-- The words of a line of a block that stand in the address map. -/
def scrubWords (d : Dev) (b : ScrubBlock) (line : Nat) : List Nat :=
  match b with
  | .die n =>
    -- Die 8q + s: bits 10..0 of the offset and the bits above them, with the die in bits 13..11 (R212).
    let lo := line * 1024
    (List.range 128).map (fun i =>
      let o := lo + 8 * i
      sharedBase + n / 8 * 2 ^ 30 + (o / 2048) * 2 ^ 14 + (n % 8) * 2048 + o % 2048)
  | .half c u => (List.range 64).map (fun i => coreMemBase c + b2n u * 0x2000000 + line * 512 + 8 * i)
  | _ => let _ := d; []

/-- Lines that a block has scrubbed since its count began. -/
def scrubbed (d : Dev) (b : ScrubBlock) : Nat := Sp.get (fun _ => 0) d.mem.scrubAt b.shape.1

/-- Whole passes of the slowest of some blocks (06 R239). -/
def scrubPasses (d : Dev) (bs : List ScrubBlock) : Nat :=
  bs.foldl (fun a b => min a (d.scrubbed b / b.shape.2.1)) (2 ^ 32 - 1)

/-- SCRUB (R226): one line of a block read, corrected and written back; the pass counters follow. -/
def scrub (d : Dev) (b : ScrubBlock) : Dev :=
  let n := d.scrubbed b
  let en := match b with
    | .die n => d.isSet F.SHM_CTRL_scrub_en (n / 8)
    | .half c _ => d.isSet F.CMEM_CTRL_scrub_en c
    | _ => true
  if !en || d.reset.isSome then d
  else
    let d := (d.scrubWords b (n % b.shape.2.1)).foldl (fun d w =>
      match b with
      | .die n => d.touchWord (.shm (n / 8)) {} true w
      | .half c _ => d.touchWord (.cmem c) {} true w
      | _ => d) d
    let d := d.onMem (fun m => { m with scrubAt := Sp.set (fun _ => 0) m.scrubAt b.shape.1 (n + 1) })
    match b with
    | .die n => d.wr .SHM_SCRUB_CNT (n / 8) 0 (d.scrubPasses ((List.range 8).map (fun s => ScrubBlock.die (n / 8 * 8 + s))))
    | .half c _ => d.wr .CMEM_SCRUB_CNT c 0 (d.scrubPasses [.half c false, .half c true])
    | _ => d

/-- A channel-local codeword's global address, the inverse of the interleave of R229. -/
def channelAddress (ch off : Nat) : Nat :=
  let up := off / 256
  let a := up * 2 ^ 13
  let lo := ch ^^^ bits a 17 13 ^^^ bits a 22 18 ^^^ bits a 27 23
  a + lo * 256 + off % 256

/-- PATROL (R233): the next codeword of a memory die, channel by channel; a line that is cached is not read from DDR5. -/
def patrol (d : Dev) (n : Nat) : Dev :=
  let per := d.ddrBytes / 32 / 64
  let k := Sp.get (fun _ => 0) d.mem.patrolAt n
  if d.fld F.DDR_CTRL_patrol_hours n = 0 ∨ per = 0 ∨ d.reset.isSome ∨ d.mem.selfRefresh = true then d
  else
    let cw := channelAddress (4 * n + k / per % 4) (k % per * 64)
    let d := d.onMem (fun m => { m with patrolAt := Sp.set (fun _ => 0) m.patrolAt n ((k + 1) % (4 * per)) })
    d.touchCodeword {} true cw

end Dev

end Sys2Proof.Machine
end

