-- ==== Sys2Proof/Machine/Fabric.lean ====
section
/-!
DEFINITION. Fabric links: parity, replay, failure and training (01_package_and_fabric.md R30-R35, R40-R44). A direction's
flits carry sequence numbers that do not wrap in the model (log entry 26).
-/

namespace Sys2Proof.Machine

/-- Words of a flit: 32 on the data path and 4 on the command path (R24, R30). -/
def flitWords : Nat := 36

/-- Flits that a replay buffer holds (R32). -/
def replayDepth : Nat := 256

/-- Number of ones among the low 32 bits. -/
def ones32 (n : Nat) : Nat := (List.range 32).foldl (fun a i => a + b2n (n.testBit i)) 0

/-- The parity bit that the sender sets: the 33 bits hold an even number of ones (R30). -/
def parityBit (n : Nat) : Nat := ones32 n % 2

/-- Whether a word fails parity at the receiver, the wires in `flips` being inverted on the way: 0 to 31 the word, 32 its
parity wire (R30, R31). -/
def wordFails (n : Nat) (flips : List Nat) : Bool :=
  let got := flips.foldl (fun a i => if i < 32 then a ^^^ 2 ^ i else a) n
  let par := parityBit n + (flips.filter (fun i => i = 32)).length
  (ones32 got + par) % 2 == 1

/-- Words of a flit that fail parity at the receiver. -/
def failedWords (ws : List Nat) (errs : List (Nat × Nat)) : Nat :=
  ((ws.zipIdx).filter (fun x => wordFails x.1 ((errs.filter (fun e => e.1 = x.2)).map Prod.snd))).length

namespace FabDir

/-- The flit that the sender puts on the wires: the next one of a resend, or a new one where the replay buffer has room
(R31, R32); none where it is full. -/
def send (f : FabDir) (words : List Nat) : Option (Nat × List Nat × FabDir) :=
  match f.resend with
  | some k =>
    match f.buffer.find? (fun x => x.1 = k) with
    | some x => some (k, x.2, { f with resend := if k + 1 < f.next then some (k + 1) else none })
    | none => none
  | none =>
    if f.buffer.length < replayDepth then
      some (f.next, words, { f with next := f.next + 1, buffer := f.buffer ++ [(f.next, words)] })
    else none

/-- The receiver accepts a flit: the one it expects (R33). -/
def accept (f : FabDir) : FabDir := { f with expect := f.expect + 1, fails := 0, nakAt := [] }

/-- The receiver finds the flit it expects failing (R31, R34). -/
def reject (f : FabDir) (now : Nat) : FabDir := { f with fails := f.fails + 1, nakAt := f.nakAt ++ [now] }

/-- Acknowledged flits are released: those up to `seq`, which the receiver has accepted (R32). -/
def acked (f : FabDir) (seq : Nat) : FabDir :=
  if seq < f.expect then
    { f with buffer := f.buffer.filter (fun x => decide (seq < x.1))
             resend := f.resend.bind (fun k => if seq < k then some k else if seq + 1 < f.next then some (seq + 1) else none) }
  else f

/-- The sender resends from a flit that it holds (R31). -/
def resendFrom (f : FabDir) (seq : Nat) : FabDir := { f with resend := some seq }

end FabDir

namespace Dev

/-- A fabric link is up. -/
def linkUp (d : Dev) (b : Nat) : Bool := d.fld F.FAB_LINK_STATUS_state 0 b == 2

/-- A fabric link enters the failed state (R34, R40, R43). -/
def linkFail (d : Dev) (b : Nat) : Dev :=
  ((d.setFld F.FAB_LINK_STATUS_state 0 b 3).fabCapture 0 0 b 0 0).raise F.FAB_ERR_STATUS_bridge_failed

/-- A fabric link trained (R42): up, and one more completed training. -/
def linkTrained (d : Dev) (b : Nat) : Dev :=
  (d.bump F.FAB_LINK_STATUS_train_count 0 b 1).setFld F.FAB_LINK_STATUS_state 0 b 2

/-- Consecutive failed attempts that a flit is allowed (R40): a value of 0 acts as 1. -/
def replayLimit (d : Dev) : Nat := max 1 (d.fld F.FAB_CTRL_replay_limit)

/-- Links that train before a link (R42): link 42 first, then 36 to 41, then the rest. -/
def trainBefore (b : Nat) : List Nat :=
  if b = 42 then [] else if 36 ≤ b ∧ b ≤ 41 then [42] else [42, 36, 37, 38, 39, 40, 41]

/-- Whether a link may finish training: it is not up, and the links before it have trained or failed. -/
def mayTrain (d : Dev) (b : Nat) : Bool :=
  (d.fld F.FAB_LINK_STATUS_state 0 b == 0 || d.fld F.FAB_LINK_STATUS_state 0 b == 1) &&
    (trainBefore b).all (fun x => decide (2 ≤ d.fld F.FAB_LINK_STATUS_state 0 x))

end Dev

namespace Fabric

/-- One direction of a link. -/
def dir (l : Links) (b : Nat) (back : Bool) : FabDir := Sp.get (fun _ => {}) l (2 * b + b2n back)

/-- One direction of a link replaced. -/
def setDir (l : Links) (b : Nat) (back : Bool) (f : FabDir) : Links := Sp.set (fun _ => {}) l (2 * b + b2n back) f

/-- Both directions of a link as they are after training. -/
def clear (l : Links) (b : Nat) : Links := setDir (setDir l b false {}) b true {}

/-- FLIT_RECEIVE (R30-R34): the sender's next flit arrives. One that is not expected is discarded; a failing one is
answered with a negative acknowledgement, and takes the link down once it has failed more often than the limit allows. -/
def flitReceive (d : Dev) (l : Links) (b : Nat) (back : Bool) (words : List Nat) (errs : List (Nat × Nat)) : Dev × Links :=
  if !d.linkUp b then (d, l)
  else
    match (dir l b back).send words with
    | none => (d, l)
    | some (seq, ws, f) =>
      let bad := failedWords ws errs
      let d := d.bump F.FAB_LINK_PAR_CNT_words 0 b bad
      let d := d.raiseIf (decide (0 < bad)) F.FAB_ERR_STATUS_parity_event
      if seq ≠ f.expect then (d, setDir l b back f)
      else if bad = 0 then
        let ns := f.nakAt.foldl (fun a t => a + (d.now - t)) 0
        ((d.bump F.FAB_LINK_REPLAY_NS_ns 0 b ns).emit (.fabric b (b2n back) "ack" seq), setDir l b back f.accept)
      else
        let f := f.reject d.now
        if d.replayLimit < f.fails then (d.linkFail b, setDir l b back f)
        else (d.emit (.fabric b (b2n back) "nak" seq), setDir l b back f)

/-- FABRIC_NAK (R31, R40): the sender resends from the flit named, which its replay buffer still holds. -/
def nak (d : Dev) (l : Links) (b : Nat) (back : Bool) (seq : Nat) : Dev × Links :=
  let f := dir l b back
  if d.linkUp b && f.buffer.any (fun x => x.1 = seq) then
    (d.bump F.FAB_LINK_REPLAY_CNT_replays 0 b 1, setDir l b back (f.resendFrom seq))
  else (d, l)

/-- FABRIC_ACK (R32). -/
def ack (d : Dev) (l : Links) (b : Nat) (back : Bool) (seq : Nat) : Dev × Links :=
  if d.linkUp b then (d, setDir l b back ((dir l b back).acked seq)) else (d, l)

/-- FABRIC_TRAINING (R42): a link reaches state up in its turn. -/
def training (d : Dev) (l : Links) (b : Nat) : Dev × Links :=
  if d.mayTrain b then (d.linkTrained b, clear l b) else (d, l)

/-- FABRIC_TRAIN_TIMEOUT (R43): a link that is not up is set to failed. -/
def trainTimeout (d : Dev) (b : Nat) : Dev :=
  if d.fld F.FAB_LINK_STATUS_state 0 b < 2 then d.linkFail b else d

/-- The links that a compute reset retrains (R35, R44). -/
def computeSide (b : Nat) : Bool := decide (b < 36) || decide (43 ≤ b)

/-- The compute side's links as they are after its retraining. -/
def clearCompute (l : Links) : Links := (List.range 51).foldl (fun l b => if computeSide b then clear l b else l) l

end Fabric

end Sys2Proof.Machine
end

