-- ==== Sys2Proof/Machine/Prois.lean ====
section
/-!
DEFINITION. Prois commands: who sends them, the order of their checks, their responses, and the commands that no other chapter
specifies (14_control_mailboxes_and_interrupts.md R501-R524).
-/

namespace Sys2Proof.Machine

/-- Who sent a command (R506, R508, R518): identity, privilege, and the channel of the response; a management datagram has no
channel. -/
structure Who where
  identity : Nat
  privilege : Nat
  reply : Option Nat
deriving DecidableEq, Repr

/-- The commands that the boot ROM alone answers (19 R646). -/
def romAnswers : List Nat := [0x0001, 0x0002, 0x0004, 0x0060]

/-- What a command's own rule answers: a status and a body at once, or nothing yet. -/
inductive Answer where
  | now (status : Nat) (body : List Byte)
  | later
deriving DecidableEq, Repr

/-- A status alone. -/
def Answer.st (n : Nat) : Answer := .now n []

/-- A command's own rule. -/
abbrev Handler := Dev → Who → Msg → Answer × Dev

namespace Dev

/-! ### The order of the checks (R517) -/

/-- The context that the command names belongs to its sender (R518): a job host must own it; LOAD_JOB may also name one
that nobody owns. -/
def ownerOk (d : Dev) (w : Who) (i : CmdInfo) (m : Msg) : Bool :=
  !i.ctx || w.privilege != 2 ||
    (match (d.ctx m.context).job with
     | some j => j.owner == w.identity
     | none => m.code == 0x0020)

/-- The header and body are well formed (R502, R517 step 3): no reserved bit, the command's length, nothing in an unused field. -/
def headerOk (i : CmdInfo) (m : Msg) : Bool :=
  m.status == 0 && decide (m.flags &&& 0xFB = 0) && decide (m.channel < 64) && decide (m.context < 16) && m.length == i.len
    && (i.ctx || m.context == 0) && (i.arg0 || m.arg0 == 0) && i.reserved.all (fun r => field m.body r.1 r.2 == 0)

/-- Checks 1 to 3 of R517: the status that refuses the command, none where it goes on. -/
def refusal (d : Dev) (w : Who) (m : Msg) : Option Nat :=
  match cmdInfo m.code with
  | none => some sUNSUPPORTED
  | some i =>
    if d.boot.runs = .rom ∧ ¬ romAnswers.contains m.code then some sUNSUPPORTED
    else if !i.allow.contains w.privilege || !d.ownerOk w i m then some sDENIED
    else if !headerOk i m then some sBADARG
    else none

/-- A command judged and carried out: what is answered, and the device. -/
def judged (d : Dev) (w : Who) (m : Msg) (h : Handler) : Answer × Dev :=
  match d.refusal w m with
  | some s => (.st s, d)
  | none => h d w m

/-- The sender of a channel's commands (R506, R518). -/
def whoOn (d : Dev) (c : Nat) : Who :=
  let b := d.binding c
  { identity := b.sender, privilege := b.privilege, reply := some b.reply }

/-- A command that touches the compute function waits while that is in reset (R529, 18 R627). -/
def heldBack (d : Dev) (m : Msg) : Bool :=
  d.reset.isSome && (match cmdInfo m.code with
    | some i => i.compute || ((m.code == 0x0010 || m.code == 0x0011) && m.arg0 == 0)
    | none => false)

/-- The command at the head of a channel, when it is the one named and Prois can take it up. -/
def headCommand (d : Dev) (c code : Nat) : Option Msg :=
  let b := d.binding c
  match (d.ring c).msgs with
  | [] => none
  | m :: _ =>
    let x := Msg.ofBytes m
    if d.boot.runs = .none ∨ 4 ≤ b.receiver ∨ b.valid = false ∨ x.code ≠ code ∨ d.heldBack x then none else some x

/-- Prois takes up a channel's oldest message, which must be the command named, and answers it (R517, R519). -/
def prois (d : Dev) (c code : Nat) (h : Handler) : Dev :=
  match d.headCommand c code with
  | none => d
  | some _ =>
    let w := d.whoOn c
    match d.ringTake c with
    | (none, d) => d
    | (some bs, d) =>
      let m := Msg.ofBytes bs
      let (a, d) := d.judged w m h
      let d := match a with
        | .now s body => d.respond (w.reply.getD 0) m s body
        | .later => d
      answerUnlisted 16 c d

/-! ### Functions (R522, R523) -/

/-- Function f is stopped. -/
def isStopped (d : Dev) (f : Nat) : Bool := bit d.stops f

/-- Function f stopped or running. -/
def setStopped (d : Dev) (f : Nat) (v : Bool) : Dev := { d with stops := putBits d.stops f f (b2n v) }

/-- The function states of GET_INFO and GET_STATUS. -/
def functionStates (d : Dev) : List Byte := (List.range 8).map (fun f => Config.functionState (d.isStopped f))

/-- The range lies in the sender's staging window (R519, 15 R541). -/
def inWindow (d : Dev) (w : Who) (a n : Nat) : Bool :=
  match d.windowOf w.identity with
  | some (base, size) => decide (base ≤ a) && decide (a + n ≤ base + size)
  | none => false

/-- Bytes that Prois reads from DDR5; poison there makes them unusable (log entry 40). -/
def stagingRead (d : Dev) (a n : Nat) : Option (List Byte) × Dev :=
  let (bs, d) := d.readMem { master := 0, die := .cd } a n
  (if bs.any PByte.poison ∨ bs.length ≠ n then none else some (bs.map PByte.val), d)

/-- Contexts that run, but for context 0. -/
def runningContexts (d : Dev) : List Nat := ((List.range 16).drop 1).filter (fun n => (d.ctx n).st == .running)

/-- A link group stops (R523): each enabled port sends a leaving notice and is disabled. -/
def stopLinks (d : Dev) (die : Nat) : Dev :=
  [4 * die, 4 * die + 1, 4 * die + 2, 4 * die + 3].foldl (fun d p =>
    if d.pfld F.RHK_PORT_CTRL_enable p = 0 then d
    else
      let d := if d.portUp p then (d.sendFlit p 5 []).portDown p else d
      d.setPfld F.RHK_PORT_STATUS_state p 4) d

/-- A link group starts: its enabled ports train again (R523, 13 R467). -/
def startLinks (d : Dev) (die : Nat) : Dev :=
  [4 * die, 4 * die + 1, 4 * die + 2, 4 * die + 3].foldl (fun d p =>
    if d.pfld F.RHK_PORT_CTRL_enable p = 0 then d
    else (d.setPfld F.RHK_PORT_STATUS_state p 1).onPort p (fun x => { x with failedAt := none })) d

/-- STOP_FUNCTION (R523): `missed` are contexts whose units miss the deadline of their pre-emption, `fails` the tests that fail in
slices of a quick screen that need no yield point any more (17 R598, R602). -/
def stopFunction (missed : List Nat) (fails : List FailedTest) : Handler := fun d _ m =>
  let f := m.arg0
  let force := field m.body 0 1
  if 8 ≤ f ∨ 2 ≤ force then (.st sBADARG, d)
  else if d.isStopped f then (.st sOK, d)
  else if f = 0 then
    if force = 0 then
      if d.runningContexts ≠ [] then (.st sBUSY, d) else (.st sOK, (d.setStopped 0 true).idleSlices fails)
    else
      let (go, stay) := d.runningContexts.partition (fun n => !missed.contains n)
      let d := go.foldl (fun d n => d.preempt n) d
      if stay ≠ [] then (.st sTIMEOUT, d) else (.st sOK, (d.setStopped 0 true).idleSlices fails)
  else if f < 7 then (.st sOK, (d.stopLinks (f - 1)).setStopped f true)
  else (.st sOK, d.setStopped 7 true)

/-- START_FUNCTION (R523, 15 R553, R554). -/
def startFunction : Handler := fun d _ m =>
  let f := m.arg0
  if 8 ≤ f then (.st sBADARG, d)
  else if !d.isStopped f then (.st sOK, d)
  else
    let d := d.setStopped f false
    if f = 0 then (.st sOK, d)
    else if f < 7 then (.st sOK, d.startLinks (f - 1))
    else
      match d.eth.next with
      | none => (.st sOK, d)
      | some b => (.st sOK, d.applyEthConfig b)

/-! ### Reading commands -/

/-- Firmware major and minor of the running image; 0 in the boot ROM alone (19 R634, R642). -/
def firmware (d : Dev) : Nat × Nat := (field d.boot.image 12 1, field d.boot.image 13 1)

/-- GET_INFO (R520). -/
def getInfo : Handler := fun d _ _ =>
  (.now sOK (leBytes 2 0x0640 ++ leBytes 1 0xB0 ++ leBytes 2 d.firmware.1 ++ leBytes 2 d.firmware.2 ++ leBytes 2 d.deviceId
    ++ leBytes 1 (b2n d.idValid) ++ leBytes 4 (d.ddrBytes / 2 ^ 30) ++ leBytes 1 d.split ++ d.functionStates), d)

/-- GET_STATUS (R520). -/
def getStatus : Handler := fun d _ _ =>
  (.now sOK (leBytes 8 d.ctxStates ++ leBytes 8 d.coreRun ++ leBytes 8 d.intSum ++ d.functionStates), d)

end Dev

/-- The counter registers of the chapters' tables (17 R609). -/
def Reg.isCounter (r : Reg) : Bool :=
  match r with
  | .FAB_LINK_PAR_CNT | .FAB_LINK_REPLAY_CNT | .FAB_LINK_REPLAY_NS | .DA_PASS_CNT | .DA_CHK_FAIL_CNT |
  .DA_CHK_SKIP_CNT | .DA_ARB_CNT | .DA_RAMP_CNT | .DA_SP_CHAFF_CNT | .GME_OP_CNT | .GME_IDX_CNT | .GME_COAL_CNT |
  .GME_CHAFF_CNT | .GME_FOREIGN_CNT | .GME_RES_CNT | .GME_COMB_MISS_CNT | .GME_DUP_CNT | .VE_OP_CNT | .VE_ELEM_CNT |
  .CMEM_CE_CNT | .SHM_CE_CNT | .CMEM_UE_CNT | .SHM_UE_CNT | .CMEM_SCRUB_CNT | .SHM_SCRUB_CNT | .CMEM_CONFLICT_CNT |
  .SHM_CACHE_HIT_CNT | .SHM_CACHE_MISS_CNT | .SHM_CACHE_WB_CNT | .DDR_CH_CE_CNT | .DDR_CH_UE_CNT | .FD_STREAM_CNT |
  .FD_BYTE_CNT | .FD_STALL_CNT | .FD_MCAST_CNT | .FD_CHAFF_CNT | .FD_FOREIGN_CNT | .FD_COAL_CNT | .FD_REFETCH_CNT |
  .FD_FAULT_CNT | .CTX_FAULT_CNT | .CTX_PREEMPT_CNT | .WLK_ENTRY_CNT | .WLK_EMPTY_CNT | .WLK_ZF_CNT | .WLK_ROUTE_CNT |
  .WLK_CHAFF_CNT | .WLK_SKIP_CNT | .WLK_AUDIT_CNT | .WLK_MISS_CNT | .HD_PUSH_CNT | .HD_POP_CNT | .HD_WB_BYTES |
  .HD_PF_BYTES | .HD_HOME_FETCH_CNT | .WQ_PUSH_CNT | .WQ_BUBBLE_CNT | .WQ_FULL_CNT | .WQ_FLUSH_CNT | .WQ_FROZEN_CNT |
  .UPD_GROUP_CNT | .UPD_ELEM_CNT | .UPD_SKIP_CNT | .UPD_FROZEN_CNT | .UPD_RECOMMIT_CNT | .UPD_TORN_CNT |
  .UPD_NONFINITE_CNT | .BAR_CNT | .BAR_LATE_CNT | .RHK_PORT_FEC_CNT | .RHK_PORT_REPLAY_CNT | .RHK_PORT_FO_CNT |
  .RHK_PORT_DUP_CNT | .RHK_PORT_TX_BYTES | .RHK_PORT_RX_BYTES | .ETH_RX_BYTES | .ETH_TX_BYTES | .ETH_FEC_CNT |
  .ETH_DROP_CNT | .ETH_NAK_CNT | .ETH_MGMT_CNT | .ETH_CNP_CNT | .PWR_ENERGY_TOTAL | .PWR_DROOP_CNT | .TEL_FLAG_CNT |
  .PWR_THR_NS | .PWR_THR_CNT | .PWR_ENERGY | .SCR_QUICK_CNT | .SCR_FULL_CNT | .SCR_FAIL_CNT | .SCR_INCOMPLETE_CNT |
  .SCR_SLICE_CNT | .SCR_VE_RES_CNT | .RST_CR_CNT | .RST_HANG_CNT | .RST_FENCED_CNT | .RST_DRAIN_ERR_CNT | .SMB_MSG_CNT
  | .SMB_READ_CNT | .DA_BUF_CE_CNT | .DA_BUF_UE_CNT | .COL_OP_CNT | .COL_TX_BYTES | .COL_RX_BYTES | .COL_BUCKET_CNT |
  .COL_FORCED_CNT | .COL_NONFINITE_CNT | .COL_RES_CNT => true
  | _ => false

/-- A pair put in its place by its first component. -/
def insertBy {α : Type} (x : Nat × α) : List (Nat × α) → List (Nat × α)
  | [] => [x]
  | y :: t => if x.1 ≤ y.1 then x :: y :: t else y :: insertBy x t

/-- The counters of a register window in increasing offset, each with its fields from the lowest bit upwards (17 R609). -/
def windowCounters (n : Nat) : List (Nat × (Reg × Nat × FieldRow)) :=
  let all := Reg.all.filter (fun r => r.isCounter && decide (r.row.window ≤ n) && decide (n < r.row.window + r.row.windows))
  (all.flatMap (fun r => (List.range r.row.count).flatMap (fun j =>
    (r.row.fields.filter (fun x => x.access == .ro)).map (fun x => ((r.row.offset + r.row.stride * j) * 64 + x.lo, (r, j, x)))))).foldr
    insertBy []

namespace Dev

/-- A Prois total (17 R609): what was read in husks and the present value, saturating at 64 bits. -/
def total (d : Dev) (n : Nat) (c : Nat × (Reg × Nat × FieldRow)) : Nat :=
  let (k, r, j, x) := c
  satAdd 64 (Sp.get (fun _ => 0) d.totals (n * 2 ^ 30 + k)) (bits (d.regValue r (n - r.row.window) j) x.hi x.lo)

/-- The counters of a window read into the totals (17 R609, 18 R624 step 2). -/
def readTotals (d : Dev) (n : Nat) : Dev :=
  { d with totals := (windowCounters n).foldl (fun t c => Sp.set (fun _ => 0) t (n * 2 ^ 30 + c.1) (d.total n c)) d.totals }

/-- The total of one counter field over windows. -/
def totalOf (d : Dev) (r : Reg) : Nat :=
  (List.range r.row.windows).foldl (fun a w =>
    ((windowCounters (r.row.window + w)).filter (fun c => c.2.1 = r)).foldl (fun a c => satAdd 64 a (d.total (r.row.window + w) c)) a) 0

/-- GET_COUNTERS (R520, 17 R609). -/
def getCounters : Handler := fun d _ m =>
  let cs := windowCounters m.arg0
  if cs = [] then (.st sBADARG, d) else (.now sOK (cs.flatMap (fun c => leBytes 8 (d.total m.arg0 c))), d)

/-- GET_TELEMETRY (R520, 16 R586). -/
def getTelemetry : Handler := fun d _ m =>
  match m.arg0 with
  | 0 => (.now sOK (leBytes 4 (d.fld F.PWR_EST_mw) ++ leBytes 2 d.capWatts ++ leBytes 1 d.effStep ++ leBytes 1 d.effDuty
      ++ leBytes 1 d.bindingReason ++ leBytes 2 (d.fld F.PWR_STATUS_i_est) ++ leBytes 8 (d.rd .PWR_ENERGY_TOTAL) ++ leBytes 8 d.now), d)
  | 1 => (.now sOK ((List.range 7).flatMap (fun r => leBytes 8 (d.throttleNs (r + 1)) ++ leBytes 4 (d.rd .PWR_THR_CNT 0 r))), d)
  | 2 => (.now sOK ((List.range 130).flatMap (fun s =>
      leBytes 2 (if d.isSet F.TEL_SENSOR_failed 0 s then 0x8000 else d.fld F.TEL_SENSOR_temp 0 s))), d)
  | 3 => (.now sOK ((List.range 16).flatMap (fun n => leBytes 8 (d.rd .PWR_ENERGY 0 n))), d)
  | 4 => (.now sOK ((List.range 6).flatMap (fun f => leBytes 8 (d.rd .TEL_FLAG_CNT 0 f))
      ++ leBytes 4 ((List.range 16).foldl (fun a n => satAdd 32 a (d.rd .TEL_SPIKE_STATE 0 (4 * n + 1) / 2 ^ 32)) 0)
      ++ leBytes 8 (d.rd .TEL_POST_STEP) ++ leBytes 4 (d.fld F.TEL_POST_VAL_loss) ++ leBytes 4 (d.fld F.TEL_POST_VAL_norm)
      ++ leBytes 1 (d.fld F.TEL_POST_INFO_outcome) ++ leBytes 1 (d.fld F.TEL_POST_INFO_context)
      ++ leBytes 8 (d.totalOf .UPD_SKIP_CNT) ++ leBytes 8 (d.totalOf .UPD_NONFINITE_CNT) ++ leBytes 8 (d.totalOf .COL_NONFINITE_CNT)), d)
  | _ => (.st sBADARG, d)

/-- GET_FAULT_RECORD (R520, 08 R306). -/
def getFaultRecord : Handler := fun d _ m => (.now sOK (d.keptRecord m.context), d)

/-- GET_FLAGS (R520, 02 R68): the flags before the clear. -/
def getFlags : Handler := fun d _ m =>
  if 2 ^ 16 ≤ m.arg0 then (.st sBADARG, d)
  else
    let old := d.rd .CTX_FLAGS 0 m.context
    (.now sOK (leBytes 8 old),
      d.setFld F.CTX_FLAGS_flags 0 m.context ((Flags.ofNat (d.fld F.CTX_FLAGS_flags 0 m.context)).clear m.arg0).toNat)

/-- ACK_ALERT (R520, R526). -/
def ackAlert : Handler := fun d _ m =>
  if 64 ≤ m.arg0 then (.st sBADARG, d)
  else
    let d := d.wr .INT_FW 0 0 (d.rd .INT_FW &&& (63 - m.arg0))
    (.now sOK (leBytes 8 (d.rd .INT_FW)), d)

/-- SET_EVENT_MASK (R520, R524). -/
def setEventMask : Handler := fun d w m =>
  if 2 ^ 11 ≤ m.arg0 then (.st sBADARG, d)
  else (.st sOK, { d with eventMask := Sp.set (fun _ => 0) d.eventMask (w.reply.getD 0) m.arg0 })

/-! ### Settings -/

/-- SET_CONTEXT_LIMITS (R520): 0 restores the default. -/
def setContextLimits : Handler := fun d _ m =>
  let us := field m.body 0 4
  if 2 ≤ m.arg0 then (.st sBADARG, d)
  else if m.arg0 = 0 then (.st sOK, d.onCtx m.context (fun x => { x with faultDeadline := if us = 0 then 1000000 else us }))
  else (.st sOK, d.onCtx m.context (fun x => { x with preemptDeadline := if us = 0 then 10000 else us }))

/-- SET_AUDIT (R520, 09 R348): the setting takes effect when a core is next switched to the context. -/
def setAudit : Handler := fun d _ m =>
  let b := m.body
  if !d.isStopped 0 then (.st sNOTSTOPPED, d)
  else if (d.ctx m.context).job.isNone then (.st sBADARG, d)
  else (.st sOK, d.onCtx m.context (fun x => { x with audit := (field b 0 2, field b 4 4, field b 2 1, field b 8 8) }))

/-- A job's shared-memory regions reach into what a split of `n` takes away (06 R219). -/
def splitTaken (d : Dev) (n : Nat) : Bool :=
  (List.range 16).any (fun c =>
    match (d.ctx c).job with
    | none => false
    | some j => j.sections.any (fun s => s.kind == 1 &&
        (List.range (s.size / 4096)).any (fun i => decide (2 ^ 30 - n * 0x2000000 ≤ (s.pa + 4096 * i - sharedBase) % 2 ^ 30))))

/-- SET_CACHE_SPLIT (06 R219, R220): every line is written back and invalidated; addresses that the new split takes or gives back
read as zero when they stand in the scratchpad again. -/
def setCacheSplit : Handler := fun d _ m =>
  let n := m.arg0
  if 8 < n then (.st sBADARG, d)
  else if !d.isStopped 0 then (.st sNOTSTOPPED, d)
  else if d.splitTaken n then (.st sREFUSED, d)
  else
    let d := (List.range 4).foldl (fun d h => d.setSlice h []) d.flushCache
    let top := 2 ^ 30 - max n d.split * 0x2000000
    let d := (List.range 4).foldl (fun d c => d.zeroRange (sharedBase + c * 2 ^ 30 + top) (2 ^ 30 - top)) d
    (.st sOK, d.setFld F.SHM_CACHE_CFG_steps 0 0 n)

/-- SET_POWER_CAP (R520, 16 R563). -/
def setPowerCap : Handler := fun d _ m =>
  if m.arg0 < 800 ∨ 3200 < m.arg0 ∨ m.arg0 % 10 ≠ 0 then (.st sBADARG, d) else (.st sOK, d.setFld F.PWR_CAP_cap 0 0 (m.arg0 / 10))

/-- SET_ROUTES (R520, 13 R479): entries of a bank from a table in the sender's staging window. -/
def setRoutes : Handler := fun d w m =>
  let b := m.body
  let bank := field b 0 1
  let count := field b 2 2
  let first := field b 4 2
  let a := field b 8 8
  if 2 ≤ bank ∨ 65536 < first + count ∨ !d.inWindow w a (4 * count) then (.st sBADARG, d)
  else
    match d.stagingRead a (4 * count) with
    | (none, d) => (.st sBADARG, d)
    | (some bs, d) => (.st sOK, (List.range count).foldl (fun d i => d.routeWrite (bank * 65536 + first + i) (field bs (4 * i) 4)) d)

/-- SWAP_ROUTE_BANK (R520, 13 R481). -/
def swapRouteBank : Handler := fun d _ m => if 2 ≤ m.arg0 then (.st sBADARG, d) else (.st sOK, d.routeBank m.arg0)

/-- SET_ROUTE_MODE (R520, 13 R478). -/
def setRouteMode : Handler := fun d _ m =>
  if 2 ≤ m.arg0 then (.st sBADARG, d)
  else (.st sOK, (List.range 6).foldl (fun d n => d.setFld F.RHK_CTRL_route_en n 0 m.arg0) d)

/-- SET_PORT (R520, 13 R485): while the port's link group is stopped. -/
def setPortCmd : Handler := fun d _ m =>
  let b := m.body
  if 24 ≤ m.arg0 ∨ 8 ≤ field b 0 1 ∨ 2 ≤ field b 1 1 ∨ 2 ≤ field b 2 1 then (.st sBADARG, d)
  else if !d.isStopped (m.arg0 / 4 + 1) then (.st sNOTSTOPPED, d)
  else
    let d := d.setPfld F.RHK_PORT_CTRL_role m.arg0 (field b 0 1)
    (.st sOK, (d.setPfld F.RHK_PORT_CTRL_x2_allow m.arg0 (field b 1 1)).setPfld F.RHK_PORT_CTRL_enable m.arg0 (field b 2 1))

/-- RETURN_PORT (R520, 13 R493). -/
def returnPortCmd : Handler := fun d _ m =>
  if 24 ≤ m.arg0 then (.st sBADARG, d)
  else if !d.mayReturn m.arg0 then (.st sBUSY, d) else (.st sOK, d.returnPort m.arg0)

/-- SET_LINK_PARAMS (R520): with every link group stopped. -/
def setLinkParams : Handler := fun d _ m =>
  let b := m.body
  if 2 ≤ field b 0 1 ∨ 2 ≤ field b 1 1 then (.st sBADARG, d)
  else if !(List.range 6).all (fun n => d.isStopped (n + 1)) then (.st sNOTSTOPPED, d)
  else
    (.st sOK, (List.range 6).foldl (fun d n =>
      let d := (d.setFld F.RHK_CTRL_fo_en n 0 (field b 0 1)).setFld F.RHK_SYNC_root_en n 0 (field b 1 1)
      (d.setFld F.RHK_CTRL_down_time n 0 (field b 2 1)).setFld F.RHK_CTRL_e2e_timeout n 0 (field b 4 2)) d)

/-- A job holds a channel (R507). -/
def channelHeld (d : Dev) (c : Nat) : Bool :=
  (List.range 16).any (fun n =>
    match (d.ctx n).job with | some j => j.channels.any (fun x => x.channel == c) | none => false)

/-- BIND_CHANNEL (R520). -/
def bindChannel : Handler := fun d _ m =>
  let b := m.body
  if m.arg0 < 8 ∨ 64 ≤ m.arg0 ∨ 64 ≤ field b 2 1 ∨ 4 ≤ field b 3 1 ∨ 32 ≤ field b 4 1 ∨ 2 ≤ field b 5 1 then (.st sBADARG, d)
  else if d.channelHeld m.arg0 then (.st sREFUSED, d)
  else (.st sOK, d.bind m.arg0 { valid := field b 5 1 == 1, owner := 0, privilege := field b 3 1, dbBit := field b 4 1,
                                 reply := field b 2 1, receiver := field b 1 1, sender := field b 0 1 })

/-- SET_ETH_CONFIG (15 R553): it takes effect at START_FUNCTION. -/
def setEthConfig : Handler := fun d _ m =>
  let b := m.body
  if 32 ≤ field b 6 2 ∨ 4096 ≤ field b 8 2 ∨ 32 < field b 16 1 ∨ 128 < field b 40 1 then (.st sBADARG, d)
  else if !d.isStopped 7 then (.st sNOTSTOPPED, d)
  else (.st sOK, d.onEth (fun e => { e with next := some b }))

/-- DDR5 that a staging window may not take: a job's sections and the firmware's areas (15 R541). -/
def taken (d : Dev) (a n : Nat) : Bool :=
  (List.range 16).any (fun c =>
    match (d.ctx c).job with
    | none => false
    | some j => j.sections.any (fun s => decide (s.pa < a + n ∧ a < s.pa + s.size)) ||
        decide (j.ptBase < a + n ∧ a < j.ptBase + 4096 * j.ptPages)) ||
    d.eth.windows.any (fun w => decide (w.2.1 < a + n ∧ a < w.2.1 + w.2.2)) || decide (d.ddrBytes < a + n + 2 ^ 28)

/-- BIND_HOST (15 R540, R541): a bind or an unbind. -/
def bindHost : Handler := fun d _ m =>
  let b := m.body
  let q := field b 0 2
  let x := d.qp q
  let base := field b 56 8
  let n := field b 64 8
  let ans := Answer.now sOK (leBytes 4 (0x000100 + q))
  if !bindFields b then (.st sBADARG, d)
  else if x.state = 1 ∧ ¬ d.isStopped 7 then (.st sNOTSTOPPED, d)
  else if field b 2 1 = 0 then (ans, d.unbindQp q)
  else
    match d.windowOf (field b 3 1) with
    | some w => if w = (base, n) then (ans, d.bindQp b) else (.st sBADARG, d)
    | none =>
      if base % 2 ^ 21 ≠ 0 ∨ n < 2 ^ 21 ∨ d.ddrBytes < base + n ∨ d.taken base n then (.st sREFUSED, d) else (ans, d.bindQp b)

/-! ### Contexts -/

/-- A core that the context's job names is in use (R520). -/
def coreBusy (d : Dev) (n : Nat) : Bool := (d.coresOf n).any (fun c => (d.runsOn c).isSome)

/-- START_CONTEXT (R520, 08 R289, R675). -/
def startContextCmd : Handler := fun d _ m =>
  let n := m.context
  if (d.ctx n).st ≠ .loaded then (.st sBADARG, d)
  else if d.isStopped 0 || d.coreBusy n then (.st sBUSY, d)
  else
    let d := d.startContext n
    (.st (if (d.ctx n).st = .faulted then sFAULTED else sOK), d)

/-- PREEMPT_CONTEXT (R520, 08 R311): the units of the context reach their stop points. -/
def preemptCmd : Handler := fun d _ m =>
  if (d.ctx m.context).st ≠ .running ∨ m.context = 0 then (.st sBADARG, d) else (.st sOK, d.preempt m.context)

/-- PREEMPT_DEADLINE (08 R311): they do not within the deadline, and the context runs on. -/
def preemptLate : Handler := fun d _ m =>
  if (d.ctx m.context).st ≠ .running ∨ m.context = 0 then (.st sBADARG, d) else (.st sTIMEOUT, d)

/-- RESUME_CONTEXT (R520, 08 R312). -/
def resumeCmd : Handler := fun d _ m =>
  let n := m.context
  if (d.ctx n).st ≠ .preempted then (.st sBADARG, d)
  else if d.isStopped 0 || d.coreBusy n then (.st sBUSY, d)
  else
    let d := d.resume n
    (.st (if (d.ctx n).st = .faulted then sFAULTED else sOK), d)

/-- KILL_CONTEXT (R520, 08 R309). -/
def killCmd : Handler := fun d _ m =>
  if (d.ctx m.context).st = .free ∨ m.context = 0 then (.st sBADARG, d) else (.st sOK, d.kill m.context)

/-! ### Screens and test packs (17 R594, R605-R607) -/

/-- RUN_SCREEN (R520, 17 R594-R602): `fails` are the tests that fail, and `took` how long a full screen takes in ns. -/
def runScreen (fails : List FailedTest) (took : Nat) : Handler := fun d w m =>
  let us := field m.body 0 4
  if 2 ≤ m.arg0 then (.st sBADARG, d)
  else if m.arg0 = 1 ∧ ¬ d.isStopped 0 then (.st sNOTSTOPPED, d)
  else if d.screen.isSome then (.st sBUSY, d)
  else
    let asked := w.reply.map (fun c => (c, m.tag))
    if m.arg0 = 0 then (.later, d.startQuick (1000 * us) asked fails)
    else (.later, d.runFull { kind := 1, startedAt := d.now, deadline := 1000 * us, asked, pack := d.boot.pack } fails took)

/-- The entries of a pack: words 0 and 1 of each (17 R606). -/
def packEntries (bs : List Byte) : List (Nat × Nat) :=
  (List.range (field bs 2 2)).map (fun i => (field bs (field bs 0x18 8 + 32 * i) 8, field bs (field bs 0x18 8 + 32 * i + 8) 8))

/-- What a pack must satisfy beside its version (17 R605-R607): its layout, signature, part, stepping and lowest firmware, and its
entries. -/
def packValid (d : Dev) (bs : List Byte) (key : List Byte) : Bool :=
  let n := bs.length
  let count := field bs 2 2
  let table := field bs 0x18 8
  let data := field bs 0x20 8
  let size := field bs 0x28 8
  let z := fun (o k : Nat) => field bs o k == 0
  decide (64 + 7856 ≤ n) && decide (n ≤ 16 * 2 ^ 20) && field bs 0 2 == 0x5C01 && decide (1 ≤ count) && decide (count ≤ 4096)
    && field bs 0x08 2 == 0x0640 && field bs 0x0A 1 == 0xB0 && z 0x0B 1 && z 0x0E 2 && field bs 0x10 8 == n && z 0x30 16
    && table % 64 == 0 && decide (table + 32 * count ≤ n - 7856) && data % 256 == 0 && decide (data + size ≤ n - 7856)
    && decide (field bs 0x0C 1 * 256 + field bs 0x0D 1 ≤ d.firmware.1 * 256 + d.firmware.2)
    && Config.sha256 key == Config.vendorHash && Config.signed key (bs.take (n - 7856)) (bs.drop (n - 7856))
    && (packEntries bs).all (fun e => decide (256 * bits e.2 31 0 + bits e.2 63 32 ≤ size) && decide (bits e.1 19 16 ≤ 6)
        && bits e.1 23 22 == 0 && (!bit e.1 20 || (decide (bits e.1 19 16 < 2) && decide (bits e.1 31 24 ≤ 19))))

/-- The pack in use shown in SCR_PACK (17 R608, R612). -/
def usePack (d : Dev) (bs : List Byte) (installed : Bool) : Dev :=
  let p : Pack := { version := field bs 4 4, installed, entries := packEntries bs, hash := Config.sha256 bs }
  ({ d with boot := { d.boot with pack := p } }).wr .SCR_PACK 0 0 (p.version * 2 ^ 32 + b2n installed)

/-- LOAD_TEST_PACK (17 R607): `key` is the vendor's public key, which the running image carries (19 R634). -/
def loadTestPack : Handler := fun d w m =>
  let a := field m.body 0 8
  let n := field m.body 8 8
  if !d.inWindow w a n then (.st sBADARG, d)
  else
    match d.stagingRead a n with
    | (none, d) => (.st sDENIED, d.raise F.SCR_ERR_STATUS_pack_denied)
    | (some bs, d) =>
      let old := if d.flash.testPack = [] then 0 else field d.flash.testPack 4 4
      if d.packValid bs ((d.boot.image.drop 0x40).take 32) && decide (old ≤ field bs 4 4) then
        (.st sOK, ({ d with flash := { d.flash with testPack := bs } }).usePack bs true)
      else (.st sDENIED, d.raise F.SCR_ERR_STATUS_pack_denied)

end Dev

end Sys2Proof.Machine
end

