-- ==== Sys2Proof/Machine/PageTables.lean ====
section
/-!
DEFINITION. The page tables that Prois builds and changes, in the firmware's page-table area
(08_jobs_contexts_and_translation.md R294-R297, R676).
-/

namespace Sys2Proof.Machine

namespace Dev

/-- The job of a context changed. -/
def onJob (d : Dev) (n : Nat) (f : Job → Job) : Dev := d.onCtx n (fun x => { x with job := x.job.map f })

/-- The value of a table entry. -/
def entryAt (d : Dev) (a : Nat) : Nat := leNat ((List.range 8).map (fun i => d.cell (a + i)))

/-- A table entry written. -/
def setEntry (d : Dev) (a v : Nat) : Dev := d.pokeRange a (leBytes 8 v)

/-- A free table of the context's page-table area, zeroed; none when the area is full (R676). -/
def newTable (d : Dev) (n : Nat) : Option (Nat × Dev) :=
  let j := d.job n
  match (List.range j.ptPages).find? (fun k => !j.ptUsed.contains k) with
  | none => none
  | some k =>
    let a := j.ptBase + 4096 * k
    some (a, (d.onJob n (fun j => { j with ptUsed := j.ptUsed ++ [k] })).zeroRange a 4096)

/-- A table given back to the area. -/
def freeTable (d : Dev) (n a : Nat) : Dev :=
  d.onJob n (fun j => { j with ptUsed := j.ptUsed.filter (fun k => decide (j.ptBase + 4096 * k ≠ a)) })

/-- An entry is a leaf at level `k + 1` (R294, R295). -/
def entryLeaf (k e : Nat) : Bool := k == 0 || ((k == 1 || k == 2) && bit e 1)

/-- The tables below an entry at level `k + 1` given back, with the table it names. -/
def freeBelow : Nat → Dev → Nat → Nat → Dev
  | 0, d, _, _ => d
  | k + 1, d, n, e =>
    if !bit e 0 || entryLeaf (k + 1) e then d
    else
      let t := bits e 47 12 * 4096
      ((List.range 512).foldl (fun d i => freeBelow k d n (d.entryAt (t + 8 * i))) d).freeTable n t

/-- The leaf of a page at level `l + 1`: its address, leaf bits [6:2] and present. -/
def leafOf (l pa leaf : Nat) : Nat := pa + leaf * 4 + (if l = 0 then 0 else 2) + 1

/-- A leaf split into a table of leaves of the next smaller size, each keeping the mapping and the leaf bits (R676). -/
def splitLeaf (d : Dev) (k e t : Nat) : Dev :=
  (List.range 512).foldl (fun d i =>
    d.setEntry (t + 8 * i) (leafOf (k - 1) (bits e 47 12 * 4096 + i * 2 ^ (12 + 9 * (k - 1))) (bits e 6 2))) d

/-- One leaf written from the table at level `k + 1` downwards (R676): `l + 1` is its level. None when the area has no table. -/
def mapFrom (n va l v : Nat) : Nat → Nat → Dev → Option Dev
  | 0, t, d => some (d.setEntry (t + 8 * bits va 20 12) v)
  | k + 1, t, d =>
    let a := t + 8 * bits va (12 + 9 * (k + 1) + 8) (12 + 9 * (k + 1))
    let e := d.entryAt a
    if l = k + 1 then some ((freeBelow (k + 1) d n e).setEntry a v)
    else if !bit e 0 then
      match d.newTable n with
      | none => none
      | some (u, d) => mapFrom n va l v k u (d.setEntry a (u + 1))
    else if entryLeaf (k + 1) e then
      match d.newTable n with
      | none => none
      | some (u, d) => mapFrom n va l v k u ((d.splitLeaf (k + 1) e u).setEntry a (u + 1))
    else mapFrom n va l v k (bits e 47 12 * 4096) d

/-- The root table of a context. -/
def ptRoot (d : Dev) (n : Nat) : Nat := d.fld F.CTX_PT_ROOT_root 0 n * 4096

/-- One page mapped: `l` is 0 for 4 KiB, 1 for 2 MiB and 2 for 1 GiB. -/
def mapPage (d : Dev) (n va l pa leaf : Nat) : Option Dev := mapFrom n va l (leafOf l pa leaf) 3 (d.ptRoot n) d

/-- Whether mapping a page changes a present entry (R297, R676): a larger leaf is split, or something is mapped at its place. -/
def changesFrom (d : Dev) (va l : Nat) : Nat → Nat → Bool
  | 0, t => bit (d.entryAt (t + 8 * bits va 20 12)) 0
  | k + 1, t =>
    let e := d.entryAt (t + 8 * bits va (12 + 9 * (k + 1) + 8) (12 + 9 * (k + 1)))
    if !bit e 0 then false
    else if l = k + 1 || entryLeaf (k + 1) e then true
    else changesFrom d va l k (bits e 47 12 * 4096)

/-- See `changesFrom`. -/
def changesPresent (d : Dev) (n va l : Nat) : Bool := d.changesFrom va l 3 (d.ptRoot n)

/-- The range lies wholly in the physical memory of the job's sections (R520). -/
def insideJob (d : Dev) (n pa len : Nat) : Bool :=
  let cover := fun (a : Nat) => (d.job n).sections.find? (fun s => decide (s.pa ≤ a ∧ a < s.pa + s.size))
  let go := (d.job n).sections.foldl (fun (a : Nat) _ =>
    if pa + len ≤ a then a else match cover a with | some s => s.pa + s.size | none => a) pa
  decide (pa + len ≤ go)

/-- MAP_PAGES (14 R520, R676, R297). -/
def mapPages : Handler := fun d _ m =>
  let b := m.body
  let n := m.context
  let va := field b 0 8
  let pa := field b 8 8
  let count := field b 16 4
  let l := field b 20 1
  let size := 2 ^ (12 + 9 * l)
  if 3 ≤ l ∨ 32 ≤ field b 21 1 ∨ n = 0 ∨ (d.ctx n).job.isNone ∨ (d.ctx n).aborted = true then (.st sBADARG, d)
  else if va % size ≠ 0 ∨ pa % size ≠ 0 ∨ 2 ^ 48 < va + count * size then (.st sBADARG, d)
  else if (d.ctx n).st = .running ∧ (List.range count).any (fun i => d.changesPresent n (va + i * size) l) then
    (.st sNOTSTOPPED, d)
  else if !(List.range count).all (fun i => d.insideJob n (pa + i * size) size) then (.st sREFUSED, d)
  else
    match (List.range count).foldl (fun (x : Option Dev) i =>
        x.bind (fun d => d.mapPage n (va + i * size) l (pa + i * size) (field b 21 1))) (some d) with
    | none => (.st sREFUSED, d)
    | some d => (.st sOK, d)

/-- The largest leaf that a section admits at an offset: 1 GiB, 2 MiB or 4 KiB. -/
def leafLevel (va pa left : Nat) : Nat :=
  let ok := fun (l : Nat) => decide (va % 2 ^ (12 + 9 * l) = 0 ∧ pa % 2 ^ (12 + 9 * l) = 0 ∧ 2 ^ (12 + 9 * l) ≤ left)
  if ok 2 then 2 else if ok 1 then 1 else 0

/-- The leaves of a range: virtual address, level and physical address. The count bounds the leaves. -/
def leaves : Nat → Nat → Nat → Nat → List (Nat × Nat × Nat)
  | 0, _, _, _ => []
  | k + 1, va, pa, left =>
    if left = 0 then []
    else
      let l := leafLevel va pa left
      let n := 2 ^ (12 + 9 * l)
      (va, l, pa) :: leaves k (va + n) (pa + n) (left - n)

/-- The leaves of a job's sections, with each section's leaf bits. -/
def jobLeaves (j : Job) : List ((Nat × Nat × Nat) × Nat) :=
  j.sections.flatMap (fun s => (leaves (s.size / 4096) s.va s.pa s.size).map (fun x => (x, s.leaf)))

/-- Tables that leaves need (R294): the root, and one for each range that a table of a lower level spans. -/
def tablesFor (ls : List ((Nat × Nat × Nat) × Nat)) : Nat :=
  let some_ := fun (l : Nat) => (((ls.filter (fun x => decide (x.1.2.1 ≤ l))).map (fun x => x.1.1 / 2 ^ (12 + 9 * (l + 1)))).eraseDups).length
  1 + some_ 2 + some_ 1 + some_ 0

end Dev

end Sys2Proof.Machine
end

