-- ==== Sys2Proof/Machine/Loader.lean ====
section
/-!
DEFINITION. LOAD_JOB and UNLOAD_JOB: the job image, the bounds it declares, their checks in order, the placement, and what the
loader writes (08_jobs_contexts_and_translation.md R286-R289, R677, R678, 14_control_mailboxes_and_interrupts.md R521).
-/

namespace Sys2Proof.Machine

/-! ### The image (R521, R677) -/

/-- An item of the bounds record: its type and its body. -/
structure Item where
  kind : Nat
  body : List Byte
deriving DecidableEq, Repr

/-- What a job image declares: its sections, and the bounds record's items. -/
structure Image where
  sections : List Section
  items : List Item
deriving DecidableEq, Repr

/-- The least body of each item type, and the bytes of it that no field names: offset and length. -/
def itemShape (kind : Nat) : Option (Nat × List (Nat × Nat)) :=
  match kind with
  | 1 => some (40, [(3, 5)])
  | 2 => some (32, [(1, 7)])
  | 3 => some (56, [(2, 2)])
  | 4 => some (72, [(3, 1), (14, 2), (20, 4)])
  | 5 => some (16, [(3, 5)])
  | 6 => some (16, [(9, 7)])
  | 7 => some (16, [(12, 4)])
  | 8 => some (32, [(20, 4)])
  | 9 => some (16, [(3, 1)])
  | _ => none

/-- The items of a bounds record; none when one has an unknown type, a length that does not fit, or a byte set that no field
names. -/
def parseItems : Nat → List Byte → Option (List Item)
  | _, [] => some []
  | 0, _ :: _ => none
  | k + 1, bs =>
    let kind := field bs 0 2
    let len := field bs 2 2
    match itemShape kind with
    | none => none
    | some (least, gaps) =>
      if bs.length < 4 ∨ len % 8 ≠ 0 ∨ len < 8 + least ∨ bs.length < len ∨ field bs 4 4 ≠ 0 then none
      else
        let body := (bs.take len).drop 8
        if gaps.any (fun g => field body g.1 g.2 != 0) || (body.drop least).any (fun x => x != 0) then none
        else (parseItems k (bs.drop len)).map (fun l => { kind, body } :: l)

/-- A section entry (R521); none when it is not well formed within an image of `n` bytes. -/
def parseSection (n : Nat) (bs : List Byte) : Option Section :=
  let w := fun k => field bs (8 * k) 8
  let s : Section := { va := bits (w 0) 47 0, kind := bits (w 0) 49 48, core := bits (w 0) 51 50, leaf := bits (w 0) 56 52
                       init := bit (w 0) 57, size := bits (w 1) 47 0, imgOff := bits (w 2) 47 0, initBytes := bits (w 3) 47 0 }
  if bits (w 0) 63 58 ≠ 0 ∨ [1, 2, 3].any (fun k => bits (w k) 63 48 != 0) ∨ s.kind = 3 ∨ s.va % 4096 ≠ 0 ∨ s.size % 4096 ≠ 0
      ∨ s.size = 0 ∨ 2 ^ 48 < s.va + s.size ∨ (s.init = true ∧ (s.size < s.initBytes ∨ n < s.imgOff + s.initBytes)) then none
  else some s

/-- All of a list's optional values, or none. -/
def allSome {α : Type} : List (Option α) → Option (List α)
  | [] => some []
  | x :: t => match x, allSome t with | some a, some l => some (a :: l) | _, _ => none

/-- No two ranges of a list overlap. -/
def disjoint : List (Nat × Nat) → Bool
  | [] => true
  | x :: t => t.all (fun y => decide (x.1 + x.2 ≤ y.1 ∨ y.1 + y.2 ≤ x.1)) && disjoint t

/-- The section that holds a range whole. -/
def sectionOf (l : List Section) (va n : Nat) : Option Section :=
  l.find? (fun s => decide (s.va ≤ va ∧ va + n ≤ s.va + s.size))

/-- The bytes of the items of one type. -/
def bodies (l : List Item) (kind : Nat) : List (List Byte) := (l.filter (fun i => i.kind = kind)).map Item.body

/-- The last item of a type: of items that are not declared once, the last one stands (log entry 41). -/
def lastBody (l : List Item) (kind : Nat) : Option (List Byte) := (bodies l kind).getLast?

/-- What the items declare, before anything is placed. -/
def declared (img : Image) : Job :=
  let b1 := (lastBody img.items 1).getD []
  let core := fun (b : List Byte) =>
    ({ core := field b 0 1, base := field b 8 8, bytes := field b 16 8, qtable := field b 24 8
       entry := field b1 (8 + 8 * field b 0 1) 8 } : CoreItem)
  { mask := field b1 0 1
    priority := field b1 1 1
    seqSlots := field b1 2 1
    sections := img.sections
    coreItems := (bodies img.items 2).map core
    hoards := (bodies img.items 3).map (fun b =>
      { core := field b 0 1, task := field b 1 1, maxFrames := field b 4 4, resBase := field b 8 8, resBytes := field b 16 8
        homeBase := field b 24 8, homeBytes := field b 32 8, directory := field b 40 8, wqArea := field b 48 8 })
    moe := (bodies img.items 4).map (fun b =>
      { layer := field b 0 2, k := field b 2 1, t := field b 4 4, g := field b 8 2, e := field b 10 2, eMax := field b 12 2
        rowBytes := field b 16 4, send := field b 24 8, receive := field b 32 8, ret := field b 40 8, staging := field b 48 8
        table := field b 56 8, scratch := field b 64 8 })
    channels := (bodies img.items 5).map (fun b => { role := field b 0 1, core := field b 1 1, peer := field b 2 1, va := field b 8 8 })
    planAddr := ((lastBody img.items 6).map (fun b => field b 0 8)).getD 0
    planCount := ((lastBody img.items 6).map (fun b => field b 8 1)).getD 0
    layerTable := ((lastBody img.items 7).map (fun b => field b 0 8)).getD 0
    layerCount := ((lastBody img.items 7).map (fun b => field b 8 4)).getD 0
    dx := (bodies img.items 8).map (fun b => { values := field b 0 8, codes := field b 8 8, stride := field b 16 4, dense := field b 24 8 })
    audit := ((lastBody img.items 9).map (fun b => (field b 0 2, field b 4 4, field b 2 1, field b 8 8))).getD (0, 0, 0, 0) }

namespace Job

/-- Cores of the mask. -/
def named (j : Job) : List Nat := (List.range 4).filter (fun c => bit j.mask c)

/-- The CORE item of a core. -/
def coreItem (j : Job) (c : Nat) : Option CoreItem := j.coreItems.find? (fun i => i.core = c)

/-- No core has two items. -/
def onceEach (l : List Nat) : Bool := decide (l.eraseDups.length = l.length)

/-- The bounds record's own conditions and those of R677 on sections, entries and queue-table addresses. -/
def wellFormed (j : Job) (items : List Item) : Bool :=
  decide ((bodies items 1).length = 1) && decide (j.mask < 16) && decide (j.priority < 4)
    && onceEach (j.coreItems.map CoreItem.core) && onceEach (j.hoards.map HoardItem.core)
    && j.coreItems.all (fun i => decide (i.core < 4 ∧ i.base % 4096 = 0 ∧ i.base + i.bytes ≤ 2 ^ 48 ∧ i.qtable % 4096 = 0))
    && j.hoards.all (fun h => decide (h.core < 4 ∧ h.task < 8))
    && j.named.all (fun c => (j.coreItem c).isSome)
    && disjoint (j.sections.map (fun s => (s.va, s.size)))
    && j.sections.all (fun s => s.kind != 0 ||
        (match j.coreItem s.core with | some i => decide (i.base ≤ s.va ∧ s.va + s.size ≤ i.base + i.bytes) | none => false))
    && j.channels.all (fun x => decide (x.role < 4 ∧ x.core < 4 ∧ 0x40 ≤ x.peer ∧ x.peer ≤ 0x7F ∧ x.va % 8 = 0)
        && (sectionOf j.sections x.va 8).isSome)
    && j.named.all (fun c =>
        match j.coreItem c with
        | none => false
        | some i =>
          decide (i.entry % 8 = 0) && (match sectionOf j.sections i.entry 8 with
            | some s => s.kind == 0 && s.core == c && bit s.leaf 1
            | none => false) &&
          (match sectionOf j.sections i.qtable 4096 with | some s => s.kind == 0 && s.core == c && s.init | none => false))

end Job

namespace Dev

/-- Bytes of the image with their poison, as Prois reads them from the staging region. -/
def imageRead (d : Dev) (a n : Nat) : List PByte × Dev := d.readMem { master := 0, die := .cd } a n

/-- Bytes cut from the image that Prois uses itself: poison makes the image ill-formed (R677). -/
def imageCut (img : List PByte) (off n : Nat) : Option (List Byte) :=
  let l := (img.drop off).take n
  if l.length ≠ n ∨ l.any PByte.poison then none else some (l.map PByte.val)

/-- The image's header, section table and bounds record (R521, R677). -/
def parseImage (img : List PByte) : Option Image :=
  match imageCut img 0 64 with
  | none => none
  | some h =>
    let count := field h 2 2
    if field h 0 2 ≠ 0x4A01 ∨ count = 0 ∨ 1024 < count ∨ field h 4 4 ≠ 0 ∨ field h 8 8 ≠ img.length ∨ field h 16 8 % 64 ≠ 0
        ∨ field h 24 8 % 64 ≠ 0 ∨ (h.drop 40).any (fun x => x != 0) then none
    else
      match imageCut img (field h 16 8) (32 * count), imageCut img (field h 24 8) (field h 32 8) with
      | some t, some r =>
        match allSome ((List.range count).map (fun i => parseSection img.length ((t.drop (32 * i)).take 32))), parseItems r.length r with
        | some sections, some items => some { sections, items }
        | _, _ => none
      | _, _ => none

/-- What a section's bytes are after loading, at an offset in it: the image's initial bytes and zeros. -/
def loadedBytes (img : List PByte) (s : Section) (off n : Nat) : List PByte :=
  let l := if s.init then (((img.drop s.imgOff).take s.initBytes).drop off).take n else []
  l ++ List.replicate (n - l.length) { val := 0 }

/-- The 256 entries of a core's queue table in the image; none for poison or an entry that is not well formed (R677). -/
def queueTable (img : List PByte) (j : Job) (c : Nat) : Option (List (Nat × Nat)) :=
  match j.coreItem c with
  | none => none
  | some i =>
    match sectionOf j.sections i.qtable 4096 with
    | none => none
    | some s =>
      let bs := loadedBytes img s (i.qtable - s.va) 4096
      if bs.any PByte.poison then none
      else
        let ws := leWords 512 (bs.map PByte.val)
        let es := (List.range 256).map (fun q => ((ws[2 * q]?).getD 0, (ws[2 * q + 1]?).getD 0))
        if es.all QEntry.wellFormed then some es else none

/-! ### The checks (R286) -/

/-- Loaded jobs of the other contexts, with their context. -/
def otherJobs (d : Dev) (n : Nat) : List (Nat × Job) :=
  (List.range 16).filterMap (fun m => if m = n then none else (d.ctx m).job.map (fun j => (m, j)))

/-- The first free place for a range: the lowest of the spans' starts and the taken ranges' ends that keeps clear of what is
taken, its address congruent to `va` modulo `align` (log entry 42). -/
def firstFit (spans taken : List (Nat × Nat)) (size va align : Nat) : Option Nat :=
  let next := fun (x : Nat) => x + (va % align + align - x % align) % align
  let tries := (spans.map Prod.fst ++ taken.map (fun t => t.1 + t.2)).map next
  let good := tries.filter (fun a => spans.any (fun s => decide (s.1 ≤ a ∧ a + size ≤ s.1 + s.2)) &&
    taken.all (fun t => decide (a + size ≤ t.1 ∨ t.1 + t.2 ≤ a)))
  good.foldl (fun (b : Option Nat) a => match b with | some x => some (min x a) | none => some a) none

/-- Check 5 (R247) of one core's queue table within a region of `bytes`. -/
def queuesFit (es : List (Nat × Nat)) (bytes : Nat) : Bool :=
  let qs := es.filterMap QEntry.ofWords
  let core := qs.filter (fun e => e.home == 0)
  let blocks := qs.filter (fun e => e.home != 0)
  let states := core.flatMap (fun e => (List.range e.count).map (fun k => e.stateIdx + k))
  let slots := blocks.flatMap (fun e => (List.range e.count).flatMap (fun k => e.blocks 0 k))
  core.all (fun e => decide (e.base + e.count * e.slotLen ≤ bytes)) && states.all (fun x => decide (x < 4096)) && Job.onceEach states
    && decide (states.length ≤ 4096) && blocks.all (fun e => decide (e.base % 8 + (e.count - 1) ≤ 7))
    && decide (slots.eraseDups.length = slots.length)

/-- The scratchpad that a cache split leaves, but for the fault ring (R214, 06 R220, R306). -/
def sharedSpans (d : Dev) : List (Nat × Nat) :=
  if d.split = 0 then [(sharedBase, 2 ^ 32)]
  else (List.range 4).map (fun c => (sharedBase + c * 2 ^ 30, 2 ^ 30 - d.split * 0x2000000))

/-- The fault ring. -/
def faultRing (d : Dev) : Nat × Nat := (d.fld F.CTX_RING_BASE_base * 2 ^ 14, 16384)

/-- The DDR5 that Prois keeps for page tables and save areas (log entry 43). -/
def firmwareArea (d : Dev) : Nat × Nat := (d.ddrBytes - 2 ^ 28, min d.ddrBytes (2 ^ 28))

/-- DDR5 ranges that a new section may not take: other jobs' sections, staging windows, reserved ranges and the firmware's
area. -/
def ddrTaken (d : Dev) (n : Nat) : List (Nat × Nat) :=
  (d.otherJobs n).flatMap (fun x => (x.2.sections.filter (fun s => s.kind == 2)).map (fun s => (s.pa, s.size)))
    ++ d.eth.windows.map (fun w => (w.2.1, w.2.2))
    ++ (List.range 16).flatMap (fun m => (d.ctx m).reserved.map (fun r => (r.2.2, r.2.1))) ++ [d.firmwareArea]

/-- Sections of a kind placed one after another; none when one does not fit. -/
def placeSections (spans : List (Nat × Nat)) (kept : Section → Option Nat) : List (Nat × Nat) → List Section → Option (List Section)
  | _, [] => some []
  | taken, s :: t =>
    let free := if 2 ^ 21 ≤ s.size then (firstFit spans taken s.size s.va (2 ^ 21)).or (firstFit spans taken s.size s.va 4096)
                else firstFit spans taken s.size s.va 4096
    match (kept s).or free with
    | none => none
    | some a => (placeSections spans kept ((a, s.size) :: taken) t).map (fun l => { s with pa := a } :: l)

/-- The physical range that a reserved DDR5 section of the context keeps for this one (R678). -/
def keptAt (d : Dev) (n : Nat) (s : Section) : Option Nat :=
  ((d.ctx n).reserved.find? (fun r => decide (r.1 = s.va ∧ r.2.1 = s.size))).map (fun r => r.2.2)

/-- Checks 3 and 4: the job with its core regions placed. -/
def placeCores (d : Dev) (n : Nat) (j : Job) : Option Job :=
  let others := d.otherJobs n
  if j.mask = 0 ∨ others.any (fun x => decide (x.2.mask &&& j.mask ≠ 0) && x.2.priority == j.priority) then none
  else
    match allSome (j.named.map (fun c =>
        match j.coreItem c with
        | none => none
        | some i =>
          let taken := others.flatMap (fun x => (x.2.coreItems.filter (fun k => k.core = c ∧ bit x.2.mask c = true)).map (fun k => (k.pa, k.bytes)))
          if 62 * 2 ^ 20 < i.bytes then none
          else (firstFit [(coreMemBase c, 62 * 2 ^ 20)] taken i.bytes 0 4096).map (fun a => { i with pa := a }))) with
    | none => none
    | some items =>
      let at_ := fun (s : Section) =>
        match items.find? (fun i => i.core = s.core) with | some i => i.pa + (s.va - i.base) | none => 0
      some { j with coreItems := items, sections := j.sections.map (fun s => if s.kind = 0 then { s with pa := at_ s } else s) }

/-- Checks 6 and 7: the job with its shared-memory and DDR5 sections placed. -/
def placeRest (d : Dev) (n : Nat) (j : Job) : Option Job :=
  let sharedTaken := d.faultRing :: (d.otherJobs n).flatMap (fun x => (x.2.sections.filter (fun s => s.kind == 1)).map (fun s => (s.pa, s.size)))
  let ddr := if d.mem.ddrUp then [(0, d.ddrBytes)] else []
  match placeSections d.sharedSpans (fun _ => none) sharedTaken (j.sections.filter (fun s => s.kind == 1)),
        placeSections ddr (d.keptAt n) (d.ddrTaken n) (j.sections.filter (fun s => s.kind == 2)) with
  | some a, some b => some { j with sections := j.sections.filter (fun s => s.kind == 0) ++ a ++ b }
  | _, _ => none

/-- A range of virtual addresses lies in the job's sections of some kinds. -/
def declaredRange (j : Job) (kinds : List Nat) (va n : Nat) : Bool :=
  let l := j.sections.filter (fun s => kinds.contains s.kind)
  decide (va + n ≤ l.foldl (fun (a : Nat) _ =>
    if va + n ≤ a then a else match l.find? (fun s => decide (s.va ≤ a ∧ a < s.va + s.size)) with
      | some s => s.va + s.size
      | none => a) va)

/-- Check 9 (10 R381). -/
def hoardFits (j : Job) (h : HoardItem) : Bool :=
  match j.coreItem h.core with
  | none => false
  | some i =>
    let inside := fun (a n : Nat) => decide (i.base ≤ a ∧ a + n ≤ i.base + i.bytes)
    h.resBytes % 2 ^ 21 == 0 && h.homeBytes % 2 ^ 21 == 0 && declaredRange j [1] h.resBase h.resBytes
      && declaredRange j [2] h.homeBase h.homeBytes && decide (1 ≤ h.maxFrames ∧ h.maxFrames ≤ 65536)
      && inside h.directory (32 * h.maxFrames) && inside h.wqArea 16384

/-- Check 10 (09 R327). The staging size follows from the rows' elements, which no item gives: between what the largest and the
smallest element would need the answer is free (log entry 44). -/
def moeFits (d : Dev) (j : Job) (m : MoeItem) : Bool × Dev :=
  let all := [0, 1, 2]
  let rows := m.t * m.k
  let send := rows * m.rowBytes + 256 * (m.e + 1)
  let fixed := declaredRange j all m.send send && declaredRange j all m.ret send
    && declaredRange j all m.receive (m.g * m.t * min m.k m.eMax * m.rowBytes + 256 * m.g * (m.eMax + 1))
    && declaredRange j all m.table (64 * m.eMax) && declaredRange j [0] m.scratch 65536 && m.scratch % 16384 == 0
  if !fixed || !declaredRange j all m.staging (rows * m.rowBytes) then (false, d)
  else if declaredRange j all m.staging (8 * rows * m.rowBytes) then (true, d)
  else
    let (v, d) := d.draw 1
    (v == 1, d)

/-- Check 11: the channels that the items get, the lowest free ones in item order; none when too few are free. -/
def giveChannels (d : Dev) (j : Job) : Option Job :=
  let free := (List.range 64).filter (fun c => decide (8 ≤ c) && !(d.binding c).valid && !d.channelHeld c)
  if free.length < j.channels.length then none
  else some { j with channels := j.channels.zipIdx.map (fun (x, i) => { x with channel := (free[i]?).getD 0 }) }

/-- Check 8: the lowest free sequence slots. -/
def giveSlots (d : Dev) (n : Nat) (j : Job) : Option Job :=
  let used := (d.otherJobs n).flatMap (fun x => x.2.slotList)
  let free := (List.range 64).filter (fun k => !used.contains k)
  if j.seqSlots = 0 ∨ 64 < j.seqSlots ∨ free.length < j.seqSlots then none else some { j with slotList := free.take j.seqSlots }

/-- Bytes at a job's virtual address, from its placed sections; none outside them. -/
def jobBytes (d : Dev) (j : Job) (va n : Nat) : Option (List PByte) :=
  if !declaredRange j [0, 1, 2] va n then none
  else some ((List.range n).map (fun i =>
    match sectionOf j.sections (va + i) 1 with
    | some s => d.peek (s.pa + (va + i - s.va))
    | none => { val := 0 }))

/-- Bytes of a table that the loader checks: REFUSED_RESOURCE outside the job's regions, BAD_ARG when poisoned. -/
def tableBytes (d : Dev) (j : Job) (va n : Nat) : Except Nat (List Byte) :=
  match d.jobBytes j va n with
  | none => .error sREFUSED
  | some bs => if bs.any PByte.poison then .error sBADARG else .ok (bs.map PByte.val)

/-- A condition of a check. -/
def need (c : Bool) (status : Nat) : Except Nat Unit := if c then .ok () else .error status

/-- One group-table entry (12 R432). -/
def groupOk (d : Dev) (j : Job) (va : Nat) : Except Nat Unit := do
  let e ← d.tableBytes j va 32
  let w := fun k => field e (8 * k) 8
  let p := bits (w 0) 16 0
  need (bits (w 0) 31 17 == 0 && bits (w 0) 63 54 == 0 && bits (w 1) 63 48 == 0 && bits (w 2) 63 24 == 0 && w 3 == 0) sBADARG
  need (decide (1 ≤ p ∧ p ≤ 65536) && decide (bits (w 0) 51 48 ≤ 2) && decide (bits (w 0) 47 32 < p)) sBADARG
  let ms ← d.tableBytes j (bits (w 1) 47 0) (2 * p)
  let ids := (List.range p).map (fun i => field ms (2 * i) 2)
  need ((ids[bits (w 0) 47 32]?).getD 0 == d.deviceId && Job.onceEach ids) sBADARG

/-- Members of a group. -/
def groupSize (d : Dev) (j : Job) (table g : Nat) : Except Nat Nat := do
  if g = 0 then pure 1
  else do
    let e ← d.tableBytes j (table + 32 * (g - 1)) 8
    pure (bits (field e 0 8) 16 0)

/-- One bucket-table entry (12 R433): its range. -/
def bucketOk (d : Dev) (j : Job) (table groups limit va : Nat) : Except Nat (Nat × Nat) := do
  let e ← d.tableBytes j va 32
  let w := fun k => field e (8 * k) 8
  let a := bits (w 0) 47 0
  let n := bits (w 1) 39 0
  let mode := bits (w 0) 49 48
  let err := bits (w 2) 47 0
  need (bits (w 0) 63 55 == 0 && bits (w 1) 47 40 == 0 && bits (w 2) 63 48 == 0 && bits (w 3) 63 32 == 0) sBADARG
  need (a % 256 == 0 && decide (mode < 2) && n % 256 == 0 && decide (256 ≤ n ∧ n ≤ limit) && decide (bits (w 1) 63 48 ≤ groups)
    && (mode == 1 || err == 0)) sBADARG
  need (declaredRange j [0, 1, 2] a n) sREFUSED
  let p ← d.groupSize j table (bits (w 1) 63 48)
  need (mode == 0 || declaredRange j [0, 1, 2] err (4 * (n / 4 + ceilDiv (n / 4) p))) sREFUSED
  pure (a, n)

/-- Ranges in increasing address without an overlap. -/
def increasing : List (Nat × Nat) → Bool
  | x :: y :: t => decide (x.1 + x.2 ≤ y.1) && increasing (y :: t)
  | _ => true

/-- One plan header (12 R431): its staging slots. -/
def planOk (d : Dev) (j : Job) (va : Nat) : Except Nat Nat := do
  let h ← d.tableBytes j va 64
  let w := fun k => field h (8 * k) 8
  let groups := bits (w 0) 63 48
  let mib := if bits (w 3) 39 32 = 0 then 8 else bits (w 3) 39 32
  need (decide (1 ≤ groups ∧ groups ≤ 4095) && decide (bits (w 1) 63 48 ≤ 4096) && bits (w 2) 47 0 % 2 ^ 22 == 0
    && bits (w 2) 63 52 == 0 && bits (w 3) 63 40 == 0 && decide (mib ≤ 64) && (h.drop 32).all (fun x => x == 0)) sBADARG
  let slots := bits (w 2) 51 48 + 1
  let _ ← (List.range groups).mapM (fun g => d.groupOk j (bits (w 0) 47 0 + 32 * g))
  let rs ← (List.range (bits (w 1) 63 48)).mapM (fun b =>
    d.bucketOk j (bits (w 0) 47 0) groups (mib * 2 ^ 20) (bits (w 1) 47 0 + 32 * b))
  need (increasing rs) sBADARG
  need (declaredRange j [1] (bits (w 2) 47 0) (slots * 2 ^ 22)) sREFUSED
  pure slots

/-- Check 12 (12 R431-R433): the staging slots that the job's plans take, the most of any one of them (log entry 45). -/
def plansOk (d : Dev) (n : Nat) (j : Job) (present : Bool) : Except Nat Nat := do
  if !present then pure 0
  else do
    need (decide (1 ≤ j.planCount ∧ j.planCount ≤ 8)) sBADARG
    let l ← (List.range j.planCount).mapM (fun p => d.planOk j (j.planAddr + 64 * p))
    need (decide (maxNat l + (d.otherJobs n).foldl (fun a x => a + x.2.colSlots) 0 ≤ 16)) sREFUSED
    pure (maxNat l)

/-- Check 13 (04 R142): a tensor without a dense copy must have transposable codes; the item does not give the pattern that says
what its codes mean, so the outcome is free (log entry 46). -/
def dxOk (d : Dev) (j : Job) : Bool × Dev :=
  j.dx.foldl (fun (x : Bool × Dev) i =>
    if i.dense ≠ 0 then x
    else
      let (v, d) := x.2.draw 1
      (x.1 && v == 1, d)) (true, d)

/-- Check 14 (10 R389). -/
def layersOk (d : Dev) (j : Job) : Except Nat Unit := do
  if j.layerCount = 0 then pure ()
  else
    match d.tableBytes j j.layerTable (4 * j.layerCount) with
    | .error _ => .error sBADARG
    | .ok bs =>
      let gs := ((List.range j.layerCount).map (fun i => field bs (4 * i) 4)).filter (fun g => g != 0xFFFFFFFF)
      need (Job.onceEach gs) sBADARG

/-- Check 15 (R296, R311): the save area and the page-table area in the firmware's DDR5. -/
def giveFirmware (d : Dev) (n : Nat) (j : Job) : Option Job :=
  let taken := (d.otherJobs n).flatMap (fun x => [(x.2.ptBase, 4096 * x.2.ptPages), (x.2.saveBase, 13107200 * x.2.named.length)])
  let area := if d.mem.ddrUp then [d.firmwareArea] else []
  let pages := tablesFor (jobLeaves j) + 64
  match firstFit area taken (13107200 * j.named.length) 0 4096 with
  | none => none
  | some s =>
    (firstFit area ((s, 13107200 * j.named.length) :: taken) (4096 * pages) 0 4096).map (fun p =>
      { j with saveBase := s, ptBase := p, ptPages := pages, ptUsed := [] })

/-! ### Loading (R288, R678) -/

/-- A section's memory as the loader leaves it: zeros and the initial bytes; a DDR5 section that a reservation kept and that has no
initial bytes stays as it is. -/
def loadSection (d : Dev) (img : List PByte) (n : Nat) (s : Section) : Dev :=
  if s.kind = 2 ∧ s.init = false ∧ (d.keptAt n s).isSome then d
  else
    let d := d.zeroRange s.pa s.size
    if s.init then d.writeMem { master := 0, die := .cd } s.pa ((img.drop s.imgOff).take s.initBytes) else d

/-- A core's queue table with the region's offset added to the base of its core-memory entries (R247). -/
def patchQueues (d : Dev) (j : Job) (c : Nat) (es : List (Nat × Nat)) : Dev :=
  match j.coreItem c with
  | none => d
  | some i =>
    let a := i.pa + (i.qtable - i.base)
    let off := i.pa - coreMemBase c
    es.zipIdx.foldl (fun d (e, q) =>
      if bit e.1 63 ∧ bits e.1 1 0 = 0 then d.setEntry (a + 16 * q + 8) (e.2 + off) else d) d

/-- The binding of a channel by its role (R521, R506): commands, events, program to host, host to program. -/
def roleBinding (n : Nat) (j : Job) (x : ChannelItem) : Binding :=
  let reply := ((j.channels.find? (fun y => y.role == 1 && y.peer == x.peer)).map ChannelItem.channel).getD x.channel
  let b : Binding := { valid := true, owner := n, privilege := 2, dbBit := 0, reply, receiver := 0, sender := 0 }
  match x.role with
  | 0 => { b with sender := x.peer, receiver := 0 }
  | 1 => { b with sender := 0, receiver := x.peer }
  | 2 => { b with sender := 0x10 + x.core, receiver := x.peer }
  | _ => { b with sender := x.peer, receiver := 0x10 + x.core }

/-- The channels of a job bound, and each item's channel number written at its address. -/
def bindJob (d : Dev) (n : Nat) (j : Job) : Dev :=
  j.channels.foldl (fun d x =>
    let d := d.bind x.channel (roleBinding n j x)
    match sectionOf j.sections x.va 8 with
    | some s => d.pokeRange (s.pa + (x.va - s.va)) (leBytes 8 x.channel)
    | none => d) d

/-- The job's memory written and its tables built; none when the page-table area does not hold them. -/
def buildJob (d : Dev) (img : List PByte) (n : Nat) (j : Job) (tables : List (Nat × List (Nat × Nat))) : Option Dev :=
  let d := j.sections.foldl (fun d s => d.loadSection img n s) d
  let d := ((d.ctx n).reserved.filter (fun r => !j.sections.any (fun s => s.kind == 2 && s.va == r.1 && s.size == r.2.1))).foldl
    (fun d r => d.zeroRange r.2.2 r.2.1) d
  let d := tables.foldl (fun d t => d.patchQueues j t.1 t.2) d
  let d := (d.onCtx n (fun x => { x with st := .loaded, job := some j, aborted := false, reserved := [], saved := [], savedSlots := []
                                         pageFaults := [], audit := j.audit, inbox := [], buckets := [], colSeq := [], slotWaits := [] })).bindJob n j
  let d := (d.zeroRange j.ptBase (4096 * j.ptPages)).onJob n (fun j => { j with ptUsed := [0] })
  let d := d.wr .CTX_PT_ROOT 0 n (j.ptBase / 4096 * 4096)
  let d := (d.setFld F.CTX_PT_ROOT_root 0 n (j.ptBase / 4096)).setFld F.CTX_PT_ROOT_valid 0 n 1
  (jobLeaves j).foldl (fun (x : Option Dev) (l : (Nat × Nat × Nat) × Nat) =>
    x.bind (fun d => d.mapPage n l.1.1 l.1.2.1 l.1.2.2 l.2)) (some d)

/-- The registers that the loader writes: the save area, the plans and the detector's state (R288, 12 R431, 16 R585). -/
def loadRegs (d : Dev) (n : Nat) (j : Job) : Dev :=
  let d := d.setFld F.CTX_SAVE_BASE_base 0 n (j.saveBase / 2 ^ 12)
  let d := d.wr .COL_PLAN 0 n ((j.planCount - 1) % 8 * 2 ^ 48 + j.planAddr % 2 ^ 48)
  (List.range 4).foldl (fun d k => d.wr .TEL_SPIKE_STATE 0 (4 * n + k) 0) d

/-- Checks 2 to 11 and 15 of a well-formed image: the job with everything that it is given, or the status of the first check that
fails. -/
def placeJob (d : Dev) (n : Nat) (j : Job) (tables : List (Nat × List (Nat × Nat))) : Except Nat (Job × Dev) := do
  need (decide (1 ≤ n)) sBADARG
  need ((d.ctx n).st == .free) sBUSY
  let some_ := fun {α : Type} (x : Option α) => (match x with | some a => Except.ok a | none => Except.error sREFUSED : Except Nat α)
  let j ← some_ (d.placeCores n j)
  need (tables.all (fun t => queuesFit t.2 (((j.coreItem t.1).map CoreItem.bytes).getD 0))) sREFUSED
  let j ← some_ (d.placeRest n j)
  let j ← some_ (d.giveSlots n j)
  need (j.hoards.all (hoardFits j)) sREFUSED
  let (ok, d) := j.moe.foldl (fun (x : Bool × Dev) m => let (k, d) := x.2.moeFits j m; (x.1 && k, d)) (true, d)
  need ok sREFUSED
  let j ← some_ (d.giveChannels j)
  pure (j, d)

/-- LOAD_JOB's checks and effect (R286, R288): the device as it is loaded, or a status. -/
def loadImage (d : Dev) (n : Nat) (owner event : Nat) (img : List PByte) : Except Nat Dev := do
  let some_ := fun {α : Type} (x : Option α) => (match x with | some a => Except.ok a | none => Except.error sBADARG : Except Nat α)
  let im ← some_ (parseImage img)
  let j := declared im
  need (j.wellFormed im.items) sBADARG
  let tables ← some_ (allSome (j.named.map (fun c => (queueTable img j c).map (fun t => (c, t)))))
  need (((j.channels[event]?).map (fun x => x.role == 1)).getD false) sBADARG
  let (j, d) ← d.placeJob n { j with owner } tables
  let j := { j with eventChannel := ((j.channels[event]?).map ChannelItem.channel).getD 0 }
  let placed := j.sections.foldl (fun d s => d.loadSection img n s) d
  let slots ← placed.plansOk n j ((lastBody im.items 6).isSome)
  let (ok, d) := d.dxOk j
  need ok sBADARG
  placed.layersOk j
  let j := { j with colSlots := slots }
  match d.giveFirmware n j with
  | none => .error sREFUSED
  | some j =>
    match d.buildJob img n j tables with
    | none => .error sREFUSED
    | some d => .ok (d.loadRegs n j)

/-- LOAD_JOB (R520, R286). Before the power-on screen is over no job is accepted (17 R594). -/
def loadJob : Handler := fun d w m =>
  let b := m.body
  let a := field b 0 8
  let n := field b 8 8
  if !d.boot.screened then (.st sBUSY, d)
  else if !d.inWindow w a n then (.st sBADARG, d)
  else
    let (img, d') := d.imageRead a n
    match d'.loadImage m.context w.identity (field b 16 1) img with
    | .error s => (.st s, d)
    | .ok d => (.st sOK, d)

/-! ### Unloading (R289, R678) -/

/-- The units of a context's cores without it: its operations, queues, slots and buffers (R289). -/
def releaseCores (d : Dev) (n : Nat) : Dev :=
  let d := (List.range 4).foldl (fun d c =>
    if (d.core c).ctx = some n then
      (d.onCore c (fun k => { sregs := k.sregs, nextStream := k.nextStream })).onArray (2 * c) (fun a => { groups := a.groups, ramp := a.ramp, flagCount := a.flagCount })
        |>.onArray (2 * c + 1) (fun a => { groups := a.groups, ramp := a.ramp, flagCount := a.flagCount })
    else d) d
  d.onMem (fun m => { m with slots := m.slots.filter (fun e => decide (e.2.owner ≠ n)) })

/-- UNLOAD_JOB's effect. An aborted context's DDR5 sections stay as they are, reserved for it; those of any other are zeroed. -/
def unload (d : Dev) (n : Nat) : Dev :=
  let x := d.ctx n
  let j := d.job n
  let ddr := j.sections.filter (fun s => s.kind == 2)
  let d := if x.aborted then d else ddr.foldl (fun d s => d.zeroRange s.pa s.size) d
  let d := (d.releaseCores n).clearRecord n
  let d := j.channels.foldl (fun d c => d.unbind c.channel) d
  let d := ((d.wr .CTX_PT_ROOT 0 n 0).wr .CTX_SAVE_BASE 0 n 0).wr .COL_PLAN 0 n 0
  d.setCtx n { faultDeadline := x.faultDeadline, preemptDeadline := x.preemptDeadline
               reserved := if x.aborted then ddr.map (fun s => (s.va, s.size, s.pa)) else x.reserved }

/-- UNLOAD_JOB (R520, R289). -/
def unloadJob : Handler := fun d _ m =>
  let st := (d.ctx m.context).st
  if st = .loaded ∨ st = .faulted ∨ st = .preempted then (.st sOK, d.unload m.context) else (.st sNOTSTOPPED, d)

end Dev

end Sys2Proof.Machine
end

