-- ==== Sys2Proof/Machine/Reset.lean ====
section
/-!
DEFINITION. Hang detection, the husk and the recovery of the compute side (18_hang_detection_reset_and_recovery.md R614-R627).
-/

namespace Sys2Proof.Machine

/-- A request that a compute-side target accepted before its fence and that is outstanding when the drain ends (R621): whose it
is, its physical address and length, and whether it writes. -/
inductive Outstanding where
  | master (m addr len : Nat) (write : Bool)
  | remote (port : Nat) (pkt : Packet) (addr len : Nat)
  | host (qp psn addr len : Nat) (write : Bool)
deriving DecidableEq, Repr

/-- The registers that a compute reset returns to their reset values (the reset tables of 03 to 12): error, capture and counter
registers of the compute side's blocks, and the settings that Prois writes for a context. -/
def Reg.husked (r : Reg) : Bool :=
  match r with
  | .DA_ERR_STATUS | .DA_PASS_CNT | .DA_CHK_FAIL_CNT | .DA_CHK_SKIP_CNT | .DA_ARB_CNT | .DA_FLAG_PASS | .DA_RAMP_CNT |
  .DA_RETIRE | .DA_SP_ERR | .DA_SP_CHAFF_CNT | .DA_SP_CHAFF_INFO | .DA_BUF_CE_CNT | .DA_BUF_UE_CNT |
  .GME_ERR_STATUS | .GME_CHAFF_INFO | .GME_OP_CNT | .GME_IDX_CNT | .GME_COAL_CNT | .GME_CHAFF_CNT | .GME_FOREIGN_CNT |
  .GME_RES_CNT | .GME_COMB_MISS_CNT | .GME_DUP_CNT | .VE_ERR_STATUS | .VE_OP_CNT | .VE_ELEM_CNT |
  .CMEM_ERR_STATUS | .SHM_ERR_STATUS | .CMEM_ERR_ADDR | .SHM_ERR_ADDR | .CMEM_CE_CNT | .SHM_CE_CNT | .CMEM_UE_CNT |
  .SHM_UE_CNT | .CMEM_SCRUB_CNT | .SHM_SCRUB_CNT | .CMEM_CONFLICT_CNT | .SHM_CACHE_HIT_CNT | .SHM_CACHE_MISS_CNT |
  .SHM_CACHE_WB_CNT | .DDR_ERR_STATUS | .DDR_ERR_ADDR | .DDR_CH_CE_CNT | .DDR_CH_UE_CNT |
  .FD_ERR_STATUS | .FD_CHAFF_INFO | .FD_QTABLE | .FD_STREAM_CNT | .FD_BYTE_CNT | .FD_STALL_CNT | .FD_MCAST_CNT |
  .FD_CHAFF_CNT | .FD_FOREIGN_CNT | .FD_COAL_CNT | .FD_REFETCH_CNT | .FD_FAULT_CNT |
  .CTX_FLAGS | .CTX_FAULT_CNT | .CTX_PREEMPT_CNT | .WLK_ERR_STATUS | .WLK_CHAFF_INFO | .WLK_AUDIT | .WLK_AUDIT_SEED |
  .WLK_ENTRY_CNT | .WLK_EMPTY_CNT | .WLK_ZF_CNT | .WLK_ROUTE_CNT | .WLK_CHAFF_CNT | .WLK_SKIP_CNT | .WLK_AUDIT_CNT |
  .WLK_MISS_CNT | .HD_ERR_STATUS | .HD_PEAK | .HD_PUSH_CNT | .HD_POP_CNT | .HD_WB_BYTES | .HD_PF_BYTES |
  .HD_HOME_FETCH_CNT | .WQ_CFG | .WQ_ERR_STATUS | .WQ_PUSH_CNT | .WQ_BUBBLE_CNT | .WQ_FULL_CNT | .WQ_FLUSH_CNT |
  .WQ_FROZEN_CNT | .UPD_ERR_STATUS | .UPD_GROUP_CNT | .UPD_ELEM_CNT | .UPD_SKIP_CNT | .UPD_FROZEN_CNT |
  .UPD_RECOMMIT_CNT | .UPD_TORN_CNT | .UPD_NONFINITE_CNT | .COL_ERR_STATUS | .COL_ERR_INFO | .BAR_CNT | .BAR_LATE_CNT |
  .BAR_LAST_REL | .COL_PLAN | .COL_BKT | .COL_OP_CNT | .COL_TX_BYTES | .COL_RX_BYTES | .COL_BUCKET_CNT |
  .COL_FORCED_CNT | .COL_NONFINITE_CNT | .COL_RES_CNT => true
  | _ => false

namespace Dev

/-! ### Progress watchdogs (R614-R616) -/

/-- The waits in which a core's count does not advance (R615). -/
def watchdogHeld (d : Dev) (c : Nat) : Bool :=
  let k := d.core c
  !d.coreRuns c || (d.ctx (d.coreCtx c)).pageFaults.any (fun _ => true)
    || (d.array (2 * c)).arbitrating || (d.array (2 * c + 1)).arbitrating
    || k.held.any (fun o => decide (0x70 ≤ o.opcode) && decide (o.opcode < 0x80))

/-- The watchdog's limit in cycles (R616, R630). -/
def watchdogLimit (d : Dev) : Nat := 2 ^ min 30 (max 20 (d.fld F.RST_WD_CFG_wd_exp))

/-- PROGRESS_WATCHDOG (R616): the count of a core that has made no progress for `count` cycles; at the limit the context on the
core takes a fatal fault with cause 0x0E. -/
def progressWatchdog (d : Dev) (c count : Nat) : Dev :=
  if d.watchdogHeld c then d
  else
    let d := d.onCore c (fun k => { k with wdCount := min count (2 ^ 32 - 1) })
    if d.isSet F.RST_CTRL_wd_en && decide (d.watchdogLimit ≤ count) then
      ((d.raise F.RST_ERR_STATUS_hang).bump F.RST_HANG_CNT_hangs 0 0 1).fatal
        { cause := 0x0E, ctx := d.coreCtx c, engine := 0x10 + c, master := 0x10 + c, opId := (d.core c).opId, pc := (d.core c).pc }
    else d

/-- A context's units still hold a core: they may miss the stop deadline. -/
def holdsCore (d : Dev) (n : Nat) : Bool := (List.range 4).any (fun c => (d.core c).ctx == some n)

/-- STOP_DEADLINE (R617): units of a faulted context have not reached their stop points within stop_us. -/
def stopDeadline (d : Dev) (n : Nat) : Dev :=
  if (d.ctx n).st ≠ .faulted ∨ (d.ctx n).aborted = true ∨ ¬ d.holdsCore n ∨ d.reset.isSome then d
  else
    let d := (d.setCtxState n .stopping).raise F.RST_ERR_STATUS_stop_fail
    if d.isSet F.RST_CTRL_auto_cr ∧ d.boot.computeDue.isNone then { d with boot := { d.boot with computeDue := some (3, some n) } } else d

/-! ### Starting a reset (R618-R621) -/

/-- The cause of a compute reset that is due (R618): one asked for, an uncorrectable tag, or a failed link of the compute side. -/
def resetCause (d : Dev) : Option (Nat × Option Nat) :=
  match d.boot.computeDue with
  | some x => some x
  | none =>
    if (List.range 4).any (fun w => d.isSet F.SHM_ERR_STATUS_tag_fatal w) then some (4, none)
    else if d.isSet F.RST_CTRL_link_cr && (List.range 51).any (fun b => Fabric.computeSide b && d.fld F.FAB_LINK_STATUS_state 0 b == 3) then
      some (5, none)
    else none

/-- RST_STATUS with a state code, for the reset in progress. -/
def setResetState (d : Dev) (code : Nat) (guilty : Option Nat) : Dev :=
  d.wr .RST_STATUS 0 0 (guilty.getD 0 % 16 * 2 ^ 12 + b2n guilty.isSome * 2 ^ 11 + code)

/-- Commands that touch compute and are in progress on some channels complete with COLLATERAL (R627, 14 R529). -/
def abandon (d : Dev) (c : Nat) : Dev :=
  match (d.ring c).msgs with
  | [] => d
  | m :: _ =>
    let x := Msg.ofBytes m
    let i := cmdInfo x.code
    if (d.binding c).valid && decide ((d.binding c).receiver < 4) && (match i with | some i => i.compute | none => false)
        && (d.refusal (d.whoOn c) x).isNone then
      answerUnlisted 16 c ((d.ringTake c).2.respond (d.binding c).reply x sCOLLATERAL [])
    else d

/-- COMPUTE_RESET (R621 step 1): the husk begins. `started` are the channels whose oldest command was in progress. -/
def computeReset (d : Dev) (started : List Nat) : Dev :=
  match d.reset, d.resetCause with
  | none, some (cause, guilty) =>
    if d.boot.runs ≠ .prois then d
    else
      let d := started.eraseDups.foldl (fun d c => if c < 64 then d.abandon c else d) d
      let d := { d with reset := some ({ cause := cause, t0 := d.now, guilty := guilty } : CompReset),
                        screen := d.screen.map (fun (s : Screen) => { s with aborted := true }),
                        boot := { d.boot with computeDue := none } }
      d.setResetState 1 guilty
  | _, _ => d

/-- A DRAIN_ERROR answered (R621 step 3, R622): the effect of the request is undefined, so that what it would have written is
free. -/
def drainError (d : Dev) (o : Outstanding) : Dev :=
  let d := (d.bump F.RST_DRAIN_ERR_CNT_requests 0 0 1).raise F.RST_ERR_STATUS_drain_error
  let spoil := fun (d : Dev) (a n : Nat) =>
    (List.range n).foldl (fun d i =>
      if d.onComputeSide (a + i) then
        let (v, d) := d.draw 8
        d.setCell (a + i) (BitVec.ofNat 8 v)
      else d) d
  match o with
  | .master m a n w => (if w then spoil d a n else d).emit (.response m 2 [])
  | .remote p k a n => (if k.kind = 1 then spoil d a n else d).refuse (some p) k 2
  | .host q psn a n w => (if w then spoil d a n else d).sendNak q psn 2 .operational

/-- DRAIN_TIMEOUT (R621 step 3): 20 µs after the start, with the requests that are outstanding then. -/
def drainTimeout (d : Dev) (os : List Outstanding) : Dev :=
  match d.reset with
  | none => d
  | some r =>
    if r.drained ∨ d.now < r.t0 + 20000 then d
    else
      let d := os.foldl drainError d
      ({ d with reset := some { r with drained := true } }).setResetState 2 r.guilty

/-! ### Recovery (R624, R626) -/

/-- Windows of the compute side's registers: those of the blocks that `husked` names. -/
def computeWindows : List Nat :=
  ((Reg.all.filter (fun r => r.husked)).flatMap (fun r => (List.range r.row.windows).map (fun w => r.row.window + w))).eraseDups

/-- The contexts that a compute reset aborts (R626). -/
def abortedContexts (d : Dev) : List Nat :=
  ((List.range 16).drop 1).filter (fun n => (d.ctx n).st != .free && (d.ctx n).st != .loading)

/-- Those of them that receive a collateral record. -/
def collateralContexts (d : Dev) (guilty : Option Nat) : List Nat :=
  d.abortedContexts.filter (fun n => guilty != some n && (d.ctx n).st != .faulted && (d.ctx n).st != .stopping)

/-- A context after its abort: faulted, with nothing of it on the compute side. -/
def abortContext (d : Dev) (n : Nat) : Dev :=
  d.onCtx n (fun x => { x with st := .faulted, aborted := true, saved := [], savedSlots := [], pageFaults := [], colSeq := []
                               buckets := [], stepRecord := 0, inbox := [], slotWaits := [] })

/-- Core and shared memory written with zeros, but for the fault ring (R624 step 4, 06 R241). -/
def zeroSram (d : Dev) : Dev :=
  let base := d.fld F.CTX_RING_BASE_base * 2 ^ 14
  let ring := (List.range 16384).map (fun i => d.cell (base + i))
  let d := d.zeroRange sharedBase (2 ^ 32)
  let d := (List.range 4).foldl (fun d c => d.zeroRange (coreMemBase c) 0x4000000) d
  let d := d.onMem (fun m => { m with slots := [], cache := [], tagErrs := [], scrubAt := [] })
  if sharedBase ≤ base ∧ base + 16384 ≤ sharedBase + 2 ^ 32 then d.pokeRange base ring else d

/-- RESET_DONE (14 R524). -/
def resetDoneBody (kind us mask : Nat) : List Byte := leBytes 1 kind ++ leBytes 4 (min us (2 ^ 32 - 1)) ++ leBytes 2 mask

/-- Arrays recorded as retired, retired again by Prois (03 R127, R128). -/
def retireRecorded (d : Dev) : Dev := (d.health.retired.map (fun e => e.1)).foldl (fun d a => d.retire a 2) d

/-- Steps 2 to 6 of R624. -/
def recover (d : Dev) (r : CompReset) (failed : List Nat) : Dev :=
  let d := computeWindows.foldl (fun d w => d.readTotals w) d
  let all := d.abortedContexts
  let coll := d.collateralContexts r.guilty
  let mask := coll.foldl (fun a n => a + 2 ^ n) 0
  let d := coll.foldl (fun d n => d.collateral n r.guilty) d
  let d := all.foldl (fun d n => d.abortContext n) d
  let d := d.flushCache.zeroSram
  let d := { d with arrays := [], cores := [], regs := d.regs.filter (fun e =>
    match Reg.ofKey e.1 with | some (x, _, _) => !x.husked | none => true) }
  let d := (List.range 51).foldl (fun d b =>
    if Fabric.computeSide b then (if failed.contains b then d.linkFail b else d.linkTrained b) else d) d
  let d := d.retireRecorded
  let us := (d.now - r.t0) / 1000
  let d := d.wr .RST_LAST 0 0 (min us (2 ^ 32 - 1) * 2 ^ 32 + mask * 2 ^ 16 + r.guilty.getD 0 % 16 * 2 ^ 12 + b2n r.guilty.isSome * 2 ^ 11
    + r.cause * 2 ^ 4)
  let d := (d.bump F.RST_CR_CNT_resets 0 0 1).raise F.RST_ERR_STATUS_compute_reset
  let d := { d with reset := none }.wr .RST_STATUS 0 0 0
  let d := d.deviceEvent 0x8007 (resetDoneBody 0 us mask)
  let d := all.foldl (fun d n => d.contextEvent n 0x8003 (d.keptRecord n)) d
  match d.screen with
  | some s => if s.aborted then d.finishScreen s 3 else d
  | none => d

/-- COMPUTE_RECOVERY (R624), once the drain is over: `failed` are links of the compute side that do not train again. -/
def computeRecovery (d : Dev) (l : Links) (failed : List Nat) : Dev × Links :=
  match d.reset with
  | none => (d, l)
  | some r => if r.drained then (d.recover r failed, Fabric.clearCompute l) else (d, l)

/-! ### Asking for a reset (R618-R620) -/

/-- RESET_DEVICE (14 R520, R618, R619): a compute reset or a chip reset is due once it is answered. -/
def resetDevice : Handler := fun d w m =>
  let keep := field m.body 0 1
  if 2 ≤ m.arg0 ∨ 2 ≤ keep then (.st sBADARG, d)
  else if m.arg0 = 1 then
    (.st sOK, { d with boot := { d.boot with due := (d.boot.due).or (some (1, keep == 1)) } })
  else if d.reset.isSome ∨ d.boot.computeDue.isSome then (.st sOK, d)
  else (.st sOK, { d with boot := { d.boot with computeDue := some (if w.privilege = 1 then 2 else 1, none) } })

/-- FIRMWARE_WATCHDOG (R620): Prois has not written RST_CP_KICK for cp_wd_ms. -/
def firmwareWatchdog (d : Dev) : Dev :=
  if d.boot.runs ≠ .none ∧ d.isSet F.RST_CTRL_cp_wd_en ∧ d.boot.kickAt + 1000000 * max 1 (d.fld F.RST_WD_CFG_cp_wd_ms) ≤ d.now then
    { d with boot := { d.boot with due := some (2, false) } }
  else d

end Dev

end Sys2Proof.Machine
end

