-- ==== Sys2Proof/Syntax.lean ====
section
/-!
DEFINITION. The commands that reach the device, one constructor for each row of the operation table. Operand fields are
what the command carries; what the device holds already (an operation's word, a queued message) is not repeated in it.
-/

namespace Sys2Proof

/-- The commands, one for each row of the operation table. -/
inductive Instr where
  /-- ALU (R298): sequencer instruction that writes to register d the result of a register-register operation chosen by f. -/
  | alu (c : Fin 4) (w : Machine.SeqWord)
  /-- ALUI (R298): sequencer instruction that performs an ALU operation with the sign-extended immediate in place of register b. -/
  | alui (c : Fin 4) (w : Machine.SeqWord)
  /-- LIH (R298): sequencer instruction that loads the immediate into the upper 32 bits of register d. -/
  | lih (c : Fin 4) (w : Machine.SeqWord)
  /-- LD (R298): sequencer load of 1, 2, 4 or 8 bytes from core memory through the narrow view. -/
  | ld (c : Fin 4) (w : Machine.SeqWord)
  /-- ST (R298): sequencer store of 1, 2, 4 or 8 bytes to core memory through the narrow view. -/
  | st (c : Fin 4) (w : Machine.SeqWord)
  /-- BR (R298): conditional branch that compares register a with register b. -/
  | br (c : Fin 4) (w : Machine.SeqWord)
  /-- JAL (R298): jump relative to pc that writes the link register. -/
  | jal (c : Fin 4) (w : Machine.SeqWord)
  /-- JALR (R298): jump to a register plus offset that writes the link register. -/
  | jalr (c : Fin 4) (w : Machine.SeqWord)
  /-- ISSUE (R299): checks the opcode family of an operation word and sends the word to a task list or to the fetch engine. -/
  | issue (c : Fin 4) (w : Machine.SeqWord)
  /-- CSRR (R300): reads a control and status value such as the core number, the time base or the flag word. -/
  | csrr (c : Fin 4) (w : Machine.SeqWord)
  /-- CSRC (R298): clears bits of the context's arithmetic flag word. -/
  | csrc (c : Fin 4) (w : Machine.SeqWord)
  /-- HALT (R298): ends the core's program. -/
  | halt (c : Fin 4) (w : Machine.SeqWord)
  /-- CONTEXT_DONE (R303): once every core has halted and every operation has completed, the context returns to loaded and a completion event is posted. -/
  | contextDone (n : Fin 16)
  /-- DA_TILE (R97): loads a tile image from a queue into a tile slot, drops chaff and forms the check quantities. -/
  | daTile (c : Fin 4) (env : Machine.Env)
  /-- TILE_SHADOW_COPY (R89): copies the tile of the next queued pass from its slot into the shadow registers over 128 cycles. -/
  | tileShadowCopy (a : Fin 8)
  /-- DA_PASS (R98): once its tile and block are present, runs one pass of streamed rows against the stationary tile and accumulates into a bank. -/
  | daPass (c : Fin 4) (env : Machine.Env)
  /-- START_RAMP (R108): ungates the column groups of an array one every 6 cycles before a pass. -/
  | startRamp (a : Fin 8)
  /-- STOP_RAMP (R109): after 16 idle cycles, gates the column groups one every 6 cycles. -/
  | stopRamp (a : Fin 8) (groups : Fin 9)
  /-- BARRIER_STAGGER_START (R110): A barrier-gated pass starts 8 × a cycles after its barrier release. -/
  | barrierStaggerStart (a : Fin 8)
  /-- DA_EXPORT (R100): reads bank rows, rounds or exports them raw, and writes them as one unit into a core-memory queue. -/
  | daExport (c : Fin 4) (env : Machine.Env)
  /-- DA_IMPORT (R101): reads raw accumulators from a queue into a bank, replacing or combining its contents. -/
  | daImport (c : Fin 4) (env : Machine.Env)
  /-- DA_SYNC (R102): completes when every earlier operation of the selected arrays has completed. -/
  | daSync (c : Fin 4) (env : Machine.Env)
  /-- GATHER (R164): writes output rows from the table rows that an index stream resolves to. -/
  | gather (c : Fin 4) (p : Machine.Pick) (env : Machine.Env)
  /-- SCATTER (R165): writes source rows to the destination rows that an index stream resolves to. -/
  | scatter (c : Fin 4) (p : Machine.Pick) (env : Machine.Env)
  /-- SCATTER_ADD (R166): adds source rows into destination rows in increasing stream position. -/
  | scatterAdd (c : Fin 4) (p : Machine.Pick) (env : Machine.Env)
  /-- TOP_K (R167): selects the k first elements of each score row in a fixed total order. -/
  | topK (c : Fin 4) (p : Machine.Pick) (env : Machine.Env)
  /-- SEG_MERGE (R172): sums the rows of each segment in fixed chunk order. -/
  | segMerge (c : Fin 4) (p : Machine.Pick) (env : Machine.Env)
  /-- SPMM_CSR (R173): sparse CSR matrix times dense operand, with fixed chunk order. -/
  | spmmCsr (c : Fin 4) (p : Machine.Pick) (env : Machine.Env)
  /-- SPMM_BSR (R174): sparse block-row matrix times dense operand. -/
  | spmmBsr (c : Fin 4) (p : Machine.Pick) (env : Machine.Env)
  /-- COMBINE (R175): places expert output rows by tag, then sums each token's rows in k-rank order. -/
  | combine (c : Fin 4) (p : Machine.Pick) (env : Machine.Env)
  /-- GME_SYNC (R158): completes when the earlier operations of the named engines have completed and their writes are visible. -/
  | gmeSync (c : Fin 4) (p : Machine.Pick) (env : Machine.Env)
  /-- VE_MAP (R190): applies an element-wise function and rounds each result once. -/
  | veMap (c : Fin 4) (p : Machine.Pick) (env : Machine.Env)
  /-- VE_ROWRED (R191): reduces each row to one value in a fixed order. -/
  | veRowred (c : Fin 4) (p : Machine.Pick) (env : Machine.Env)
  /-- VE_SYNC (R188): completes when the earlier vector-engine operations have completed and their writes are visible. -/
  | veSync (c : Fin 4) (p : Machine.Pick) (env : Machine.Env)
  /-- ST_LOAD (R265): streams a tensor into a queue one unit per slot, optionally driven by an index stream. -/
  | stLoad (c : Fin 4) (p : Machine.Pick) (env : Machine.Env)
  /-- ST_STORE (R265): streams a queue's units into a destination tensor. -/
  | stStore (c : Fin 4) (p : Machine.Pick) (env : Machine.Env)
  /-- ST_COPY (R274): copies one view to another through the transposer. -/
  | stCopy (c : Fin 4) (p : Machine.Pick) (env : Machine.Env)
  /-- ST_TILE (R268): assembles tile images and multicasts them, or chains them, into the queues of the named cores. -/
  | stTile (c : Fin 4) (p : Machine.Pick) (env : Machine.Env)
  /-- ST_MAXSCAN (R267): writes each row's exponent maximum, optionally combined with the stored value. -/
  | stMaxscan (c : Fin 4) (p : Machine.Pick) (env : Machine.Env)
  /-- Q_DRAIN (R264): waits until the head slot of a queue is full, then drains it. -/
  | qDrain (c : Fin 4)
  /-- EV_SIGNAL (R251): increments an event counter once the earlier operations have completed. -/
  | evSignal (c : Fin 4) (fetch : Bool)
  /-- EV_WAIT (R251): waits until an event counter reaches a value. -/
  | evWait (c : Fin 4) (fetch : Bool)
  /-- ROUTE (R323): forms per-expert counts, dispatch tags in dispatch order, slot bases and statistics. -/
  | route (c : Fin 4) (p : Machine.Pick) (env : Machine.Env)
  /-- WALK (R341): steps through a grouped-operation table and issues patched body units per entry and chunk. -/
  | walk (c : Fin 4) (p : Machine.Pick) (env : Machine.Env)
  /-- HD_PUSH (R368): allocates a frame in the home ring and copies the parts with their maxima into it. -/
  | hdPush (c : Fin 4) (p : Machine.Pick) (env : Machine.Env)
  /-- HD_FETCH (R369): makes a frame readable, pins it and writes its descriptors. -/
  | hdFetch (c : Fin 4) (p : Machine.Pick) (env : Machine.Env)
  /-- HD_POP (R371): checks the tag and removes the top frame of a slot. -/
  | hdPop (c : Fin 4) (p : Machine.Pick) (env : Machine.Env)
  /-- HD_TURN (R372): marks a slot as turned, which starts its prefetch. -/
  | hdTurn (c : Fin 4) (p : Machine.Pick) (env : Machine.Env)
  /-- HD_DROP (R371): removes every frame of a slot, top first. -/
  | hdDrop (c : Fin 4) (p : Machine.Pick) (env : Machine.Env)
  /-- HOARD_WRITE_BACK (R378): writes back the oldest unpinned unclean copy while free space is below wb_ahead. -/
  | hoardWriteBack (c : Fin 4) (env : Machine.Env)
  /-- HOARD_PREFETCH (R379): copies home-only frames of turned slots into the resident region. -/
  | hoardPrefetch (c : Fin 4) (env : Machine.Env)
  /-- WQ_PUSH (R383): queues a W entry and pins its frames, or drops it for a frozen group. -/
  | wqPush (c : Fin 4) (p : Machine.Pick) (env : Machine.Env)
  /-- W_BUBBLE_ISSUE (R384): after bubble_cycles idle cycles, issues the oldest W entry. -/
  | wBubbleIssue (c : Fin 4) (env : Machine.Env)
  /-- WQ_ENTRY_COMPLETE (R385): once an entry's operations have completed, releases its pins and reports its bucket bytes. -/
  | wqEntryComplete (c : Fin 4)
  /-- WQ_FLUSH (R386): issues every queued entry and waits for all of them. -/
  | wqFlush (c : Fin 4) (p : Machine.Pick) (env : Machine.Env)
  /-- MB_POST (R512): A core sends a message from its area to a mailbox channel. -/
  | mbPost (c : Fin 4) (p : Machine.Pick)
  /-- MB_TAKE (R513): A core takes the oldest message of a channel into its area. -/
  | mbTake (c : Fin 4) (p : Machine.Pick)
  /-- UPD_NORM (R409): pass 1: sums the squared gradients per scale entry and sets the norm-done byte. -/
  | updNorm (c : Fin 4) (p : Machine.Pick) (env : Machine.Env)
  /-- UPD_NORMRED (R410): forms the global norm, the clip factor and the outcome across the norm group. -/
  | updNormred (c : Fin 4) (p : Machine.Pick) (env : Machine.Env)
  /-- UPD_APPLY (R422): pass 2: updates each group of the range and writes its commit word. -/
  | updApply (c : Fin 4) (p : Machine.Pick) (env : Machine.Env)
  /-- COL_EXPMAX (R440): exponent-max all-reduce with an OR of the flags. -/
  | colExpmax (c : Fin 4) (p : Machine.Pick) (env : Machine.Env)
  /-- COL_ALLREDUCE (R441): all-reduce of kind 0, 1, 2 or 3 at a shared scale. -/
  | colAllreduce (c : Fin 4) (p : Machine.Pick) (env : Machine.Env)
  /-- COL_REDSCAT (R450): reduce-scatter into the shards of a distributed tensor. -/
  | colRedscat (c : Fin 4) (p : Machine.Pick) (env : Machine.Env)
  /-- COL_ALLGATHER (R450): gathers a distributed tensor bit for bit. -/
  | colAllgather (c : Fin 4) (p : Machine.Pick) (env : Machine.Env)
  /-- COL_ALLTOALL (R452): one direction of the expert all-to-all, with a count phase and a data phase. -/
  | colAlltoall (c : Fin 4) (p : Machine.Pick) (env : Machine.Env)
  /-- COL_PERMUTE (R453): re-shards a distributed tensor and swaps its select word. -/
  | colPermute (c : Fin 4) (p : Machine.Pick) (env : Machine.Env)
  /-- COL_BARRIER (R456): sends the arrival once earlier work has completed, then waits for the release. -/
  | colBarrier (c : Fin 4) (p : Machine.Pick) (env : Machine.Env)
  /-- COL_GRADSTEP (R446): arms the gradient buckets for one step. -/
  | colGradstep (c : Fin 4) (p : Machine.Pick) (env : Machine.Env)
  /-- COL_GRADWAIT (R449): forces the remaining buckets and completes when every bucket is reduced. -/
  | colGradwait (c : Fin 4) (p : Machine.Pick) (env : Machine.Env)
  /-- COL_FILL (R446): reports gradient bytes of a bucket. -/
  | colFill (c : Fin 4) (p : Machine.Pick) (env : Machine.Env)
  /-- BUCKET_COMPLETE (R448): A finished bucket writes its scale-table entry and ORs its flag. -/
  | bucketComplete (n : Fin 16) (b : Nat) (env : Machine.Env)
  /-- COL_REMAP (R455): switches the context to another declared plan. -/
  | colRemap (c : Fin 4) (p : Machine.Pick) (env : Machine.Env)
  /-- COLLECTIVE_MESSAGE (R438): matches an arriving collective message by stream and sequence number, or holds it. -/
  | collectiveMessage (n : Fin 16) (m : Machine.ColMsg)
  /-- BARRIER_RELEASE (R456): the release arrives and frees the barrier. -/
  | barrierRelease (n : Fin 16) (group seq : Nat) (t : Option Nat)
  /-- TIMED_RELEASE (R457): the device releases when its time base reaches T. -/
  | timedRelease (n : Fin 16) (group seq : Nat)
  /-- ABORT_NOTICE (R459): A peer's abort notice faults the collective with cause 0x13. -/
  | abortNotice (n : Fin 16) (group stream seq source : Nat)
  /-- PEER_TIMEOUT (R459): no awaited message arrives within the peer timeout. -/
  | peerTimeout (n : Fin 16) (group stream seq source : Nat)
  /-- SCR_YIELD (R597): yield point at which a quick-screen slice may run on the core's arrays. -/
  | scrYield (c : Fin 4) (fails : List Machine.FailedTest)
  /-- FILL_ADVANCE (R208): raises a slot's fill count and sets full at the slot length. -/
  | fillAdvance (rq : Machine.Req) (c : Fin 4) (q : Fin 256) (slot upTo : Nat) (poison accepted slotError : Bool)
  /-- DRAIN (R208): resets a slot's fill count and clears full and poison. -/
  | drain (rq : Machine.Req) (c : Fin 4) (q : Fin 256) (slot : Nat) (accepted : Bool)
  /-- MEMORY_READ (R198): A read request served at a memory level with correction, poison and cache handling. -/
  | memoryRead (rq : Machine.Req) (addr : BitVec 64) (len : Nat) (accepted : Bool)
  /-- MEMORY_WRITE (R225): A write request, a read-modify-write when partial, that may clear or set poison. -/
  | memoryWrite (rq : Machine.Req) (addr : BitVec 64) (bs : List Machine.PByte) (accepted : Bool)
  /-- SCRUB (R226): reads, corrects and rewrites one SRAM line in address order. -/
  | scrub (b : Machine.Dev.ScrubBlock)
  /-- PATROL (R233): reads every DDR5 codeword once per patrol period with correction. -/
  | patrol (n : Fin 8)
  /-- PAGE_FAULT_RESUME (R309): once the page is present, the stopped unit continues from its stop point. -/
  | pageFaultResume (n : Fin 16) (va : BitVec 48)
  /-- FAULT_DEADLINE (R309): an unanswered page fault becomes fatal when the fault deadline expires. -/
  | faultDeadline (n : Fin 16) (va : BitVec 48)
  /-- PREEMPT_DEADLINE (R311): A pre-emption whose units miss their stop points returns TIMEOUT. -/
  | preemptDeadline (c : Fin 64)
  /-- FLIT_RECEIVE (R31): checks the parity of a fabric flit and sends a negative acknowledgement on failure. -/
  | flitReceive (b : Fin 51) (back : Bool) (words : List Nat) (errs : List (Nat × Nat))
  /-- FABRIC_NAK (R31): the sender resends from the named flit onwards. -/
  | fabricNak (b : Fin 51) (back : Bool) (seq : Nat)
  /-- FABRIC_ACK (R32): releases acknowledged flits from the replay buffer. -/
  | fabricAck (b : Fin 51) (back : Bool) (seq : Nat)
  /-- FABRIC_TRAINING (R42): fabric links train in order after chip reset. -/
  | fabricTraining (b : Fin 51)
  /-- FABRIC_TRAIN_TIMEOUT (R43): A link not up within 200 µs is set to failed. -/
  | fabricTrainTimeout (b : Fin 51)
  /-- PORT_TRAINING (R467): A Rhanak port runs its training states up to port up. -/
  | portTraining (p : Fin 24) (lanes : BitVec 4) (nbId : BitVec 16) (nbValid : Bool) (nbPort : Fin 24)
  /-- TRAINING_RETRY (R467): A failed port restarts training every 100 ms. -/
  | trainingRetry (p : Fin 24)
  /-- PORT_DOWN (R468): A port goes down when no good flit passes for down_time. -/
  | portDown (p : Fin 24)
  /-- LINK_FLIT_RECEIVE (R469): decodes FEC and checks the CRC of a link flit, requesting a replay on failure. -/
  | linkFlitReceive (p : Fin 24) (flit : List Byte) (errs : List (Nat × Nat)) (note : Machine.Dev.LinkNote)
  /-- LINK_NAK (R474): the sender resends from the negatively acknowledged flit. -/
  | linkNak (p : Fin 24) (seq : BitVec 12)
  /-- FORWARD_ACK (R475): releases forward-acknowledged packets from the hold buffer. -/
  | forwardAck (p : Fin 24) (cls : Fin 2) (seq : BitVec 24)
  /-- PACKET_ARRIVAL (R480): chooses the egress of a packet at its point of entry, or decodes it locally. -/
  | packetArrival (p : Fin 24) (accepted : Bool)
  /-- REROUTED_PACKET (R489): filters duplicate rerouted packets on a skip port and forwards the rest. -/
  | reroutedPacket (p : Fin 24) (accepted : Bool)
  /-- LEAVING_NOTICE (R468): A neighbour's leaving notice takes the port down at once. -/
  | leavingNotice (p : Fin 24)
  /-- E2E_TIMEOUT (R483): A request without a response within e2e_timeout is answered PATH_ERR. -/
  | e2eTimeout (tag : Nat)
  /-- SYNC_EXCHANGE (R494): sends a sync flit on each up port every 1 ms. -/
  | syncExchange (fraction : Fin 8)
  /-- SYNC_FLIT (R495): A received sync flit updates the link delay, offset and time parent. -/
  | syncFlit (p : Fin 24) (a : Machine.Announce) (sent theirs : Nat) (fraction : Fin 8)
  /-- ROOT_TIMEOUT (R495): with no locked neighbour within 10 ms, the device announces itself as root. -/
  | rootTimeout
  /-- MAILBOX_ARRIVAL (R506): accepts or drops a message on a channel by its binding. -/
  | mailboxArrival (sender : BitVec 8) (c : Fin 64) (port : Machine.MbxPort) (bs : List Byte)
  /-- MBX_CMD_POST (R528): A control processor posts MBX_SEND to a channel. -/
  | mbxCmdPost (p : Fin 4) (c : Fin 64)
  /-- MBX_CMD_TAKE (R528): A control processor takes the oldest message into MBX_RECV. -/
  | mbxCmdTake (p : Fin 4) (c : Fin 64)
  /-- MBX_DB_SET (R515): sets doorbell bits by register write. -/
  | mbxDbSet (p : Fin 4) (v : BitVec 32)
  /-- RETIRE_CMD (R126): retires an array with reason 2 by register write. -/
  | retireCmd (a : Fin 8)
  /-- TLB_INV (R314): invalidates the translation caches of a context. -/
  | tlbInv (n : Fin 16)
  /-- FREC_CLR (R314): clears the CTX_FREC of a context. -/
  | frecClr (n : Fin 16)
  /-- RETRAIN (R468): takes a port down and retrains it by register write. -/
  | retrain (p : Fin 24)
  /-- CP_KICK (R620): restarts the firmware watchdog. -/
  | cpKick
  /-- PWR_FREQ_WRITE (R565): writes the loop step and duty and restarts the loop watchdog. -/
  | pwrFreqWrite (step : BitVec 6) (duty : BitVec 4)
  /-- ROUTE_BANK_WRITE (R481): selects the route bank in all seven copies. -/
  | routeBankWrite (b : Fin 2)
  /-- ROUTE_ENTRY_WRITE (R479): writes a route entry to XD and every link die. -/
  | routeEntryWrite (entry : Fin 131072) (v : BitVec 32)
  /-- REGISTER_WRITE (R13): writes a register field without behaviour of its own, by its access code. -/
  | registerWrite (m : Fin 4) (key : BitVec 32) (v : BitVec 64)
  /-- GET_INFO (R520): returns part, firmware, device ID and function states. -/
  | getInfo (c : Fin 64)
  /-- GET_STATUS (R520): returns context states, core use and INT_SUM. -/
  | getStatus (c : Fin 64)
  /-- GET_COUNTERS (R609): returns the Prois totals of one register window. -/
  | getCounters (c : Fin 64)
  /-- GET_TELEMETRY (R586): returns a telemetry set. -/
  | getTelemetry (c : Fin 64)
  /-- GET_FAULT_RECORD (R306): returns a context's first fatal record. -/
  | getFaultRecord (c : Fin 64)
  /-- GET_FLAGS (R520): returns and clears bits of CTX_FLAGS. -/
  | getFlags (c : Fin 64)
  /-- ACK_ALERT (R526): clears INT_FW bits. -/
  | ackAlert (c : Fin 64)
  /-- SET_EVENT_MASK (R520): enables events on the reply channel. -/
  | setEventMask (c : Fin 64)
  /-- STOP_FUNCTION (R523): stops a function, pre-empting contexts when force is set. -/
  | stopFunction (c : Fin 64) (missed : List Nat) (fails : List Machine.FailedTest)
  /-- START_FUNCTION (R523): restarts a stopped function. -/
  | startFunction (c : Fin 64)
  /-- RESET_DEVICE (R619): starts a compute reset or a commanded chip reset. -/
  | resetDevice (c : Fin 64)
  /-- LOAD_JOB (R286): checks a job image's bounds, then places, zeroes and maps it in a context. -/
  | loadJob (c : Fin 64)
  /-- UNLOAD_JOB (R289): frees every resource of a context. -/
  | unloadJob (c : Fin 64)
  /-- START_CONTEXT (R289): starts the programs on every named core. -/
  | startContext (c : Fin 64)
  /-- PREEMPT_CONTEXT (R311): stops the units at their stop points and saves the context state. -/
  | preemptContext (c : Fin 64)
  /-- RESUME_CONTEXT (R312): restores the saved state and resumes the context. -/
  | resumeContext (c : Fin 64)
  /-- KILL_CONTEXT (R309): makes the context fatal with cause 0x14. -/
  | killContext (c : Fin 64)
  /-- MAP_PAGES (R676): writes leaves for the named pages, splitting or merging tables. -/
  | mapPages (c : Fin 64)
  /-- SET_CONTEXT_LIMITS (R520): sets the fault or pre-emption deadline of a context. -/
  | setContextLimits (c : Fin 64)
  /-- SET_AUDIT (R348): sets the audit rate, threshold, makeup and seed. -/
  | setAudit (c : Fin 64)
  /-- SET_CACHE_SPLIT (R220): writes back and invalidates the cache, then changes the split. -/
  | setCacheSplit (c : Fin 64)
  /-- SET_POWER_CAP (R563): sets the power cap live. -/
  | setPowerCap (c : Fin 64)
  /-- RUN_SCREEN (R594): runs a quick or full screen and returns its result. -/
  | runScreen (c : Fin 64) (fails : List Machine.FailedTest) (took : Nat)
  /-- LOAD_TEST_PACK (R607): verifies and installs a test pack. -/
  | loadTestPack (c : Fin 64)
  /-- SET_ROUTES (R520): writes route entries of a bank. -/
  | setRoutes (c : Fin 64)
  /-- SWAP_ROUTE_BANK (R481): selects the other route bank. -/
  | swapRouteBank (c : Fin 64)
  /-- SET_ROUTE_MODE (R478): selects strap routing or the route table. -/
  | setRouteMode (c : Fin 64)
  /-- SET_PORT (R520): sets a port's role, x2_allow and enable. -/
  | setPort (c : Fin 64)
  /-- RETURN_PORT (R493): returns a standby ring port to use once the skip port has drained. -/
  | returnPort (c : Fin 64)
  /-- SET_LINK_PARAMS (R520): sets fo_en, root_en, down_time and e2e_timeout. -/
  | setLinkParams (c : Fin 64)
  /-- BIND_CHANNEL (R520): binds mailbox channels 8–63. -/
  | bindChannel (c : Fin 64)
  /-- SET_ETH_CONFIG (R553): sets the Ethernet settings, which apply at START_FUNCTION. -/
  | setEthConfig (c : Fin 64)
  /-- BIND_HOST (R541): binds or unbinds a queue pair to a host identity. -/
  | bindHost (c : Fin 64)
  /-- GET_QUOTE (R642): returns a signed attestation quote in fragments. -/
  | getQuote (c : Fin 64)
  /-- UPDATE_IMAGE (R635): verifies and writes a Seed image to a slot, optionally activating it. -/
  | updateImage (c : Fin 64) (written : Bool)
  /-- UPDATE_CONFIG (R639): verifies and writes a new configuration record. -/
  | updateConfig (c : Fin 64) (written : Bool)
  /-- ETH_FRAME_RECEIVE (R531): accepts or drops a received Ethernet frame and dispatches it by protocol. -/
  | ethFrameReceive (f : Machine.Frame)
  /-- ETH_LINK_DOWN (R532): loss of alignment for 1 ms takes the link down. -/
  | ethLinkDown (lanes : BitVec 8)
  /-- PFC_FRAME (R536): obeys a received PFC frame for an enabled priority. -/
  | pfcFrame (pause release : BitVec 8)
  /-- CNP_RECEIVE (R537): halves the queue pair's send rate. -/
  | cnpReceive (q : Fin 1024)
  /-- RATE_RECOVERY (R537): raises a queue pair's rate after each interval without notification. -/
  | rateRecovery (q : Fin 1024)
  /-- RDMA_WRITE (R539): executes a host RDMA WRITE packet into device memory. -/
  | rdmaWrite (q : Fin 1024) (p : Machine.Rdma)
  /-- RDMA_READ (R543): executes a host RDMA READ and returns the data or a NAK. -/
  | rdmaRead (q : Fin 1024) (p : Machine.Rdma) (served : Nat)
  /-- RDMA_SEND (R547): hands the Prois message of a SEND to the mailbox unit. -/
  | rdmaSend (q : Fin 1024) (psn : BitVec 24) (bs : List Byte)
  /-- WRITE_WITH_IMMEDIATE (R549): completes the write, then delivers the immediate to its channel. -/
  | writeWithImmediate (q : Fin 1024) (p : Machine.Rdma) (imm : BitVec 32)
  /-- ACK_COALESCE (R539): sends a coalesced acknowledgement per 8 packets or 4 µs. -/
  | ackCoalesce (q : Fin 1024)
  /-- HOST_MESSAGE_SEND (R548): sends the oldest message of a host channel once the previous SEND is acknowledged. -/
  | hostMessageSend (c : Fin 64)
  /-- SEND_RETRY_TIMEOUT (R546): A device SEND retries after its timeout and enters error when its retries run out. -/
  | sendRetryTimeout (q : Fin 1024) (c : Fin 64)
  /-- LLDP_SEND (R533): sends one LLDPDU every 30 s. -/
  | lldpSend
  /-- MANAGEMENT_DATAGRAM (R550): executes one command from a UDP datagram as an observer and answers it. -/
  | managementDatagram (peer : Nat) (v6 : Bool) (port : BitVec 16) (payload : List Byte)
  /-- POWER_WINDOW_END (R560): forms the power and current estimate at the end of each 4 µs window. -/
  | powerWindowEnd (w : Machine.Window)
  /-- LOOP_WATCHDOG (R567): without a PWR_FREQ write for 100 µs, forces f_min and duty_max. -/
  | loopWatchdog
  /-- PROCHOT_ASSERT (R577): PROCHOT_N low forces minimum clock. -/
  | prochotAssert
  /-- PROCHOT_RELEASE (R577): lifts the PROCHOT limit. -/
  | prochotRelease
  /-- DROOP_EVENT (R573): A supply below threshold halves the island clock. -/
  | droopEvent (island : Nat)
  /-- DROOP_END (R573): restores the full clock once the supply has recovered for 32 cycles. -/
  | droopEnd (island : Nat)
  /-- THERMAL_SAMPLE (R575): samples the junction sensors every 20 µs and adjusts the thermal limit and flags. -/
  | thermalSample (rs : List (Option Int))
  /-- DDR_SENSOR_READ (R579): reads module sensors every 1 ms and applies refresh doubling and command throttling. -/
  | ddrSensorRead (rs : List (Option Int))
  /-- THERMTRIP (R578): two samples at 115 °C or more stop the compute clocks and assert THERMTRIP_N. -/
  | thermtrip
  /-- AUTO_SCREEN_TIMER (R595): starts a quick screen every auto_hours hours. -/
  | autoScreenTimer (fails : List Machine.FailedTest)
  /-- SCREEN_DEADLINE (R602): ends a screen as incomplete or failed at its deadline. -/
  | screenDeadline
  /-- POWER_ON_SCREEN (R594): prois runs the full screen and the power-on checks after chip reset. -/
  | powerOnScreen (fails : List Machine.FailedTest) (took : Nat)
  /-- PROGRESS_WATCHDOG (R616): A core without progress for 2^wd_exp cycles faults its context with cause 0x0E. -/
  | progressWatchdog (c : Fin 4) (count : Nat)
  /-- STOP_DEADLINE (R617): units that miss stop_us set stop_fail and may start a compute reset. -/
  | stopDeadline (n : Fin 16)
  /-- COMPUTE_RESET (R621): husks the compute side: fences the targets and drains accepted requests. -/
  | computeReset (started : List Nat)
  /-- DRAIN_TIMEOUT (R621): at t0 + 20 µs, answers outstanding requests with DRAIN_ERROR. -/
  | drainTimeout (os : List Machine.Outstanding)
  /-- COMPUTE_RECOVERY (R624): records, resets, retrains, zeroes and restores the compute side, then sends RESET_DONE. -/
  | computeRecovery (failed : List Nat)
  /-- CHIP_RESET (R625): resets every block, after leaving notices when commanded. -/
  | chipReset (ms : List Machine.Module)
  /-- FIRMWARE_WATCHDOG (R620): without RST_CP_KICK within cp_wd_ms, starts a chip reset of kind 0x2. -/
  | firmwareWatchdog
  /-- RESET_N_ASSERT (R657): RESET_N low starts a chip reset and floats the outputs. -/
  | resetNAssert
  /-- RESET_N_RELEASE (R633): on release, samples the straps and runs the mask ROM boot. -/
  | resetNRelease (fwd : BitVec 12) (smba : BitVec 3) (testEn : Bool) (ms : List Machine.Module)
  /-- SUPPLY_LOSS (R656): A rail leaving its band loses DDR5 and restarts the time base. -/
  | supplyLoss (rail : Fin 6)
  /-- DBG_TOKEN (R644): verifies a shifted token and unlocks debug. -/
  | dbgToken (token : List Byte)
  /-- JTAG_DEBUG_ACCESS (R643): A debug instruction reaches register space as master 0x03. -/
  | jtagDebugAccess (key : BitVec 32) (write : Option (BitVec 64))
  /-- SMB_MSG_START (R664): block write 0x10 starts a message. -/
  | smbMsgStart (bs : List Byte) (pec : Option Bool)
  /-- SMB_MSG_APPEND (R664): block write 0x11 appends bytes 128–255 and delivers a complete message. -/
  | smbMsgAppend (bs : List Byte) (pec : Option Bool)
  /-- SMB_MSG_TAKE (R664): block read 0x20 takes the oldest message of channel 1. -/
  | smbMsgTake
  /-- SMB_MSG_READ_REST (R664): block read 0x21 returns the rest of the read buffer. -/
  | smbMsgReadRest
  /-- SMB_REG_SELECT (R664): block write 0x30 selects a register window and offset. -/
  | smbRegSelect (window : BitVec 8) (offset : BitVec 24) (pec : Option Bool)
  /-- SMB_REG_READ (R665): block read 0x31 returns the selected register, or 0xFF outside PWR, TEL and INT. -/
  | smbRegRead
  /-- SMB_ARA (R663): answers the Alert Response Address with the slave address. -/
  | smbAra
  /-- SMB_TIMEOUT (R663): resets the slave interface after a clock-low or transaction timeout. -/
  | smbTimeout
  /-- ETH_LINK_UP (R532): the Ethernet link comes up when all 8 lanes regain PCS alignment. -/
  | ethLinkUp
  /-- POWER_UP (R654): the main supplies rise with RESET_N held low, starting a chip reset of kind 0x3 that restarts the time base and clears RST_CAUSE. -/
  | powerUp
  /-- TIME_HOLD_END (R496): A time base held ahead of its parent locks and resumes counting once the parent's time reaches it, clearing held. -/
  | timeHoldEnd
  /-- TAP_RESET (R667): asserting TRST_N, or the TAP's own reset sequence, resets the JTAG TAP. -/
  | tapReset
  /-- BOUNDARY_SCAN_INSTRUCTION (R643): EXTEST, CLAMP or HIGHZ, admitted in the boundary state, drives the pins while RESET_N is asserted. -/
  | boundaryScanInstruction (tap : Machine.TapInstr) (cells : List Bool)
deriving DecidableEq, Repr

end Sys2Proof
end

