-- ==== Sys2Proof/Decode.lean ====
section
/-!
DEFINITION. The words of commands. The operation table gives bits to no row: a command reaches the device as a message, a
packet, a register access or an event, each of which carries its own fields, and no word spells one.
-/

namespace Sys2Proof

/-- The command that a word of the operation table spells: none, for the table gives no row any bits. -/
def decodeTableWord (_nbits _w : Nat) : Option Instr := none

end Sys2Proof
end

