-- ==== Sys2Proof/Machine/State.lean ====
section
/-!
DEFINITION. The state of the block: the device as `Dev` holds it, and the queue of the commands that wait, first in, first
out.
-/

namespace Sys2Proof.Machine

/-- Why the machine stops with a fault: never. A fault of the device is its own state, not a stop of the model: a record,
a status bit and a context that is faulted (08_jobs_contexts_and_translation.md R307). -/
inductive Fault where
deriving DecidableEq, Repr

/-- Why a command has no meaning here. -/
inductive Refusal where
  /-- A command that the model does not give a meaning to; raised by an arm of `exec` alone. Safe: the machine stops. -/
  | notModelled (mnemonic : String)
deriving DecidableEq, Repr

/-- The state of the block. -/
structure State where
  /-- Commands that wait, the next one first: the model's own queue. -/
  pending : List Instr := []
  /-- The device. -/
  dev : Dev := {}
  /-- Replay buffers and receivers of the fabric links (01_package_and_fabric.md R30-R33). -/
  links : Links := []
deriving DecidableEq, Repr

namespace State

/-- The machine right after reset: every register at its reset value, no memory listed, no command waiting. -/
def reset : State := {}

end State

end Sys2Proof.Machine
end

