-- ==== Sys2Proof/Machine/Ops.lean ====
section
/-!
DEFINITION. What every command does around its own effect: the output of the command before it is gone, its surroundings
stand in `env` while it runs, and a summary bit that rises raises the ALERT event
(14_control_mailboxes_and_interrupts.md R524, R527).
-/

namespace Sys2Proof.Machine

namespace Dev

/-- The device after a command's effect: the ALERT event, with INT_SUM, when a summary bit that INT_ALERT_EN enables has
risen (R524); the surroundings are gone. -/
def settle (before after : Dev) : Dev :=
  let now := after.intSum
  let risen := bitsAndNot (now &&& after.rd .INT_ALERT_EN) before.intSum
  let after := if risen then after.deviceEvent 0x800B (leBytes 8 now) else after
  { after with env := {} }
where
  /-- Some bit is set in the first number and not in the second. -/
  bitsAndNot (x y : Nat) : Bool := (List.range 64).any (fun i => bit x i && !bit y i)

/-- The device before a command's effect: the output of the command before is gone, and its surroundings stand. -/
def begun (d : Dev) (env : Env) : Dev := { d with out := [], env }

/-- A command's effect on the device, with its surroundings; none while the device does not run. -/
def command (d : Dev) (env : Env) (f : Dev → Dev) : Dev :=
  if d.awake then settle d (f (d.begun env)) else d.begun {}

/-- One nanosecond of the time base, which a hold keeps back (13_rhanak_links_and_topology.md R496) and which restarts at zero
with the device (20_pins_power_rails_and_sequencing.md R656). -/
def tick (d : Dev) : Dev := if !d.awake || d.isSet F.TB_STATUS_held then d else { d with now := (d.now + 1) % 2 ^ 64 }

end Dev

namespace State

/-- A command's effect on the state: everything but the queue. -/
def apply (s : State) (f : Dev → Dev) (env : Env := {}) : Host.Outcome State Fault Refusal :=
  .next { s with dev := s.dev.command env f }

/-- The effect of a command of a compute island, whose clock THERMTRIP_N stops (16_power_thermal_and_measurement.md R578). -/
def applyCompute (s : State) (f : Dev → Dev) (env : Env := {}) : Host.Outcome State Fault Refusal :=
  s.apply (fun d => if d.pins.tripped then d else f d) env

/-- A command's effect on the device and on the fabric links. -/
def applyLinks (s : State) (f : Dev → Links → Dev × Links) : Host.Outcome State Fault Refusal :=
  if s.dev.awake then
    let r := f (s.dev.begun {}) s.links
    .next { s with dev := Dev.settle s.dev r.1, links := r.2 }
  else .next { s with dev := s.dev.begun {} }

/-- The effect of an event on a pin, which may come whether the device runs or not. -/
def applyPins (s : State) (f : Dev → Links → Dev × Links) : Host.Outcome State Fault Refusal :=
  let r := f (s.dev.begun {}) s.links
  .next { s with dev := if s.dev.awake && r.1.awake then Dev.settle s.dev r.1 else r.1, links := r.2 }

end State

end Sys2Proof.Machine
end

