-- ==== Sys2Proof/Machine/CmdArrays.lean ====
section
/-!
DEFINITION. The commands of the dense arrays (03_dense_arrays.md R89-R110, 04_structured_sparsity.md).
-/

namespace Sys2Proof.Machine

/-- DA_TILE (R97): the execute engine starts it when it is the next operation that can start. -/
def execDaTile (c : Fin 4) (env : Env) (s : State) : Host.Outcome State Fault Refusal :=
  s.applyCompute (fun d => d.runExec c 0x20 Run.daTile) env

/-- DA_PASS (R98): the execute engine starts it when it is the next operation that can start. -/
def execDaPass (c : Fin 4) (env : Env) (s : State) : Host.Outcome State Fault Refusal :=
  s.applyCompute (fun d => d.runExec c 0x21 Run.daPass) env

/-- DA_EXPORT (R100): the execute engine starts it when it is the next operation that can start. -/
def execDaExport (c : Fin 4) (env : Env) (s : State) : Host.Outcome State Fault Refusal :=
  s.applyCompute (fun d => d.runExec c 0x22 Run.daExport) env

/-- DA_IMPORT (R101): the execute engine starts it when it is the next operation that can start. -/
def execDaImport (c : Fin 4) (env : Env) (s : State) : Host.Outcome State Fault Refusal :=
  s.applyCompute (fun d => d.runExec c 0x23 Run.daImport) env

/-- DA_SYNC (R102): the execute engine starts it when it is the next operation that can start. -/
def execDaSync (c : Fin 4) (env : Env) (s : State) : Host.Outcome State Fault Refusal :=
  s.applyCompute (fun d => d.runExec c 0x24 Run.daSync) env

/-- TILE_SHADOW_COPY (R89). -/
def execTileShadowCopy (a : Fin 8) (s : State) : Host.Outcome State Fault Refusal :=
  s.applyCompute (fun d => d.shadowCopy a)

/-- START_RAMP (R108). -/
def execStartRamp (a : Fin 8) (s : State) : Host.Outcome State Fault Refusal :=
  s.applyCompute (fun d => d.startRamp a)

/-- STOP_RAMP (R109). -/
def execStopRamp (a : Fin 8) (groups : Fin 9) (s : State) : Host.Outcome State Fault Refusal :=
  s.applyCompute (fun d => d.stopRamp a groups)

/-- BARRIER_STAGGER_START (R110). -/
def execBarrierStaggerStart (a : Fin 8) (s : State) : Host.Outcome State Fault Refusal :=
  s.applyCompute (fun d => d.staggerStart a)

end Sys2Proof.Machine
end

