-- ==== Sys2Proof/Machine/CmdCollective.lean ====
section
/-!
DEFINITION. The commands of the collective sequencer and the barrier unit (12_collectives_and_gradient_reduction.md R434-R461).
-/

namespace Sys2Proof.Machine

/-- COL_EXPMAX (R440). -/
def execColExpmax (c : Fin 4) (p : Pick) (env : Env) (s : State) : Host.Outcome State Fault Refusal :=
  s.applyCompute (fun d => d.runFetch c p 0x70 0x80 (fun _ => true) Run.colExpmax) env

/-- COL_ALLREDUCE (R441-R445). -/
def execColAllreduce (c : Fin 4) (p : Pick) (env : Env) (s : State) : Host.Outcome State Fault Refusal :=
  s.applyCompute (fun d => d.runFetch c p 0x71 0x80 (fun _ => true) Run.colAllreduce) env

/-- COL_REDSCAT (R450). -/
def execColRedscat (c : Fin 4) (p : Pick) (env : Env) (s : State) : Host.Outcome State Fault Refusal :=
  s.applyCompute (fun d => d.runFetch c p 0x72 0x80 (fun _ => true) Run.colRedscat) env

/-- COL_ALLGATHER (R450). -/
def execColAllgather (c : Fin 4) (p : Pick) (env : Env) (s : State) : Host.Outcome State Fault Refusal :=
  s.applyCompute (fun d => d.runFetch c p 0x73 0x80 (fun _ => true) Run.colAllgather) env

/-- COL_ALLTOALL (R452). -/
def execColAlltoall (c : Fin 4) (p : Pick) (env : Env) (s : State) : Host.Outcome State Fault Refusal :=
  s.applyCompute (fun d => d.runFetch c p 0x74 0x80 (fun _ => true) Run.colAlltoall) env

/-- COL_PERMUTE (R453). -/
def execColPermute (c : Fin 4) (p : Pick) (env : Env) (s : State) : Host.Outcome State Fault Refusal :=
  s.applyCompute (fun d => d.runFetch c p 0x75 0x80 (fun _ => true) Run.colPermute) env

/-- COL_BARRIER (R456-R458). -/
def execColBarrier (c : Fin 4) (p : Pick) (env : Env) (s : State) : Host.Outcome State Fault Refusal :=
  s.applyCompute (fun d => d.runFetch c p 0x76 0x81 (fun _ => true) Run.colBarrier) env

/-- COL_GRADSTEP (R446). -/
def execColGradstep (c : Fin 4) (p : Pick) (env : Env) (s : State) : Host.Outcome State Fault Refusal :=
  s.applyCompute (fun d => d.runFetch c p 0x77 0x80 (fun _ => true) Run.colGradstep) env

/-- COL_GRADWAIT (R449). -/
def execColGradwait (c : Fin 4) (p : Pick) (env : Env) (s : State) : Host.Outcome State Fault Refusal :=
  s.applyCompute (fun d => d.runFetch c p 0x78 0x80 (fun _ => true) Run.colGradwait) env

/-- COL_FILL (R446). -/
def execColFill (c : Fin 4) (p : Pick) (env : Env) (s : State) : Host.Outcome State Fault Refusal :=
  s.applyCompute (fun d => d.runFetch c p 0x79 0x80 (fun _ => true) Run.colFill) env

/-- COL_REMAP (R455). -/
def execColRemap (c : Fin 4) (p : Pick) (env : Env) (s : State) : Host.Outcome State Fault Refusal :=
  s.applyCompute (fun d => d.runFetch c p 0x7a 0x80 (fun _ => true) Run.colRemap) env

/-- BUCKET_COMPLETE (R448). -/
def execBucketComplete (n : Fin 16) (b : Nat) (env : Env) (s : State) : Host.Outcome State Fault Refusal :=
  s.applyCompute (fun d => d.bucketComplete n b) env

/-- WQ_ENTRY_COMPLETE (10 R385). -/
def execWqEntryComplete (c : Fin 4) (s : State) : Host.Outcome State Fault Refusal :=
  s.applyCompute (fun d => d.wqEntryComplete c)

/-- COLLECTIVE_MESSAGE (R438, R439). -/
def execCollectiveMessage (n : Fin 16) (m : ColMsg) (s : State) : Host.Outcome State Fault Refusal :=
  s.applyCompute (fun d => d.collectiveMessage n m)

/-- BARRIER_RELEASE (R456, R457): a timed release carries its time. -/
def execBarrierRelease (n : Fin 16) (group seq : Nat) (t : Option Nat) (s : State) : Host.Outcome State Fault Refusal :=
  s.applyCompute (fun d => d.barrierRelease n group seq t)

/-- TIMED_RELEASE (R457). -/
def execTimedRelease (n : Fin 16) (group seq : Nat) (s : State) : Host.Outcome State Fault Refusal :=
  s.applyCompute (fun d => d.timedRelease n group seq)

/-- ABORT_NOTICE (R459). -/
def execAbortNotice (n : Fin 16) (group stream seq source : Nat) (s : State) : Host.Outcome State Fault Refusal :=
  s.applyCompute (fun d => d.collectiveFault n group stream seq source 0x13)

/-- PEER_TIMEOUT (R459). -/
def execPeerTimeout (n : Fin 16) (group stream seq source : Nat) (s : State) : Host.Outcome State Fault Refusal :=
  s.applyCompute (fun d => d.peerTimeout n group stream seq source)

end Sys2Proof.Machine
end

