-- ==== Sys2Proof/Machine/CmdEngines.lean ====
section
/-!
DEFINITION. The commands of the gather-merge engines and the vector engines (05_gather_merge_engines.md).
-/

namespace Sys2Proof.Machine

/-- GATHER (R164). -/
def execGather (c : Fin 4) (p : Pick) (env : Env) (s : State) : Host.Outcome State Fault Refusal :=
  s.applyCompute (fun d => d.runEngine c p 0x30 Run.gather) env

/-- SCATTER (R165). -/
def execScatter (c : Fin 4) (p : Pick) (env : Env) (s : State) : Host.Outcome State Fault Refusal :=
  s.applyCompute (fun d => d.runEngine c p 0x31 Run.scatter) env

/-- SCATTER_ADD (R166). -/
def execScatterAdd (c : Fin 4) (p : Pick) (env : Env) (s : State) : Host.Outcome State Fault Refusal :=
  s.applyCompute (fun d => d.runEngine c p 0x32 Run.scatterAdd) env

/-- TOP_K (R167). -/
def execTopK (c : Fin 4) (p : Pick) (env : Env) (s : State) : Host.Outcome State Fault Refusal :=
  s.applyCompute (fun d => d.runEngine c p 0x33 Run.topK) env

/-- SEG_MERGE (R172). -/
def execSegMerge (c : Fin 4) (p : Pick) (env : Env) (s : State) : Host.Outcome State Fault Refusal :=
  s.applyCompute (fun d => d.runEngine c p 0x34 Run.segMerge) env

/-- SPMM_CSR (R173). -/
def execSpmmCsr (c : Fin 4) (p : Pick) (env : Env) (s : State) : Host.Outcome State Fault Refusal :=
  s.applyCompute (fun d => d.runEngine c p 0x35 Run.spmmCsr) env

/-- SPMM_BSR (R174). -/
def execSpmmBsr (c : Fin 4) (p : Pick) (env : Env) (s : State) : Host.Outcome State Fault Refusal :=
  s.applyCompute (fun d => d.runEngine c p 0x36 Run.spmmBsr) env

/-- COMBINE (R175). -/
def execCombine (c : Fin 4) (p : Pick) (env : Env) (s : State) : Host.Outcome State Fault Refusal :=
  s.applyCompute (fun d => d.runEngine c p 0x37 Run.combineRows) env

/-- GME_SYNC (R158). -/
def execGmeSync (c : Fin 4) (p : Pick) (env : Env) (s : State) : Host.Outcome State Fault Refusal :=
  s.applyCompute (fun d => d.runEngine c p 0x38 Run.gmeSync) env

/-- VE_MAP (R189, R190). -/
def execVeMap (c : Fin 4) (p : Pick) (env : Env) (s : State) : Host.Outcome State Fault Refusal :=
  s.applyCompute (fun d => d.runEngine c p 0x90 Run.veMap) env

/-- VE_ROWRED (R191). -/
def execVeRowred (c : Fin 4) (p : Pick) (env : Env) (s : State) : Host.Outcome State Fault Refusal :=
  s.applyCompute (fun d => d.runEngine c p 0x91 Run.veRowred) env

/-- VE_SYNC (R188). -/
def execVeSync (c : Fin 4) (p : Pick) (env : Env) (s : State) : Host.Outcome State Fault Refusal :=
  s.applyCompute (fun d => d.runEngine c p 0x9f Run.veSync) env

end Sys2Proof.Machine
end

