-- ==== Sys2Proof/Machine/CmdEthernet.lean ====
section
/-!
DEFINITION. The commands of the Ethernet port (15_host_ethernet_interface.md R530-R558).
-/

namespace Sys2Proof.Machine

/-- ETH_FRAME_RECEIVE (R531). -/
def execEthFrameReceive (f : Frame) (s : State) : Host.Outcome State Fault Refusal :=
  s.apply (fun d => d.frameReceive f)

/-- ETH_LINK_DOWN (R532): the lanes that still hold lock. -/
def execEthLinkDown (lanes : BitVec 8) (s : State) : Host.Outcome State Fault Refusal :=
  s.apply (fun d => d.ethLinkDown lanes.toNat)

/-- ETH_LINK_UP (R532). -/
def execEthLinkUp (s : State) : Host.Outcome State Fault Refusal :=
  s.apply (fun d => d.ethLinkUp)

/-- PFC_FRAME (R536). -/
def execPfcFrame (pause release : BitVec 8) (s : State) : Host.Outcome State Fault Refusal :=
  s.apply (fun d => d.pfcFrame pause.toNat release.toNat)

/-- CNP_RECEIVE (R537). -/
def execCnpReceive (q : Fin 1024) (s : State) : Host.Outcome State Fault Refusal :=
  s.apply (fun d => d.cnpReceive q)

/-- RATE_RECOVERY (R537). -/
def execRateRecovery (q : Fin 1024) (s : State) : Host.Outcome State Fault Refusal :=
  s.apply (fun d => d.rateRecovery q)

/-- RDMA_WRITE (R539). -/
def execRdmaWrite (q : Fin 1024) (p : Rdma) (s : State) : Host.Outcome State Fault Refusal :=
  s.apply (fun d => d.rdmaWrite q p)

/-- RDMA_READ (R543). -/
def execRdmaRead (q : Fin 1024) (p : Rdma) (served : Nat) (s : State) : Host.Outcome State Fault Refusal :=
  s.apply (fun d => d.rdmaRead q p served)

/-- RDMA_SEND (R547). -/
def execRdmaSend (q : Fin 1024) (psn : BitVec 24) (bs : List Byte) (s : State) : Host.Outcome State Fault Refusal :=
  s.apply (fun d => d.rdmaSend q psn.toNat bs)

/-- WRITE_WITH_IMMEDIATE (R549). -/
def execWriteWithImmediate (q : Fin 1024) (p : Rdma) (imm : BitVec 32) (s : State) : Host.Outcome State Fault Refusal :=
  s.apply (fun d => d.writeImmediate q p imm.toNat)

/-- ACK_COALESCE (R539). -/
def execAckCoalesce (q : Fin 1024) (s : State) : Host.Outcome State Fault Refusal :=
  s.apply (fun d => d.ackCoalesce q)

/-- HOST_MESSAGE_SEND (R548). -/
def execHostMessageSend (c : Fin 64) (s : State) : Host.Outcome State Fault Refusal :=
  s.apply (fun d => d.hostMessageSend c)

/-- SEND_RETRY_TIMEOUT (R546). -/
def execSendRetryTimeout (q : Fin 1024) (c : Fin 64) (s : State) : Host.Outcome State Fault Refusal :=
  s.apply (fun d => d.sendRetry q c)

/-- LLDP_SEND (R533). -/
def execLldpSend (s : State) : Host.Outcome State Fault Refusal :=
  s.apply (fun d => d.lldpSend)

end Sys2Proof.Machine
end

