-- ==== Sys2Proof/Machine/CmdFabric.lean ====
section
/-!
DEFINITION. The commands of the fabric links (01_package_and_fabric.md R30-R44).
-/

namespace Sys2Proof.Machine

/-- FLIT_RECEIVE (R30-R34): a flit of 36 words arrives over one direction of a link, with errors. -/
def execFlitReceive (b : Fin 51) (back : Bool) (words : List Nat) (errs : List (Nat × Nat)) (s : State) :
    Host.Outcome State Fault Refusal :=
  s.applyLinks (fun d l => Fabric.flitReceive d l b back words errs)

/-- FABRIC_NAK (R31). -/
def execFabricNak (b : Fin 51) (back : Bool) (seq : Nat) (s : State) : Host.Outcome State Fault Refusal :=
  s.applyLinks (fun d l => Fabric.nak d l b back seq)

/-- FABRIC_ACK (R32). -/
def execFabricAck (b : Fin 51) (back : Bool) (seq : Nat) (s : State) : Host.Outcome State Fault Refusal :=
  s.applyLinks (fun d l => Fabric.ack d l b back seq)

/-- FABRIC_TRAINING (R42): a link has trained. -/
def execFabricTraining (b : Fin 51) (s : State) : Host.Outcome State Fault Refusal :=
  s.applyLinks (fun d l => Fabric.training d l b)

/-- FABRIC_TRAIN_TIMEOUT (R43): a link is not up in time. -/
def execFabricTrainTimeout (b : Fin 51) (s : State) : Host.Outcome State Fault Refusal :=
  s.apply (fun d => Fabric.trainTimeout d b)

end Sys2Proof.Machine
end

