-- ==== Sys2Proof/Machine/CmdHoard.lean ====
section
/-!
DEFINITION. The commands of the walker, the Hoard and the W queue (09_conditional_computation.md R317-R352, 10_backward_pass_and_hoard.md R362-R392).
-/

namespace Sys2Proof.Machine

/-- ROUTE (09 R319-R326). -/
def execRoute (c : Fin 4) (p : Pick) (env : Env) (s : State) : Host.Outcome State Fault Refusal :=
  s.applyCompute (fun d => d.runFetch c p 0x40 (0x74 + c) (fun d => d.walkerFree c) Run.route) env

/-- WALK (09 R335-R342). -/
def execWalk (c : Fin 4) (p : Pick) (env : Env) (s : State) : Host.Outcome State Fault Refusal :=
  s.applyCompute (fun d => d.runFetch c p 0x41 (0x74 + c) (fun d => d.walkerFree c) Run.walk) env

/-- HD_PUSH (R363, R367, R368). -/
def execHdPush (c : Fin 4) (p : Pick) (env : Env) (s : State) : Host.Outcome State Fault Refusal :=
  s.applyCompute (fun d => d.runFetch c p 0x50 (0x20 + c) (fun d => d.hoardFree c) Run.hdPush) env

/-- HD_FETCH (R369, R370). -/
def execHdFetch (c : Fin 4) (p : Pick) (env : Env) (s : State) : Host.Outcome State Fault Refusal :=
  s.applyCompute (fun d => d.runFetch c p 0x51 (0x20 + c) (fun d => d.hoardFree c) Run.hdFetch) env

/-- HD_POP (R371). -/
def execHdPop (c : Fin 4) (p : Pick) (env : Env) (s : State) : Host.Outcome State Fault Refusal :=
  s.applyCompute (fun d => d.runFetch c p 0x52 (0x20 + c) (fun d => d.hoardFree c) Run.hdPop) env

/-- HD_TURN (R372). -/
def execHdTurn (c : Fin 4) (p : Pick) (env : Env) (s : State) : Host.Outcome State Fault Refusal :=
  s.applyCompute (fun d => d.runFetch c p 0x53 (0x20 + c) (fun d => d.hoardFree c) Run.hdTurn) env

/-- HD_DROP (R371). -/
def execHdDrop (c : Fin 4) (p : Pick) (env : Env) (s : State) : Host.Outcome State Fault Refusal :=
  s.applyCompute (fun d => d.runFetch c p 0x54 (0x20 + c) (fun d => d.hoardFree c) Run.hdDrop) env

/-- WQ_PUSH (R383). -/
def execWqPush (c : Fin 4) (p : Pick) (env : Env) (s : State) : Host.Outcome State Fault Refusal :=
  s.applyCompute (fun d => d.runFetch c p 0x58 (0x20 + c) (fun d => d.hoardFree c) Run.wqPush) env

/-- WQ_FLUSH (R386). -/
def execWqFlush (c : Fin 4) (p : Pick) (env : Env) (s : State) : Host.Outcome State Fault Refusal :=
  s.applyCompute (fun d => d.runFetch c p 0x59 (0x20 + c) (fun d => d.hoardFree c) Run.wqFlush) env

/-- HOARD_WRITE_BACK (R378). -/
def execHoardWriteBack (c : Fin 4) (env : Env) (s : State) : Host.Outcome State Fault Refusal :=
  s.applyCompute (fun d => d.hoardWriteBack c) env

/-- HOARD_PREFETCH (R379). -/
def execHoardPrefetch (c : Fin 4) (env : Env) (s : State) : Host.Outcome State Fault Refusal :=
  s.applyCompute (fun d => d.hoardPrefetch c) env

/-- W_BUBBLE_ISSUE (R384): the command says that bubble_cycles idle cycles have passed. -/
def execWBubbleIssue (c : Fin 4) (env : Env) (s : State) : Host.Outcome State Fault Refusal :=
  s.applyCompute (fun d => d.bubbleIssue c (d.passPending c)) env

end Sys2Proof.Machine
end

