-- ==== Sys2Proof/Machine/CmdMemory.lean ====
section
/-!
DEFINITION. The commands of memory (06_memory_hierarchy.md R198-R241) and of page faults (08_jobs_contexts_and_translation.md R309).
-/

namespace Sys2Proof.Machine

/-- FILL_ADVANCE (R208, R210, R211): a fill advance as a request for a slot of a queue. -/
def execFillAdvance (rq : Req) (c : Fin 4) (q : Fin 256) (slot upTo : Nat) (poison accepted slotError : Bool) (s : State) :
    Host.Outcome State Fault Refusal :=
  s.applyCompute (fun d => d.fillAdvance rq c q slot upTo poison accepted) { slotError }

/-- DRAIN (R208, R210): a drain as a request for a slot of a queue. -/
def execDrain (rq : Req) (c : Fin 4) (q : Fin 256) (slot : Nat) (accepted : Bool) (s : State) :
    Host.Outcome State Fault Refusal :=
  s.applyCompute (fun d => d.drainRequest rq c q slot accepted)

/-- MEMORY_READ (R198): a read request of a master of this device. -/
def execMemoryRead (rq : Req) (addr : BitVec 64) (len : Nat) (accepted : Bool) (s : State) : Host.Outcome State Fault Refusal :=
  s.apply (fun d => d.memoryRead rq addr.toNat len accepted)

/-- MEMORY_WRITE (R225): a write request of a master of this device. -/
def execMemoryWrite (rq : Req) (addr : BitVec 64) (bs : List PByte) (accepted : Bool) (s : State) :
    Host.Outcome State Fault Refusal :=
  s.apply (fun d => d.memoryWrite rq addr.toNat bs accepted)

/-- SCRUB (R226): the next line of a block. -/
def execScrub (b : Dev.ScrubBlock) (s : State) : Host.Outcome State Fault Refusal :=
  s.apply (fun d => d.scrub b)

/-- PATROL (R233): the next codeword of a memory die. -/
def execPatrol (n : Fin 8) (s : State) : Host.Outcome State Fault Refusal :=
  s.apply (fun d => d.patrol n)

/-- PAGE_FAULT_RESUME (R309). -/
def execPageFaultResume (n : Fin 16) (va : BitVec 48) (s : State) : Host.Outcome State Fault Refusal :=
  s.applyCompute (fun d => d.pageFaultResume n va.toNat)

/-- FAULT_DEADLINE (R309): the deadline of an unanswered page fault has passed. -/
def execFaultDeadline (n : Fin 16) (va : BitVec 48) (s : State) : Host.Outcome State Fault Refusal :=
  s.apply (fun d => d.faultDeadline n va.toNat)

/-- SCR_YIELD (17 R596, R597): a yield point; `fails` are the tests that fail in the slice. -/
def execScrYield (c : Fin 4) (fails : List FailedTest) (s : State) : Host.Outcome State Fault Refusal :=
  s.applyCompute (fun d => d.runExec c 0x80 (Run.scrYield fails))

end Sys2Proof.Machine
end

