-- ==== Sys2Proof/Machine/Boot.lean ====
section
/-!
DEFINITION. Chip resets, the mask ROM's boot and what Prois does before it accepts a job
(19_boot_security_and_defaults.md R632-R646, 18 R619, R625, 06 R228, R234, 17 R594, R608, R610).
-/

namespace Sys2Proof.Machine

/-- The record's tail as it is used (R637). -/
structure Tail where
  seq : Nat
  active : Nat
  pending : Bool
  floor : Nat
  trial : List Byte
deriving DecidableEq, Repr

/-- `n` bytes of a byte string, zeros after its end. -/
def padTo (n : Nat) (l : List Byte) : List Byte := (l ++ List.replicate n 0).take n

namespace Dev

/-! ### The configuration record (R636-R638) -/

/-- A copy of the record. -/
def copy (d : Dev) (k : Nat) : List Byte := Sp.get (fun _ => []) d.flash.records k

/-- The seal key (R640). -/
def sealKey (d : Dev) : Option (List Byte) := (Config.deviceSecret d.flash.identity).map (fun s => Config.derived s "seal")

/-- The seal of a copy (R637): zeros where no key could be reconstructed (log entry 47). -/
def sealOf (d : Dev) (c : List Byte) : List Byte :=
  match d.sealKey with
  | some k => padTo 32 (Config.hmac k ((c.take (0x420 + 7856)) ++ (c.drop 0x3000).take 0x10))
  | none => List.replicate 32 0

/-- The seal of a copy verifies. -/
def sealOk (d : Dev) (c : List Byte) : Bool := d.sealKey.isSome && (c.drop 0x3010).take 32 == d.sealOf c

/-- The signer of a copy is the vendor (R636). -/
def vendorRecord (c : List Byte) : Bool := Config.sha256 ((c.drop 0x400).take 32) == Config.vendorHash

/-- A copy's format, part, stepping and signature (R636). -/
def recordSigned (c : List Byte) : Bool :=
  field c 0 2 == 0xC601 && field c 2 2 == 1024 && field c 8 2 == 0x0640 && field c 0xA 1 == 0xB0
    && Config.signed ((c.drop 0x400).take 32) (c.take 0x420) ((c.drop 0x420).take 7856)

/-- A copy is valid (R636). -/
def recordValid (d : Dev) (c : List Byte) : Bool := recordSigned c && (vendorRecord c || d.sealOk c)

/-- The tail as it is used (R637): of a vendor record whose seal fails, slot A, nothing pending and the body's min_svn. -/
def tailOf (d : Dev) (c : List Byte) : Tail :=
  if d.sealOk c then
    { seq := field c 0x3000 4, active := b2n (bit (field c 0x3004 1) 0), pending := bit (field c 0x3004 1) 1, floor := field c 0x3008 4
      trial := (c.drop 0x3040).take 3 }
  else { seq := field c 0x3000 4, active := 0, pending := false, floor := field c 0xF8 4, trial := (c.drop 0x3040).take 3 }

/-- The copy that the ROM uses (R636): of the valid ones, the higher record version and then the higher sequence. -/
def chooseRecord (d : Dev) : Option Nat :=
  let a := d.copy 0
  let b := d.copy 1
  match d.recordValid a, d.recordValid b with
  | true, true =>
    if field a 4 4 < field b 4 4 ∨ (field a 4 4 = field b 4 4 ∧ field a 0x3000 4 < field b 0x3000 4) then some 1 else some 0
  | true, false => some 0
  | false, true => some 1
  | false, false => none

/-- The tail in use; without a record, slot A, nothing pending and no floor (log entry 47). -/
def tailInUse (d : Dev) : Tail :=
  match d.boot.record with
  | some k => d.tailOf (d.copy k)
  | none => { seq := 0, active := 0, pending := false, floor := 0, trial := [] }

/-- A copy with a tail, sealed (R637): the body, the signer's key and the signature of a record, and the tail's bytes. -/
def sealedCopy (d : Dev) (body : List Byte) (t : Tail) : List Byte :=
  let c := padTo 0x3000 (body.take (0x420 + 7856)) ++ leBytes 4 t.seq ++ leBytes 1 (t.active + 2 * b2n t.pending) ++ List.replicate 3 0
    ++ leBytes 4 t.floor ++ List.replicate 4 0
  c ++ d.sealOf c ++ List.replicate 16 0 ++ padTo 3 t.trial

/-- A record written to the copy that is not in use; the result says which. -/
def writeRecord (d : Dev) (body : List Byte) (t : Tail) : Nat × Dev :=
  let k := match d.boot.record with | some 0 => 1 | _ => 0
  (k, { d with flash := { d.flash with records := Sp.set (fun _ => []) d.flash.records k (d.sealedCopy body t) } })

/-- A tail written with the body in use, a sequence one higher (R637). The new copy is then the one in use (log entry 48). -/
def writeTail (d : Dev) (t : Tail) : Dev :=
  match d.boot.record with
  | none => d
  | some k =>
    let (n, d) := d.writeRecord (d.copy k) { t with seq := (d.tailInUse.seq + 1) % 2 ^ 32 }
    let d := { d with boot := { d.boot with record := some n } }
    (d.setFld F.SEC_STATUS_record 0 0 (n + 1)).setFld F.SEC_STATUS_pending 0 0 (b2n t.pending)

/-! ### Seed images (R634, R635) -/

/-- The bytes of an image slot, 0 for A and 1 for B. -/
def slotBytes (d : Dev) (k : Nat) : List Byte := Sp.get (fun _ => []) d.flash.slots k

/-- The image at the start of a slot or of a staged range: as many bytes as it states. -/
def imageIn (bs : List Byte) : List Byte := bs.take (field bs 4 4)

/-- An image is accepted (R634) above a rollback floor. -/
def imageValid (bs : List Byte) (floor : Nat) : Bool :=
  let n := bs.length
  let z := fun (o k : Nat) => ((bs.drop o).take k).all (fun x => x == 0)
  let key := (bs.drop 0x40).take 32
  field bs 0 2 == 0x5E01 && z 2 2 && field bs 4 4 == n && decide (0x100 + 7856 ≤ n) && decide (n ≤ 4 * 2 ^ 20) && field bs 8 2 == 0x0640
    && field bs 0xA 1 == 0xB0 && z 0xB 1 && z 0x28 24 && z 0x60 160 && decide (field bs 0x18 4 + field bs 0x1C 4 ≤ n)
    && decide (field bs 0x20 4 + field bs 0x24 4 ≤ n) && decide (field bs 0x24 4 ≤ 2 * 2 ^ 20) && Config.sha256 key == Config.vendorHash
    && Config.signed key (bs.take (n - 7856)) (bs.drop (n - 7856)) && decide (floor ≤ field bs 0x10 4)

/-- choose_slot's first choice (R635): the active slot, or the other once three trial boots are spent; a pending boot programs one
trial byte. -/
def firstSlot (d : Dev) : Nat × Dev :=
  match d.boot.record with
  | none => (0, d)
  | some k =>
    let t := d.tailInUse
    if !t.pending then (t.active, d)
    else if t.trial.all (fun b => b == 0) then (1 - t.active, d)
    else
      let i := (t.trial.findIdx? (fun b => b != 0)).getD 0
      let c := d.copy k
      (t.active, { d with flash := { d.flash with records := Sp.set (fun _ => []) d.flash.records k ((c.take (0x3040 + i)) ++ [0] ++ c.drop (0x3041 + i)) } })

/-- A slot tried: a failing one sets its leaf. -/
def trySlot (d : Dev) (k floor : Nat) : Bool × Dev :=
  if imageValid (imageIn (d.slotBytes k)) floor then (true, d)
  else (false, d.raise (if k = 0 then F.SEC_ERR_STATUS_image_a_bad else F.SEC_ERR_STATUS_image_b_bad))

/-- choose_slot (R635): the slot that boots, none where neither verifies. -/
def chooseSlot (d : Dev) : Option Nat × Dev :=
  let floor := d.tailInUse.floor
  let (first, d) := d.firstSlot
  let (ok, d) := d.trySlot first floor
  if ok then (some first, d)
  else
    let (ok, d) := d.trySlot (1 - first) floor
    (if ok then some (1 - first) else none, d)

/-! ### DDR5 (06 R227, R228, R234) -/

/-- The module of a channel. -/
def moduleAt (ms : List Module) (ch : Nat) : Option Module := ms.find? (fun m => m.channel = ch)

/-- A channel holds a module that R227 admits and that trains. -/
def channelTrains (ms : List Module) (ch : Nat) : Bool :=
  match moduleAt ms ch with | some m => m.supported && m.trains | none => false

/-- Training after a chip reset (R228, R234): with the stored settings where the serial numbers match, otherwise full training
whose results are stored. -/
def trainDdr (d : Dev) (ms : List Module) : Dev :=
  let ms := (List.range 32).filterMap (moduleAt ms)
  let fast := decide (d.flash.training = ms.map Module.serial) && !ms.isEmpty
  let up := (List.range 32).all (channelTrains ms)
  let rate := ms.foldl (fun a m => min a m.rate) 3
  let cap := match ms with | [] => 0 | m :: t => t.foldl (fun a x => min a x.capacity) m.capacity
  let d := (List.range 8).foldl (fun d n =>
    let chs := [4 * n, 4 * n + 1, 4 * n + 2, 4 * n + 3]
    let trained := chs.zipIdx.foldl (fun a (ch, i) => a + b2n (channelTrains ms ch) * 2 ^ i) 0
    let ranks := (chs.filterMap (moduleAt ms)).foldl (fun a m => max a m.ranks) 0
    let d := d.wr .DDR_CFG n 0 ((if up then rate else 0) * 2 ^ 32 + (if up then cap else 0) * 2 ^ 16 + b2n fast * 2 ^ 8 + ranks % 16 * 16 + trained)
    d.raiseIf (trained != 15) F.DDR_ERR_STATUS_train_fail n) d
  { d with mem := { d.mem with modules := ms, ddrUp := up, selfRefresh := false }
           flash := { d.flash with training := if fast then d.flash.training else ms.map Module.serial } }

/-! ### What Prois reads from flash -/

/-- The health log (17 R610): the good copy with the higher sequence number. -/
def readHealth (d : Dev) : Dev :=
  let good := d.flash.logs.filter (fun e => e.2.1)
  match good with
  | [] => ({ d with health := {} }).raise F.SCR_ERR_STATUS_health_log
  | e :: t =>
    let h := (t.foldl (fun (b : Nat × (Bool × Health)) x => if b.2.2.seq < x.2.2.seq then x else b) e).2.2
    let mask := h.retired.foldl (fun a r => a ||| 2 ^ r.1) 0
    let reasons := h.retired.foldl (fun a r => putBits a (2 * r.1 + 1) (2 * r.1) r.2.1) 0
    let d := { d with health := h }
    (d.wr .SCR_RETIRED 0 0 (reasons * 2 ^ 8 + mask)).retireRecorded

/-- The test pack in use (17 R608): the installed one, verified again, or the image's base pack. -/
def choosePack (d : Dev) : Dev :=
  let img := d.boot.image
  let base := (img.drop (field img 0x20 4)).take (field img 0x24 4)
  if d.flash.testPack = [] then d.usePack base false
  else if d.packValid d.flash.testPack ((img.drop 0x40).take 32) then d.usePack d.flash.testPack true
  else (d.usePack base false).raise F.SCR_ERR_STATUS_pack_invalid

/-! ### Settings (R638, R644) -/

/-- The TAP's state under a policy (R644). -/
def policyState (p : Nat) : Nat := if p = 1 then 1 else 0

/-- The TAP in a state (R643), shown in DBG_STATUS and SEC_STATUS. -/
def setTap (d : Dev) (v : Nat) : Dev :=
  ({ d with pins := { d.pins with tap := v } }.setFld F.DBG_STATUS_state 0 0 v).setFld F.SEC_STATUS_jtag 0 0 v

/-- A fresh challenge (R644, R648). -/
def drawChallenge (d : Dev) : Dev :=
  (List.range 4).foldl (fun d w =>
    let (v, d) := d.draw 64
    d.wr .DBG_CHALLENGE 0 w v) d

/-- The settings of the record in use (R638). -/
def applyRecord (d : Dev) (c : List Byte) : Dev :=
  let d := (List.range 6).foldl (fun d n =>
    let d := (d.setFld F.RHK_DEV_ID_id n 0 (field c 0xC 2)).setFld F.RHK_DEV_ID_valid n 0 (b2n (bit (field c 0xE 1) 0))
    d.setFld F.RHK_SYNC_root_en n 0 (b2n (bit (field c 0xFD 1) 0))) d
  let d := d.applyEthConfig ((c.drop 0x10).take 48)
  let q := (c.drop 0x60).take 72
  let d := if bindFields q ∧ field q 2 1 = 1 ∧ field q 0 2 = 0 then d.bindQp q else d
  let d := (List.range 6).foldl (fun d i => d.wr .MBX_BIND 0 (i + 2) (field c (0xA8 + 8 * i) 8)) d
  let d := d.setFld F.PWR_CAP_cap 0 0 (if field c 0xFE 2 = 0 then 320 else field c 0xFE 2 / 10)
  let d := (List.range 7).foldl (fun d i =>
    let v := field c (0x100 + 4 * i) 4
    if v = 0 then d else d.setFld F.PWR_W_pj 0 i v) d
  let lk := (List.range 8).map (fun i => field c (0x120 + 4 * i) 4)
  let d := if lk.all (fun v => v == 0) then d else lk.zipIdx.foldl (fun d (v, i) => d.wr .PWR_LEAK 0 i v) d
  let d := (d.plainWrite .TEL_SPIKE_CFG 0 0 (field c 0x140 8)).plainWrite .TEL_SPIKE_REL 0 0 (field c 0x148 4)
  let d := d.plainWrite .TEL_THERM_CFG 0 0 (field c 0x14C 4)
  d.setFld F.DBG_CTRL_policy 0 0 (field c 0xFC 1 % 4)

/-! ### The mask ROM and Prois's start (R633) -/

/-- Steps 1 and 2 of R633: identity and record. -/
def romRecord (d : Dev) : Dev :=
  let ok := (Config.deviceSecret d.flash.identity).isSome
  let d := (d.setFld F.SEC_STATUS_identity_ok 0 0 (b2n ok)).raiseIf (!ok) F.SEC_ERR_STATUS_identity_fail
  let r := d.chooseRecord
  let d := { d with boot := { d.boot with record := r } }
  match r with
  | none => (d.raise F.SEC_ERR_STATUS_config_bad).setFld F.INT_FW_config_invalid 0 0 1
  | some k =>
    let c := d.copy k
    let d := d.setFld F.SEC_STATUS_record 0 0 (k + 1)
    (d.setFld F.SEC_STATUS_owner 0 0 (b2n (!vendorRecord c))).setFld F.SEC_STATUS_pending 0 0 (b2n d.tailInUse.pending)

/-- The image of a slot runs (R635). -/
def runImage (d : Dev) (slot : Nat) : Dev :=
  let img := imageIn (d.slotBytes slot)
  let h := Config.sha256 img
  let other := decide (slot ≠ d.tailInUse.active)
  let d := (List.range 4).foldl (fun d w => d.wr .SEC_IMG_HASH 0 w (field h (8 * w) 8)) d
  let d := d.wr .SEC_SVN 0 0 (d.tailInUse.floor * 2 ^ 32 + field img 0x10 4)
  let d := (d.setFld F.SEC_STATUS_slot 0 0 slot).setFld F.SEC_STATUS_fallback 0 0 (b2n other)
  let d := if other then d.setFld F.INT_FW_image_fallback 0 0 1 else d
  { d with boot := { d.boot with runs := .prois, image := img, kickAt := d.now } }

/-- Prois's start (R633, R638, 08 R315): the settings, the fault ring, DDR5, the health log and the pack. -/
def startProis (d : Dev) (ms : List Module) (kind : Nat) : Dev :=
  let d := match d.boot.record with
    | some k => d.applyRecord (d.copy k)
    | none => d.onEth (fun e => { e with config := { e.config with mac := d.derivedMac } })
  let d := (d.setFld F.MBX_CTRL_lock 0 0 1).setFld F.CTX_RING_BASE_base 0 0 (sharedBase / 2 ^ 14)
  let d := (d.trainDdr ms).readHealth.choosePack
  let d := d.raiseIf (d.fld F.RST_CAUSE_chip_cause == 2) F.RST_ERR_STATUS_cp_wd
  (d.onEth (fun e => { e with greet := some kind })).syncReasons

/-- The boot ROM runs alone (R646). -/
def romAlone (d : Dev) : Dev :=
  let d := d.onEth (fun e => { e with config := { e.config with mac := d.derivedMac } })
  let d := (d.setFld F.SEC_STATUS_rom_alone 0 0 1).setFld F.INT_FW_boot_fail 0 0 1
  { d with boot := { d.boot with runs := .rom, kickAt := d.now } }

/-- The boot after a release of chip reset (R633): `ms` are the DDR5 modules in place. With TEST_EN the control die does not boot
(20 R662). -/
def bootUp (d : Dev) (ms : List Module) (kind : Nat) : Dev :=
  let d := (d.raiseIf d.pins.prochotLow F.PWR_ERR_STATUS_prochot).syncReasons
  if d.isSet F.SMB_STRAP_test_en then d
  else
    let (slot, d) := d.romRecord.chooseSlot
    let d := match slot with
      | some k => (d.runImage k).startProis ms kind
      | none => d.romAlone
    (d.setTap (policyState (d.fld F.DBG_CTRL_policy))).drawChallenge

/-! ### Chip resets (18 R619, R625) -/

/-- The device as a chip reset leaves it before it boots: every block at its reset values; what stays is the boot flash, the
pins, the sampled straps, the cause and, where the reset keeps it, DDR5. The slave acknowledges no address for 1 ms (20 R663). -/
def chipCleared (d : Dev) (cause : Nat) (keep : Bool) : Dev :=
  let strap := d.rd .SMB_STRAP
  let ddr := fun (a : Nat) => keep && decide (a < 0x80000000000)
  let m : MemSys := { cells := d.mem.cells.filter (fun e => ddr e.1), poison := d.mem.poison.filter (fun e => ddr e.1)
                      symErrs := d.mem.symErrs.filter (fun e => ddr e.1) }
  let n : Dev := { fresh := d.fresh, flash := d.flash, pins := d.pins, mem := m, out := d.out }
  (n.wr .SMB_STRAP 0 0 strap).wr .RST_CAUSE 0 0 cause

/-- CHIP_RESET (R619, R625): the chip reset that is due, with its leaving notices, and the boot that follows. -/
def chipReset (d : Dev) (l : Links) (ms : List Module) : Dev × Links :=
  match d.boot.due with
  | none => (d, l)
  | some (kind, keep) =>
    let d := d.sendLeaving
    let d := if keep then d.flushCache else d
    ((d.chipCleared kind (keep && kind == 1)).bootUp ms kind, [])

/-- The screen that the device runs by itself after its boot, with the link and channel checks of R601. -/
def bootScreen (d : Dev) (took : Nat) : Screen :=
  let ms := d.mem.modules
  { kind := 2
    startedAt := d.now
    deadline := took
    pack := d.boot.pack
    links := (List.range 51).foldl (fun a b => a + b2n (!d.linkUp b) * 2 ^ b) 0
    channels := (List.range 32).foldl (fun a c => a + b2n (!channelTrains ms c) * 2 ^ c) 0
    mismatch := ms.any (fun m => ms.any (fun x => m.capacity != x.capacity)) }

/-- What follows the power-on screen (14 R527, 19 R635): its reasons, and the pending boot confirmed unless the screen failed. -/
def afterBootScreen (d : Dev) : Dev :=
  let verdict := d.fld F.SCR_LAST_result 0 0 / 256 % 256
  let d := d.setFld F.INT_FW_screen_done 0 0 1
  let d := if verdict = 1 then d.setFld F.INT_FW_screen_fail 0 0 1 else d
  let d := { d with boot := { d.boot with screened := true } }
  let t := d.tailInUse
  if (verdict = 0 ∨ verdict = 2) ∧ t.pending = true then
    d.writeTail { t with active := d.fld F.SEC_STATUS_slot, pending := false, floor := max t.floor (d.fld F.SEC_SVN_svn) }
  else d

/-- POWER_ON_SCREEN (17 R594, R601, 14 R527, R635): the full screen with the power-on checks; afterwards jobs are accepted. -/
def powerOnScreen (d : Dev) (fails : List FailedTest) (took : Nat) : Dev :=
  if d.boot.runs ≠ .prois ∨ d.boot.screened = true ∨ d.screen.isSome = true then d
  else (d.runFull (d.bootScreen took) fails took).afterBootScreen

end Dev

end Sys2Proof.Machine
end

