-- ==== Sys2Proof/Machine/Pins.lean ====
section
/-!
DEFINITION. The package's pins: supplies, RESET_N, straps, the JTAG TAP and the SMBus slave
(20_pins_power_rails_and_sequencing.md R650-R670, 19_boot_security_and_defaults.md R643, R644).
-/

namespace Sys2Proof.Machine

namespace Dev

/-! ### Supplies and RESET_N (R654-R657, 18 R619) -/

/-- The pins changed. -/
def onPins (d : Dev) (f : Pins → Pins) : Dev := { d with pins := f d.pins }

/-- POWER_UP (R654): the supplies rise in order with RESET_N held low. -/
def powerUp (d : Dev) : Dev :=
  if d.pins.power then d
  else (d.chipCleared 0 false).onPins (fun p => { power := true, resetLow := true, prochotLow := p.prochotLow })

/-- SUPPLY_LOSS (R656): a rail of R651, in its order, leaves its band. THERMTRIP_N stays asserted while VDD_CORE and VDD_AUX are
present (R660). -/
def supplyLoss (d : Dev) (rail : Nat) : Dev :=
  if !d.pins.power then d
  else
    let n : Dev := { fresh := d.fresh, flash := d.flash, pins := d.pins, out := d.out }
    n.onPins (fun p => { p with power := false, tripped := p.tripped && rail != 0 && rail != 5, boundary := none })

/-- RESET_N_ASSERT (R657): a chip reset of kind 0x3; the TAP keeps its state (R667), and the sensors their comparators (R660). -/
def resetAssert (d : Dev) (l : Links) : Dev × Links :=
  if d.pins.resetLow then (d, l)
  else if !d.pins.power then (d.onPins (fun p => { p with resetLow := true }), l)
  else
    let keep := d.power
    let d := (d.chipCleared 0 false).onPins (fun p => { p with resetLow := true })
    ({ d with power := { d.power with trip := keep.trip, tripDue := keep.tripDue } }, [])

/-- Sampled straps as SMB_STRAP holds them (R662, R670). -/
def strapWord (fwd smba : Nat) (testEn : Bool) : Nat := b2n testEn * 2 ^ 15 + smba % 8 * 2 ^ 12 + fwd % 4096

/-- RESET_N_RELEASE (R654 step 7, R662, 19 R633): the straps are sampled and the boot runs, with the DDR5 modules in place. In the
state after reset the release is the one that the ROM has not answered yet (log entry 50). -/
def resetRelease (d : Dev) (l : Links) (fwd smba : Nat) (testEn : Bool) (ms : List Module) : Dev × Links :=
  if d.pins.power ∧ (d.pins.resetLow = true ∨ (d.boot.runs = .none ∧ d.isSet F.SMB_STRAP_test_en = false)) then
    let d := d.onPins (fun p => { p with resetLow := false, boundary := none })
    ((d.wr .SMB_STRAP 0 0 (strapWord fwd smba testEn)).bootUp ms 3, [])
  else (d, l)

/-! ### JTAG (19 R643, R644, R667) -/

/-- The TAP's state admits an instruction (R643). -/
def tapAdmits (tap : Nat) (i : TapInstr) : Bool :=
  match i with
  | .bypass | .idcode | .sample => true
  | .extest | .clamp | .highz => tap == 1
  | .debug => tap == 2

/-- An instruction loaded into the TAP: one that the state does not admit acts as BYPASS. -/
def loadTap (d : Dev) (i : TapInstr) : Dev :=
  d.onPins (fun p => { p with ir := if tapAdmits p.tap i then i else .bypass, boundary := none })

/-- TAP_RESET (R667): the TAP holds IDCODE and drives nothing; its state of R643 stays. -/
def tapReset (d : Dev) : Dev := d.onPins (fun p => { p with ir := .idcode, boundary := none })

/-- An instruction drives the pins. -/
def TapInstr.drives (i : TapInstr) : Bool := i == .extest || i == .clamp || i == .highz

/-- BOUNDARY_SCAN_INSTRUCTION (R643): the cells drive the pins only while RESET_N is asserted. IDCODE reads 0xB06405AB. -/
def boundaryScan (d : Dev) (i : TapInstr) (cells : List Bool) : Dev :=
  if !d.pins.power then d
  else
    let d := d.loadTap i
    let d := if d.pins.ir = .idcode then d.emit (.jtag (leBytes 4 0xB06405AB)) else d
    d.onPins (fun p => { p with boundary := if TapInstr.drives p.ir && p.resetLow then some (p.ir, cells) else none })

/-- JTAG_DEBUG_ACCESS (R643): a read or a write of register space as master 0x03, in the debug state alone. -/
def jtagAccess (d : Dev) (key : Nat) (write : Option Nat) : Dev :=
  let d := d.loadTap .debug
  if d.pins.ir ≠ .debug then d
  else
    match write with
    | none => d.emit (.jtag (leBytes 8 (d.regRead key)))
    | some v => d.keyWrite 3 key v

/-- A token's signer is the vendor, or the owner that the valid owner record in use names (R638, R644, log entry 52). -/
def tokenSigner (d : Dev) (key : List Byte) : Bool :=
  let h := Config.sha256 key
  h == Config.vendorHash || (match d.boot.record with
    | some k => !vendorRecord (d.copy k) && h == ((d.copy k).drop 0xD8).take 32
    | none => false)

/-- The challenge in use. -/
def challenge (d : Dev) : List Byte := (List.range 4).foldl (fun l w => l ++ leBytes 8 (d.rd .DBG_CHALLENGE 0 w)) []

/-- DBG_TOKEN (R644): judged by the firmware that runs; a fresh challenge follows. -/
def debugToken (d : Dev) (token : List Byte) : Dev :=
  if d.boot.runs = .none then d
  else
    let c := token.take 32
    let key := (token.drop 32).take 32
    let ok := d.fld F.DBG_CTRL_policy == 2 && token.length == 64 + 7856 && c == d.challenge && d.tokenSigner key
      && Config.signed key c (token.drop 64)
    let d := d.setFld F.DBG_STATUS_token_rejected 0 0 (b2n (!ok))
    let d := if ok then (d.setTap 2).raise F.SEC_ERR_STATUS_debug_unlock else d
    d.drawChallenge

/-! ### The SMBus slave (R663-R665) -/

/-- The slave changed. -/
def onSmb (d : Dev) (f : SmBus → SmBus) : Dev := { d with smbus := f d.smbus }

/-- The slave acknowledges an address (R663). -/
def smbAcks (d : Dev) : Bool := decide (d.smbus.readyAt ≤ d.now)

/-- A block write's PEC byte, none where the controller sends none (R664): the device, or none where the transaction is
discarded. -/
def pecDrop (d : Dev) (pec : Option Bool) : Bool :=
  match pec with
  | some ok => !ok
  | none => d.isSet F.SMB_CTRL_pec_req

/-- A partial message is dropped with a leaf. -/
def smbDrop (d : Dev) (x : Field) : Dev := (d.onSmb (fun b => { b with partial_ := none })).raise x

/-- A complete message delivered to channel 0 (R665). -/
def smbDeliver (d : Dev) (bs : List Byte) : Dev :=
  let d := d.onSmb (fun b => { b with partial_ := none })
  if !d.isSet F.SMB_CTRL_mbx_en then d.raise F.SMB_ERR_STATUS_access_denied
  else
    let (ok, d) := d.mbxArrive 0x20 0 .smbus bs
    if ok then d.bump F.SMB_MSG_CNT_posted 0 0 1 else d

/-- The bytes received so far (R665): kept, delivered or dropped. -/
def smbReceived (d : Dev) (bs : List Byte) : Dev :=
  if bs.length < 8 then d.onSmb (fun b => { b with partial_ := some bs })
  else if 240 < field bs 6 2 then d.smbDrop F.SMB_ERR_STATUS_overlong
  else if 16 + field bs 6 2 < bs.length then d.smbDrop F.SMB_ERR_STATUS_bad_cmd
  else if bs.length = 16 + field bs 6 2 then d.smbDeliver bs
  else d.onSmb (fun b => { b with partial_ := some bs })

/-- SMB_MSG_START (R664): 0x10, with 1 to 128 bytes. -/
def smbStart (d : Dev) (bs : List Byte) (pec : Option Bool) : Dev :=
  if !d.smbAcks then d
  else if d.pecDrop pec then d.raise F.SMB_ERR_STATUS_pec_err
  else (d.onSmb (fun b => { b with partial_ := none })).smbReceived bs

/-- SMB_MSG_APPEND (R664): 0x11, after a 0x10 of 128 bytes. -/
def smbAppend (d : Dev) (bs : List Byte) (pec : Option Bool) : Dev :=
  if !d.smbAcks then d
  else if d.pecDrop pec then d.raise F.SMB_ERR_STATUS_pec_err
  else
    match d.smbus.partial_ with
    | some h => if h.length = 128 then d.smbReceived (h ++ bs) else d.smbDrop F.SMB_ERR_STATUS_bad_cmd
    | none => d.smbDrop F.SMB_ERR_STATUS_bad_cmd

/-- SMB_MSG_TAKE (R664): 0x20. -/
def smbTake (d : Dev) : Dev :=
  if !d.smbAcks then d
  else
    let (m, d) := d.ringTake 1
    let bs := m.getD emptyMarker
    let d := if m.isSome then d.bump F.SMB_MSG_CNT_taken 0 0 1 else d
    (d.onSmb (fun b => { b with readBuf := some bs })).emit (.smbus (bs.take 128))

/-- SMB_MSG_READ_REST (R664): 0x21. -/
def smbRest (d : Dev) : Dev := if !d.smbAcks then d else d.emit (.smbus ((d.smbus.readBuf.getD []).drop 128))

/-- SMB_REG_SELECT (R664): 0x30. -/
def smbSelect (d : Dev) (window offset : Nat) (pec : Option Bool) : Dev :=
  if !d.smbAcks then d
  else if d.pecDrop pec then d.raise F.SMB_ERR_STATUS_pec_err
  else d.onSmb (fun b => { b with window, offset := offset / 8 * 8 })

/-- SMB_REG_READ (R664, R665): 0x31. -/
def smbRegRead (d : Dev) : Dev :=
  if !d.smbAcks then d
  else if d.smbus.window = 0x41 ∨ d.smbus.window = 0x42 ∨ d.smbus.window = 0x43 then
    (d.emit (.smbus (leBytes 8 (d.regRead (d.smbus.window * 2 ^ 24 + d.smbus.offset))))).bump F.SMB_READ_CNT_reads 0 0 1
  else (d.emit (.smbus (List.replicate 8 0xFF))).raise F.SMB_ERR_STATUS_access_denied

/-- SMB_ARA (R663): the slave answers 0x0C with its address while ALERT_N is asserted. -/
def smbAra (d : Dev) : Dev :=
  if d.smbAcks && d.isSet F.SMB_CTRL_ara_en && d.alert then d.emit (.smbus [BitVec.ofNat 8 (0x58 + d.fld F.SMB_STRAP_smba)]) else d

/-- SMB_TIMEOUT (R663): the interface is reset; a message whose transactions are complete so far stays (log entry 51). -/
def smbTimeout (d : Dev) : Dev := d.raise F.SMB_ERR_STATUS_timeout

end Dev

end Sys2Proof.Machine
end

