-- ==== Sys2Proof/Machine/CmdPins.lean ====
section
/-!
DEFINITION. The commands of the pins, of the JTAG TAP and of the SMBus slave (20_pins_power_rails_and_sequencing.md, 19_boot_security_and_defaults.md R643, R644).
-/

namespace Sys2Proof.Machine

/-- RESET_N_ASSERT (R657). -/
def execResetNAssert (s : State) : Host.Outcome State Fault Refusal :=
  s.applyPins (fun d l => d.resetAssert l)

/-- RESET_N_RELEASE (19 R633): the straps and the DDR5 modules in place. -/
def execResetNRelease (fwd : BitVec 12) (smba : BitVec 3) (testEn : Bool) (ms : List Module) (s : State) :
    Host.Outcome State Fault Refusal :=
  s.applyPins (fun d l => d.resetRelease l fwd.toNat smba.toNat testEn ms)

/-- SUPPLY_LOSS (R656): a rail, in the order of R651. -/
def execSupplyLoss (rail : Fin 6) (s : State) : Host.Outcome State Fault Refusal :=
  s.applyPins (fun d _ => (d.supplyLoss rail, []))

/-- POWER_UP (R654). -/
def execPowerUp (s : State) : Host.Outcome State Fault Refusal :=
  s.applyPins (fun d l => (d.powerUp, l))

/-- TAP_RESET (R667). -/
def execTapReset (s : State) : Host.Outcome State Fault Refusal :=
  s.applyPins (fun d l => (d.tapReset, l))

/-- BOUNDARY_SCAN_INSTRUCTION (19 R643). -/
def execBoundaryScanInstruction (tap : TapInstr) (cells : List Bool) (s : State) : Host.Outcome State Fault Refusal :=
  s.applyPins (fun d l => (d.boundaryScan tap cells, l))

/-- DBG_TOKEN (19 R644). -/
def execDbgToken (token : List Byte) (s : State) : Host.Outcome State Fault Refusal :=
  s.apply (fun d => d.debugToken token)

/-- JTAG_DEBUG_ACCESS (19 R643). -/
def execJtagDebugAccess (key : BitVec 32) (write : Option (BitVec 64)) (s : State) : Host.Outcome State Fault Refusal :=
  s.apply (fun d => d.jtagAccess key.toNat (write.map BitVec.toNat))

/-- SMB_MSG_START (R664). -/
def execSmbMsgStart (bs : List Byte) (pec : Option Bool) (s : State) : Host.Outcome State Fault Refusal :=
  s.apply (fun d => d.smbStart bs pec)

/-- SMB_MSG_APPEND (R664). -/
def execSmbMsgAppend (bs : List Byte) (pec : Option Bool) (s : State) : Host.Outcome State Fault Refusal :=
  s.apply (fun d => d.smbAppend bs pec)

/-- SMB_MSG_TAKE (R664). -/
def execSmbMsgTake (s : State) : Host.Outcome State Fault Refusal :=
  s.apply (fun d => d.smbTake)

/-- SMB_MSG_READ_REST (R664). -/
def execSmbMsgReadRest (s : State) : Host.Outcome State Fault Refusal :=
  s.apply (fun d => d.smbRest)

/-- SMB_REG_SELECT (R664). -/
def execSmbRegSelect (window : BitVec 8) (offset : BitVec 24) (pec : Option Bool) (s : State) :
    Host.Outcome State Fault Refusal :=
  s.apply (fun d => d.smbSelect window.toNat offset.toNat pec)

/-- SMB_REG_READ (R665). -/
def execSmbRegRead (s : State) : Host.Outcome State Fault Refusal :=
  s.apply (fun d => d.smbRegRead)

/-- SMB_ARA (R663). -/
def execSmbAra (s : State) : Host.Outcome State Fault Refusal :=
  s.apply (fun d => d.smbAra)

/-- SMB_TIMEOUT (R663). -/
def execSmbTimeout (s : State) : Host.Outcome State Fault Refusal :=
  s.apply (fun d => d.smbTimeout)

end Sys2Proof.Machine
end

