-- ==== Sys2Proof/Machine/CmdPower.lean ====
section
/-!
DEFINITION. The commands of power, temperature and screens (16_power_thermal_and_measurement.md, 17_reliability_and_silent_errors.md R594-R602).
-/

namespace Sys2Proof.Machine

/-- POWER_WINDOW_END (R560). -/
def execPowerWindowEnd (w : Window) (s : State) : Host.Outcome State Fault Refusal :=
  s.apply (fun d => d.windowEnd w)

/-- LOOP_WATCHDOG (R567). -/
def execLoopWatchdog (s : State) : Host.Outcome State Fault Refusal :=
  s.apply (fun d => d.loopWatchdog)

/-- PROCHOT_ASSERT (R577, 20 R659): a pin, which counts once RESET_N is high. -/
def execProchotAssert (s : State) : Host.Outcome State Fault Refusal :=
  s.applyPins (fun d l => (if d.awake then d.prochotAssert else { d with pins := { d.pins with prochotLow := true } }, l))

/-- PROCHOT_RELEASE (R577). -/
def execProchotRelease (s : State) : Host.Outcome State Fault Refusal :=
  s.applyPins (fun d l => (if d.awake then d.prochotRelease else { d with pins := { d.pins with prochotLow := false } }, l))

/-- DROOP_EVENT (R573). -/
def execDroopEvent (island : Nat) (s : State) : Host.Outcome State Fault Refusal :=
  s.apply (fun d => d.droopEvent island)

/-- DROOP_END (R573). -/
def execDroopEnd (island : Nat) (s : State) : Host.Outcome State Fault Refusal :=
  s.apply (fun d => d.droopEnd island)

/-- THERMAL_SAMPLE (R575): readings in 1/16 °C. -/
def execThermalSample (rs : List (Option Int)) (s : State) : Host.Outcome State Fault Refusal :=
  s.applyPins (fun d l => (d.thermalSample rs, l))

/-- DDR_SENSOR_READ (R579). -/
def execDdrSensorRead (rs : List (Option Int)) (s : State) : Host.Outcome State Fault Refusal :=
  s.apply (fun d => d.ddrSensors rs)

/-- THERMTRIP (R578, 20 R660). -/
def execThermtrip (s : State) : Host.Outcome State Fault Refusal :=
  s.applyPins (fun d l => (d.thermtrip, l))

/-- AUTO_SCREEN_TIMER (17 R595). -/
def execAutoScreenTimer (fails : List FailedTest) (s : State) : Host.Outcome State Fault Refusal :=
  s.apply (fun d => d.autoScreen fails)

/-- SCREEN_DEADLINE (17 R602). -/
def execScreenDeadline (s : State) : Host.Outcome State Fault Refusal :=
  s.apply (fun d => d.screenDeadline)

end Sys2Proof.Machine
end

