-- ==== Sys2Proof/Machine/Manage.lean ====
section
/-!
DEFINITION. Attestation, updates of the boot flash and management datagrams (19_boot_security_and_defaults.md R635-R642,
15_host_ethernet_interface.md R550, R551).
-/

namespace Sys2Proof.Machine

namespace Dev

/-! ### Attestation quotes (19 R642) -/

/-- The first 0x100 bytes of a quote. -/
def quoteHeader (d : Dev) (nonce : List Byte) : List Byte :=
  let flags := d.fld F.SEC_STATUS_identity_ok + 2 * d.fld F.SEC_STATUS_owner + 4 * d.fld F.SEC_STATUS_fallback
    + 8 * d.fld F.SEC_STATUS_rom_alone + 16 * d.pins.tap + 64 * b2n d.boot.record.isNone
  let image := (List.range 4).foldl (fun l w => l ++ leBytes 8 (d.rd .SEC_IMG_HASH 0 w)) []
  let record := match d.boot.record with
    | some k => Config.sha256 ((d.copy k).take 0x420)
    | none => []
  padTo 0x20 (leBytes 2 0x9A01 ++ leBytes 2 25232 ++ leBytes 4 flags ++ leBytes 2 0x0640 ++ leBytes 1 0xB0
      ++ leBytes 1 (d.fld F.SEC_STATUS_slot) ++ padTo 4 ((d.boot.image.drop 0xC).take 4) ++ leBytes 4 (d.fld F.SEC_SVN_svn)
      ++ leBytes 4 (d.fld F.SEC_SVN_floor) ++ leBytes 2 d.deviceId ++ leBytes 1 (b2n d.idValid))
    ++ padTo 32 nonce ++ image ++ padTo 32 record ++ padTo 32 d.boot.pack.hash
    ++ padTo 0x60 (leBytes 8 d.now ++ leBytes 4 (d.rd .RST_CR_CNT) ++ leBytes 1 (d.rd .RST_CAUSE))

/-- A quote's 25,232 bytes: the signature is zero without an identity (R641) and where quote_en is 0 (R647). -/
def quote (d : Dev) (nonce : List Byte) : List Byte :=
  let key := (Config.deviceSecret d.flash.identity).map (fun s => Config.derived s "attest")
  let body := d.quoteHeader nonce ++ padTo 32 ((key.map Config.publicKey).getD []) ++ padTo 7856 (Config.certificate d.flash.identity)
  body ++ (match key with
    | some k => if d.isSet F.SEC_CTRL_quote_en then padTo 17088 (Config.sign k body) else List.replicate 17088 0
    | none => List.replicate 17088 0)

/-- A body in fragments of 240 bytes, with the header of a command's response (14 R505). -/
def fragments (m : Msg) (c : Nat) (body : List Byte) : List (List Byte) :=
  let n := max 1 (ceilDiv body.length 240)
  (List.range n).map (fun i =>
    let part := (body.drop (240 * i)).take 240
    ({ code := m.code, flags := if i + 1 < n then 9 else 1, channel := c, context := m.context, length := part.length, tag := m.tag
       body := part } : Msg).toBytes)

/-- Fragments posted while the reply channel holds fewer than 16 messages; the rest wait (R642). -/
def postQuote (d : Dev) (c : Nat) (l : List (List Byte)) : Dev :=
  let waits := d.boot.quotes.any (fun q => q.1 = c)
  let room := if waits then 0 else 16 - (d.ring c).msgs.length
  let d := (l.take room).foldl (fun d b => d.proisPut c b) d
  { d with boot := { d.boot with quotes := d.boot.quotes ++ (l.drop room).map (fun b => (c, b)) } }

/-- GET_QUOTE (R642); a management datagram is answered with the whole quote at once. -/
def getQuote : Handler := fun d w m =>
  match w.reply with
  | some c => (.later, d.postQuote c (fragments m c (d.quote m.body)))
  | none => (.now sOK (d.quote m.body), d)

/-! ### Updates (19 R635, R639) -/

/-- An update that is denied. -/
def updateDenied (d : Dev) : Answer × Dev := (.st sDENIED, d.raise F.SEC_ERR_STATUS_update_denied)

/-- UPDATE_IMAGE (R635): `written` says that the flash write and its read-back succeed. A slot whose write fails holds no image
(log entry 49). -/
def updateImage (written : Bool) : Handler := fun d w m =>
  let slot := field m.body 0 1
  let a := field m.body 8 8
  let n := field m.body 16 8
  let activate := field m.body 24 1
  if 2 ≤ slot ∨ 2 ≤ activate ∨ slot = d.fld F.SEC_STATUS_slot ∨ d.inWindow w a n = false then (.st sBADARG, d)
  else
    match d.stagingRead a n with
    | (none, d) => d.updateDenied
    | (some bs, d) =>
      let t := d.tailInUse
      if !imageValid bs t.floor then d.updateDenied
      else
        let d := { d with flash := { d.flash with slots := Sp.set (fun _ => []) d.flash.slots slot (if written then bs else []) } }
        if !written then (d.raise F.SEC_ERR_STATUS_flash_error).updateDenied
        else if activate = 0 then (.st sOK, d)
        else (.st sOK, d.writeTail { t with active := slot, pending := true, trial := [0xFF, 0xFF, 0xFF] })

/-- A staged record may replace the one in use (R639). -/
def updateAllowed (d : Dev) (bs : List Byte) : Bool :=
  match d.boot.record with
  | none => false
  | some k =>
    let c := d.copy k
    recordSigned bs && (vendorRecord bs || Config.sha256 ((bs.drop 0x400).take 32) == (c.drop 0xD8).take 32)
      && decide (field c 4 4 < field bs 4 4)

/-- UPDATE_CONFIG (R639): the record takes effect at the next chip reset. -/
def updateConfig (written : Bool) : Handler := fun d w m =>
  let a := field m.body 0 8
  let n := field m.body 8 8
  if !d.inWindow w a n then (.st sBADARG, d)
  else
    match d.stagingRead a n with
    | (none, d) => d.updateDenied
    | (some bs, d) =>
      if !d.updateAllowed bs then d.updateDenied
      else
        let t := d.tailInUse
        let (k, d) := d.writeRecord bs { t with seq := (t.seq + 1) % 2 ^ 32, floor := max t.floor (field bs 0xF8 4) }
        if written then (.st sOK, d)
        else (({ d with flash := { d.flash with records := Sp.set (fun _ => []) d.flash.records k [] } }).raise
          F.SEC_ERR_STATUS_flash_error).updateDenied

/-! ### Management datagrams (15 R550, R551) -/

/-- The commands that "all" may issue, by code. -/
def observerHandler (code : Nat) : Handler :=
  match code with
  | 0x0001 => getInfo
  | 0x0002 => getStatus
  | 0x0003 => getCounters
  | 0x0004 => getTelemetry
  | 0x0060 => getQuote
  | _ => fun d _ _ => (.st sUNSUPPORTED, d)

/-- A datagram is dropped and counted. -/
def datagramDrop (d : Dev) : Dev := d.bump F.ETH_MGMT_CNT_dropped 0 0 1

/-- MANAGEMENT_DATAGRAM (R550, R551): a datagram to a UDP port at one of the device's addresses, from a peer. A response of the
same command kind is one datagram per fragment. -/
def managementDatagram (d : Dev) (peer : Nat) (v6 : Bool) (port : Nat) (payload : List Byte) : Dev :=
  let kind := field payload 2 1
  let seq := field payload 4 4
  let m := Msg.ofBytes (payload.drop 8)
  let recent := d.eth.mgmtAt.filter (fun t => d.now < t + 1000000000)
  if !d.eth.up ∨ d.boot.runs = .none ∨ !d.isSet F.ETH_CTRL_mgmt_en then d
  else if port ≠ d.fld F.ETH_CTRL_mgmt_port then d.ethDrop
  else if field payload 0 2 ≠ 0x7E01 ∨ 3 ≤ kind ∨ payload.length < 24 ∨ payload.length ≠ 24 + m.length then d.datagramDrop
  else if kind ≠ 0 then d
  else if 1000 ≤ recent.length then (d.datagramDrop).raise F.ETH_ERR_STATUS_mgmt_drop
  else
    let d := (d.onEth (fun e => { e with mgmtAt := d.now :: recent })).bump F.ETH_MGMT_CNT_answered 0 0 1
    let (a, d) := d.judged { identity := 0, privilege := 0, reply := none } m (observerHandler m.code)
    match a with
    | .later => d
    | .now st body =>
      (fragments m 0 body).foldl (fun d b =>
        let b := b.take 2 ++ leBytes 1 st ++ b.drop 3
        d.ethSend "datagram" peer (d.datagramBytes v6 b.length) (datagramHeader 1 seq ++ b)) d

end Dev

end Sys2Proof.Machine
end

