-- ==== Sys2Proof/Machine/CmdProis.lean ====
section
/-!
DEFINITION. The commands that Prois takes from the mailboxes (14_control_mailboxes_and_interrupts.md R520).
-/

namespace Sys2Proof.Machine

/-- GET_INFO (R520): the oldest message of a channel. -/
def execGetInfo (c : Fin 64) (s : State) : Host.Outcome State Fault Refusal :=
  s.apply (fun d => d.prois c 0x0001 Dev.getInfo)

/-- GET_STATUS (R520): the oldest message of a channel. -/
def execGetStatus (c : Fin 64) (s : State) : Host.Outcome State Fault Refusal :=
  s.apply (fun d => d.prois c 0x0002 Dev.getStatus)

/-- GET_COUNTERS (17 R609): the oldest message of a channel. -/
def execGetCounters (c : Fin 64) (s : State) : Host.Outcome State Fault Refusal :=
  s.apply (fun d => d.prois c 0x0003 Dev.getCounters)

/-- GET_TELEMETRY (16 R586): the oldest message of a channel. -/
def execGetTelemetry (c : Fin 64) (s : State) : Host.Outcome State Fault Refusal :=
  s.apply (fun d => d.prois c 0x0004 Dev.getTelemetry)

/-- GET_FAULT_RECORD (08 R306): the oldest message of a channel. -/
def execGetFaultRecord (c : Fin 64) (s : State) : Host.Outcome State Fault Refusal :=
  s.apply (fun d => d.prois c 0x0005 Dev.getFaultRecord)

/-- GET_FLAGS (R520): the oldest message of a channel. -/
def execGetFlags (c : Fin 64) (s : State) : Host.Outcome State Fault Refusal :=
  s.apply (fun d => d.prois c 0x0006 Dev.getFlags)

/-- ACK_ALERT (R526): the oldest message of a channel. -/
def execAckAlert (c : Fin 64) (s : State) : Host.Outcome State Fault Refusal :=
  s.apply (fun d => d.prois c 0x0008 Dev.ackAlert)

/-- SET_EVENT_MASK (R520): the oldest message of a channel. -/
def execSetEventMask (c : Fin 64) (s : State) : Host.Outcome State Fault Refusal :=
  s.apply (fun d => d.prois c 0x0009 Dev.setEventMask)

/-- STOP_FUNCTION (R523): the oldest message of a channel; `missed` are contexts that miss their stop points, `fails` the tests that fail in a screen that goes on. -/
def execStopFunction (c : Fin 64) (missed : List Nat) (fails : List FailedTest) (s : State) :
    Host.Outcome State Fault Refusal :=
  s.apply (fun d => d.prois c 0x0010 (Dev.stopFunction missed fails))

/-- START_FUNCTION (R523): the oldest message of a channel. -/
def execStartFunction (c : Fin 64) (s : State) : Host.Outcome State Fault Refusal :=
  s.apply (fun d => d.prois c 0x0011 Dev.startFunction)

/-- RESET_DEVICE (18 R619): the oldest message of a channel. -/
def execResetDevice (c : Fin 64) (s : State) : Host.Outcome State Fault Refusal :=
  s.apply (fun d => d.prois c 0x0012 Dev.resetDevice)

/-- LOAD_JOB (08 R286): the oldest message of a channel. -/
def execLoadJob (c : Fin 64) (s : State) : Host.Outcome State Fault Refusal :=
  s.apply (fun d => d.prois c 0x0020 Dev.loadJob)

/-- UNLOAD_JOB (08 R289): the oldest message of a channel. -/
def execUnloadJob (c : Fin 64) (s : State) : Host.Outcome State Fault Refusal :=
  s.apply (fun d => d.prois c 0x0021 Dev.unloadJob)

/-- START_CONTEXT (08 R289): the oldest message of a channel. -/
def execStartContext (c : Fin 64) (s : State) : Host.Outcome State Fault Refusal :=
  s.apply (fun d => d.prois c 0x0022 Dev.startContextCmd)

/-- PREEMPT_CONTEXT (08 R311): the oldest message of a channel. -/
def execPreemptContext (c : Fin 64) (s : State) : Host.Outcome State Fault Refusal :=
  s.apply (fun d => d.prois c 0x0023 Dev.preemptCmd)

/-- PREEMPT_DEADLINE (08 R311): the oldest message of a channel; its units miss the deadline. -/
def execPreemptDeadline (c : Fin 64) (s : State) : Host.Outcome State Fault Refusal :=
  s.apply (fun d => d.prois c 0x0023 Dev.preemptLate)

/-- RESUME_CONTEXT (08 R312): the oldest message of a channel. -/
def execResumeContext (c : Fin 64) (s : State) : Host.Outcome State Fault Refusal :=
  s.apply (fun d => d.prois c 0x0024 Dev.resumeCmd)

/-- KILL_CONTEXT (08 R309): the oldest message of a channel. -/
def execKillContext (c : Fin 64) (s : State) : Host.Outcome State Fault Refusal :=
  s.apply (fun d => d.prois c 0x0025 Dev.killCmd)

/-- MAP_PAGES (08 R676): the oldest message of a channel. -/
def execMapPages (c : Fin 64) (s : State) : Host.Outcome State Fault Refusal :=
  s.apply (fun d => d.prois c 0x0026 Dev.mapPages)

/-- SET_CONTEXT_LIMITS (R520): the oldest message of a channel. -/
def execSetContextLimits (c : Fin 64) (s : State) : Host.Outcome State Fault Refusal :=
  s.apply (fun d => d.prois c 0x0027 Dev.setContextLimits)

/-- SET_AUDIT (09 R348): the oldest message of a channel. -/
def execSetAudit (c : Fin 64) (s : State) : Host.Outcome State Fault Refusal :=
  s.apply (fun d => d.prois c 0x0028 Dev.setAudit)

/-- SET_CACHE_SPLIT (06 R220): the oldest message of a channel. -/
def execSetCacheSplit (c : Fin 64) (s : State) : Host.Outcome State Fault Refusal :=
  s.apply (fun d => d.prois c 0x0030 Dev.setCacheSplit)

/-- SET_POWER_CAP (16 R563): the oldest message of a channel. -/
def execSetPowerCap (c : Fin 64) (s : State) : Host.Outcome State Fault Refusal :=
  s.apply (fun d => d.prois c 0x0031 Dev.setPowerCap)

/-- RUN_SCREEN (17 R594): the oldest message of a channel; `fails` are the tests that fail, `took` the duration of a full screen. -/
def execRunScreen (c : Fin 64) (fails : List FailedTest) (took : Nat) (s : State) : Host.Outcome State Fault Refusal :=
  s.apply (fun d => d.prois c 0x0032 (Dev.runScreen fails took))

/-- LOAD_TEST_PACK (17 R607): the oldest message of a channel. -/
def execLoadTestPack (c : Fin 64) (s : State) : Host.Outcome State Fault Refusal :=
  s.apply (fun d => d.prois c 0x0033 Dev.loadTestPack)

/-- SET_ROUTES (R520): the oldest message of a channel. -/
def execSetRoutes (c : Fin 64) (s : State) : Host.Outcome State Fault Refusal :=
  s.apply (fun d => d.prois c 0x0040 Dev.setRoutes)

/-- SWAP_ROUTE_BANK (13 R481): the oldest message of a channel. -/
def execSwapRouteBank (c : Fin 64) (s : State) : Host.Outcome State Fault Refusal :=
  s.apply (fun d => d.prois c 0x0041 Dev.swapRouteBank)

/-- SET_ROUTE_MODE (13 R478): the oldest message of a channel. -/
def execSetRouteMode (c : Fin 64) (s : State) : Host.Outcome State Fault Refusal :=
  s.apply (fun d => d.prois c 0x0042 Dev.setRouteMode)

/-- SET_PORT (R520): the oldest message of a channel. -/
def execSetPort (c : Fin 64) (s : State) : Host.Outcome State Fault Refusal :=
  s.apply (fun d => d.prois c 0x0043 Dev.setPortCmd)

/-- RETURN_PORT (13 R493): the oldest message of a channel. -/
def execReturnPort (c : Fin 64) (s : State) : Host.Outcome State Fault Refusal :=
  s.apply (fun d => d.prois c 0x0044 Dev.returnPortCmd)

/-- SET_LINK_PARAMS (R520): the oldest message of a channel. -/
def execSetLinkParams (c : Fin 64) (s : State) : Host.Outcome State Fault Refusal :=
  s.apply (fun d => d.prois c 0x0045 Dev.setLinkParams)

/-- BIND_CHANNEL (R520): the oldest message of a channel. -/
def execBindChannel (c : Fin 64) (s : State) : Host.Outcome State Fault Refusal :=
  s.apply (fun d => d.prois c 0x0048 Dev.bindChannel)

/-- SET_ETH_CONFIG (15 R553): the oldest message of a channel. -/
def execSetEthConfig (c : Fin 64) (s : State) : Host.Outcome State Fault Refusal :=
  s.apply (fun d => d.prois c 0x0050 Dev.setEthConfig)

/-- BIND_HOST (15 R541): the oldest message of a channel. -/
def execBindHost (c : Fin 64) (s : State) : Host.Outcome State Fault Refusal :=
  s.apply (fun d => d.prois c 0x0051 Dev.bindHost)

/-- GET_QUOTE (19 R642): the oldest message of a channel. -/
def execGetQuote (c : Fin 64) (s : State) : Host.Outcome State Fault Refusal :=
  s.apply (fun d => d.prois c 0x0060 Dev.getQuote)

/-- UPDATE_IMAGE (19 R635): the oldest message of a channel; `written` says that the flash write succeeds. -/
def execUpdateImage (c : Fin 64) (written : Bool) (s : State) : Host.Outcome State Fault Refusal :=
  s.apply (fun d => d.prois c 0x0061 (Dev.updateImage written))

/-- UPDATE_CONFIG (19 R639): the oldest message of a channel; `written` says that the flash write succeeds. -/
def execUpdateConfig (c : Fin 64) (written : Bool) (s : State) : Host.Outcome State Fault Refusal :=
  s.apply (fun d => d.prois c 0x0062 (Dev.updateConfig written))

/-- MANAGEMENT_DATAGRAM (15 R550). -/
def execManagementDatagram (peer : Nat) (v6 : Bool) (port : BitVec 16) (payload : List Byte) (s : State) :
    Host.Outcome State Fault Refusal :=
  s.apply (fun d => d.managementDatagram peer v6 port.toNat payload)

end Sys2Proof.Machine
end

