-- ==== Sys2Proof/Machine/CmdRegisters.lean ====
section
/-!
DEFINITION. The commands of the mailbox unit and of register space (14_control_mailboxes_and_interrupts.md R506-R528, 00_scope.md R13).
-/

namespace Sys2Proof.Machine

/-- MAILBOX_ARRIVAL (R506): a message reaches the mailbox unit from a port. -/
def execMailboxArrival (sender : BitVec 8) (c : Fin 64) (port : MbxPort) (bs : List Byte) (s : State) :
    Host.Outcome State Fault Refusal :=
  s.apply (fun d => (d.mbxArrive sender.toNat c port bs).2)

/-- MBX_CMD_POST (R528). -/
def execMbxCmdPost (p : Fin 4) (c : Fin 64) (s : State) : Host.Outcome State Fault Refusal :=
  s.apply (fun d => d.mbxPost p c)

/-- MBX_CMD_TAKE (R528). -/
def execMbxCmdTake (p : Fin 4) (c : Fin 64) (s : State) : Host.Outcome State Fault Refusal :=
  s.apply (fun d => d.mbxTake p c)

/-- MBX_DB_SET (R515). -/
def execMbxDbSet (p : Fin 4) (v : BitVec 32) (s : State) : Host.Outcome State Fault Refusal :=
  s.apply (fun d => d.dbSet p v.toNat)

/-- RETIRE_CMD (03 R126). -/
def execRetireCmd (a : Fin 8) (s : State) : Host.Outcome State Fault Refusal :=
  s.apply (fun d => d.retire a 2)

/-- TLB_INV (08 R314): the translation caches hold nothing that a walk would not give, so that their invalidation changes no state of the model (log entry 53). -/
def execTlbInv (n : Fin 16) (s : State) : Host.Outcome State Fault Refusal :=
  s.apply (fun d => d.invalidate n)

/-- FREC_CLR (08 R314). -/
def execFrecClr (n : Fin 16) (s : State) : Host.Outcome State Fault Refusal :=
  s.apply (fun d => d.clearRecord n)

/-- RETRAIN (13 R468). -/
def execRetrain (p : Fin 24) (s : State) : Host.Outcome State Fault Refusal :=
  s.apply (fun d => d.retrain p)

/-- CP_KICK (18 R620). -/
def execCpKick (s : State) : Host.Outcome State Fault Refusal :=
  s.apply (fun d => d.cpKick)

/-- PWR_FREQ_WRITE (16 R565). -/
def execPwrFreqWrite (step : BitVec 6) (duty : BitVec 4) (s : State) : Host.Outcome State Fault Refusal :=
  s.apply (fun d => d.writeFreq step.toNat duty.toNat)

/-- ROUTE_BANK_WRITE (13 R481). -/
def execRouteBankWrite (b : Fin 2) (s : State) : Host.Outcome State Fault Refusal :=
  s.apply (fun d => d.routeBank b)

/-- ROUTE_ENTRY_WRITE (13 R479): the entry of a bank, 65,536 to each. -/
def execRouteEntryWrite (entry : Fin 131072) (v : BitVec 32) (s : State) : Host.Outcome State Fault Refusal :=
  s.apply (fun d => d.routeWrite entry v.toNat)

/-- REGISTER_WRITE (00 R13): 8 bytes written by a control processor at an offset of register space. -/
def execRegisterWrite (m : Fin 4) (key : BitVec 32) (v : BitVec 64) (s : State) : Host.Outcome State Fault Refusal :=
  s.apply (fun d => d.keyWrite m key.toNat v.toNat)

end Sys2Proof.Machine
end

