-- ==== Sys2Proof/Machine/CmdReset.lean ====
section
/-!
DEFINITION. The commands of hang detection, resets and the boot (18_hang_detection_reset_and_recovery.md, 19_boot_security_and_defaults.md).
-/

namespace Sys2Proof.Machine

/-- POWER_ON_SCREEN (17 R594). -/
def execPowerOnScreen (fails : List FailedTest) (took : Nat) (s : State) : Host.Outcome State Fault Refusal :=
  s.apply (fun d => d.powerOnScreen fails took)

/-- PROGRESS_WATCHDOG (R616). -/
def execProgressWatchdog (c : Fin 4) (count : Nat) (s : State) : Host.Outcome State Fault Refusal :=
  s.apply (fun d => d.progressWatchdog c count)

/-- STOP_DEADLINE (R617). -/
def execStopDeadline (n : Fin 16) (s : State) : Host.Outcome State Fault Refusal :=
  s.apply (fun d => d.stopDeadline n)

/-- COMPUTE_RESET (R621). -/
def execComputeReset (started : List Nat) (s : State) : Host.Outcome State Fault Refusal :=
  s.apply (fun d => d.computeReset started)

/-- DRAIN_TIMEOUT (R621). -/
def execDrainTimeout (os : List Outstanding) (s : State) : Host.Outcome State Fault Refusal :=
  s.apply (fun d => d.drainTimeout os)

/-- COMPUTE_RECOVERY (R624). -/
def execComputeRecovery (failed : List Nat) (s : State) : Host.Outcome State Fault Refusal :=
  s.applyLinks (fun d l => d.computeRecovery l failed)

/-- CHIP_RESET (R625): the chip reset that is due, with the DDR5 modules in place. -/
def execChipReset (ms : List Module) (s : State) : Host.Outcome State Fault Refusal :=
  s.applyLinks (fun d l => d.chipReset l ms)

/-- FIRMWARE_WATCHDOG (R620). -/
def execFirmwareWatchdog (s : State) : Host.Outcome State Fault Refusal :=
  s.apply (fun d => d.firmwareWatchdog)

end Sys2Proof.Machine
end

