-- ==== Sys2Proof/Machine/CmdRhanak.lean ====
section
/-!
DEFINITION. The commands of the Rhanak links (13_rhanak_links_and_topology.md R463-R500).
-/

namespace Sys2Proof.Machine

/-- PORT_TRAINING (R467): no port trains in manufacturing test (20 R662). -/
def execPortTraining (p : Fin 24) (lanes : BitVec 4) (nbId : BitVec 16) (nbValid : Bool) (nbPort : Fin 24) (s : State) :
    Host.Outcome State Fault Refusal :=
  s.apply (fun d => if d.isSet F.SMB_STRAP_test_en then d else d.portTrain p lanes.toNat nbId.toNat nbValid nbPort)

/-- TRAINING_RETRY (R467). -/
def execTrainingRetry (p : Fin 24) (s : State) : Host.Outcome State Fault Refusal :=
  s.apply (fun d => d.trainRetry p)

/-- PORT_DOWN (R468): no good flit for down_time. -/
def execPortDown (p : Fin 24) (s : State) : Host.Outcome State Fault Refusal :=
  s.apply (fun d => d.portQuiet p)

/-- LINK_FLIT_RECEIVE (R469). -/
def execLinkFlitReceive (p : Fin 24) (flit : List Byte) (errs : List (Nat × Nat)) (note : Dev.LinkNote) (s : State) :
    Host.Outcome State Fault Refusal :=
  s.apply (fun d => d.linkFlit p flit errs note)

/-- LINK_NAK (R474). -/
def execLinkNak (p : Fin 24) (seq : BitVec 12) (s : State) : Host.Outcome State Fault Refusal :=
  s.apply (fun d => d.linkNak p seq.toNat)

/-- FORWARD_ACK (R475). -/
def execForwardAck (p : Fin 24) (cls : Fin 2) (seq : BitVec 24) (s : State) : Host.Outcome State Fault Refusal :=
  s.apply (fun d => d.ackHeld p cls seq.toNat)

/-- PACKET_ARRIVAL (R480). -/
def execPacketArrival (p : Fin 24) (accepted : Bool) (s : State) : Host.Outcome State Fault Refusal :=
  s.apply (fun d => d.packetArrival p accepted)

/-- REROUTED_PACKET (R489). -/
def execReroutedPacket (p : Fin 24) (accepted : Bool) (s : State) : Host.Outcome State Fault Refusal :=
  s.apply (fun d => d.reroutedPacket p accepted)

/-- LEAVING_NOTICE (R468). -/
def execLeavingNotice (p : Fin 24) (s : State) : Host.Outcome State Fault Refusal :=
  s.apply (fun d => d.leavingNotice p)

/-- E2E_TIMEOUT (R483). -/
def execE2eTimeout (tag : Nat) (s : State) : Host.Outcome State Fault Refusal :=
  s.apply (fun d => d.e2eTimeout tag)

/-- SYNC_EXCHANGE (R494). -/
def execSyncExchange (fraction : Fin 8) (s : State) : Host.Outcome State Fault Refusal :=
  s.apply (fun d => d.syncExchange fraction)

/-- SYNC_FLIT (R495). -/
def execSyncFlit (p : Fin 24) (a : Announce) (sent theirs : Nat) (fraction : Fin 8) (s : State) :
    Host.Outcome State Fault Refusal :=
  s.apply (fun d => d.syncFlit p a sent theirs fraction)

/-- ROOT_TIMEOUT (R495). -/
def execRootTimeout (s : State) : Host.Outcome State Fault Refusal :=
  s.apply (fun d => d.rootTimeout)

/-- TIME_HOLD_END (R496). -/
def execTimeHoldEnd (s : State) : Host.Outcome State Fault Refusal :=
  s.apply (fun d => d.holdEnd)

end Sys2Proof.Machine
end

