-- ==== Sys2Proof/Machine/CmdSequencer.lean ====
section
/-!
DEFINITION. The commands that the scalar sequencers run (08_jobs_contexts_and_translation.md R298-R303).
-/

namespace Sys2Proof.Machine

/-- ALU (R298). -/
def execAlu (c : Fin 4) (w : SeqWord) (s : State) : Host.Outcome State Fault Refusal :=
  s.applyCompute (fun d => d.runSeq c 0x0 w Run.seqAlu)

/-- ALUI (R298). -/
def execAlui (c : Fin 4) (w : SeqWord) (s : State) : Host.Outcome State Fault Refusal :=
  s.applyCompute (fun d => d.runSeq c 0x1 w Run.seqAlui)

/-- LIH (R298). -/
def execLih (c : Fin 4) (w : SeqWord) (s : State) : Host.Outcome State Fault Refusal :=
  s.applyCompute (fun d => d.runSeq c 0x2 w Run.seqLih)

/-- LD (R298, 06 R205). -/
def execLd (c : Fin 4) (w : SeqWord) (s : State) : Host.Outcome State Fault Refusal :=
  s.applyCompute (fun d => d.runSeq c 0x8 w Run.seqLd)

/-- ST (R298, 06 R205). -/
def execSt (c : Fin 4) (w : SeqWord) (s : State) : Host.Outcome State Fault Refusal :=
  s.applyCompute (fun d => d.runSeq c 0x9 w Run.seqSt)

/-- BR (R298). -/
def execBr (c : Fin 4) (w : SeqWord) (s : State) : Host.Outcome State Fault Refusal :=
  s.applyCompute (fun d => d.runSeq c 0x10 w Run.seqBr)

/-- JAL (R298). -/
def execJal (c : Fin 4) (w : SeqWord) (s : State) : Host.Outcome State Fault Refusal :=
  s.applyCompute (fun d => d.runSeq c 0x11 w Run.seqJal)

/-- JALR (R298). -/
def execJalr (c : Fin 4) (w : SeqWord) (s : State) : Host.Outcome State Fault Refusal :=
  s.applyCompute (fun d => d.runSeq c 0x12 w Run.seqJalr)

/-- ISSUE (R299, R301). -/
def execIssue (c : Fin 4) (w : SeqWord) (s : State) : Host.Outcome State Fault Refusal :=
  s.applyCompute (fun d => d.runSeq c 0x18 w Run.seqIssue)

/-- CSRR (R300). -/
def execCsrr (c : Fin 4) (w : SeqWord) (s : State) : Host.Outcome State Fault Refusal :=
  s.applyCompute (fun d => d.runSeq c 0x19 w Run.seqCsrr)

/-- CSRC (R298). -/
def execCsrc (c : Fin 4) (w : SeqWord) (s : State) : Host.Outcome State Fault Refusal :=
  s.applyCompute (fun d => d.runSeq c 0x1a w Run.seqCsrc)

/-- HALT (R298, R303). -/
def execHalt (c : Fin 4) (w : SeqWord) (s : State) : Host.Outcome State Fault Refusal :=
  s.applyCompute (fun d => d.runSeq c 0x1f w Run.seqHalt)

/-- CONTEXT_DONE (R303). -/
def execContextDone (n : Fin 16) (s : State) : Host.Outcome State Fault Refusal :=
  s.apply (fun d => d.contextDone n)

end Sys2Proof.Machine
end

