-- ==== Sys2Proof/Machine/CmdStreams.lean ====
section
/-!
DEFINITION. The commands of the fetch engine and its synchronisation (07_streams_descriptors_and_layouts.md R243-R281), and the mailbox operations (14_control_mailboxes_and_interrupts.md R512).
-/

namespace Sys2Proof.Machine

/-- ST_LOAD (R265, R266). -/
def execStLoad (c : Fin 4) (p : Pick) (env : Env) (s : State) : Host.Outcome State Fault Refusal :=
  s.applyCompute (fun d => d.runStream c p 0x10 Run.stLoad) env

/-- ST_STORE (R265, R266). -/
def execStStore (c : Fin 4) (p : Pick) (env : Env) (s : State) : Host.Outcome State Fault Refusal :=
  s.applyCompute (fun d => d.runStream c p 0x11 Run.stStore) env

/-- ST_COPY (R274). -/
def execStCopy (c : Fin 4) (p : Pick) (env : Env) (s : State) : Host.Outcome State Fault Refusal :=
  s.applyCompute (fun d => d.runStream c p 0x12 Run.stCopy) env

/-- ST_TILE (R268-R270). -/
def execStTile (c : Fin 4) (p : Pick) (env : Env) (s : State) : Host.Outcome State Fault Refusal :=
  s.applyCompute (fun d => d.runStream c p 0x13 Run.stTile) env

/-- ST_MAXSCAN (R267). -/
def execStMaxscan (c : Fin 4) (p : Pick) (env : Env) (s : State) : Host.Outcome State Fault Refusal :=
  s.applyCompute (fun d => d.runStream c p 0x14 Run.stMaxscan) env

/-- Q_DRAIN (R264). -/
def execQDrain (c : Fin 4) (s : State) : Host.Outcome State Fault Refusal :=
  s.applyCompute (fun d => d.runExec c 0x18 Run.qDrain)

/-- EV_SIGNAL (R251): at the fetch engine or at the execute engine. -/
def execEvSignal (c : Fin 4) (fetch : Bool) (s : State) : Host.Outcome State Fault Refusal :=
  s.applyCompute (fun d => d.runEvent c 0x19 fetch Run.evSignal)

/-- EV_WAIT (R251). -/
def execEvWait (c : Fin 4) (fetch : Bool) (s : State) : Host.Outcome State Fault Refusal :=
  s.applyCompute (fun d => d.runEvent c 0x1A fetch Run.evWait)

/-- MB_POST (14 R512). -/
def execMbPost (c : Fin 4) (p : Pick) (s : State) : Host.Outcome State Fault Refusal :=
  s.applyCompute (fun d => d.runFetch c p 0x60 (0x20 + c) (fun _ => true) Run.mbPost)

/-- MB_TAKE (14 R512, R513). -/
def execMbTake (c : Fin 4) (p : Pick) (s : State) : Host.Outcome State Fault Refusal :=
  s.applyCompute (fun d => d.runFetch c p 0x61 (0x20 + c) (fun _ => true) Run.mbTake)

end Sys2Proof.Machine
end

