-- ==== Sys2Proof/Machine/CmdUpdate.lean ====
section
/-!
DEFINITION. The commands of the update engine (11_parameter_update.md R397-R427).
-/

namespace Sys2Proof.Machine

/-- UPD_NORM (R409). -/
def execUpdNorm (c : Fin 4) (p : Pick) (env : Env) (s : State) : Host.Outcome State Fault Refusal :=
  s.applyCompute (fun d => d.runUpdate c p 0x68 Run.updNorm) env

/-- UPD_NORMRED (R410-R412). -/
def execUpdNormred (c : Fin 4) (p : Pick) (env : Env) (s : State) : Host.Outcome State Fault Refusal :=
  s.applyCompute (fun d => d.runUpdate c p 0x69 Run.updNormred) env

/-- UPD_APPLY (R413-R422). -/
def execUpdApply (c : Fin 4) (p : Pick) (env : Env) (s : State) : Host.Outcome State Fault Refusal :=
  s.applyCompute (fun d => d.runUpdate c p 0x6A Run.updApply) env

end Sys2Proof.Machine
end

