-- ==== Sys2Proof/Machine/Commands.lean ====
section
/-!
DEFINITION. The families of commands, gathered for the dispatch.
-/
end

