-- ==== Sys2Proof/Machine/Dispatch.lean ====
section
/-!
DEFINITION. The meaning of every command: one arm for each constructor, one direct call each.
-/

namespace Sys2Proof.Machine

def exec (i : Instr) (s : State) : Host.Outcome State Fault Refusal :=
  match i with
  | .alu c w => Sys2Proof.Machine.execAlu c w s
  | .alui c w => Sys2Proof.Machine.execAlui c w s
  | .lih c w => Sys2Proof.Machine.execLih c w s
  | .ld c w => Sys2Proof.Machine.execLd c w s
  | .st c w => Sys2Proof.Machine.execSt c w s
  | .br c w => Sys2Proof.Machine.execBr c w s
  | .jal c w => Sys2Proof.Machine.execJal c w s
  | .jalr c w => Sys2Proof.Machine.execJalr c w s
  | .issue c w => Sys2Proof.Machine.execIssue c w s
  | .csrr c w => Sys2Proof.Machine.execCsrr c w s
  | .csrc c w => Sys2Proof.Machine.execCsrc c w s
  | .halt c w => Sys2Proof.Machine.execHalt c w s
  | .contextDone n => Sys2Proof.Machine.execContextDone n s
  | .daTile c env => Sys2Proof.Machine.execDaTile c env s
  | .tileShadowCopy a => Sys2Proof.Machine.execTileShadowCopy a s
  | .daPass c env => Sys2Proof.Machine.execDaPass c env s
  | .startRamp a => Sys2Proof.Machine.execStartRamp a s
  | .stopRamp a groups => Sys2Proof.Machine.execStopRamp a groups s
  | .barrierStaggerStart a => Sys2Proof.Machine.execBarrierStaggerStart a s
  | .daExport c env => Sys2Proof.Machine.execDaExport c env s
  | .daImport c env => Sys2Proof.Machine.execDaImport c env s
  | .daSync c env => Sys2Proof.Machine.execDaSync c env s
  | .gather c p env => Sys2Proof.Machine.execGather c p env s
  | .scatter c p env => Sys2Proof.Machine.execScatter c p env s
  | .scatterAdd c p env => Sys2Proof.Machine.execScatterAdd c p env s
  | .topK c p env => Sys2Proof.Machine.execTopK c p env s
  | .segMerge c p env => Sys2Proof.Machine.execSegMerge c p env s
  | .spmmCsr c p env => Sys2Proof.Machine.execSpmmCsr c p env s
  | .spmmBsr c p env => Sys2Proof.Machine.execSpmmBsr c p env s
  | .combine c p env => Sys2Proof.Machine.execCombine c p env s
  | .gmeSync c p env => Sys2Proof.Machine.execGmeSync c p env s
  | .veMap c p env => Sys2Proof.Machine.execVeMap c p env s
  | .veRowred c p env => Sys2Proof.Machine.execVeRowred c p env s
  | .veSync c p env => Sys2Proof.Machine.execVeSync c p env s
  | .stLoad c p env => Sys2Proof.Machine.execStLoad c p env s
  | .stStore c p env => Sys2Proof.Machine.execStStore c p env s
  | .stCopy c p env => Sys2Proof.Machine.execStCopy c p env s
  | .stTile c p env => Sys2Proof.Machine.execStTile c p env s
  | .stMaxscan c p env => Sys2Proof.Machine.execStMaxscan c p env s
  | .qDrain c => Sys2Proof.Machine.execQDrain c s
  | .evSignal c fetch => Sys2Proof.Machine.execEvSignal c fetch s
  | .evWait c fetch => Sys2Proof.Machine.execEvWait c fetch s
  | .route c p env => Sys2Proof.Machine.execRoute c p env s
  | .walk c p env => Sys2Proof.Machine.execWalk c p env s
  | .hdPush c p env => Sys2Proof.Machine.execHdPush c p env s
  | .hdFetch c p env => Sys2Proof.Machine.execHdFetch c p env s
  | .hdPop c p env => Sys2Proof.Machine.execHdPop c p env s
  | .hdTurn c p env => Sys2Proof.Machine.execHdTurn c p env s
  | .hdDrop c p env => Sys2Proof.Machine.execHdDrop c p env s
  | .hoardWriteBack c env => Sys2Proof.Machine.execHoardWriteBack c env s
  | .hoardPrefetch c env => Sys2Proof.Machine.execHoardPrefetch c env s
  | .wqPush c p env => Sys2Proof.Machine.execWqPush c p env s
  | .wBubbleIssue c env => Sys2Proof.Machine.execWBubbleIssue c env s
  | .wqEntryComplete c => Sys2Proof.Machine.execWqEntryComplete c s
  | .wqFlush c p env => Sys2Proof.Machine.execWqFlush c p env s
  | .mbPost c p => Sys2Proof.Machine.execMbPost c p s
  | .mbTake c p => Sys2Proof.Machine.execMbTake c p s
  | .updNorm c p env => Sys2Proof.Machine.execUpdNorm c p env s
  | .updNormred c p env => Sys2Proof.Machine.execUpdNormred c p env s
  | .updApply c p env => Sys2Proof.Machine.execUpdApply c p env s
  | .colExpmax c p env => Sys2Proof.Machine.execColExpmax c p env s
  | .colAllreduce c p env => Sys2Proof.Machine.execColAllreduce c p env s
  | .colRedscat c p env => Sys2Proof.Machine.execColRedscat c p env s
  | .colAllgather c p env => Sys2Proof.Machine.execColAllgather c p env s
  | .colAlltoall c p env => Sys2Proof.Machine.execColAlltoall c p env s
  | .colPermute c p env => Sys2Proof.Machine.execColPermute c p env s
  | .colBarrier c p env => Sys2Proof.Machine.execColBarrier c p env s
  | .colGradstep c p env => Sys2Proof.Machine.execColGradstep c p env s
  | .colGradwait c p env => Sys2Proof.Machine.execColGradwait c p env s
  | .colFill c p env => Sys2Proof.Machine.execColFill c p env s
  | .bucketComplete n b env => Sys2Proof.Machine.execBucketComplete n b env s
  | .colRemap c p env => Sys2Proof.Machine.execColRemap c p env s
  | .collectiveMessage n m => Sys2Proof.Machine.execCollectiveMessage n m s
  | .barrierRelease n group seq t => Sys2Proof.Machine.execBarrierRelease n group seq t s
  | .timedRelease n group seq => Sys2Proof.Machine.execTimedRelease n group seq s
  | .abortNotice n group stream seq source => Sys2Proof.Machine.execAbortNotice n group stream seq source s
  | .peerTimeout n group stream seq source => Sys2Proof.Machine.execPeerTimeout n group stream seq source s
  | .scrYield c fails => Sys2Proof.Machine.execScrYield c fails s
  | .fillAdvance rq c q slot upTo poison accepted slotError => Sys2Proof.Machine.execFillAdvance rq c q slot upTo poison accepted slotError s
  | .drain rq c q slot accepted => Sys2Proof.Machine.execDrain rq c q slot accepted s
  | .memoryRead rq addr len accepted => Sys2Proof.Machine.execMemoryRead rq addr len accepted s
  | .memoryWrite rq addr bs accepted => Sys2Proof.Machine.execMemoryWrite rq addr bs accepted s
  | .scrub b => Sys2Proof.Machine.execScrub b s
  | .patrol n => Sys2Proof.Machine.execPatrol n s
  | .pageFaultResume n va => Sys2Proof.Machine.execPageFaultResume n va s
  | .faultDeadline n va => Sys2Proof.Machine.execFaultDeadline n va s
  | .preemptDeadline c => Sys2Proof.Machine.execPreemptDeadline c s
  | .flitReceive b back words errs => Sys2Proof.Machine.execFlitReceive b back words errs s
  | .fabricNak b back seq => Sys2Proof.Machine.execFabricNak b back seq s
  | .fabricAck b back seq => Sys2Proof.Machine.execFabricAck b back seq s
  | .fabricTraining b => Sys2Proof.Machine.execFabricTraining b s
  | .fabricTrainTimeout b => Sys2Proof.Machine.execFabricTrainTimeout b s
  | .portTraining p lanes nbId nbValid nbPort => Sys2Proof.Machine.execPortTraining p lanes nbId nbValid nbPort s
  | .trainingRetry p => Sys2Proof.Machine.execTrainingRetry p s
  | .portDown p => Sys2Proof.Machine.execPortDown p s
  | .linkFlitReceive p flit errs note => Sys2Proof.Machine.execLinkFlitReceive p flit errs note s
  | .linkNak p seq => Sys2Proof.Machine.execLinkNak p seq s
  | .forwardAck p cls seq => Sys2Proof.Machine.execForwardAck p cls seq s
  | .packetArrival p accepted => Sys2Proof.Machine.execPacketArrival p accepted s
  | .reroutedPacket p accepted => Sys2Proof.Machine.execReroutedPacket p accepted s
  | .leavingNotice p => Sys2Proof.Machine.execLeavingNotice p s
  | .e2eTimeout tag => Sys2Proof.Machine.execE2eTimeout tag s
  | .syncExchange fraction => Sys2Proof.Machine.execSyncExchange fraction s
  | .syncFlit p a sent theirs fraction => Sys2Proof.Machine.execSyncFlit p a sent theirs fraction s
  | .rootTimeout => Sys2Proof.Machine.execRootTimeout s
  | .mailboxArrival sender c port bs => Sys2Proof.Machine.execMailboxArrival sender c port bs s
  | .mbxCmdPost p c => Sys2Proof.Machine.execMbxCmdPost p c s
  | .mbxCmdTake p c => Sys2Proof.Machine.execMbxCmdTake p c s
  | .mbxDbSet p v => Sys2Proof.Machine.execMbxDbSet p v s
  | .retireCmd a => Sys2Proof.Machine.execRetireCmd a s
  | .tlbInv n => Sys2Proof.Machine.execTlbInv n s
  | .frecClr n => Sys2Proof.Machine.execFrecClr n s
  | .retrain p => Sys2Proof.Machine.execRetrain p s
  | .cpKick => Sys2Proof.Machine.execCpKick s
  | .pwrFreqWrite step duty => Sys2Proof.Machine.execPwrFreqWrite step duty s
  | .routeBankWrite b => Sys2Proof.Machine.execRouteBankWrite b s
  | .routeEntryWrite entry v => Sys2Proof.Machine.execRouteEntryWrite entry v s
  | .registerWrite m key v => Sys2Proof.Machine.execRegisterWrite m key v s
  | .getInfo c => Sys2Proof.Machine.execGetInfo c s
  | .getStatus c => Sys2Proof.Machine.execGetStatus c s
  | .getCounters c => Sys2Proof.Machine.execGetCounters c s
  | .getTelemetry c => Sys2Proof.Machine.execGetTelemetry c s
  | .getFaultRecord c => Sys2Proof.Machine.execGetFaultRecord c s
  | .getFlags c => Sys2Proof.Machine.execGetFlags c s
  | .ackAlert c => Sys2Proof.Machine.execAckAlert c s
  | .setEventMask c => Sys2Proof.Machine.execSetEventMask c s
  | .stopFunction c missed fails => Sys2Proof.Machine.execStopFunction c missed fails s
  | .startFunction c => Sys2Proof.Machine.execStartFunction c s
  | .resetDevice c => Sys2Proof.Machine.execResetDevice c s
  | .loadJob c => Sys2Proof.Machine.execLoadJob c s
  | .unloadJob c => Sys2Proof.Machine.execUnloadJob c s
  | .startContext c => Sys2Proof.Machine.execStartContext c s
  | .preemptContext c => Sys2Proof.Machine.execPreemptContext c s
  | .resumeContext c => Sys2Proof.Machine.execResumeContext c s
  | .killContext c => Sys2Proof.Machine.execKillContext c s
  | .mapPages c => Sys2Proof.Machine.execMapPages c s
  | .setContextLimits c => Sys2Proof.Machine.execSetContextLimits c s
  | .setAudit c => Sys2Proof.Machine.execSetAudit c s
  | .setCacheSplit c => Sys2Proof.Machine.execSetCacheSplit c s
  | .setPowerCap c => Sys2Proof.Machine.execSetPowerCap c s
  | .runScreen c fails took => Sys2Proof.Machine.execRunScreen c fails took s
  | .loadTestPack c => Sys2Proof.Machine.execLoadTestPack c s
  | .setRoutes c => Sys2Proof.Machine.execSetRoutes c s
  | .swapRouteBank c => Sys2Proof.Machine.execSwapRouteBank c s
  | .setRouteMode c => Sys2Proof.Machine.execSetRouteMode c s
  | .setPort c => Sys2Proof.Machine.execSetPort c s
  | .returnPort c => Sys2Proof.Machine.execReturnPort c s
  | .setLinkParams c => Sys2Proof.Machine.execSetLinkParams c s
  | .bindChannel c => Sys2Proof.Machine.execBindChannel c s
  | .setEthConfig c => Sys2Proof.Machine.execSetEthConfig c s
  | .bindHost c => Sys2Proof.Machine.execBindHost c s
  | .getQuote c => Sys2Proof.Machine.execGetQuote c s
  | .updateImage c written => Sys2Proof.Machine.execUpdateImage c written s
  | .updateConfig c written => Sys2Proof.Machine.execUpdateConfig c written s
  | .ethFrameReceive f => Sys2Proof.Machine.execEthFrameReceive f s
  | .ethLinkDown lanes => Sys2Proof.Machine.execEthLinkDown lanes s
  | .pfcFrame pause release => Sys2Proof.Machine.execPfcFrame pause release s
  | .cnpReceive q => Sys2Proof.Machine.execCnpReceive q s
  | .rateRecovery q => Sys2Proof.Machine.execRateRecovery q s
  | .rdmaWrite q p => Sys2Proof.Machine.execRdmaWrite q p s
  | .rdmaRead q p served => Sys2Proof.Machine.execRdmaRead q p served s
  | .rdmaSend q psn bs => Sys2Proof.Machine.execRdmaSend q psn bs s
  | .writeWithImmediate q p imm => Sys2Proof.Machine.execWriteWithImmediate q p imm s
  | .ackCoalesce q => Sys2Proof.Machine.execAckCoalesce q s
  | .hostMessageSend c => Sys2Proof.Machine.execHostMessageSend c s
  | .sendRetryTimeout q c => Sys2Proof.Machine.execSendRetryTimeout q c s
  | .lldpSend => Sys2Proof.Machine.execLldpSend s
  | .managementDatagram peer v6 port payload => Sys2Proof.Machine.execManagementDatagram peer v6 port payload s
  | .powerWindowEnd w => Sys2Proof.Machine.execPowerWindowEnd w s
  | .loopWatchdog => Sys2Proof.Machine.execLoopWatchdog s
  | .prochotAssert => Sys2Proof.Machine.execProchotAssert s
  | .prochotRelease => Sys2Proof.Machine.execProchotRelease s
  | .droopEvent island => Sys2Proof.Machine.execDroopEvent island s
  | .droopEnd island => Sys2Proof.Machine.execDroopEnd island s
  | .thermalSample rs => Sys2Proof.Machine.execThermalSample rs s
  | .ddrSensorRead rs => Sys2Proof.Machine.execDdrSensorRead rs s
  | .thermtrip => Sys2Proof.Machine.execThermtrip s
  | .autoScreenTimer fails => Sys2Proof.Machine.execAutoScreenTimer fails s
  | .screenDeadline => Sys2Proof.Machine.execScreenDeadline s
  | .powerOnScreen fails took => Sys2Proof.Machine.execPowerOnScreen fails took s
  | .progressWatchdog c count => Sys2Proof.Machine.execProgressWatchdog c count s
  | .stopDeadline n => Sys2Proof.Machine.execStopDeadline n s
  | .computeReset started => Sys2Proof.Machine.execComputeReset started s
  | .drainTimeout os => Sys2Proof.Machine.execDrainTimeout os s
  | .computeRecovery failed => Sys2Proof.Machine.execComputeRecovery failed s
  | .chipReset ms => Sys2Proof.Machine.execChipReset ms s
  | .firmwareWatchdog => Sys2Proof.Machine.execFirmwareWatchdog s
  | .resetNAssert => Sys2Proof.Machine.execResetNAssert s
  | .resetNRelease fwd smba testEn ms => Sys2Proof.Machine.execResetNRelease fwd smba testEn ms s
  | .supplyLoss rail => Sys2Proof.Machine.execSupplyLoss rail s
  | .dbgToken token => Sys2Proof.Machine.execDbgToken token s
  | .jtagDebugAccess key write => Sys2Proof.Machine.execJtagDebugAccess key write s
  | .smbMsgStart bs pec => Sys2Proof.Machine.execSmbMsgStart bs pec s
  | .smbMsgAppend bs pec => Sys2Proof.Machine.execSmbMsgAppend bs pec s
  | .smbMsgTake => Sys2Proof.Machine.execSmbMsgTake s
  | .smbMsgReadRest => Sys2Proof.Machine.execSmbMsgReadRest s
  | .smbRegSelect window offset pec => Sys2Proof.Machine.execSmbRegSelect window offset pec s
  | .smbRegRead => Sys2Proof.Machine.execSmbRegRead s
  | .smbAra => Sys2Proof.Machine.execSmbAra s
  | .smbTimeout => Sys2Proof.Machine.execSmbTimeout s
  | .ethLinkUp => Sys2Proof.Machine.execEthLinkUp s
  | .powerUp => Sys2Proof.Machine.execPowerUp s
  | .timeHoldEnd => Sys2Proof.Machine.execTimeHoldEnd s
  | .tapReset => Sys2Proof.Machine.execTapReset s
  | .boundaryScanInstruction tap cells => Sys2Proof.Machine.execBoundaryScanInstruction tap cells s

end Sys2Proof.Machine
end

