-- ==== Sys2Proof/Machine/Step.lean ====
section
/-!
DEFINITION. One step: the command at the front of the queue runs on the rest; with none there, time passes by one
nanosecond.
-/

namespace Sys2Proof.Machine

/-- What happens on an empty queue: the device's time base counts one nanosecond, unless it is held
(13_rhanak_links_and_topology.md R496; DESIGN CHOICE, log entry 20). -/
def tick (s : State) : State := { s with dev := s.dev.tick }

/-- The next command, the machine being what it is. -/
def step (s : State) : Host.Outcome State Fault Refusal :=
  match s.pending with
  | [] => .next (tick s)
  | c :: rest => exec c { s with pending := rest }

/-- The state with the command that a word spells put at the front of its queue; the operation table gives no command any
bits, so no word spells one. -/
def State.withFetchWord (s : State) (nbits w : Nat) : State :=
  match decodeTableWord nbits w with
  | none => s
  | some c => { s with pending := c :: s.pending }

end Sys2Proof.Machine
end

