-- ==== Sys2Proof/Safety.lean ====
section
/-!
DEFINITION. What counts as safe: what a state keeps whatever runs, and a step that goes on.
-/

namespace Sys2Proof.Machine

/-- The state of a direction of a fabric link is consistent: the replay buffer holds at most 256 flits with consecutive
sequence numbers that end before the next new one, the receiver expects a flit that the buffer holds or the next new one, and a
resend starts at a flit that the buffer holds (01_package_and_fabric.md R31-R33). -/
def DirConsistent (f : FabDir) : Prop :=
  f.buffer.length ≤ 256 ∧ f.buffer.length ≤ f.next ∧
    f.buffer.map Prod.fst = (List.range f.buffer.length).map (fun i => f.next - f.buffer.length + i) ∧
    f.next - f.buffer.length ≤ f.expect ∧ f.expect ≤ f.next ∧
    ∀ k, f.resend = some k → f.next - f.buffer.length ≤ k ∧ k < f.next

/-- Every direction of every fabric link is consistent. -/
def LinksConsistent (s : State) : Prop := ∀ k, DirConsistent (Sp.get (fun _ => {}) s.links k)

/-- A state is safe: its memory is in its canonical form and its fabric links are consistent. -/
def Safe (s : State) : Prop := Memory.wf s.dev.mem.cells = true ∧ LinksConsistent s

/-- A step goes on: it ends in a next state, and in no fault and no refusal. -/
def Goes (s : State) : Prop := ∃ t, step s = .next t

end Sys2Proof.Machine
end

