-- ==== Sys2Proof/Certificates/Slice0/Obligations.lean ====
section
/-!
DEFINITION. The statements for the provers.
-/

namespace Sys2Proof.Claims

open Sys2Proof.Machine

/-! ### What the statements speak of -/

/-- The device as a command finds it: the output of the command before is gone, and the command's surroundings stand. -/
abbrev found (s : State) (env : Env := {}) : Dev := s.dev.begun env

/-- The state that a command leaves whose effect makes the device `d`: a summary bit that has risen raises the ALERT event
(14_control_mailboxes_and_interrupts.md R524); the queue and the fabric links stay. -/
def left (s : State) (d : Dev) : State := { s with dev := Dev.settle s.dev d }

/-- The registers that an event on a mailbox channel may change (14_control_mailboxes_and_interrupts.md R510, R515, R527). -/
def mailKeys : List Nat :=
  [Reg.MBX_COLL.key 0 0, Reg.MBX_ERR_STATUS.key 0 0, Reg.INT_FW.key 0 0] ++ (List.range 4).map (Reg.MBX_DB.key 0)

/-- An instruction with its opcode stands at the program counter of core c, whose sequencer runs: the fetch answers its
word, and leaves the device `d` (08_jobs_contexts_and_translation.md R298). -/
def SeqAt (s : State) (c : Fin 4) (op : Nat) (w : SeqWord) (d : Dev) : Prop :=
  s.dev.awake = true ∧ s.dev.coreRuns c = true ∧ (s.dev.core c).live = true ∧ (s.dev.core c).seqStopped = none ∧
    w.wf = true ∧ seqDefined op w.f = true ∧
    Run.fetchWord ((found s).seqUnit c 0) (found s) = (.ok (w.encode op), d)

/-- The value of an ALU operation, in arithmetic (08_jobs_contexts_and_translation.md R298). -/
def AluValue (f : Nat) (a b v : W64) : Prop :=
  (f = 0 → v.toNat = (a.toNat + b.toNat) % 2 ^ 64) ∧
  (f = 1 → v.toNat = (a.toNat + 2 ^ 64 - b.toNat) % 2 ^ 64) ∧
  (f = 2 → ∀ i < 64, v.getLsbD i = (a.getLsbD i && b.getLsbD i)) ∧
  (f = 3 → ∀ i < 64, v.getLsbD i = (a.getLsbD i || b.getLsbD i)) ∧
  (f = 4 → ∀ i < 64, v.getLsbD i = (a.getLsbD i ^^ b.getLsbD i)) ∧
  (f = 5 → v.toNat = a.toNat * 2 ^ (b.toNat % 64) % 2 ^ 64) ∧
  (f = 6 → v.toNat = a.toNat / 2 ^ (b.toNat % 64)) ∧
  (f = 7 → v.toInt = a.toInt / 2 ^ (b.toNat % 64)) ∧
  (f = 8 → v.toNat = a.toNat * b.toNat % 2 ^ 64) ∧
  (f = 9 → v.toNat = if a.toInt < b.toInt then 1 else 0) ∧
  (f = 10 → v.toNat = if a.toNat < b.toNat then 1 else 0)

/-- The condition of BR, in arithmetic (08_jobs_contexts_and_translation.md R298). -/
def BranchHolds (f : Nat) (a b : W64) : Prop :=
  (f = 0 ∧ a = b) ∨ (f = 1 ∧ a ≠ b) ∨ (f = 2 ∧ a.toInt < b.toInt) ∨ (f = 3 ∧ b.toInt ≤ a.toInt) ∨
    (f = 4 ∧ a.toNat < b.toNat) ∨ (f = 5 ∧ b.toNat ≤ a.toNat)

/-- The address of a load, a store or an ISSUE: a + imm (08_jobs_contexts_and_translation.md R298). -/
def effective (d : Dev) (c : Fin 4) (w : SeqWord) : Nat := ((d.sreg c w.a).toNat + (w.imm.signExtend 64).toNat) % 2 ^ 64

end Sys2Proof.Claims

open Sys2Proof Sys2Proof.Machine Sys2Proof.Claims

/-! ### The machine -/

/-- A step runs the command at the front of the queue on the rest of it, and ends in a next state. -/
def Obligations.StepRunsFront : Prop :=
  ∀ (c : Instr) (rest : List Instr) (s : State),
    step { s with pending := c :: rest } = exec c { s with pending := rest } ∧ Goes { s with pending := c :: rest }

/-- A step on an empty queue counts one nanosecond: the model's choice (log entry 20). -/
def Obligations.EmptyQueueTicks : Prop :=
  ∀ s : State, s.pending = [] → ∃ t, step s = .next t ∧ t.pending = [] ∧ t.links = s.links ∧
    t.dev = { s.dev with now := t.dev.now } ∧
    ((s.dev.awake = true ∧ s.dev.isSet F.TB_STATUS_held = false) → t.dev.now = (s.dev.now + 1) % 2 ^ 64) ∧
    ((s.dev.awake = false ∨ s.dev.isSet F.TB_STATUS_held = true) → t.dev.now = s.dev.now)

/-- What the state holds right after reset. -/
def Obligations.ResetLeaves : Prop :=
  State.reset.pending = [] ∧ State.reset.links = [] ∧ State.reset.dev.mem.cells = [] ∧
    (∀ n, (State.reset.dev.ctx n).st = if n = 0 then .running else .free) ∧
    (∀ c, (State.reset.dev.ring c).msgs = []) ∧
    (∀ c : Fin 64, State.reset.dev.binding c =
      if c = 0 then { valid := true, owner := 0, privilege := 1, dbBit := 0, reply := 1, receiver := 0, sender := 0x20 }
      else if c = 1 then { valid := true, owner := 0, privilege := 0, dbBit := 0, reply := 0, receiver := 0x20, sender := 0 }
      else { valid := false, owner := 0, privilege := 0, dbBit := 0, reply := 0, receiver := 0, sender := 0 }) ∧
    (∀ (r : Reg) (w j : Nat), State.reset.dev.rd r w j = r.resetNat j % 2 ^ 64)

/-- What the end of a command may change: mailbox rings and their status, and only when a summary bit has risen. -/
def Obligations.SettleFrame : Prop :=
  ∀ before d : Dev,
    let e := Dev.settle before d
    (e.mem = d.mem ∧ e.arrays = d.arrays ∧ e.cores = d.cores ∧ e.ctxs = d.ctxs ∧ e.rhk = d.rhk ∧ e.eth = d.eth ∧ e.power = d.power ∧
      e.boot = d.boot ∧ e.flash = d.flash ∧ e.pins = d.pins ∧ e.smbus = d.smbus ∧ e.now = d.now ∧ e.recSeq = d.recSeq ∧ e.reset = d.reset ∧
      e.health = d.health ∧ e.stops = d.stops ∧ e.eventMask = d.eventMask ∧ e.screen = d.screen ∧ e.env = {}) ∧
    (∀ (r : Reg) (w j : Nat), r.key w j ∉ mailKeys → e.rd r w j = d.rd r w j) ∧
    ((∀ i < 64, bit d.intSum i = true → bit (d.rd .INT_ALERT_EN) i = true → bit before.intSum i = true) →
      e = { d with env := {} })

/-- A device that does not run takes no command: the model's reading (log entry 6). -/
def Obligations.AsleepTakesNothing : Prop :=
  ∀ (s : State), s.dev.awake = false →
    ∀ i : Instr, ((∃ c w, i = .alu c w) ∨ (∃ q p, i = .rdmaWrite q p) ∨ (∃ m k v, i = .registerWrite m k v) ∨ (∃ c, i = .getStatus c) ∨
        (∃ rq a bs k, i = .memoryWrite rq a bs k) ∨ (∃ b k ws es, i = .flitReceive b k ws es) ∨ (∃ w, i = .powerWindowEnd w) ∨
        (∃ bs p, i = .smbMsgStart bs p)) →
      exec i s = .next { s with dev := { s.dev with out := [], env := {} } }

/-! ### The sequencers -/

/-- ALU, ALUI and LIH (R298). -/
def Obligations.SequencerArithmetic : Prop :=
  ∀ (s : State) (c : Fin 4) (w : SeqWord) (d : Dev),
    (SeqAt s c 0x00 w d → ∃ v, AluValue w.f (d.sreg c w.a) (d.sreg c w.b) v ∧
      exec (.alu c w) s = .next (left s ((d.setSreg c w.d v).setPc c (d.pc c + 8)))) ∧
    (SeqAt s c 0x01 w d → ∃ v, AluValue w.f (d.sreg c w.a) (w.imm.signExtend 64) v ∧
      exec (.alui c w) s = .next (left s ((d.setSreg c w.d v).setPc c (d.pc c + 8)))) ∧
    (SeqAt s c 0x02 w d → ∃ v : W64, v.toNat = w.imm.toNat * 2 ^ 32 + (d.sreg c w.d).toNat % 2 ^ 32 ∧
      exec (.lih c w) s = .next (left s ((d.setSreg c w.d v).setPc c (d.pc c + 8))))

/-- LD and ST (R298, 06_memory_hierarchy.md R205). -/
def Obligations.SequencerMemory : Prop :=
  ∀ (s : State) (c : Fin 4) (w : SeqWord) (d e : Dev),
    (∀ v, SeqAt s c 0x08 w d →
      Run.narrowRead ((found s).seqUnit c 0x08) (effective d c w : Nat) (2 ^ (w.f % 4)) {} d = (.ok v, e) →
      exec (.ld c w) s = .next (left s ((e.setSreg c w.d
        (if w.f < 4 then BitVec.ofNat 64 v else (BitVec.ofNat (8 * 2 ^ (w.f % 4)) v).signExtend 64)).setPc c (e.pc c + 8)))) ∧
    (∀ pa, SeqAt s c 0x09 w d →
      Run.narrow ((found s).seqUnit c 0x09) (effective d c w : Nat) (2 ^ w.f) { write := true } d = (.ok pa, e) →
      exec (.st c w) s = .next (left s
        (let m := e.writeMem ((found s).seqUnit c 0x09).req pa (Dev.clean (leBytes (2 ^ w.f) (d.sreg c w.b).toNat))
         m.setPc c (m.pc c + 8))))

/-- BR, JAL and JALR, with the fault of a misaligned target (R298). -/
def Obligations.SequencerJumps : Prop :=
  ∀ (s : State) (c : Fin 4) (w : SeqWord) (d : Dev),
    let imm := (w.imm.signExtend 64).toNat
    let fault (op target : Nat) : FaultInfo :=
      { cause := 0x04, ctx := s.dev.coreCtx c, engine := 0x10 + c, master := 0x10 + c, opcode := op, opId := (s.dev.core c).opId
        pc := s.dev.pc c, vaddr := target % 2 ^ 48 }
    (SeqAt s c 0x10 w d → BranchHolds w.f (d.sreg c w.a) (d.sreg c w.b) →
      ((d.pc c + imm) % 8 = 0 → exec (.br c w) s = .next (left s (d.setPc c (d.pc c + imm)))) ∧
      ((d.pc c + imm) % 8 ≠ 0 → exec (.br c w) s = .next (left s ((found s).fatal (fault 0x10 (d.pc c + imm)))))) ∧
    (SeqAt s c 0x10 w d → ¬ BranchHolds w.f (d.sreg c w.a) (d.sreg c w.b) →
      exec (.br c w) s = .next (left s (d.setPc c (d.pc c + 8)))) ∧
    (SeqAt s c 0x11 w d →
      ((d.pc c + imm) % 8 = 0 →
        exec (.jal c w) s = .next (left s ((d.setPc c (d.pc c + imm)).setSreg c w.d (BitVec.ofNat 64 (d.pc c + 8))))) ∧
      ((d.pc c + imm) % 8 ≠ 0 → exec (.jal c w) s = .next (left s ((found s).fatal (fault 0x11 (d.pc c + imm)))))) ∧
    (SeqAt s c 0x12 w d →
      (((d.sreg c w.a).toNat + imm) % 8 = 0 →
        exec (.jalr c w) s = .next (left s ((d.setPc c ((d.sreg c w.a).toNat + imm)).setSreg c w.d (BitVec.ofNat 64 (d.pc c + 8))))) ∧
      (((d.sreg c w.a).toNat + imm) % 8 ≠ 0 →
        exec (.jalr c w) s = .next (left s ((found s).fatal (fault 0x12 ((d.sreg c w.a).toNat + imm))))))

/-- CSRR, CSRC and HALT (R298, R300); CSR 2 is a free value (log entry 14). -/
def Obligations.SequencerControl : Prop :=
  ∀ (s : State) (c : Fin 4) (w : SeqWord) (d : Dev),
    let goes (v : Nat) (e : Dev) : State := left s ((e.setSreg c w.d (BitVec.ofNat 64 v)).setPc c (e.pc c + 8))
    (SeqAt s c 0x19 w d →
      (w.imm = 0 → exec (.csrr c w) s = .next (goes c d)) ∧
      (w.imm = 1 → exec (.csrr c w) s = .next (goes (s.dev.coreCtx c) d)) ∧
      (w.imm = 2 → ∃ v, exec (.csrr c w) s = .next (goes v { d with fresh := d.fresh + 1 })) ∧
      (w.imm = 3 → exec (.csrr c w) s = .next (goes d.now d)) ∧
      (w.imm = 4 → exec (.csrr c w) s = .next (goes (d.fld F.CTX_FLAGS_flags 0 (s.dev.coreCtx c)) d)) ∧
      (w.imm = 5 → exec (.csrr c w) s = .next (goes d.deviceId d)) ∧
      (w.imm = 6 → exec (.csrr c w) s = .next (goes (d.core c).opId d))) ∧
    (SeqAt s c 0x1A w d →
      ∃ v, (∀ i < 6, bit v i = (bit (d.fld F.CTX_FLAGS_flags 0 (s.dev.coreCtx c)) i && !(d.sreg c w.a).getLsbD i)) ∧ v < 64 ∧
        exec (.csrc c w) s = .next (left s
          (let e := d.setFld F.CTX_FLAGS_flags 0 (s.dev.coreCtx c) v
           e.setPc c (e.pc c + 8)))) ∧
    (SeqAt s c 0x1F w d →
      exec (.halt c w) s = .next (left s (d.onCore c (fun k => { k with live := false, halted := true }))))


/-- ISSUE (R298, R299, R301). -/
def Obligations.IssueSendsTheWord : Prop :=
  ∀ (s : State) (c : Fin 4) (w : SeqWord) (d d1 d2 : Dev) (pa : Nat) (bs : List PByte),
    let u := (found s).seqUnit c 0x18
    let w0 := leNat ((bs.map PByte.val).take 8)
    let w1 := leNat ((bs.map PByte.val).drop 8)
    let id := ((d2.core c).opId + 1) % 2 ^ 48
    let o : Op := { w0, w1, id, pc := d2.pc c, ctx := s.dev.coreCtx c, task := w.f }
    SeqAt s c 0x18 w d → Run.narrow u (effective d c w : Nat) 16 {} d = (.ok pa, d1) → d1.readMem u.req pa 16 = (bs, d2) →
      bs.any PByte.poison = false → routable (w0 % 256) w.f = true → opListed (w0 % 256) = true → ¬ (w0 % 256 = 0x18 ∧ w.f = 8) →
      (w.f = 8 → (d2.core c).waiting.length < 32) → (w.f < 8 → (d2.tasks c w.f).length < 32) →
      exec (.issue c w) s = .next (left s
        (let d3 := if w.f = 8 then d2.onCore c (fun k => { k with waiting := k.waiting ++ [o] })
          else d2.setTasks c w.f (d2.tasks c w.f ++ [o])
         let d4 := d3.onCore c (fun k => { k with opId := id })
         d4.setPc c (d4.pc c + 8)))

/-- CONTEXT_DONE (R303). -/
def Obligations.ContextDoneLoads : Prop :=
  ∀ (s : State) (n : Fin 16), s.dev.awake = true → n ≠ 0 → (s.dev.ctx n).st = .running →
    (∀ c ∈ s.dev.coresOf n, s.dev.coreDone c = true) →
    ∃ e : Dev, exec (.contextDone n) s = .next (left s (e.contextEvent n 0x8001 (leBytes 8 s.dev.now))) ∧
      (e.ctx n).st = .loaded ∧ (∀ m, m ≠ n.val → e.ctx m = s.dev.ctx m) ∧ (∀ c ∈ s.dev.coresOf n, (e.core c).ctx = none) ∧
      (∀ c, c ∉ s.dev.coresOf n → e.core c = s.dev.core c) ∧ e.rings = s.dev.rings ∧ e.mem = s.dev.mem ∧ e.regs = s.dev.regs

/-- What an instruction that only moves registers leaves unchanged (R298). -/
def Obligations.SequencerRegisterFrame : Prop :=
  ∀ (s t : State) (c : Fin 4) (w : SeqWord) (d : Dev),
    let imm := (w.imm.signExtend 64).toNat
    let kept (keepD : Bool) : Prop :=
      (∀ j, j ≠ w.d ∨ keepD = true → t.dev.sreg c j = d.sreg c j) ∧ (∀ k, k ≠ c.val → t.dev.core k = d.core k) ∧
      t.dev.ctxs = d.ctxs ∧ t.dev.arrays = d.arrays ∧ (∀ a, t.dev.cell a = d.cell a) ∧
      (∀ (r : Reg) (v j : Nat), r.key v j ∉ mailKeys → t.dev.rd r v j = d.rd r v j)
    (SeqAt s c 0x00 w d → exec (.alu c w) s = .next t → kept false) ∧
    (SeqAt s c 0x01 w d → exec (.alui c w) s = .next t → kept false) ∧
    (SeqAt s c 0x02 w d → exec (.lih c w) s = .next t → kept false) ∧
    (SeqAt s c 0x10 w d → (d.pc c + imm) % 8 = 0 → exec (.br c w) s = .next t → kept true) ∧
    (SeqAt s c 0x11 w d → (d.pc c + imm) % 8 = 0 → exec (.jal c w) s = .next t → kept false) ∧
    (SeqAt s c 0x12 w d → ((d.sreg c w.a).toNat + imm) % 8 = 0 → exec (.jalr c w) s = .next t → kept false) ∧
    (SeqAt s c 0x19 w d → w.imm.toNat ≤ 6 → w.imm ≠ 2 → exec (.csrr c w) s = .next t → kept false)

/-- A read of memory (06_memory_hierarchy.md R198): what it answers and leaves. -/
def Obligations.ReadKeepsBytes : Prop :=
  ∀ (d : Dev) (rq : Req) (a len : Nat),
    d.mem.flips = [] → d.mem.symErrs = [] → d.mem.tagErrs = [] →
    (∀ c, (d.home a = .coreMem c ∨ d.home a = .shared c) → d.readMem rq a len = (d.peekRange a len, d)) ∧
    (d.home a = .ddr → (d.readMem rq a len).1.map PByte.val = (List.range len).map (fun i => d.cell (a + i)) ∧
      ∀ x, (d.readMem rq a len).2.cell x = d.cell x)

/-- A write of memory (06_memory_hierarchy.md R198, R225): the bytes that it stores, and its frame. -/
def Obligations.WriteStoresBytes : Prop :=
  ∀ (d : Dev) (rq : Req) (a : Nat) (bs : List PByte),
    d.mem.flips = [] → d.mem.symErrs = [] → d.mem.tagErrs = [] →
    ((∃ c, d.home a = .coreMem c) ∨ (∃ c, d.home a = .shared c) ∨ d.home a = .ddr) →
    ∀ x, (d.writeMem rq a bs).cell x =
      if a ≤ x ∧ x < a + bs.length then (bs[x - a]?.getD { val := 0 }).val else d.cell x

/-- Commands that read and write memory keep its canonical form (log entry 3). -/
def Obligations.MemoryStaysCanonical : Prop :=
  ∀ (s t : State) (i : Instr), Memory.wf s.dev.mem.cells = true →
    ((∃ rq a n k, i = .memoryRead rq a n k) ∨ (∃ rq a bs k, i = .memoryWrite rq a bs k) ∨ (∃ b, i = .scrub b) ∨ (∃ n, i = .patrol n) ∨
      (∃ c w, i = .ld c w) ∨ (∃ c w, i = .st c w) ∨ (∃ q p, i = .rdmaWrite q p) ∨ (∃ q p n, i = .rdmaRead q p n)) →
    exec i s = .next t → Memory.wf t.dev.mem.cells = true

/-- MEMORY_READ (06_memory_hierarchy.md R198, 01_package_and_fabric.md R29). -/
def Obligations.MemoryReadAnswers : Prop :=
  ∀ (s : State) (rq : Req) (addr : BitVec 64) (len : Nat) (k : Bool),
    let d := found s
    let pa := bits addr.toNat 47 0
    s.dev.awake = true → s.dev.pins.tripped = false → d.route none (bits addr.toNat 63 48) = .here →
    ¬ (regBase ≤ pa ∧ pa < regBase + 2 ^ 32) → d.requestCode rq pa len k = (0, none) →
    d.mem.flips = [] → d.mem.symErrs = [] → d.mem.tagErrs = [] → (∀ i < len, d.poisoned (pa + i) = false) →
    ∃ t, exec (.memoryRead rq addr len k) s = .next t ∧
      t.dev.out = [.response rq.master 0 ((List.range len).map (fun i => { val := d.cell (pa + i) }))] ∧
      (∀ x, t.dev.cell x = s.dev.cell x) ∧ t.pending = s.pending ∧ t.links = s.links

/-- MEMORY_WRITE (06_memory_hierarchy.md R225, 01_package_and_fabric.md R29). -/
def Obligations.MemoryWriteStores : Prop :=
  ∀ (s : State) (rq : Req) (addr : BitVec 64) (bs : List PByte) (k : Bool),
    let d := found s
    let pa := bits addr.toNat 47 0
    s.dev.awake = true → s.dev.pins.tripped = false → d.route none (bits addr.toNat 63 48) = .here →
    ¬ (regBase ≤ pa ∧ pa < regBase + 2 ^ 32) → d.requestCode rq pa bs.length k = (0, none) →
    d.mem.flips = [] → d.mem.symErrs = [] → d.mem.tagErrs = [] →
    ∃ t, exec (.memoryWrite rq addr bs k) s = .next t ∧ t.dev.out = [.response rq.master 0 []] ∧
      (∀ x, t.dev.cell x = if pa ≤ x ∧ x < pa + bs.length then (bs[x - pa]?.getD { val := 0 }).val else s.dev.cell x) ∧
      t.pending = s.pending ∧ t.links = s.links

/-- FILL_ADVANCE and DRAIN (06_memory_hierarchy.md R208, R210). -/
def Obligations.SlotRequests : Prop :=
  ∀ (s : State) (rq : Req) (c : Fin 4) (q : Fin 256) (slot upTo : Nat) (poison k : Bool) (e : QEntry),
    s.dev.awake = true → s.dev.pins.tripped = false → s.dev.reset = none → s.dev.queue c q = some e → slot < e.count →
    (∀ x ∈ e.keys c slot, (s.dev.slot x).owner = rq.ctx) →
    ((∀ x ∈ e.keys c slot, (s.dev.slot x).full = false) →
      ∃ t, exec (.fillAdvance rq c q slot upTo poison k false) s = .next t ∧ t.dev.out = [.response rq.master 0 []] ∧
        (∀ x ∈ e.keys c slot, (t.dev.slot x).fill = min e.slotLen (max (s.dev.slot x).fill upTo) ∧
          (t.dev.slot x).full = decide (min e.slotLen (max (s.dev.slot x).fill upTo) = e.slotLen) ∧
          (t.dev.slot x).poison = ((s.dev.slot x).poison || poison) ∧ (t.dev.slot x).owner = rq.ctx) ∧
        (∀ x, x ∉ e.keys c slot → t.dev.slot x = s.dev.slot x) ∧ t.dev.mem.cells = s.dev.mem.cells) ∧
    (∃ t, exec (.drain rq c q slot k) s = .next t ∧ t.dev.out = [.response rq.master 0 []] ∧
      (∀ x ∈ e.keys c slot, (t.dev.slot x).fill = 0 ∧ (t.dev.slot x).full = false ∧ (t.dev.slot x).poison = false ∧
        (t.dev.slot x).owner = rq.ctx) ∧
      (∀ x, x ∉ e.keys c slot → t.dev.slot x = s.dev.slot x) ∧ t.dev.mem.cells = s.dev.mem.cells)

/-- SCRUB and PATROL (06_memory_hierarchy.md R226, R233). -/
def Obligations.ScrubAndPatrol : Prop :=
  (∀ (s : State) (b : Dev.ScrubBlock), s.dev.awake = true → s.dev.reset = none →
    (∀ n, b = .die n → s.dev.isSet F.SHM_CTRL_scrub_en (n / 8) = true) →
    (∀ c u, b = .half c u → s.dev.isSet F.CMEM_CTRL_scrub_en c = true) →
    ∃ t, exec (.scrub b) s = .next t ∧ t.dev.scrubbed b = s.dev.scrubbed b + 1 ∧
      (∀ w ∈ s.dev.scrubWords b (s.dev.scrubbed b % b.shape.2.1), t.dev.flipsAt w = []) ∧
      (s.dev.mem.flips = [] → t.dev.mem.cells = s.dev.mem.cells)) ∧
  (∀ (s : State) (n : Fin 8), s.dev.awake = true → s.dev.reset = none → s.dev.mem.selfRefresh = false →
    0 < s.dev.fld F.DDR_CTRL_patrol_hours n → 0 < s.dev.ddrBytes / 32 / 64 →
    let per := s.dev.ddrBytes / 32 / 64
    let k := Sp.get (fun _ => 0) s.dev.mem.patrolAt n
    ∃ t, exec (.patrol n) s = .next t ∧ Sp.get (fun _ => 0) t.dev.mem.patrolAt n = (k + 1) % (4 * per) ∧
      t.dev.symErrsAt (Dev.channelAddress (4 * n + k / per % 4) (k % per * 64)) = [] ∧
      (s.dev.mem.symErrs = [] → t.dev.mem.cells = s.dev.mem.cells))

/-- PAGE_FAULT_RESUME and FAULT_DEADLINE (R309). -/
def Obligations.PageFaultService : Prop :=
  (∀ (s : State) (n : Fin 16) (va : BitVec 48), s.dev.awake = true → s.dev.pins.tripped = false → (s.dev.ctx n).st = .running →
    (found s).pagePresent n va.toNat = true →
    ∃ t, exec (.pageFaultResume n va) s = .next t ∧
      (∀ c < 4, (s.dev.core c).ctx = some n.val → ∀ o ∈ (t.dev.core c).held ++ (t.dev.core c).streams,
        ∀ x, o.stopped = some x → x / 4096 ≠ va.toNat / 4096) ∧
      (t.dev.ctx n).pageFaults = (s.dev.ctx n).pageFaults.filter (fun f => f.vaddr / 4096 ≠ va.toNat / 4096) ∧
      (∀ c, (s.dev.core c).ctx ≠ some n.val → t.dev.core c = s.dev.core c) ∧ t.dev.mem = s.dev.mem) ∧
  (∀ (s : State) (n : Fin 16) (va : BitVec 48) (f : FaultInfo), s.dev.awake = true → (s.dev.ctx n).st = .running →
    (s.dev.ctx n).pageFaults.find? (fun f => f.vaddr = va.toNat) = some f →
    exec (.faultDeadline n va) s = .next (left s ((found s).fatal f)))

/-- What a fatal fault does (R304, R306, R307). -/
def Obligations.FatalFaultRecorded : Prop :=
  ∀ (d : Dev) (f : FaultInfo), f.ctx < 16 → (d.ctx f.ctx).st ≠ .faulted → (d.ctx f.ctx).st ≠ .stopping →
    let e := d.fatal f
    let rec_ := f.toBytes 0 d.now d.deviceId d.recSeq
    (e.ctx f.ctx).st = .faulted ∧ (e.ctx f.ctx).pageFaults = [] ∧ (∀ n, n ≠ f.ctx → e.ctx n = d.ctx n) ∧
      (∀ c < 4, (d.core c).ctx = some f.ctx → (e.core c).live = false) ∧
      (∀ c, (d.core c).ctx ≠ some f.ctx → e.core c = d.core c) ∧
      e.recSeq = (d.recSeq + 1) % 2 ^ 32 ∧ e.isSet F.CTX_ERR_STATUS_fatal = true ∧
      e.fld F.CTX_FAULT_CNT_fatal 0 f.ctx = min (d.fld F.CTX_FAULT_CNT_fatal 0 f.ctx + 1) (2 ^ 32 - 1) ∧
      (∀ w < 8, e.rd .CTX_FREC 0 (8 * f.ctx + w) = field rec_ (8 * w) 8) ∧
      (d.ringFull = false → d.pendingRecs = [] →
        e.fld F.CTX_RING_PTR_tail = (d.fld F.CTX_RING_PTR_tail + 1) % 256 ∧
        ∀ i < 64, e.cell (d.fld F.CTX_RING_BASE_base * 2 ^ 14 + 64 * d.fld F.CTX_RING_PTR_tail + i) = rec_[i]?.getD 0)


namespace Sys2Proof.Claims

open Sys2Proof.Machine

/-- Operation `o` is the one that the execute engine of core c starts next, and its opcode is `code`; `d` is the device with
the operation taken from its list into its unit (07_streams_descriptors_and_layouts.md R244). -/
def ExecStarts (s : State) (env : Env) (c : Fin 4) (code : Nat) (o : Op) (d : Dev) : Prop :=
  s.dev.awake = true ∧ (found s env).takeTask c code = some (o, d)

/-- The work of operation `o`, carried on by its unit, comes to its end on the device `d`, without waiting and without a
fault, and leaves the device `e`. -/
def Ends (work : UnitId → Op → Run Unit) (d : Dev) (c engine : Nat) (o : Op) (e : Dev) : Prop :=
  work (d.unitOf c o engine) o (d.onHeld c o.id (fun x => { x with stalled := false })) = (.ok (), e)

/-- The word of an array operation is one that R94 to R96 and R120 allow: it selects an array, its reserved bits are 0, and
an array that it selects alone is not retired, nor are both (03_dense_arrays.md). -/
def ArrayWord (d : Dev) (c : Nat) (o : Op) : Prop :=
  let w := DaWord.of o
  w.sel ≠ 0 ∧ bit o.w0 31 = false ∧ bits o.w0 63 56 = 0 ∧ (w.sel ≠ 3 → ∀ a ∈ w.arrays c, d.retired a = false) ∧
    ¬ (d.retired (2 * c) = true ∧ d.retired (2 * c + 1) = true)

/-- Mode, formats and pattern that an array accepts (03_dense_arrays.md R94, R96, 04_structured_sparsity.md R130). -/
def ArrayFormats (w : DaWord) : Prop :=
  w.mode ≠ 3 ∧ isOperand w.aFmt = true ∧ isOperand w.wFmt = true ∧ w.pattern < 5 ∧ (w.mode = 2 → w.pattern = 0)

/-- No bridge link of the arrays that the word selects has failed: links 0 to 7 bring operands, links 8 to 15 take results. -/
def LinksUp (d : Dev) (c base : Nat) (w : DaWord) : Prop := ∀ a ∈ w.arrays c, d.retired a = true ∨ d.failedOn [base + a] = none

/-- Memory holds no latent error: no wrong bit, symbol or tag. -/
def Sound (d : Dev) : Prop := d.mem.flips = [] ∧ d.mem.symErrs = [] ∧ d.mem.tagErrs = []

/-- The bytes that a consumer finds in a slot from its start on; where the slot's state was lost they are poisoned
(06_memory_hierarchy.md R211). -/
def slotBytes (d : Dev) (c : Nat) (q : QEntry) (k len : Nat) : List PByte :=
  if (q.keys c k).any (fun x => (d.slot x).lost) then (d.peekRange (q.addr c k) len).map (fun b => { b with poison := true })
  else d.peekRange (q.addr c k) len

/-- Where the data of a slot came from, as its state says. -/
def slotSource (d : Dev) (c : Nat) (q : QEntry) (k : Nat) : Option (Nat × Nat) :=
  ((q.keys c k).head?.map (fun x => (d.slot x).src)).getD none

/-- What an operation that ends leaves of itself: it is no operation of the core any more. -/
def Gone (t : State) (c : Fin 4) (o : Op) : Prop := ∀ x ∈ (t.dev.core c).held ++ (t.dev.core c).streams, x.id ≠ o.id

/-- Array a is ready for a pass: its slot holds a tile of the word's formats and pattern, the rows fit, the bank's outputs
are as many, all column groups are ungated, the tile `tl` stands in the shadow registers, and a barrier is open
(03_dense_arrays.md R89, R93, R98, R108, R110, 04_structured_sparsity.md R140). -/
def PassReady (d : Dev) (o : Op) (w : DaWord) (a : Nat) (tl : Tile) : Prop :=
  (∃ x, d.tile a w.slot = some x ∧ x.codesOnly = false ∧ x.aFmt = w.aFmt ∧ x.wFmt = w.wFmt ∧ x.pattern = w.pattern ∧
    (w.mode = 1 → w.pattern ≠ 0 → x.transposable = true)) ∧
  w.share a ≤ w.maxRows ∧ w.share a * w.outputs ≤ 65536 ∧
  (w.acc = true → (d.bank a w.bank).started = true → (d.bank a w.bank).outputs = w.outputs) ∧
  (d.array a).groups = 8 ∧ (d.array a).shadow = some (w.slot, tl) ∧ (w.barrier = true → d.barrierOpen a o = true)

/-- The accumulator that a bank holds before a pass or an import: with acc = 0 every one is empty. -/
def oldAcc (w : DaWord) (b : Bank) (k : Nat) : Acc := if w.acc then Sp.get (fun _ => {}) b.acc k else {}

end Sys2Proof.Claims

/-! ### The execute engine and the arrays -/

/-- The execute engine runs the operation that it starts next to its end (R244, R245). -/
def Obligations.ExecuteOperationsEnd : Prop :=
  ∀ (s : State) (c : Fin 4) (env : Env) (o : Op) (d e : Dev),
    let eng := Dev.execEngine c o
    (ExecStarts s env c 0x20 o d → Ends Run.daTile d c eng o e → exec (.daTile c env) s = .next (left s (e.dropOp c o.id))) ∧
    (ExecStarts s env c 0x21 o d → Ends Run.daPass d c eng o e → exec (.daPass c env) s = .next (left s (e.dropOp c o.id))) ∧
    (ExecStarts s env c 0x22 o d → Ends Run.daExport d c eng o e → exec (.daExport c env) s = .next (left s (e.dropOp c o.id))) ∧
    (ExecStarts s env c 0x23 o d → Ends Run.daImport d c eng o e → exec (.daImport c env) s = .next (left s (e.dropOp c o.id))) ∧
    (ExecStarts s env c 0x24 o d → Ends Run.daSync d c eng o e → exec (.daSync c env) s = .next (left s (e.dropOp c o.id))) ∧
    (∀ fails, ExecStarts s {} c 0x80 o d → Ends (Run.scrYield fails) d c eng o e →
      exec (.scrYield c fails) s = .next (left s (e.dropOp c o.id))) ∧
    (ExecStarts s {} c 0x18 o d → Ends Run.qDrain d c eng o e → exec (.qDrain c) s = .next (left s (e.dropOp c o.id))) ∧
    (ExecStarts s {} c 0x19 o d → Ends Run.evSignal d c eng o e → exec (.evSignal c false) s = .next (left s (e.dropOp c o.id))) ∧
    (ExecStarts s {} c 0x1A o d → Ends Run.evWait d c eng o e → exec (.evWait c false) s = .next (left s (e.dropOp c o.id)))

/-- DA_TILE (03_dense_arrays.md R97, 04_structured_sparsity.md R135, R143). -/
def Obligations.TileLoads : Prop :=
  ∀ (s : State) (c : Fin 4) (env : Env) (o : Op) (d : Dev) (q : QEntry),
    let w := DaWord.of o
    let k := d.head c w.src
    ExecStarts s env c 0x20 o d → ArrayWord d c o → ArrayFormats w → (w.paired = true → w.slot % 2 = 0) →
    d.queue c w.src = some q → q.home = 0 → LinksUp d c 0 w → w.layout.bytes ≤ d.slotFill c q k →
    d.home (q.addr c k) = .coreMem c → Sound d → env.bufErrs = [] →
    ∃ t, exec (.daTile c env) s = .next t ∧
      (∀ a ∈ w.arrays c, t.dev.tile a w.slot =
        some (dropChaff w (tileOf w (slotSource d c q k) (slotBytes d c q k w.layout.bytes))).1) ∧
      (∀ a, a ∉ w.arrays c → t.dev.array a = s.dev.array a) ∧
      t.dev.head c w.src = (k + 1) % q.count ∧ (∀ x, t.dev.cell x = s.dev.cell x) ∧ Gone t c o

/-- DA_PASS (03_dense_arrays.md R98, R99, 02_number_formats_and_accumulation.md R80). -/
def Obligations.PassAccumulates : Prop :=
  ∀ (s : State) (c : Fin 4) (env : Env) (o : Op) (d : Dev) (q : QEntry) (tl : Nat → Tile),
    let w := DaWord.of o
    let k := d.head c w.src
    let f := Fmt.ofCode w.aFmt
    ExecStarts s env c 0x21 o d → ArrayWord d c o → ArrayFormats w → (w.sel ≠ 3 → w.rows ≤ 128) →
    d.queue c w.src = some q → q.home = w.sel → LinksUp d c 0 w →
    (∀ i < d.unitSpan c q k, d.slotFull c q ((k + i) % q.count) = true) → (∀ a ∈ w.arrays c, PassReady d o w a (tl a)) →
    env.bufErrs = [] → env.upsets = [] →
    ∃ t, exec (.daPass c env) s = .next t ∧ Gone t c o ∧
      (∀ a ∈ w.arrays c, ∀ sl b, (q.blocks c k).find? (fun x => x.1 = a) = some (a, sl) → d.block a sl = some b →
        (t.dev.bank a w.bank).busy = true ∧ (t.dev.bank a w.bank).started = true ∧ (t.dev.array a).shadow = none ∧
        t.dev.fld F.DA_PASS_CNT_passes a = (d.bump F.DA_PASS_CNT_passes a 0 1).fld F.DA_PASS_CNT_passes a ∧
        (∀ x, w.outputs * min (w.share a) b.rows.length ≤ x →
          Sp.get (fun _ => {}) (t.dev.bank a w.bank).acc x = oldAcc w (d.bank a w.bank) x) ∧
        (b.rowLen = w.reduction → (Fmt.ofCode b.fmt).width = f.width →
          ∀ i < min (w.share a) b.rows.length, ∀ r, b.rows[i]? = some r → (f.isMx = true → r.scales.length = ceilDiv w.reduction 32) →
          ∀ x < w.outputs, Sp.get (fun _ => {}) (t.dev.bank a w.bank).acc (i * w.outputs + x) =
            if outputLive w x then
              (Acc.combine (oldAcc w (d.bank a w.bank) (i * w.outputs + x))
                (rowOutput w (tl a) (fun j => if f.isMx then f.decodeMx ((r.scales[j / 32]?).getD 0) ((r.elems[j]?).getD 0)
                  else f.decode ((r.elems[j]?).getD 0)) (.ofCode r.rowMax) x).1).1
            else oldAcc w (d.bank a w.bank) (i * w.outputs + x))) ∧
      (w.keep = false → t.dev.head c w.src = (k + d.unitSpan c q k) % q.count) ∧ (w.keep = true → t.dev.head c w.src = k) ∧
      t.dev.mem.cells = s.dev.mem.cells

/-- DA_EXPORT (R100, R103). -/
def Obligations.ExportWritesTheBank : Prop :=
  ∀ (s : State) (c : Fin 4) (env : Env) (o : Op) (d : Dev) (q : QEntry),
    let w := DaWord.of o
    let k := d.tail c w.dst
    let width := if w.raw then 128 else (Fmt.ofCode w.wFmt).width
    let outs := (w.arrays c).flatMap (fun a => (List.range (w.share a)).flatMap (fun r =>
      (List.range (d.bank a w.bank).outputs).map (fun x => (Dev.exportElem (d.bank a w.bank) w false r x).1)))
    let bytes := packPoisoned width outs
    ExecStarts s env c 0x22 o d → ArrayWord d c o → (w.raw = true ∨ w.wFmt ∈ [0, 1, 2, 3, 4, 0xC]) → (w.sel ≠ 3 → w.rows ≤ 128) →
    d.queue c w.dst = some q → q.home = 0 → LinksUp d c 8 w → outs.length * width / 8 ≤ q.slotLen → d.slotEmpty c q k = true →
    (∀ a ∈ w.arrays c, (d.bank a w.bank).suspect = false ∧ (d.bank a w.bank).audit = 0) →
    d.home (q.addr c k) = .coreMem c → Sound d → env.bufErrs = [] →
    ∃ t, exec (.daExport c env) s = .next t ∧ Gone t c o ∧
      (∀ x, t.dev.cell x = if q.addr c k ≤ x ∧ x < q.addr c k + bytes.length then
        (bytes[x - q.addr c k]?.getD { val := 0 }).val else s.dev.cell x) ∧
      t.dev.slotFull c q k = true ∧ t.dev.tail c w.dst = (k + 1) % q.count ∧
      (∀ a ∈ w.arrays c, (t.dev.bank a w.bank).busy = false ∧ (t.dev.bank a w.bank).acc = (d.bank a w.bank).acc)

/-- DA_IMPORT and DA_SYNC (R101, R102, R103). -/
def Obligations.ImportAccumulates : Prop :=
  (∀ (s : State) (c : Fin 4) (env : Env) (o : Op) (d : Dev) (q : QEntry),
    let w := DaWord.of o
    let k := d.head c w.src
    let n := w.outputs
    let words := cutElems 128 0 (w.rows * n) (Dev.transit 0 (slotBytes d c q k (w.rows * n * 16)))
    ExecStarts s env c 0x23 o d → ArrayWord d c o → ArrayFormats w → (w.sel ≠ 3 → w.rows ≤ 128) →
    d.queue c w.src = some q → q.home = 0 → LinksUp d c 0 w →
    (∀ a ∈ w.arrays c, w.share a * n ≤ 65536 ∧ (w.mode = 1 → w.share a ≤ w.maxRows) ∧
      (w.acc = true → (d.bank a w.bank).started = true → (d.bank a w.bank).outputs = n)) →
    w.rows * n * 16 ≤ q.slotLen → w.rows * n * 16 ≤ d.slotFill c q k → d.home (q.addr c k) = .coreMem c → Sound d →
    ∃ t, exec (.daImport c env) s = .next t ∧ Gone t c o ∧
      (∀ a ∈ w.arrays c, (t.dev.bank a w.bank).busy = true ∧
        ∀ i < w.share a * n, ∀ x,
          words[(if w.sel = 3 ∧ a % 2 = 1 then Run.evenShare w.rows else 0) * n + i]? = some x →
          Sp.get (fun _ => {}) (t.dev.bank a w.bank).acc i =
            (Acc.combine (oldAcc w (d.bank a w.bank) i) (Acc.ofWord x.code)).1) ∧
      t.dev.head c w.src = (k + 1) % q.count ∧ (∀ x, t.dev.cell x = s.dev.cell x)) ∧
  (∀ (s : State) (c : Fin 4) (env : Env) (o : Op) (d : Dev),
    ExecStarts s env c 0x24 o d → ArrayWord d c o →
    ∃ e, exec (.daSync c env) s = .next (left s e) ∧ (∀ x ∈ (e.core c).held, x.id ≠ o.id) ∧
      e.regs = s.dev.regs ∧ e.arrays = s.dev.arrays ∧ e.mem = s.dev.mem)

/-- TILE_SHADOW_COPY, START_RAMP, STOP_RAMP and BARRIER_STAGGER_START (R89, R108-R110). -/
def Obligations.ArrayEvents : Prop :=
  ∀ (s : State) (a : Fin 8), s.dev.awake = true → s.dev.pins.tripped = false →
    let others (t : State) : Prop := (∀ b, b ≠ a.val → t.dev.array b = s.dev.array b) ∧ t.dev.mem = s.dev.mem ∧ t.dev.cores = s.dev.cores
    (∀ o w tl, s.dev.nextPass a = some (o, w) → s.dev.tile a w.slot = some tl → tl.codesOnly = false → s.dev.coreRuns (a / 2) = true →
      ∃ t, exec (.tileShadowCopy a) s = .next t ∧ t.dev.array a = { s.dev.array a with shadow := some (w.slot, tl) } ∧ others t) ∧
    (s.dev.rampDue a = true → (s.dev.array a).groups < 8 →
      ∃ t, exec (.startRamp a) s = .next t ∧ t.dev.array a = { s.dev.array a with groups := 8, ramp := .running } ∧
        t.dev.fld F.DA_RAMP_CNT_starts a = (if (s.dev.array a).groups = 0 then
          min (s.dev.fld F.DA_RAMP_CNT_starts a + 1) (2 ^ (F.DA_RAMP_CNT_starts.hi + 1 - F.DA_RAMP_CNT_starts.lo) - 1)
          else s.dev.fld F.DA_RAMP_CNT_starts a) ∧ others t) ∧
    (∀ n : Fin 9, s.dev.rampDue a = false → (s.dev.array a).groups ≠ 0 →
      ∃ t, exec (.stopRamp a n) s = .next t ∧ t.dev.array a = { s.dev.array a with
        groups := (s.dev.array a).groups - n, ramp := if (s.dev.array a).groups ≤ n then .gated else .rampingDown } ∧ others t) ∧
    (∀ o w id, s.dev.nextPass a = some (o, w) → w.barrier = true → s.dev.passRelease (a / 2) o.id = some id →
      id ∉ (s.dev.array a).staggered →
      ∃ t, exec (.barrierStaggerStart a) s = .next t ∧
        t.dev.array a = { s.dev.array a with staggered := (s.dev.array a).staggered ++ [id] } ∧ others t)

/-- EV_SIGNAL and EV_WAIT at the fetch engine, and Q_DRAIN (R251, R264). -/
def Obligations.EventsAndDrains : Prop :=
  (∀ (s : State) (c : Fin 4) (o : Op) (rest : List Op), s.dev.awake = true → s.dev.coreRuns c = true →
    (s.dev.core c).waiting = o :: rest → bits o.w0 31 24 = 0 → bits o.w0 63 48 = 0 → bits o.w1 63 48 = 0 →
    (∀ x ∈ rest ++ (s.dev.core c).held ++ (s.dev.core c).streams, x.id ≠ o.id) →
    let n := bits o.w0 11 8
    let v := Sp.get (fun _ => 0) (s.dev.core c).events n
    (o.opcode = 0x19 → (∀ x ∈ (s.dev.core c).held, x.task ≠ o.task) → (o.task = 8 → (s.dev.core c).streams = []) →
      exec (.evSignal c true) s = .next (left s ((found s).onCore c (fun k =>
        { k with waiting := rest, events := Sp.set (fun _ => 0) k.events n ((v + 1) % 2 ^ 32) })))) ∧
    (o.opcode = 0x1A → (v + 2 ^ 32 - bits o.w1 31 0) % 2 ^ 32 < 2 ^ 31 →
      exec (.evWait c true) s = .next (left s ((found s).onCore c (fun k => { k with waiting := rest })))) ∧
    (o.opcode = 0x1A → 2 ^ 31 ≤ (v + 2 ^ 32 - bits o.w1 31 0) % 2 ^ 32 →
      exec (.evWait c true) s = .next (left s (found s)))) ∧
  (∀ (s : State) (c : Fin 4) (o : Op) (d : Dev) (q : QEntry),
    let n := bits o.w0 15 8
    let k := d.head c n
    ExecStarts s {} c 0x18 o d → bits o.w0 31 24 = 0 → bits o.w0 63 48 = 0 → bits o.w1 63 48 = 0 →
    d.queue c n = some q → q.home < 4 → k < q.count → d.slotFull c q k = true →
    ∃ t, exec (.qDrain c) s = .next t ∧ Gone t c o ∧ t.dev.head c n = (k + d.unitSpan c q k) % q.count ∧
      (∀ x ∈ q.keys c k, (t.dev.slot x).fill = 0 ∧ (t.dev.slot x).full = false ∧ (t.dev.slot x).poison = false) ∧
      (∀ x, (∀ i < d.unitSpan c q k, x ∉ q.keys c ((k + i) % q.count)) → t.dev.slot x = s.dev.slot x) ∧
      t.dev.mem.cells = s.dev.mem.cells)


namespace Sys2Proof.Claims

open Sys2Proof.Machine

/-- The operation that a command with pick `p` runs at the fetch engine's side of core c, with the device as its work finds
it: the next operation to start, taken into its unit, when the unit is free for it, or the one that the unit holds under an
id and that no page fault stops (07_streams_descriptors_and_layouts.md R243, 08_jobs_contexts_and_translation.md R310). -/
def FetchRuns (s : State) (env : Env) (c : Fin 4) (p : Pick) (code : Nat) (free : Dev → Bool) (o : Op) (d : Dev) : Prop :=
  s.dev.awake = true ∧ s.dev.coreRuns c = true ∧ o.opcode = code ∧
    ((p = .start ∧ free (found s env) = true ∧ ∃ rest, (s.dev.core c).waiting = o :: rest ∧
        d = (found s env).onCore c (fun k => { k with waiting := rest, held := k.held ++ [o] })) ∨
      (p = .held o.id ∧ s.dev.heldOp c o.id = some o ∧ o.stopped = none ∧ d = found s env))

/-- The same for the engines of the execute side: no operation that came before it and is not complete names one of its
engines (05_gather_merge_engines.md R158, R187). -/
def EngineRuns (s : State) (env : Env) (c : Fin 4) (p : Pick) (code : Nat) (o : Op) (d : Dev) : Prop :=
  (∀ x ∈ (d.core c).held.takeWhile (fun x => x.id ≠ o.id), Dev.sharesEngine x o = false) ∧
    ((p = .start ∧ ExecStarts s env c code o d) ∨
      (p = .held o.id ∧ s.dev.awake = true ∧ s.dev.coreRuns c = true ∧ o.opcode = code ∧ s.dev.heldOp c o.id = some o ∧
        o.stopped = none ∧ d = found s env))

/-- The same for the update engine (11_parameter_update.md R397, R398). -/
def UpdateRuns (s : State) (env : Env) (c : Fin 4) (p : Pick) (code : Nat) (o : Op) (d : Dev) : Prop :=
  (p = .start ∧ ExecStarts s env c code o d) ∨
    (p = .held o.id ∧ s.dev.awake = true ∧ s.dev.coreRuns c = true ∧ o.opcode = code ∧ s.dev.heldOp c o.id = some o ∧
      o.stopped = none ∧ d = found s env)

/-- The same for the streams: at most 32 active places, none started while an HD_FETCH runs, and the number that follows the
last stream's (07_streams_descriptors_and_layouts.md R243, R277, 10_backward_pass_and_hoard.md R366). -/
def StreamRuns (s : State) (env : Env) (c : Fin 4) (p : Pick) (code : Nat) (o : Op) (d : Dev) : Prop :=
  s.dev.awake = true ∧ s.dev.coreRuns c = true ∧ o.opcode = code ∧
    ((p = .start ∧ s.dev.activePlaces c < 32 ∧ (∀ x ∈ (s.dev.core c).held, x.opcode ≠ 0x51) ∧
        ∃ o' rest, (s.dev.core c).waiting = o' :: rest ∧ o = { o' with stream := (s.dev.core c).nextStream % 32 } ∧
          d = (found s env).onCore c (fun k =>
            { k with waiting := rest, streams := k.streams ++ [o], nextStream := (k.nextStream + 1) % 32 })) ∨
      (p = .held o.id ∧ s.dev.streamOp c o.id = some o ∧ o.stopped = none ∧ d = found s env))

/-- The work of a stream comes to its end on the device `d` and leaves `e`. -/
def StreamEnds (work : UnitId → Op → Run Unit) (d : Dev) (c : Nat) (o : Op) (e : Dev) : Prop :=
  work (d.unitOf c o (0x20 + c)) o (d.onStream c o.id (fun x => { x with stalled := false })) = (.ok (), e)

end Sys2Proof.Claims

/-! ### Operations of the other units -/

/-- An engine runs its operation to its end (05_gather_merge_engines.md R158, R187, 11_parameter_update.md R398). -/
def Obligations.EngineOperationsEnd : Prop :=
  ∀ (s : State) (c : Fin 4) (p : Pick) (env : Env) (o : Op) (d e : Dev),
    let eng := Dev.execEngine c o
    let goes : Host.Outcome State Fault Refusal := .next (left s (e.dropOp c o.id))
    (EngineRuns s env c p 0x30 o d → Ends Run.gather d c eng o e → exec (.gather c p env) s = goes) ∧
    (EngineRuns s env c p 0x31 o d → Ends Run.scatter d c eng o e → exec (.scatter c p env) s = goes) ∧
    (EngineRuns s env c p 0x32 o d → Ends Run.scatterAdd d c eng o e → exec (.scatterAdd c p env) s = goes) ∧
    (EngineRuns s env c p 0x33 o d → Ends Run.topK d c eng o e → exec (.topK c p env) s = goes) ∧
    (EngineRuns s env c p 0x34 o d → Ends Run.segMerge d c eng o e → exec (.segMerge c p env) s = goes) ∧
    (EngineRuns s env c p 0x35 o d → Ends Run.spmmCsr d c eng o e → exec (.spmmCsr c p env) s = goes) ∧
    (EngineRuns s env c p 0x36 o d → Ends Run.spmmBsr d c eng o e → exec (.spmmBsr c p env) s = goes) ∧
    (EngineRuns s env c p 0x37 o d → Ends Run.combineRows d c eng o e → exec (.combine c p env) s = goes) ∧
    (EngineRuns s env c p 0x38 o d → Ends Run.gmeSync d c eng o e → exec (.gmeSync c p env) s = goes) ∧
    (EngineRuns s env c p 0x90 o d → Ends Run.veMap d c eng o e → exec (.veMap c p env) s = goes) ∧
    (EngineRuns s env c p 0x91 o d → Ends Run.veRowred d c eng o e → exec (.veRowred c p env) s = goes) ∧
    (EngineRuns s env c p 0x9F o d → Ends Run.veSync d c eng o e → exec (.veSync c p env) s = goes) ∧
    (UpdateRuns s env c p 0x68 o d → Ends Run.updNorm d c (0x70 + c) o e → exec (.updNorm c p env) s = goes) ∧
    (UpdateRuns s env c p 0x69 o d → Ends Run.updNormred d c (0x70 + c) o e → exec (.updNormred c p env) s = goes) ∧
    (UpdateRuns s env c p 0x6A o d → Ends Run.updApply d c (0x70 + c) o e → exec (.updApply c p env) s = goes)

/-- A unit of the fetch side runs its operation to its end (07_streams_descriptors_and_layouts.md R243, R276). -/
def Obligations.FetchOperationsEnd : Prop :=
  ∀ (s : State) (c : Fin 4) (p : Pick) (env : Env) (o : Op) (d e : Dev),
    let goes : Host.Outcome State Fault Refusal := .next (left s (e.dropOp c o.id))
    let counted : Host.Outcome State Fault Refusal := .next (left s ((e.bump F.FD_STREAM_CNT_ops c 0 1).dropOp c o.id))
    let wlk := fun d : Dev => d.walkerFree c
    let hd := fun d : Dev => d.hoardFree c
    let any := fun _ : Dev => true
    (StreamRuns s env c p 0x10 o d → StreamEnds Run.stLoad d c o e → exec (.stLoad c p env) s = counted) ∧
    (StreamRuns s env c p 0x11 o d → StreamEnds Run.stStore d c o e → exec (.stStore c p env) s = counted) ∧
    (StreamRuns s env c p 0x12 o d → StreamEnds Run.stCopy d c o e → exec (.stCopy c p env) s = counted) ∧
    (StreamRuns s env c p 0x13 o d → StreamEnds Run.stTile d c o e → exec (.stTile c p env) s = counted) ∧
    (StreamRuns s env c p 0x14 o d → StreamEnds Run.stMaxscan d c o e → exec (.stMaxscan c p env) s = counted) ∧
    (FetchRuns s env c p 0x40 wlk o d → Ends Run.route d c (0x74 + c) o e → exec (.route c p env) s = goes) ∧
    (FetchRuns s env c p 0x41 wlk o d → Ends Run.walk d c (0x74 + c) o e → exec (.walk c p env) s = goes) ∧
    (FetchRuns s env c p 0x50 hd o d → Ends Run.hdPush d c (0x20 + c) o e → exec (.hdPush c p env) s = goes) ∧
    (FetchRuns s env c p 0x51 hd o d → Ends Run.hdFetch d c (0x20 + c) o e → exec (.hdFetch c p env) s = goes) ∧
    (FetchRuns s env c p 0x52 hd o d → Ends Run.hdPop d c (0x20 + c) o e → exec (.hdPop c p env) s = goes) ∧
    (FetchRuns s env c p 0x53 hd o d → Ends Run.hdTurn d c (0x20 + c) o e → exec (.hdTurn c p env) s = goes) ∧
    (FetchRuns s env c p 0x54 hd o d → Ends Run.hdDrop d c (0x20 + c) o e → exec (.hdDrop c p env) s = goes) ∧
    (FetchRuns s env c p 0x58 hd o d → Ends Run.wqPush d c (0x20 + c) o e → exec (.wqPush c p env) s = goes) ∧
    (FetchRuns s env c p 0x59 hd o d → Ends Run.wqFlush d c (0x20 + c) o e → exec (.wqFlush c p env) s = goes) ∧
    (FetchRuns s {} c p 0x60 any o d → Ends Run.mbPost d c (0x20 + c) o e → exec (.mbPost c p) s = goes) ∧
    (FetchRuns s {} c p 0x61 any o d → Ends Run.mbTake d c (0x20 + c) o e → exec (.mbTake c p) s = goes) ∧
    (FetchRuns s env c p 0x70 any o d → Ends Run.colExpmax d c 0x80 o e → exec (.colExpmax c p env) s = goes) ∧
    (FetchRuns s env c p 0x71 any o d → Ends Run.colAllreduce d c 0x80 o e → exec (.colAllreduce c p env) s = goes) ∧
    (FetchRuns s env c p 0x72 any o d → Ends Run.colRedscat d c 0x80 o e → exec (.colRedscat c p env) s = goes) ∧
    (FetchRuns s env c p 0x73 any o d → Ends Run.colAllgather d c 0x80 o e → exec (.colAllgather c p env) s = goes) ∧
    (FetchRuns s env c p 0x74 any o d → Ends Run.colAlltoall d c 0x80 o e → exec (.colAlltoall c p env) s = goes) ∧
    (FetchRuns s env c p 0x75 any o d → Ends Run.colPermute d c 0x80 o e → exec (.colPermute c p env) s = goes) ∧
    (FetchRuns s env c p 0x76 any o d → Ends Run.colBarrier d c 0x81 o e → exec (.colBarrier c p env) s = goes) ∧
    (FetchRuns s env c p 0x77 any o d → Ends Run.colGradstep d c 0x80 o e → exec (.colGradstep c p env) s = goes) ∧
    (FetchRuns s env c p 0x78 any o d → Ends Run.colGradwait d c 0x80 o e → exec (.colGradwait c p env) s = goes) ∧
    (FetchRuns s env c p 0x79 any o d → Ends Run.colFill d c 0x80 o e → exec (.colFill c p env) s = goes) ∧
    (FetchRuns s env c p 0x7A any o d → Ends Run.colRemap d c 0x80 o e → exec (.colRemap c p env) s = goes)


namespace Sys2Proof.Claims

open Sys2Proof.Machine

/-- Column i of a row comes before column j in the order of R167 (05_gather_merge_engines.md): numbers before NaNs, larger
numbers first, equal scores and NaNs by rising column. -/
def TopPrecedes (xs : List Machine.Num) (i j : Nat) : Prop :=
  ∀ x y, xs[i]? = some x → xs[j]? = some y →
    (x.isNaN = false ∧ y.isNaN = true) ∨ (x.isNaN = true ∧ y.isNaN = true ∧ i < j) ∨
      (x.isNaN = false ∧ y.isNaN = false ∧ (0 < Machine.Num.cmp x y ∨ (Machine.Num.cmp x y = 0 ∧ i < j)))

/-- A counter field raised by k, as it reads (00_scope.md R13). -/
def raisedBy (d : Dev) (f : Field) (w j k : Nat) : Nat := min (d.fld f w j + k) (2 ^ (f.hi + 1 - f.lo) - 1)

/-- The word of a Hoard operation without a parameter block is legal, and its slot one of the job's
(10_backward_pass_and_hoard.md R365). -/
def HoardWord (d : Dev) (o : Op) : Prop :=
  bits o.w0 63 14 = 0 ∧ bits o.w1 63 32 = 0 ∧ (o.opcode ≠ 0x52 → o.w1 = 0) ∧ bits o.w0 13 8 < (d.job o.ctx).seqSlots

/-- The word of a collective is legal (12_collectives_and_gradient_reduction.md R434, R435); COL_FILL's second word is a
number of bytes. -/
def ColWord (o : Op) : Prop :=
  bits o.w0 15 8 = 0 ∧ bits o.w0 63 32 = 0 ∧ (if o.opcode = 0x79 then bits o.w1 63 32 = 0 else bits o.w1 63 48 = 0 ∧ o.w1 % 128 = 0)

end Sys2Proof.Claims

/-- GME_SYNC and VE_SYNC (R158, R188). -/
def Obligations.SyncsEnd : Prop :=
  ∀ (s : State) (c : Fin 4) (p : Pick) (env : Env) (o : Op) (d : Dev),
    (EngineRuns s env c p 0x38 o d → bits o.w0 15 8 ≠ 0 → bits o.w0 63 30 = 0 → bits o.w1 63 48 = 0 → o.w1 % 128 = 0 →
      (∀ x ∈ (d.core c).held, x.id = o.id ∨ ¬ (0x30 ≤ x.opcode ∧ x.opcode < 0x40) ∨ bits x.w0 15 8 &&& bits o.w0 15 8 = 0) →
      ∃ t, exec (.gmeSync c p env) s = .next t ∧ Gone t c o ∧ t.dev.mem = s.dev.mem ∧ t.dev.arrays = s.dev.arrays ∧
        ∀ g < 8, t.dev.fld F.GME_OP_CNT_ops c g =
          if bit (bits o.w0 15 8) g then raisedBy s.dev F.GME_OP_CNT_ops c g 1 else s.dev.fld F.GME_OP_CNT_ops c g) ∧
    (EngineRuns s env c p 0x9F o d → bits o.w0 11 8 ≠ 0 → bits o.w0 15 12 = 0 → bits o.w0 31 29 = 0 → bits o.w0 63 32 = 0 → o.w1 = 0 →
      (∀ x ∈ (d.core c).held, x.id = o.id ∨ ¬ (0x90 ≤ x.opcode ∧ x.opcode < 0xA0) ∨ bits x.w0 11 8 &&& bits o.w0 11 8 = 0) →
      ∃ t, exec (.veSync c p env) s = .next t ∧ Gone t c o ∧ t.dev.mem = s.dev.mem ∧ t.dev.arrays = s.dev.arrays ∧
        ∀ g < 4, t.dev.fld F.VE_OP_CNT_ops c g =
          if bit (bits o.w0 11 8) g then raisedBy s.dev F.VE_OP_CNT_ops c g 1 else s.dev.fld F.VE_OP_CNT_ops c g)

/-- TOP_K's total order (R167). -/
def Obligations.TopOrderSorts : Prop :=
  ∀ xs : List Machine.Num, (Run.topOrder xs).Perm (List.range xs.length) ∧ (Run.topOrder xs).Pairwise (TopPrecedes xs)

/-- The saturating addition of SCATTER_ADD (R166). -/
def Obligations.ScatterAddSaturates : Prop :=
  ∀ x y : BitVec 32,
    let z := Run.satAdd32 x.toNat y.toNat
    let sum := x.toInt + y.toInt
    z.1 < 2 ^ 32 ∧ (BitVec.ofNat 32 z.1).toInt = max (-(2 ^ 31)) (min (2 ^ 31 - 1) sum) ∧
      (z.2 = true ↔ sum < -(2 ^ 31) ∨ 2 ^ 31 ≤ sum)

/-- Waits, page faults and fatal faults of operations (08_jobs_contexts_and_translation.md R304, R307, R309). -/
def Obligations.OperationsStop : Prop :=
  ∀ (s : State) (c : Fin 4) (p : Pick) (env : Env) (o : Op) (d e : Dev),
    let outcome (work : UnitId → Op → Run Unit) (eng : Nat) (r : Stop) : Prop :=
      work (d.unitOf c o eng) o (d.onHeld c o.id (fun x => { x with stalled := false })) = (.error r, e)
    let cur := ((e.heldOp c o.id).getD {}).cursor
    let end_ (eng : Nat) (r : Stop) : Dev :=
      let u := d.unitOf c o eng
      match r with
      | .wait => e.onHeld c o.id (fun x => { x with stalled := true })
      | .page va _ => (e.onHeld c o.id (fun x => { x with stopped := some va })).pageFault (u.info 0x01 va 0 0 cur none)
      | .fatal cause va pa detail other => e.fatal (u.info cause va pa detail cur other)
    (∀ r, FetchRuns s env c p 0x40 (fun d => d.walkerFree c) o d → outcome Run.route (0x74 + c) r →
      exec (.route c p env) s = .next (left s (end_ (0x74 + c) r))) ∧
    (∀ r, EngineRuns s env c p 0x30 o d → outcome Run.gather (Dev.execEngine c o) r →
      exec (.gather c p env) s = .next (left s (end_ (Dev.execEngine c o) r))) ∧
    (∀ r, ExecStarts s env c 0x20 o d → outcome Run.daTile (Dev.execEngine c o) r →
      exec (.daTile c env) s = .next (left s (end_ (Dev.execEngine c o) r))) ∧
    (∀ va dv, StreamRuns s env c p 0x10 o d →
      Run.stLoad (d.unitOf c o (0x20 + c)) o (d.onStream c o.id (fun x => { x with stalled := false })) = (.error (.page va dv), e) →
      let x := (e.streamOp c o.id).getD {}
      exec (.stLoad c p env) s = .next (left s
        (((e.onStream c o.id (fun x => { x with stopped := some va })).bump F.FD_FAULT_CNT_faults c 0 1).pageFault
          ((d.unitOf c o (0x20 + c)).info 0x01 va 0 x.stream x.cursor none))))

/-- HD_POP, HD_DROP and HD_TURN (R371, R372). -/
def Obligations.HoardStacks : Prop :=
  ∀ (s : State) (c : Fin 4) (p : Pick) (env : Env) (o : Op) (d : Dev),
    let slot := bits o.w0 13 8
    let h := (s.dev.core c).hoard
    HoardWord d o → env.hoardPoison = false →
    (∀ f fs, FetchRuns s env c p 0x52 (fun d => d.hoardFree c) o d → h.stack slot = f :: fs → f.tag = bits o.w1 31 0 →
      ∃ t, exec (.hdPop c p env) s = .next t ∧ Gone t c o ∧
        (∀ k, ∀ x ∈ (t.dev.core c).hoard.stack k, x.id ≠ f.id ∧ x ∈ h.stack k) ∧
        t.dev.fld F.HD_POP_CNT_frames c = raisedBy s.dev F.HD_POP_CNT_frames c 0 1 ∧ t.dev.mem = s.dev.mem) ∧
    (FetchRuns s env c p 0x54 (fun d => d.hoardFree c) o d →
      ∃ t, exec (.hdDrop c p env) s = .next t ∧ Gone t c o ∧ (t.dev.core c).hoard.stack slot = [] ∧
        t.dev.fld F.HD_POP_CNT_frames c = raisedBy s.dev F.HD_POP_CNT_frames c 0 (h.stack slot).length ∧ t.dev.mem = s.dev.mem) ∧
    (FetchRuns s env c p 0x53 (fun d => d.hoardFree c) o d → h.stack slot ≠ [] →
      ∃ t, exec (.hdTurn c p env) s = .next t ∧ Gone t c o ∧ slot ∈ (t.dev.core c).hoard.turned ∧
        (t.dev.core c).hoard.frames = h.frames ∧ t.dev.mem = s.dev.mem)

/-- WQ_FLUSH, WQ_ENTRY_COMPLETE, HOARD_WRITE_BACK, HOARD_PREFETCH and W_BUBBLE_ISSUE (R374, R378, R379, R384-R386). -/
def Obligations.HoardBackground : Prop :=
  ∀ (s : State) (c : Fin 4) (env : Env),
    let h := (s.dev.core c).hoard
    let i := s.dev.hoardItem c
    let u := s.dev.hoardUnit c
    let size (l : List ResidentCopy) : Nat := l.foldl (fun n r => n + r.size) 0
    (∀ p o d, FetchRuns s env c p 0x59 (fun d => d.hoardFree c) o d → bits o.w0 63 14 = 0 → o.w1 = 0 →
      h.queue = [] → h.issuing = none → h.running = [] →
      ∃ t, exec (.wqFlush c p env) s = .next t ∧ Gone t c o ∧ (t.dev.core c).hoard = h.reclaimFlushed ∧ t.dev.mem = s.dev.mem) ∧
    (∀ e, s.dev.awake = true → s.dev.coreRuns c = true → h.running.find? (fun e => e.ids.all (fun id => !s.dev.outstanding c id)) = some e →
      ∃ t, exec (.wqEntryComplete c) s = .next t ∧ (t.dev.core c).hoard.running = h.running.erase e ∧
        (t.dev.core c).hoard.queue = h.queue) ∧
    (∀ r f e, s.dev.awake = true → s.dev.coreRuns c = true → i.homeBytes ≠ 0 →
      i.resBytes - size h.resident + size (h.resident.filter (fun r => h.clean r.frame && Run.mayEvict h .push r)) <
        s.dev.fld F.HD_CTRL_wb_ahead c * 2 ^ 21 →
      h.resident.find? (fun r => !h.pinned r.frame && !h.clean r.frame) = some r → h.frame r.frame = some f →
      Run.writeBackFrame u f r (found s env) = (.ok (), e) → exec (.hoardWriteBack c env) s = .next (left s e)) ∧
    (∀ f b e, s.dev.awake = true → s.dev.coreRuns c = true → i.homeBytes ≠ 0 → s.dev.isSet F.HD_CTRL_pf_en c = true →
      h.turned.findSome? (fun k => (h.stack k).find? (fun f => (h.copy f.id).isNone && decide (f.id ≤ h.pushNo))) = some f →
      size (h.resident.filter ResidentCopy.unread) + f.size ≤ s.dev.fld F.HD_CTRL_pf_window c * 2 ^ 21 →
      Run.copyIn u .prefetch f (found s env) = (.ok b, e) → exec (.hoardPrefetch c env) s = .next (left s e)) ∧
    (∀ w ws e1 e, s.dev.awake = true → s.dev.coreRuns c = true → h.stopped = none → h.issuing = none → h.queue = w :: ws →
      (found s env).passPending c = false → s.dev.isSet F.WQ_CTRL_drain_en c = true → s.dev.tasks c (s.dev.fld F.WQ_CFG_task c) = [] →
      Run.wqNext (s.dev.hoardUnit c w.by_) F.WQ_BUBBLE_CNT_entries (found s env) = (.ok (), e1) →
      Run.wqIssue (s.dev.hoardUnit c w.by_) e1 = (.ok (), e) → exec (.wBubbleIssue c env) s = .next (left s e))

/-- COL_REMAP, COL_FILL and COL_GRADWAIT (R446, R447, R449, R455). -/
def Obligations.CollectiveControl : Prop :=
  ∀ (s : State) (c : Fin 4) (p : Pick) (env : Env) (o : Op) (d : Dev),
    let n := bits o.w0 31 16
    ColWord o →
    (FetchRuns s env c p 0x7A (fun _ => true) o d → n ≤ s.dev.fld F.COL_PLAN_plans 0 o.ctx →
      Run.otherCollectives d (d.unitOf c o 0x80) o = false →
      ∃ t, exec (.colRemap c p env) s = .next t ∧ Gone t c o ∧ t.dev.fld F.COL_PLAN_active 0 o.ctx = n ∧
        (t.dev.ctx o.ctx).colSeq = [] ∧ t.dev.mem = s.dev.mem) ∧
    (FetchRuns s env c p 0x79 (fun _ => true) o d → (s.dev.ctx o.ctx).slotWaits = [] → (s.dev.job o.ctx).planCount = 0 →
      s.dev.isSet F.COL_BKT_armed 0 o.ctx = false →
      ∃ t, exec (.colFill c p env) s = .next t ∧ Gone t c o ∧ t.dev.isSet F.COL_ERR_STATUS_stray = true ∧
        (t.dev.ctx o.ctx).buckets = (s.dev.ctx o.ctx).buckets ∧ t.dev.mem = s.dev.mem) ∧
    (FetchRuns s env c p 0x78 (fun _ => true) o d → (s.dev.ctx o.ctx).slotWaits = [] → (s.dev.job o.ctx).planCount = 0 →
      n = 0 → s.dev.isSet F.COL_BKT_armed 0 o.ctx = false →
      ∃ e : Dev, exec (.colGradwait c p env) s = .next (left s (e.dropOp c o.id)) ∧ e.regs = s.dev.regs ∧ e.ctxs = s.dev.ctxs ∧
        e.mem = s.dev.mem)

/-- What arrives (R438, R439, R448, R456, R457, R459). -/
def Obligations.CollectiveArrivals : Prop :=
  ∀ (s : State) (n : Fin 16), s.dev.awake = true → s.dev.pins.tripped = false →
    let x := s.dev.ctx n
    (∀ m, x.aborted = false → x.job ≠ none → x.st = .running →
      (∀ y ∈ x.inbox, y.src = s.dev.deviceId → y.group = m.group → y.stream = m.stream → y.seq = m.seq →
        y.opcode = m.opcode ∧ y.kind = m.kind ∧ y.count = m.count ∧ y.step = m.step) →
      ∃ t k, exec (.collectiveMessage n m) s = .next t ∧ (t.dev.ctx n).inbox = x.inbox ++ [m] ∧
        t.dev.fld F.COL_RX_BYTES_bytes = raisedBy s.dev F.COL_RX_BYTES_bytes 0 0 k ∧ t.dev.mem = s.dev.mem) ∧
    (∀ m, x.aborted = true → ∃ t, exec (.collectiveMessage n m) s = .next t ∧ t.dev.ctxs = s.dev.ctxs ∧
      ∃ port, t.dev.out = [.rhanak port "abort" [m.src, n, m.group, m.stream, m.seq]]) ∧
    (∀ group seq c o, s.dev.waitingBarrier n group seq = some (c, o) → x.st = .running →
      let frees (late : Nat) (t : State) : Prop := (∀ y ∈ (t.dev.core c).held, y.id ≠ o.id) ∧ t.dev.rd .BAR_LAST_REL = s.dev.now ∧
        t.dev.fld F.BAR_CNT_releases = raisedBy s.dev F.BAR_CNT_releases 0 0 1 ∧
        t.dev.fld F.BAR_LATE_CNT_releases = raisedBy s.dev F.BAR_LATE_CNT_releases 0 0 late
      (∃ t, exec (.barrierRelease n group seq none) s = .next t ∧ (s.dev.now < 2 ^ 64 → frees 0 t)) ∧
      (∀ at_, at_ < s.dev.now → ∃ t, exec (.barrierRelease n group seq (some at_)) s = .next t ∧ (s.dev.now < 2 ^ 64 → frees 1 t)) ∧
      (∀ at_, o.work[2]? = some (at_ + 1) → at_ ≤ s.dev.now →
        ∃ t, exec (.timedRelease n group seq) s = .next t ∧ (s.dev.now < 2 ^ 64 → frees 0 t))) ∧
    (∀ group stream seq source u cur, s.dev.collectiveUnit n group stream seq = some (u, cur) → u.ctx = n → x.st = .running →
      (∃ t, exec (.abortNotice n group stream seq source) s = .next t ∧ (t.dev.ctx n).st = .faulted ∧
        t.dev.isSet F.COL_ERR_STATUS_peer_lost = true ∧ bits (t.dev.rd .CTX_FREC 0 (8 * n + 3)) 7 0 = 0x13) ∧
      (s.dev.awaits n group stream seq source = true →
        exec (.peerTimeout n group stream seq source) s = exec (.abortNotice n group stream seq source) s)) ∧
    (∀ b k e, x.buckets.find? (fun k => k.1 = b ∧ k.2.fired ∧ ¬ k.2.done) = some (b, k) → x.st = .running → k.stopped = none →
      Run.bucketWork { engine := 0x80, core := 0, ctx := n } b (found s {}) = (.ok (), e) →
      exec (.bucketComplete n b {}) s = .next (left s e))


namespace Sys2Proof.Claims

open Sys2Proof.Machine

/-- One direction of a fabric link after a command. -/
abbrev dirOf (s : State) (b : Fin 51) (back : Bool) : FabDir := Fabric.dir s.links b back

/-- One direction of a link replaced, and the device of the command's effect. -/
def leftLink (s : State) (d : Dev) (b : Fin 51) (back : Bool) (f : FabDir) : State :=
  { s with dev := Dev.settle s.dev d, links := Fabric.setDir s.links b back f }

end Sys2Proof.Claims

/-! ### The fabric links -/

/-- FLIT_RECEIVE (R30-R34, R40). -/
def Obligations.FlitsArrive : Prop :=
  ∀ (s : State) (b : Fin 51) (back : Bool) (words : List Nat) (errs : List (Nat × Nat)), s.dev.awake = true →
    let f := dirOf s b back
    (∀ seq ws f', s.dev.linkUp b = true → f.send words = some (seq, ws, f') →
      let bad := failedWords ws errs
      let counted (t : State) : Prop := t.dev.fld F.FAB_LINK_PAR_CNT_words 0 b = raisedBy s.dev F.FAB_LINK_PAR_CNT_words 0 b bad ∧
        (0 < bad → t.dev.isSet F.FAB_ERR_STATUS_parity_event = true)
      ∃ t, exec (.flitReceive b back words errs) s = .next t ∧ counted t ∧
        (∀ k, k ≠ 2 * b.val + b2n back → Sp.get (fun _ => {}) t.links k = Sp.get (fun _ => {}) s.links k) ∧
        (seq = f.expect → bad = 0 → dirOf t b back = { f' with expect := seq + 1, fails := 0, nakAt := [] } ∧
          t.dev.out = [.fabric b (b2n back) "ack" seq] ∧ t.dev.linkUp b = true) ∧
        (seq = f.expect → 0 < bad → dirOf t b back = { f' with fails := f.fails + 1, nakAt := f.nakAt ++ [s.dev.now] } ∧
          (f.fails + 1 ≤ max 1 (s.dev.fld F.FAB_CTRL_replay_limit) →
            t.dev.out = [.fabric b (b2n back) "nak" seq] ∧ t.dev.linkUp b = true) ∧
          (max 1 (s.dev.fld F.FAB_CTRL_replay_limit) < f.fails + 1 →
            t.dev.fld F.FAB_LINK_STATUS_state 0 b = 3 ∧ t.dev.isSet F.FAB_ERR_STATUS_bridge_failed = true ∧ t.dev.out = [])) ∧
        (seq ≠ f.expect → dirOf t b back = f' ∧ t.dev.out = [] ∧ t.dev.linkUp b = true)) ∧
    ((s.dev.linkUp b = false ∨ f.send words = none) →
      exec (.flitReceive b back words errs) s = .next (left s (found s)))

/-- FABRIC_NAK, FABRIC_ACK, FABRIC_TRAINING and FABRIC_TRAIN_TIMEOUT (R31, R32, R42, R43). -/
def Obligations.FabricControl : Prop :=
  ∀ (s : State) (b : Fin 51) (back : Bool) (seq : Nat), s.dev.awake = true →
    let f := dirOf s b back
    let st := s.dev.fld F.FAB_LINK_STATUS_state 0 b
    (s.dev.linkUp b = true → (∃ x ∈ f.buffer, x.1 = seq) →
      exec (.fabricNak b back seq) s = .next (leftLink s ((found s).bump F.FAB_LINK_REPLAY_CNT_replays 0 b 1) b back
        { f with resend := some seq })) ∧
    (s.dev.linkUp b = true → seq < f.expect →
      ∃ t, exec (.fabricAck b back seq) s = .next t ∧ t.dev = Dev.settle s.dev (found s) ∧
        (dirOf t b back).buffer = f.buffer.filter (fun x => decide (seq < x.1)) ∧ (dirOf t b back).next = f.next ∧
        (dirOf t b back).expect = f.expect ∧ (∀ k, (dirOf t b back).resend = some k → seq < k)) ∧
    ((st = 0 ∨ st = 1) → (∀ x ∈ Dev.trainBefore b, 2 ≤ s.dev.fld F.FAB_LINK_STATUS_state 0 x) →
      ∃ t, exec (.fabricTraining b) s = .next t ∧ t.dev.linkUp b = true ∧
        t.dev.fld F.FAB_LINK_STATUS_train_count 0 b = raisedBy s.dev F.FAB_LINK_STATUS_train_count 0 b 1 ∧
        dirOf t b false = {} ∧ dirOf t b true = {} ∧
        (∀ k, k ≠ 2 * b.val → k ≠ 2 * b.val + 1 → Sp.get (fun _ => {}) t.links k = Sp.get (fun _ => {}) s.links k)) ∧
    (st < 2 → ∃ t, exec (.fabricTrainTimeout b) s = .next t ∧ t.dev.fld F.FAB_LINK_STATUS_state 0 b = 3 ∧
      t.dev.isSet F.FAB_ERR_STATUS_bridge_failed = true ∧ t.links = s.links)

/-- Every step keeps the fabric links consistent (R31-R33). -/
def Obligations.StepKeepsLinks : Prop := ∀ s t : State, LinksConsistent s → step s = .next t → LinksConsistent t

/-- The state at reset is safe: what the invariants above keep holds there. -/
def Obligations.ResetIsSafe : Prop := Safe State.reset


namespace Sys2Proof.Claims

open Sys2Proof.Machine

/-- The bits that a register's field holds after software writes `v` over `old`, by its access code (00_scope.md R13): read-only
fields keep their bits, RW fields take the written ones, RWL fields take them until the lock bit is set, a 1 clears a W1C bit,
and a WO field reads zero. -/
def FieldTakes (locked : Bool) (old v new : Nat) (row : FieldRow) : Prop :=
  ∀ i, row.lo ≤ i → i ≤ row.hi → bit new i =
    match row.access with
    | .ro => bit old i
    | .rw => bit v i
    | .rwl => if locked then bit old i else bit v i
    | .w1c => bit old i && !bit v i
    | .wo => false

/-- Every field of a register takes a write by its access code, and every bit outside a field reads zero (00_scope.md R15). -/
def RegisterTakes (r : Reg) (locked : Bool) (old v new : Nat) : Prop :=
  (∀ row ∈ r.row.fields, FieldTakes locked old v new row) ∧
    ∀ i, (∀ row ∈ r.row.fields, i < row.lo ∨ row.hi < i) → bit new i = false

/-- Registers whose write triggers an action of its own. -/
def actionRegs : List Reg :=
  [.DA_RETIRE, .CTX_CMD, .CTX_RING_PTR, .RHK_PORT_CTRL, .RHK_ROUTE, .RHK_ROUTE_BANK, .MBX_CMD, .MBX_DB_SET, .RST_CP_KICK, .PWR_FREQ]

/-- Length of the body that a message's header states (14_control_mailboxes_and_interrupts.md R502). -/
def bodyLength (bs : List Byte) : Nat := field bs 6 2

/-- The mailbox unit accepts a message of a sender on a channel (14_control_mailboxes_and_interrupts.md R506). -/
def Accepts (d : Dev) (sender : Nat) (c : Nat) : Prop :=
  (d.binding c).valid = true ∧ (d.binding c).sender = sender ∧
    (0x10 ≤ sender → sender ≤ 0x13 → (d.core (sender - 0x10)).ctx = some (d.binding c).owner)

/-- What waits on the channel is not answered at once for want of a listed code: no control processor receives from it, or Prois does not
run, or the oldest message has a listed code (14_control_mailboxes_and_interrupts.md R503). -/
def Waits (d : Dev) (c : Nat) (msgs : List (List Byte)) : Prop :=
  4 ≤ (d.binding c).receiver ∨ d.boot.runs = .none ∨ ∀ m, msgs.head? = some m → cmdInfo (Msg.ofBytes m).code ≠ none

end Sys2Proof.Claims

/-! ### The mailbox unit -/

/-- MAILBOX_ARRIVAL (R506, R528). -/
def Obligations.MessagesArrive : Prop :=
  ∀ (s : State) (sender : BitVec 8) (c : Fin 64) (port : MbxPort) (bs : List Byte), s.dev.awake = true →
    let d := found s
    let msgs := (s.dev.ring c).msgs ++ [bs.take (16 + bodyLength bs)]
    (bodyLength bs ≤ 240 → Accepts d sender.toNat c → (s.dev.ring c).msgs.length < 16 → Waits d c msgs →
      ∃ t, exec (.mailboxArrival sender c port bs) s = .next t ∧ (t.dev.ring c).msgs = msgs ∧
        (∀ k, k ≠ c.val → t.dev.ring k = s.dev.ring k) ∧ t.dev.out = [] ∧ t.dev.mem = s.dev.mem) ∧
    (∀ f, (240 < bodyLength bs ∧ f = F.MBX_ERR_STATUS_overlong) ∨
        (bodyLength bs ≤ 240 ∧ ¬ Accepts d sender.toNat c ∧ f = F.MBX_ERR_STATUS_bind_violation) →
      ∃ e : Dev, exec (.mailboxArrival sender c port bs) s = .next (left s e) ∧ e.rings = s.dev.rings ∧ e.out = [] ∧ e.isSet f = true ∧
        (s.dev.isSet F.MBX_ERR_STATUS_overlong = false → s.dev.isSet F.MBX_ERR_STATUS_bind_violation = false →
          e.rd .MBX_ERR_INFO = sender.toNat * 2 ^ 16 + c * 2 ^ 8 + port.code))

/-- An arrival at a full channel (14_control_mailboxes_and_interrupts.md R510). -/
def Obligations.FullChannelOverwrites : Prop :=
  ∀ (d : Dev) (sender : Nat) (c : Fin 64) (port : MbxPort) (bs : List Byte),
    bodyLength bs ≤ 240 → Accepts d sender c → (d.ring c).msgs.length = 16 →
    let new := bs.take (16 + bodyLength bs)
    let e := d.ringPut c new
    d.mbxArrive sender c port bs = (true, Dev.answerUnlisted 16 c e) ∧
      (e.ring c).msgs = (d.ring c).msgs.drop 1 ++ [new] ∧ (e.ring c).overwrites = min ((d.ring c).overwrites + 1) (2 ^ 32 - 1) ∧
      bit (e.rd .MBX_COLL) c = true ∧ (∀ k, k ≠ c.val → bit (e.rd .MBX_COLL) k = bit (d.rd .MBX_COLL) k) ∧
      e.isSet F.MBX_ERR_STATUS_collision = true ∧ (∀ k, k ≠ c.val → e.ring k = d.ring k) ∧ e.out = d.out ∧
      (Waits d c (e.ring c).msgs → Dev.answerUnlisted 16 c e = e)

/-- Doorbells (14_control_mailboxes_and_interrupts.md R515). -/
def Obligations.Doorbells : Prop :=
  (∀ (d : Dev) (c : Fin 64) (bs : List Byte) (p i : Nat), p < 4 → i < 32 →
    bit ((d.ringPut c bs).rd .MBX_DB 0 p) i =
      (bit (d.rd .MBX_DB 0 p) i || (decide ((d.binding c).receiver = p) && decide ((d.binding c).dbBit = i)))) ∧
  (∀ (s : State) (p : Fin 4) (v : BitVec 32), s.dev.awake = true →
    ∃ t, exec (.mbxDbSet p v) s = .next t ∧ t.dev.rings = s.dev.rings ∧
      ∀ i < 32, bit (t.dev.rd .MBX_DB 0 p) i = (bit (s.dev.rd .MBX_DB 0 p) i || v.getLsbD i)) ∧
  (∀ (d : Dev) (c : Fin 64) (p : Nat), (∀ q ∈ d.boot.quotes, q.1 ≠ c.val) → (d.ringTake c).2.rd .MBX_DB 0 p = d.rd .MBX_DB 0 p) ∧
  (∀ (d : Dev) (p : Fin 4) (v : Nat), ∀ i < 32,
    bit ((d.plainWrite .MBX_DB 0 p v).rd .MBX_DB 0 p) i = (bit (d.rd .MBX_DB 0 p) i && !bit v i)) ∧
  (∀ (d : Dev) (p : Fin 4) (i : Nat), i < 32 → bit (d.rd .MBX_DB 0 p) i = true → bit (d.rd .MBX_DB_MASK 0 p) i = true →
    d.interrupted p = true)

/-- MBX_CMD_TAKE and MBX_CMD_POST (R508, R509, R511, R513, R528). -/
def Obligations.ProcessorsTakeAndPost : Prop :=
  ∀ (s : State) (p : Fin 4) (c : Fin 64), s.dev.awake = true →
    let r := s.dev.ring c
    let recv (t : State) (i : Nat) : Nat := t.dev.rd .MBX_RECV 0 (32 * p + i)
    let sent := wordBytes ((List.range 32).map (fun i => s.dev.rd .MBX_SEND 0 (32 * p + i)))
    (∀ m ms, r.msgs = m :: ms → (∀ q ∈ s.dev.boot.quotes, q.1 ≠ c.val) →
      ∃ t, exec (.mbxCmdTake p c) s = .next t ∧ (t.dev.ring c).msgs = ms ∧ (t.dev.ring c).collision = false ∧
        (∀ k, k ≠ c.val → t.dev.ring k = s.dev.ring k) ∧
        (r.collision = false → ∀ i < 32, recv t i = field m (8 * i) 8) ∧
        (r.collision = true → bit (recv t 0) 26 = true)) ∧
    (r.msgs = [] → ∃ t, exec (.mbxCmdTake p c) s = .next t ∧ (∀ i < 32, recv t i = 0) ∧ t.dev.rings = s.dev.rings) ∧
    (c ≠ 1 → exec (.mbxCmdPost p c) s = exec (.mailboxArrival (BitVec.ofNat 8 p) c .processor sent) s) ∧
    (c = 1 → bodyLength sent ≤ 240 → Accepts (found s) p c →
      ∃ e : Dev, exec (.mbxCmdPost p c) s = .next (left s e) ∧ e.isSet F.INT_FW_board_msg = true)

/-! ### Register space -/

/-- REGISTER_WRITE (00_scope.md R13, R15, 01_package_and_fabric.md R38). -/
def Obligations.RegisterWrites : Prop :=
  ∀ (s : State) (m : Fin 4) (key : BitVec 32) (v : BitVec 64), s.dev.awake = true →
    let at_ := Reg.ofKey (key.toNat / 8 * 8)
    (∀ r w j, at_ = some (r, w, j) → r ∉ actionRegs →
      ∃ e : Dev, exec (.registerWrite m key v) s = .next (left s e.syncReasons) ∧
        (if r = .MBX_BIND ∧ j < 8 ∧ s.dev.isSet F.MBX_CTRL_lock = true then e.rd r w j = s.dev.rd r w j
          else RegisterTakes r (s.dev.isSet r.lock w) (s.dev.rd r w j) v.toNat (e.rd r w j)) ∧
        (∀ (r' : Reg) (w' j' : Nat), r'.key w' j' ≠ r.key w j → e.rd r' w' j' = s.dev.rd r' w' j') ∧
        e.mem = s.dev.mem ∧ e.rings = s.dev.rings) ∧
    (at_ = none → exec (.registerWrite m key v) s = .next (left s (found s))) ∧
    (at_ = some (.RST_CP_KICK, 0, 0) → exec (.registerWrite m key v) s = exec .cpKick s) ∧
    (∀ p : Fin 4, at_ = some (.MBX_DB_SET, 0, p.val) → exec (.registerWrite m key v) s = exec (.mbxDbSet p (v.setWidth 32)) s) ∧
    (∀ w j, at_ = some (.MBX_CMD, w, j) → bits v.toNat 9 8 = 1 →
      exec (.registerWrite m key v) s = exec (.mbxCmdPost m (v.setWidth 6).toFin) s) ∧
    (∀ w j, at_ = some (.MBX_CMD, w, j) → bits v.toNat 9 8 = 2 →
      exec (.registerWrite m key v) s = exec (.mbxCmdTake m (v.setWidth 6).toFin) s) ∧
    (∀ w j, at_ = some (.CTX_CMD, w, j) → v.getLsbD 17 = true →
      exec (.registerWrite m key v) s = exec (.frecClr (v.setWidth 4).toFin) s) ∧
    (∀ w j, at_ = some (.PWR_FREQ, w, j) →
      exec (.registerWrite m key v) s = exec (.pwrFreqWrite (v.setWidth 6) ((v >>> 8).setWidth 4)) s) ∧
    (∀ (a : Fin 8) j, at_ = some (.DA_RETIRE, a.val, j) → v.getLsbD 8 = true →
      exec (.registerWrite m key v) s = exec (.retireCmd a) s)

/-- RETIRE_CMD, TLB_INV, FREC_CLR, RETRAIN, CP_KICK, PWR_FREQ_WRITE, ROUTE_BANK_WRITE and ROUTE_ENTRY_WRITE. -/
def Obligations.RegisterCommands : Prop :=
  ∀ s : State, s.dev.awake = true →
    (∀ a : Fin 8, s.dev.isSet F.DA_RETIRE_retired a = false → ∃ t, exec (.retireCmd a) s = .next t ∧
      t.dev.isSet F.DA_RETIRE_retired a = true ∧ t.dev.fld F.DA_RETIRE_reason a = 2 ∧ t.dev.isSet F.DA_ERR_STATUS_retired a = true ∧
      t.dev.arrays = s.dev.arrays) ∧
    (∀ a : Fin 8, s.dev.isSet F.DA_RETIRE_retired a = true → exec (.retireCmd a) s = .next (left s (found s))) ∧
    (∀ n : Fin 16, exec (.tlbInv n) s = .next (left s (found s))) ∧
    (∀ n : Fin 16, ∃ t, exec (.frecClr n) s = .next t ∧
      ∀ k < 128, t.dev.rd .CTX_FREC 0 k = if k / 8 = n.val then 0 else s.dev.rd .CTX_FREC 0 k) ∧
    (∀ p : Fin 24, s.dev.portUp p = true → exec (.retrain p) s = .next (left s ((found s).portDown p))) ∧
    (∀ p : Fin 24, s.dev.portUp p = false → s.dev.pfld F.RHK_PORT_CTRL_enable p ≠ 0 →
      ∃ t, exec (.retrain p) s = .next t ∧ t.dev.pfld F.RHK_PORT_STATUS_state p = 1 ∧ (t.dev.port p).failedAt = none) ∧
    exec .cpKick s = .next (left s { found s with boot := { s.dev.boot with kickAt := s.dev.now } }) ∧
    (∀ (step : BitVec 6) (duty : BitVec 4), ∃ e : Dev, exec (.pwrFreqWrite step duty) s = .next (left s e.syncReasons) ∧
      e.fld F.PWR_FREQ_step = min 44 (max (s.dev.fMin) step.toNat) ∧ e.fld F.PWR_FREQ_duty = min s.dev.dutyMax duty.toNat ∧
      e.power.forced = false ∧ e.power.freqAt = s.dev.now) ∧
    (∀ b : Fin 2, ∃ t, exec (.routeBankWrite b) s = .next t ∧ t.dev.fld F.RHK_ROUTE_BANK_bank = b.val) ∧
    (∀ (i : Fin 131072) (v : BitVec 32), ∃ t, exec (.routeEntryWrite i v) s = .next t ∧
      RegisterTakes .RHK_ROUTE false (s.dev.rd .RHK_ROUTE 0 i) v.toNat (t.dev.rd .RHK_ROUTE 0 i) ∧
      ∀ k < 131072, k ≠ i.val → t.dev.rd .RHK_ROUTE 0 k = s.dev.rd .RHK_ROUTE 0 k)


namespace Sys2Proof.Claims

open Sys2Proof.Machine

/-- The channel and the code of a command that Prois takes from the mailboxes (14_control_mailboxes_and_interrupts.md R520). -/
def proisCode (i : Instr) : Option (Fin 64 × Nat) :=
  match i with
  | .getInfo c => some (c, 0x0001)
  | .getStatus c => some (c, 0x0002)
  | .getCounters c => some (c, 0x0003)
  | .getTelemetry c => some (c, 0x0004)
  | .getFaultRecord c => some (c, 0x0005)
  | .getFlags c => some (c, 0x0006)
  | .ackAlert c => some (c, 0x0008)
  | .setEventMask c => some (c, 0x0009)
  | .stopFunction c _ _ => some (c, 0x0010)
  | .startFunction c => some (c, 0x0011)
  | .resetDevice c => some (c, 0x0012)
  | .loadJob c => some (c, 0x0020)
  | .unloadJob c => some (c, 0x0021)
  | .startContext c => some (c, 0x0022)
  | .preemptContext c => some (c, 0x0023)
  | .preemptDeadline c => some (c, 0x0023)
  | .resumeContext c => some (c, 0x0024)
  | .killContext c => some (c, 0x0025)
  | .mapPages c => some (c, 0x0026)
  | .setContextLimits c => some (c, 0x0027)
  | .setAudit c => some (c, 0x0028)
  | .setCacheSplit c => some (c, 0x0030)
  | .setPowerCap c => some (c, 0x0031)
  | .runScreen c _ _ => some (c, 0x0032)
  | .loadTestPack c => some (c, 0x0033)
  | .setRoutes c => some (c, 0x0040)
  | .swapRouteBank c => some (c, 0x0041)
  | .setRouteMode c => some (c, 0x0042)
  | .setPort c => some (c, 0x0043)
  | .returnPort c => some (c, 0x0044)
  | .setLinkParams c => some (c, 0x0045)
  | .bindChannel c => some (c, 0x0048)
  | .setEthConfig c => some (c, 0x0050)
  | .bindHost c => some (c, 0x0051)
  | .getQuote c => some (c, 0x0060)
  | .updateImage c _ => some (c, 0x0061)
  | .updateConfig c _ => some (c, 0x0062)
  | _ => none

/-- Prois takes up the command with a code at the head of channel c: its message is m, and the device is d once it is taken from the ring
(14_control_mailboxes_and_interrupts.md R517, R519). -/
def Taken (s : State) (c : Fin 64) (code : Nat) (m : Msg) (d : Dev) : Prop :=
  s.dev.awake = true ∧ (found s).headCommand c code ≠ none ∧ ∃ bs, (found s).ringTake c = (some bs, d) ∧ m = Msg.ofBytes bs

/-- The same of a command that passes the checks of its sender and of its header. -/
def Accepted (s : State) (c : Fin 64) (code : Nat) (m : Msg) (d : Dev) : Prop :=
  Taken s c code m d ∧ d.refusal ((found s).whoOn c) m = none

/-- The state after the command m of channel c is answered with a status and a body, its effect having made the device e. -/
def answered (s : State) (c : Fin 64) (m : Msg) (e : Dev) (st : Nat) (body : List Byte := []) : State :=
  left s (Dev.answerUnlisted 16 c (e.respond ((found s).binding c).reply m st body))

/-- A job host owns the context that its command names; LOAD_JOB may name one that holds no job
(14_control_mailboxes_and_interrupts.md R518). -/
def Owns (d : Dev) (w : Who) (code n : Nat) : Prop :=
  (∃ j, (d.ctx n).job = some j ∧ j.owner = w.identity) ∨ ((d.ctx n).job = none ∧ code = 0x0020)

/-- What makes a header or a body ill-formed (14_control_mailboxes_and_interrupts.md R502, R517). -/
def Malformed (i : CmdInfo) (m : Msg) : Prop :=
  m.status ≠ 0 ∨ (∃ k < 8, k ≠ 2 ∧ bit m.flags k = true) ∨ 64 ≤ m.channel ∨ 16 ≤ m.context ∨ m.length ≠ i.len ∨
    (i.ctx = false ∧ m.context ≠ 0) ∨ (i.arg0 = false ∧ m.arg0 ≠ 0) ∨ ∃ r ∈ i.reserved, field m.body r.1 r.2 ≠ 0

end Sys2Proof.Claims

/-! ### Prois commands -/

/-- The order of the checks (14_control_mailboxes_and_interrupts.md R517, R518, 19_boot_security_and_defaults.md R646). -/
def Obligations.RefusalOrder : Prop :=
  ∀ (i : Instr) (c : Fin 64) (code : Nat) (s : State), proisCode i = some (c, code) →
    (s.dev.awake = true → (found s).headCommand c code = none → exec i s = .next (left s (found s))) ∧
    (∀ m d info, Taken s c code m d → cmdInfo code = some info →
      let w := (found s).whoOn c
      let alone := d.boot.runs = .rom ∧ code ∉ [0x0001, 0x0002, 0x0004, 0x0060]
      let denied := w.privilege ∉ info.allow ∨ (info.ctx = true ∧ w.privilege = 2 ∧ ¬ Owns d w code m.context)
      (alone → exec i s = .next (answered s c m d 9)) ∧
      (¬ alone → denied → exec i s = .next (answered s c m d 5)) ∧
      (¬ alone → ¬ denied → Malformed info m → exec i s = .next (answered s c m d 3)) ∧
      (¬ alone → ¬ denied → ¬ Malformed info m → Accepted s c code m d))

/-- GET_INFO, GET_STATUS, GET_COUNTERS, GET_TELEMETRY, GET_FAULT_RECORD, GET_FLAGS, ACK_ALERT, SET_EVENT_MASK and GET_QUOTE. -/
def Obligations.ReadingCommands : Prop :=
  ∀ (s : State) (c : Fin 64) (m : Msg) (d : Dev),
    (Accepted s c 0x0001 m d → ∃ body : List Byte, exec (.getInfo c) s = .next (answered s c m d 0 body) ∧ body.length = 23 ∧
      field body 0 2 = 0x0640 ∧ field body 2 1 = 0xB0 ∧ field body 7 2 = d.deviceId ∧ field body 9 1 = (if d.idValid then 1 else 0) ∧
      field body 10 4 = d.ddrBytes / 2 ^ 30 % 2 ^ 32 ∧ field body 14 1 = d.split) ∧
    (Accepted s c 0x0002 m d → ∃ body : List Byte, exec (.getStatus c) s = .next (answered s c m d 0 body) ∧ body.length = 32 ∧
      (∀ n < 16, bits (field body 0 8) (4 * n + 3) (4 * n) = (d.ctx n).st.code) ∧
      ((∀ k < 4, ∀ n, d.runsOn k = some n → n < 16) → ∀ k < 4,
        bit (field body 8 8) (16 + k) = (d.runsOn k).isNone ∧ bits (field body 8 8) (4 * k + 3) (4 * k) = (d.runsOn k).getD 0) ∧
      (∀ b < 64, bit (field body 16 8) b = true ↔ ∃ i, bit (d.leafWord b) i = true ∧ bit (d.rd .INT_LEAF_EN 0 b) i = true)) ∧
    (Accepted s c 0x0003 m d → windowCounters m.arg0 = [] → exec (.getCounters c) s = .next (answered s c m d 3)) ∧
    (Accepted s c 0x0003 m d → windowCounters m.arg0 ≠ [] → ∃ body : List Byte, exec (.getCounters c) s = .next (answered s c m d 0 body) ∧
      body.length = 8 * (windowCounters m.arg0).length ∧
      ∀ k o r j x, (windowCounters m.arg0)[k]? = some (o, r, j, x) →
        field body (8 * k) 8 = min (2 ^ 64 - 1) (Sp.get (fun _ => 0) d.totals (m.arg0 * 2 ^ 30 + o)
          + bits (d.regValue r (m.arg0 - r.row.window) j) x.hi x.lo)) ∧
    (Accepted s c 0x0004 m d →
      (m.arg0 = 0 → ∃ body : List Byte, exec (.getTelemetry c) s = .next (answered s c m d 0 body) ∧ body.length = 27 ∧
        field body 0 4 = d.fld F.PWR_EST_mw ∧ field body 6 1 = d.effStep % 256 ∧ field body 19 8 = d.now % 2 ^ 64) ∧
      (m.arg0 = 1 → ∃ body : List Byte, exec (.getTelemetry c) s = .next (answered s c m d 0 body) ∧ body.length = 84 ∧
        ∀ r < 7, field body (12 * r) 8 = d.throttleNs (r + 1) ∧ field body (12 * r + 8) 4 = d.rd .PWR_THR_CNT 0 r % 2 ^ 32) ∧
      (m.arg0 = 2 → ∃ body : List Byte, exec (.getTelemetry c) s = .next (answered s c m d 0 body) ∧ body.length = 260 ∧
        ∀ k < 130, field body (2 * k) 2 = if d.isSet F.TEL_SENSOR_failed 0 k then 0x8000 else d.fld F.TEL_SENSOR_temp 0 k) ∧
      (m.arg0 = 3 → ∃ body : List Byte, exec (.getTelemetry c) s = .next (answered s c m d 0 body) ∧ body.length = 128 ∧
        ∀ n < 16, field body (8 * n) 8 = d.rd .PWR_ENERGY 0 n) ∧
      (m.arg0 = 4 → ∃ body : List Byte, exec (.getTelemetry c) s = .next (answered s c m d 0 body) ∧ body.length = 94 ∧
        ∀ f < 6, field body (8 * f) 8 = d.rd .TEL_FLAG_CNT 0 f) ∧
      (4 < m.arg0 → exec (.getTelemetry c) s = .next (answered s c m d 3))) ∧
    (Accepted s c 0x0005 m d → ∃ body : List Byte, exec (.getFaultRecord c) s = .next (answered s c m d 0 body) ∧ body.length = 64 ∧
      ∀ k < 8, field body (8 * k) 8 = d.rd .CTX_FREC 0 (8 * m.context + k)) ∧
    (Accepted s c 0x0006 m d → 2 ^ 16 ≤ m.arg0 → exec (.getFlags c) s = .next (answered s c m d 3)) ∧
    (Accepted s c 0x0006 m d → m.arg0 < 2 ^ 16 → ∃ (e : Dev) (body : List Byte),
      exec (.getFlags c) s = .next (answered s c m e 0 body) ∧ field body 0 8 = d.rd .CTX_FLAGS 0 m.context ∧ body.length = 8 ∧
      (∀ k < 6, bit (e.fld F.CTX_FLAGS_flags 0 m.context) k = (bit (d.fld F.CTX_FLAGS_flags 0 m.context) k && !bit m.arg0 k)) ∧
      ∀ n < 16, n ≠ m.context → e.rd .CTX_FLAGS 0 n = d.rd .CTX_FLAGS 0 n) ∧
    (Accepted s c 0x0008 m d → 64 ≤ m.arg0 → exec (.ackAlert c) s = .next (answered s c m d 3)) ∧
    (Accepted s c 0x0008 m d → m.arg0 < 64 → ∃ (e : Dev) (body : List Byte), exec (.ackAlert c) s = .next (answered s c m e 0 body) ∧
      field body 0 8 = e.rd .INT_FW ∧ ∀ k < 6, bit (e.rd .INT_FW) k = (bit (d.rd .INT_FW) k && !bit m.arg0 k)) ∧
    (Accepted s c 0x0009 m d → 2 ^ 11 ≤ m.arg0 → exec (.setEventMask c) s = .next (answered s c m d 3)) ∧
    (Accepted s c 0x0009 m d → m.arg0 < 2 ^ 11 → ∃ e : Dev, exec (.setEventMask c) s = .next (answered s c m e 0) ∧
      ∀ k, Sp.get (fun _ => 0) e.eventMask k =
        if k = ((found s).binding c).reply then m.arg0 else Sp.get (fun _ => 0) d.eventMask k) ∧
    (Accepted s c 0x0060 m d → ∃ (e : Dev) (q : List Byte), exec (.getQuote c) s = .next (left s (Dev.answerUnlisted 16 c e)) ∧
      let r := ((found s).binding c).reply
      let l := Dev.fragments m r q
      q.length = 25232 ∧ field q 0 2 = 0x9A01 ∧ (q.drop 0x20).take 32 = padTo 32 m.body ∧ l.length = 106 ∧
      ((∀ x ∈ d.boot.quotes, x.1 ≠ r) → (d.ring r).msgs = [] → (e.ring r).msgs = l.take 16 ∧
        e.boot.quotes = d.boot.quotes ++ (l.drop 16).map (fun b => (r, b))))

/-- LOAD_JOB, UNLOAD_JOB, START_CONTEXT, PREEMPT_CONTEXT, PREEMPT_DEADLINE, RESUME_CONTEXT, KILL_CONTEXT, MAP_PAGES,
SET_CONTEXT_LIMITS and SET_AUDIT. -/
def Obligations.ContextCommands : Prop :=
  ∀ (s : State) (c : Fin 64) (m : Msg) (d : Dev),
    let w := (found s).whoOn c
    let n := m.context
    let b := m.body
    (Accepted s c 0x0020 m d →
      let a := field b 0 8
      let k := field b 8 8
      (d.boot.screened = false → exec (.loadJob c) s = .next (answered s c m d 1)) ∧
      (d.boot.screened = true → d.inWindow w a k = false → exec (.loadJob c) s = .next (answered s c m d 3)) ∧
      (d.boot.screened = true → d.inWindow w a k = true → ∀ img x, d.imageRead a k = (img, x) →
        (∀ st, x.loadImage n w.identity (field b 16 1) img = .error st → exec (.loadJob c) s = .next (answered s c m d st)) ∧
        (∀ e : Dev, x.loadImage n w.identity (field b 16 1) img = .ok e →
          exec (.loadJob c) s = .next (answered s c m e 0) ∧ (d.ctx n).st = .free ∧ (e.ctx n).st = .loaded))) ∧
    (Accepted s c 0x0021 m d → (d.ctx n).st ∉ [.loaded, .faulted, .preempted] → exec (.unloadJob c) s = .next (answered s c m d 4)) ∧
    (Accepted s c 0x0021 m d → (d.ctx n).st ∈ [.loaded, .faulted, .preempted] → ∃ e : Dev,
      exec (.unloadJob c) s = .next (answered s c m e 0) ∧ (e.ctx n).st = .free ∧ (e.ctx n).job = none ∧
      (∀ k, k ≠ n → e.ctx k = d.ctx k) ∧ ∀ x ∈ (d.job n).channels, x.channel < 64 → (e.binding x.channel).valid = false) ∧
    (Accepted s c 0x0022 m d → (d.ctx n).st ≠ .loaded → exec (.startContext c) s = .next (answered s c m d 3)) ∧
    (Accepted s c 0x0022 m d → (d.ctx n).st = .loaded → (d.isStopped 0 = true ∨ d.coreBusy n = true) →
      exec (.startContext c) s = .next (answered s c m d 1)) ∧
    (Accepted s c 0x0022 m d → (d.ctx n).st = .loaded → d.isStopped 0 = false → d.coreBusy n = false →
      (d.switchAll n (d.coresOf n)).1 = true → ∃ e : Dev, exec (.startContext c) s = .next (answered s c m e 0) ∧
        (e.ctx n).st = .running ∧ ∀ k ∈ d.coresOf n, (e.core k).live = true ∧ (e.core k).ctx = some n ∧
          (e.core k).pc = (((d.job n).coreItems.find? (fun i => i.core = k)).map CoreItem.entry).getD 0) ∧
    (Accepted s c 0x0023 m d → ((d.ctx n).st ≠ .running ∨ n = 0) → exec (.preemptContext c) s = .next (answered s c m d 3) ∧
      exec (.preemptDeadline c) s = .next (answered s c m d 3)) ∧
    (Accepted s c 0x0023 m d → (d.ctx n).st = .running → n ≠ 0 → exec (.preemptDeadline c) s = .next (answered s c m d 10) ∧
      ∃ e : Dev, exec (.preemptContext c) s = .next (answered s c m e 0) ∧ (e.ctx n).st = .preempted ∧
        (∀ k ∈ d.coresOf n, (e.core k).ctx = none ∧ (e.core k).sregs = (d.core k).sregs) ∧
        (∀ k, k ∉ d.coresOf n → e.core k = d.core k) ∧
        e.fld F.CTX_PREEMPT_CNT_count 0 n = min (d.fld F.CTX_PREEMPT_CNT_count 0 n + 1)
          (2 ^ (F.CTX_PREEMPT_CNT_count.hi + 1 - F.CTX_PREEMPT_CNT_count.lo) - 1)) ∧
    (Accepted s c 0x0024 m d → (d.ctx n).st ≠ .preempted → exec (.resumeContext c) s = .next (answered s c m d 3)) ∧
    (Accepted s c 0x0024 m d → (d.ctx n).st = .preempted → (d.isStopped 0 = true ∨ d.coreBusy n = true) →
      exec (.resumeContext c) s = .next (answered s c m d 1)) ∧
    (Accepted s c 0x0024 m d → (d.ctx n).st = .preempted → d.isStopped 0 = false → d.coreBusy n = false →
      (d.switchAll n (d.coresOf n)).1 = true → ∃ e : Dev, exec (.resumeContext c) s = .next (answered s c m e 0) ∧
        (e.ctx n).st = .running ∧ (e.ctx n).saved = []) ∧
    (Accepted s c 0x0025 m d → ((d.ctx n).st = .free ∨ n = 0) → exec (.killContext c) s = .next (answered s c m d 3)) ∧
    (Accepted s c 0x0025 m d → (d.ctx n).st ≠ .free → n ≠ 0 → ∃ e : Dev, exec (.killContext c) s = .next (answered s c m e 0) ∧
      ((d.ctx n).st ≠ .stopping → (e.ctx n).st = .faulted) ∧ e.isSet F.CTX_ERR_STATUS_fatal = true ∧
      e.recSeq = (d.recSeq + 1) % 2 ^ 32) ∧
    (Accepted s c 0x0026 m d →
      let va := field b 0 8
      let pa := field b 8 8
      let count := field b 16 4
      let l := field b 20 1
      let size := 2 ^ (12 + 9 * l)
      let wrong := 3 ≤ l ∨ 32 ≤ field b 21 1 ∨ n = 0 ∨ (d.ctx n).job = none ∨ (d.ctx n).aborted = true ∨ va % size ≠ 0 ∨ pa % size ≠ 0 ∨
        2 ^ 48 < va + count * size
      let early := (d.ctx n).st = .running ∧ ∃ i < count, d.changesPresent n (va + i * size) l = true
      let outside := ∃ i < count, d.insideJob n (pa + i * size) size = false
      let mapped := (List.range count).foldl (fun (x : Option Dev) i =>
        x.bind (fun d => d.mapPage n (va + i * size) l (pa + i * size) (field b 21 1))) (some d)
      (wrong → exec (.mapPages c) s = .next (answered s c m d 3)) ∧
      (¬ wrong → early → exec (.mapPages c) s = .next (answered s c m d 4)) ∧
      (¬ wrong → ¬ early → outside → exec (.mapPages c) s = .next (answered s c m d 2)) ∧
      (¬ wrong → ¬ early → ¬ outside → mapped = none → exec (.mapPages c) s = .next (answered s c m d 2)) ∧
      (¬ wrong → ¬ early → ¬ outside → ∀ e : Dev, mapped = some e → exec (.mapPages c) s = .next (answered s c m e 0))) ∧
    (Accepted s c 0x0027 m d → 2 ≤ m.arg0 → exec (.setContextLimits c) s = .next (answered s c m d 3)) ∧
    (Accepted s c 0x0027 m d → m.arg0 < 2 → ∃ e : Dev, exec (.setContextLimits c) s = .next (answered s c m e 0) ∧
      let us := field b 0 4
      e.ctx n = (if m.arg0 = 0 then { d.ctx n with faultDeadline := if us = 0 then 1000000 else us }
        else { d.ctx n with preemptDeadline := if us = 0 then 10000 else us }) ∧ ∀ k, k ≠ n → e.ctx k = d.ctx k) ∧
    (Accepted s c 0x0028 m d → d.isStopped 0 = false → exec (.setAudit c) s = .next (answered s c m d 4)) ∧
    (Accepted s c 0x0028 m d → d.isStopped 0 = true → (d.ctx n).job = none → exec (.setAudit c) s = .next (answered s c m d 3)) ∧
    (Accepted s c 0x0028 m d → d.isStopped 0 = true → (d.ctx n).job ≠ none → ∃ e : Dev, exec (.setAudit c) s = .next (answered s c m e 0) ∧
      (e.ctx n).audit = (field b 0 2, field b 4 4, field b 2 1, field b 8 8) ∧ ∀ k, k ≠ n → e.ctx k = d.ctx k)

/-- STOP_FUNCTION, START_FUNCTION, RESET_DEVICE, SET_CACHE_SPLIT, SET_POWER_CAP, SET_ROUTES, SWAP_ROUTE_BANK, SET_ROUTE_MODE, SET_PORT,
RETURN_PORT, SET_LINK_PARAMS, BIND_CHANNEL, SET_ETH_CONFIG, BIND_HOST, RUN_SCREEN, LOAD_TEST_PACK, UPDATE_IMAGE and UPDATE_CONFIG. -/
def Obligations.SettingCommands : Prop :=
  ∀ (s : State) (c : Fin 64) (m : Msg) (d : Dev),
    let w := (found s).whoOn c
    let f := m.arg0
    let b := m.body
    (∀ missed fails, Accepted s c 0x0010 m d →
      let force := field b 0 1
      let ans := fun (e : Dev) (st : Nat) => exec (.stopFunction c missed fails) s = .next (answered s c m e st)
      ((8 ≤ f ∨ 2 ≤ force) → ans d 3) ∧
      (f < 8 → force < 2 → d.isStopped f = true → ans d 0) ∧
      (f = 0 → force = 0 → d.isStopped 0 = false → d.runningContexts ≠ [] → ans d 1) ∧
      (f = 0 → force = 1 → d.isStopped 0 = false → (∃ n ∈ d.runningContexts, n ∈ missed) → ∃ e : Dev, ans e 10 ∧ e.stops = d.stops ∧
        ∀ n ∈ d.runningContexts, (e.ctx n).st = if n ∈ missed then .running else .preempted) ∧
      (f < 8 → force < 2 → d.isStopped f = false → (f = 0 → d.runningContexts = [] ∨ (force = 1 ∧ ∀ n ∈ d.runningContexts, n ∉ missed)) →
        ∃ e : Dev, ans e 0 ∧ (∀ g, e.isStopped g = (d.isStopped g || decide (g = f))) ∧
          (f = 0 → ∀ n ∈ d.runningContexts, (e.ctx n).st = .preempted) ∧
          (1 ≤ f → f < 7 → ∀ p, p / 4 + 1 = f → d.pfld F.RHK_PORT_CTRL_enable p ≠ 0 → e.pfld F.RHK_PORT_STATUS_state p = 4))) ∧
    (Accepted s c 0x0011 m d → 8 ≤ f → exec (.startFunction c) s = .next (answered s c m d 3)) ∧
    (Accepted s c 0x0011 m d → f < 8 → d.isStopped f = false → exec (.startFunction c) s = .next (answered s c m d 0)) ∧
    (Accepted s c 0x0011 m d → f < 8 → d.isStopped f = true → ∃ e : Dev, exec (.startFunction c) s = .next (answered s c m e 0) ∧
      (∀ g, e.isStopped g = (d.isStopped g && decide (g ≠ f))) ∧ (f = 7 → e.eth.next = none) ∧
      (1 ≤ f → f < 7 → ∀ p, p / 4 + 1 = f → d.pfld F.RHK_PORT_CTRL_enable p ≠ 0 → e.pfld F.RHK_PORT_STATUS_state p = 1)) ∧
    (Accepted s c 0x0012 m d → (2 ≤ f ∨ 2 ≤ field b 0 1) → exec (.resetDevice c) s = .next (answered s c m d 3)) ∧
    (Accepted s c 0x0012 m d → f < 2 → field b 0 1 < 2 → ∃ e : Dev, exec (.resetDevice c) s = .next (answered s c m e 0) ∧
      (f = 1 → e.boot.due = some (d.boot.due.getD (1, decide (field b 0 1 = 1))) ∧ e.boot.computeDue = d.boot.computeDue) ∧
      (f = 0 → e.boot.due = d.boot.due ∧ e.boot.computeDue =
        if d.reset = none ∧ d.boot.computeDue = none then some (if w.privilege = 1 then 2 else 1, none) else d.boot.computeDue)) ∧
    (Accepted s c 0x0030 m d → 8 < f → exec (.setCacheSplit c) s = .next (answered s c m d 3)) ∧
    (Accepted s c 0x0030 m d → f ≤ 8 → d.isStopped 0 = false → exec (.setCacheSplit c) s = .next (answered s c m d 4)) ∧
    (Accepted s c 0x0030 m d → f ≤ 8 → d.isStopped 0 = true → d.splitTaken f = true → exec (.setCacheSplit c) s = .next (answered s c m d 2)) ∧
    (Accepted s c 0x0030 m d → f ≤ 8 → d.isStopped 0 = true → d.splitTaken f = false → ∃ e : Dev,
      exec (.setCacheSplit c) s = .next (answered s c m e 0) ∧ e.split = f ∧ ∀ h < 4, e.slice h = []) ∧
    (Accepted s c 0x0031 m d → (f < 800 ∨ 3200 < f ∨ f % 10 ≠ 0) → exec (.setPowerCap c) s = .next (answered s c m d 3)) ∧
    (Accepted s c 0x0031 m d → 800 ≤ f → f ≤ 3200 → f % 10 = 0 → ∃ e : Dev, exec (.setPowerCap c) s = .next (answered s c m e 0) ∧
      e.capWatts = f) ∧
    (Accepted s c 0x0040 m d →
      let bank := field b 0 1
      let count := field b 2 2
      let first := field b 4 2
      let a := field b 8 8
      ((2 ≤ bank ∨ 65536 < first + count ∨ d.inWindow w a (4 * count) = false) → exec (.setRoutes c) s = .next (answered s c m d 3)) ∧
      (bank < 2 → first + count ≤ 65536 → d.inWindow w a (4 * count) = true →
        (∀ x : Dev, d.stagingRead a (4 * count) = (none, x) → exec (.setRoutes c) s = .next (answered s c m x 3)) ∧
        (∀ (x : Dev) (bs : List Byte), d.stagingRead a (4 * count) = (some bs, x) → ∃ e : Dev,
          exec (.setRoutes c) s = .next (answered s c m e 0) ∧
          ∀ k < 131072,
            if bank * 65536 + first ≤ k ∧ k < bank * 65536 + first + count then
              RegisterTakes .RHK_ROUTE false (x.rd .RHK_ROUTE 0 k) (field bs (4 * (k - (bank * 65536 + first))) 4) (e.rd .RHK_ROUTE 0 k)
            else e.rd .RHK_ROUTE 0 k = x.rd .RHK_ROUTE 0 k))) ∧
    (Accepted s c 0x0041 m d → 2 ≤ f → exec (.swapRouteBank c) s = .next (answered s c m d 3)) ∧
    (Accepted s c 0x0041 m d → f < 2 → ∃ e : Dev, exec (.swapRouteBank c) s = .next (answered s c m e 0) ∧
      e.fld F.RHK_ROUTE_BANK_bank = f) ∧
    (Accepted s c 0x0042 m d → 2 ≤ f → exec (.setRouteMode c) s = .next (answered s c m d 3)) ∧
    (Accepted s c 0x0042 m d → f < 2 → ∃ e : Dev, exec (.setRouteMode c) s = .next (answered s c m e 0) ∧
      ∀ n < 6, e.fld F.RHK_CTRL_route_en n = f) ∧
    (Accepted s c 0x0043 m d →
      let wrong := 24 ≤ f ∨ 8 ≤ field b 0 1 ∨ 2 ≤ field b 1 1 ∨ 2 ≤ field b 2 1
      (wrong → exec (.setPort c) s = .next (answered s c m d 3)) ∧
      (¬ wrong → d.isStopped (f / 4 + 1) = false → exec (.setPort c) s = .next (answered s c m d 4)) ∧
      (¬ wrong → d.isStopped (f / 4 + 1) = true → ∃ e : Dev, exec (.setPort c) s = .next (answered s c m e 0) ∧
        e.pfld F.RHK_PORT_CTRL_role f = field b 0 1 ∧ e.pfld F.RHK_PORT_CTRL_x2_allow f = field b 1 1 ∧
        e.pfld F.RHK_PORT_CTRL_enable f = field b 2 1 ∧
        ∀ p < 24, p ≠ f → e.rd .RHK_PORT_CTRL (p / 4) (p % 4) = d.rd .RHK_PORT_CTRL (p / 4) (p % 4))) ∧
    (Accepted s c 0x0044 m d → 24 ≤ f → exec (.returnPort c) s = .next (answered s c m d 3)) ∧
    (Accepted s c 0x0044 m d → f < 24 → d.mayReturn f = false → exec (.returnPort c) s = .next (answered s c m d 1)) ∧
    (Accepted s c 0x0044 m d → f < 24 → d.mayReturn f = true → ∃ e : Dev, exec (.returnPort c) s = .next (answered s c m e 0) ∧
      e.pfld F.RHK_PORT_CTRL_ring_use f = 1 ∧ e.pfld F.RHK_PORT_STATUS_state f = 2) ∧
    (Accepted s c 0x0045 m d → (2 ≤ field b 0 1 ∨ 2 ≤ field b 1 1) → exec (.setLinkParams c) s = .next (answered s c m d 3)) ∧
    (Accepted s c 0x0045 m d → field b 0 1 < 2 → field b 1 1 < 2 → (∃ n < 6, d.isStopped (n + 1) = false) →
      exec (.setLinkParams c) s = .next (answered s c m d 4)) ∧
    (Accepted s c 0x0045 m d → field b 0 1 < 2 → field b 1 1 < 2 → (∀ n < 6, d.isStopped (n + 1) = true) → ∃ e : Dev,
      exec (.setLinkParams c) s = .next (answered s c m e 0) ∧ ∀ n < 6, e.fld F.RHK_CTRL_fo_en n = field b 0 1 ∧
        e.fld F.RHK_SYNC_root_en n = field b 1 1 ∧ e.fld F.RHK_CTRL_down_time n = field b 2 1 ∧ e.fld F.RHK_CTRL_e2e_timeout n = field b 4 2) ∧
    (Accepted s c 0x0048 m d →
      let wrong := f < 8 ∨ 64 ≤ f ∨ 64 ≤ field b 2 1 ∨ 4 ≤ field b 3 1 ∨ 32 ≤ field b 4 1 ∨ 2 ≤ field b 5 1
      (wrong → exec (.bindChannel c) s = .next (answered s c m d 3)) ∧
      (¬ wrong → d.channelHeld f = true → exec (.bindChannel c) s = .next (answered s c m d 2)) ∧
      (¬ wrong → d.channelHeld f = false → ∃ e : Dev, exec (.bindChannel c) s = .next (answered s c m e 0) ∧
        (∀ k < 64, k ≠ f → e.binding k = d.binding k) ∧
        e.binding f = { valid := decide (field b 5 1 = 1), owner := 0, privilege := field b 3 1, dbBit := field b 4 1,
                        reply := field b 2 1, receiver := field b 1 1, sender := field b 0 1 })) ∧
    (Accepted s c 0x0050 m d →
      let wrong := 32 ≤ field b 6 2 ∨ 4096 ≤ field b 8 2 ∨ 32 < field b 16 1 ∨ 128 < field b 40 1
      (wrong → exec (.setEthConfig c) s = .next (answered s c m d 3)) ∧
      (¬ wrong → d.isStopped 7 = false → exec (.setEthConfig c) s = .next (answered s c m d 4)) ∧
      (¬ wrong → d.isStopped 7 = true → ∃ e : Dev, exec (.setEthConfig c) s = .next (answered s c m e 0) ∧ e.eth.next = some b ∧
        e.eth.config = d.eth.config ∧ e.regs = d.regs)) ∧
    (Accepted s c 0x0051 m d →
      let q := field b 0 2
      let i := field b 3 1
      let range := (field b 56 8, field b 64 8)
      let body := leBytes 4 (0x000100 + q)
      let free := range.1 % 2 ^ 21 = 0 ∧ 2 ^ 21 ≤ range.2 ∧ range.1 + range.2 ≤ d.ddrBytes ∧ d.taken range.1 range.2 = false
      (Dev.bindFields b = false → exec (.bindHost c) s = .next (answered s c m d 3)) ∧
      (Dev.bindFields b = true → (d.qp q).state = 1 → d.isStopped 7 = false → exec (.bindHost c) s = .next (answered s c m d 4)) ∧
      (Dev.bindFields b = true → ((d.qp q).state = 1 → d.isStopped 7 = true) →
        (field b 2 1 = 0 → ∃ e : Dev, exec (.bindHost c) s = .next (answered s c m e 0 body) ∧ (e.qp q).state = 0 ∧
          ∀ k, k ≠ q → e.qp k = d.qp k) ∧
        (field b 2 1 = 1 → (∃ r, d.windowOf i = some r ∧ r ≠ range) → exec (.bindHost c) s = .next (answered s c m d 3)) ∧
        (field b 2 1 = 1 → d.windowOf i = none → ¬ free → exec (.bindHost c) s = .next (answered s c m d 2)) ∧
        (field b 2 1 = 1 → (d.windowOf i = some range ∨ (d.windowOf i = none ∧ free)) → ∃ e : Dev,
          exec (.bindHost c) s = .next (answered s c m e 0 body) ∧ e.windowOf i = some range ∧ (e.qp q).state = 1 ∧
          (e.qp q).identity = i ∧ (e.qp q).recvPsn = field b 16 4 ∧ (e.qp q).rkey = field b 48 4 ∧ ∀ k, k ≠ q → e.qp k = d.qp k))) ∧
    (∀ fails took, Accepted s c 0x0032 m d →
      let us := field b 0 4
      let go := fun (t : State) => exec (.runScreen c fails took) s = .next t
      (2 ≤ f → go (answered s c m d 3)) ∧
      (f = 1 → d.isStopped 0 = false → go (answered s c m d 4)) ∧
      ((f = 0 ∨ (f = 1 ∧ d.isStopped 0 = true)) → d.screen ≠ none → go (answered s c m d 1)) ∧
      (f = 0 → d.screen = none →
        go (left s (Dev.answerUnlisted 16 c (d.startQuick (1000 * us) (some (((found s).binding c).reply, m.tag)) fails)))) ∧
      (f = 1 → d.isStopped 0 = true → d.screen = none → ∃ e : Dev, go (left s (Dev.answerUnlisted 16 c e)) ∧ e.screen = none ∧
        bits (e.rd .SCR_LAST 0 0) 7 0 = 1 ∧ bits (e.rd .SCR_LAST 0 0) 15 8 =
          if (∃ t ∈ fails, 2 ≤ t.cls ∨ ∃ a ∈ d.goodArrays, bit t.units a = true) then 1 else if 1000 * us < took then 2 else 0)) ∧
    (Accepted s c 0x0033 m d →
      let a := field b 0 8
      let n := field b 8 8
      (d.inWindow w a n = false → exec (.loadTestPack c) s = .next (answered s c m d 3)) ∧
      (d.inWindow w a n = true →
        (∀ x : Dev, d.stagingRead a n = (none, x) → exec (.loadTestPack c) s = .next (answered s c m (x.raise F.SCR_ERR_STATUS_pack_denied) 5)) ∧
        (∀ (x : Dev) (bs : List Byte), d.stagingRead a n = (some bs, x) →
          let good := x.packValid bs ((x.boot.image.drop 0x40).take 32) = true ∧
            (x.flash.testPack ≠ [] → field x.flash.testPack 4 4 ≤ field bs 4 4)
          (¬ good → exec (.loadTestPack c) s = .next (answered s c m (x.raise F.SCR_ERR_STATUS_pack_denied) 5)) ∧
          (good → ∃ e : Dev, exec (.loadTestPack c) s = .next (answered s c m e 0) ∧ e.flash.testPack = bs ∧
            e.boot.pack.installed = true ∧ e.boot.pack.version = field bs 4 4)))) ∧
    (∀ written, Accepted s c 0x0061 m d →
      let slot := field b 0 1
      let a := field b 8 8
      let n := field b 16 8
      let wrong := 2 ≤ slot ∨ 2 ≤ field b 24 1 ∨ slot = d.fld F.SEC_STATUS_slot ∨ d.inWindow w a n = false
      (wrong → exec (.updateImage c written) s = .next (answered s c m d 3)) ∧
      (¬ wrong →
        (∀ x : Dev, d.stagingRead a n = (none, x) →
          exec (.updateImage c written) s = .next (answered s c m (x.raise F.SEC_ERR_STATUS_update_denied) 5)) ∧
        (∀ (x : Dev) (bs : List Byte), d.stagingRead a n = (some bs, x) →
          (Dev.imageValid bs x.tailInUse.floor = false →
            exec (.updateImage c written) s = .next (answered s c m (x.raise F.SEC_ERR_STATUS_update_denied) 5)) ∧
          (Dev.imageValid bs x.tailInUse.floor = true → ∃ e : Dev,
            exec (.updateImage c written) s = .next (answered s c m e (if written then 0 else 5)) ∧
            (∀ k, e.slotBytes k = if k = slot then (if written then bs else []) else x.slotBytes k) ∧
            (written = false → e.isSet F.SEC_ERR_STATUS_flash_error = true))))) ∧
    (∀ written, Accepted s c 0x0062 m d →
      let a := field b 0 8
      let n := field b 8 8
      (d.inWindow w a n = false → exec (.updateConfig c written) s = .next (answered s c m d 3)) ∧
      (d.inWindow w a n = true →
        (∀ x : Dev, d.stagingRead a n = (none, x) →
          exec (.updateConfig c written) s = .next (answered s c m (x.raise F.SEC_ERR_STATUS_update_denied) 5)) ∧
        (∀ (x : Dev) (bs : List Byte), d.stagingRead a n = (some bs, x) →
          (x.updateAllowed bs = false →
            exec (.updateConfig c written) s = .next (answered s c m (x.raise F.SEC_ERR_STATUS_update_denied) 5)) ∧
          (x.updateAllowed bs = true → ∃ e : Dev, exec (.updateConfig c written) s = .next (answered s c m e (if written then 0 else 5)) ∧
            e.boot = x.boot ∧ (written = false → e.isSet F.SEC_ERR_STATUS_flash_error = true)))))


namespace Sys2Proof.Claims

open Sys2Proof.Machine

/-- The width code that four lanes give a port (13_rhanak_links_and_topology.md R466): x4, a pair where the port allows it, or none. -/
def laneWidth (lanes : BitVec 4) (pair : Bool) : Nat :=
  if lanes = 15 then 3 else if pair = false then 0 else if lanes.getLsbD 0 && lanes.getLsbD 1 then 1
  else if lanes.getLsbD 2 && lanes.getLsbD 3 then 2 else 0

/-- A packet stands on a port, sent and held or waiting for its turn, with one hop less to live. -/
def SentOn (e : Dev) (q : Nat) (pkt : Packet) : Prop :=
  ∃ k : Packet, k.addr = pkt.addr ∧ k.src = pkt.src ∧ k.tag = pkt.tag ∧ k.data = pkt.data ∧ k.ttl + 1 = pkt.ttl ∧
    ((∃ h ∈ (e.port q).hold, h.pkt = { k with cur := h.pkt.cur }) ∨ ∃ x ∈ (e.port q).waiting, x.1 = k)

/-- Hop sequence a of a held packet is covered by an acknowledgement up to b, modulo 2^24 (13_rhanak_links_and_topology.md R475, R489). -/
def Covered (cls : Nat) (seq : Nat) (h : Held) : Prop := h.pkt.cls = cls ∧ (seq + 2 ^ 24 - h.seq % 2 ^ 24) % 2 ^ 24 < 2 ^ 23

end Sys2Proof.Claims

/-! ### Rhanak -/

/-- PORT_TRAINING, TRAINING_RETRY, PORT_DOWN, LEAVING_NOTICE and E2E_TIMEOUT (13_rhanak_links_and_topology.md R466-R468, R483, R488, R493). -/
def Obligations.PortStates : Prop :=
  ∀ (s : State) (p : Fin 24), s.dev.awake = true →
    let d := found s
    let st := d.pfld F.RHK_PORT_STATUS_state p
    let same := left s d
    let trains := d.isSet F.SMB_STRAP_test_en = false ∧ d.pfld F.RHK_PORT_CTRL_enable p ≠ 0 ∧ (st = 1 ∨ (st = 0 ∧ (d.port p).failedAt = none))
    let ringOut := (d.pfld F.RHK_PORT_CTRL_role p = 2 ∨ d.pfld F.RHK_PORT_CTRL_role p = 3) ∧ d.pfld F.RHK_PORT_CTRL_ring_use p = 0
    (∀ lanes nbId nbValid nbPort,
      let w := laneWidth lanes (decide (d.pfld F.RHK_PORT_CTRL_x2_allow p ≠ 0))
      (¬ trains → exec (.portTraining p lanes nbId nbValid nbPort) s = .next same) ∧
      (trains → w = 0 → ∃ t, exec (.portTraining p lanes nbId nbValid nbPort) s = .next t ∧
        t.dev.pfld F.RHK_PORT_STATUS_state p = 0 ∧ (t.dev.port p).failedAt = some s.dev.now) ∧
      (trains → w ≠ 0 → ∃ e : Dev, exec (.portTraining p lanes nbId nbValid nbPort) s = .next (left s e) ∧
        (ringOut → e.pfld F.RHK_PORT_STATUS_state p = 3) ∧ (¬ ringOut → e.pfld F.RHK_PORT_STATUS_state p = 2) ∧
        e.pfld F.RHK_PORT_STATUS_width p = w ∧ e.pfld F.RHK_PORT_STATUS_nb_id p = nbId.toNat ∧
        (e.pfld F.RHK_PORT_STATUS_nb_valid p = 1 ↔ nbValid = true) ∧ e.pfld F.RHK_PORT_STATUS_nb_port p = nbPort.val ∧
        (e.port p).hold = (d.port p).hold ∧ (e.port p).sent = [] ∧ (e.port p).goodAt = d.now ∧
        ∀ k < 24, k ≠ p.val → e.port k = d.port k ∧ e.rd .RHK_PORT_STATUS (k / 4) (k % 4) = d.rd .RHK_PORT_STATUS (k / 4) (k % 4))) ∧
    (
      let due := st = 0 ∧ d.pfld F.RHK_PORT_CTRL_enable p ≠ 0 ∧ ∃ t, (d.port p).failedAt = some t ∧ t + 100000000 ≤ d.now
      (¬ due → exec (.trainingRetry p) s = .next same) ∧
      (due → ∃ t, exec (.trainingRetry p) s = .next t ∧ t.dev.pfld F.RHK_PORT_STATUS_state p = 1 ∧ (t.dev.port p).failedAt = none)) ∧
    (
      let down := d.portDown p
      let quiet := (d.port p).goodAt + 250 * max 1 (d.fld F.RHK_CTRL_down_time (p / 4)) ≤ d.now
      (d.portUp p = true → exec (.leavingNotice p) s = .next (left s down)) ∧
      (d.portUp p = false → exec (.leavingNotice p) s = .next same) ∧
      (d.portUp p = true → quiet → exec (.portDown p) s = .next (left s down)) ∧
      (d.portUp p = false ∨ ¬ quiet → exec (.portDown p) s = .next same) ∧
      down.pfld F.RHK_PORT_STATUS_state p = (if d.pfld F.RHK_PORT_CTRL_enable p = 0 then 4 else 1) ∧
      down.pfld F.RHK_PORT_STATUS_width p = 0 ∧ down.isSet F.RHK_ERR_STATUS_port_down (p / 4) = true ∧ (down.port p).announce = none ∧
      (d.isSet F.RHK_CTRL_fo_en (p / 4) = true → (down.port p).hold = [] ∧ (down.port p).waiting = [] ∧
        down.isSet F.RHK_ERR_STATUS_failover (p / 4) = true ∧
        (d.pfld F.RHK_PORT_CTRL_role p = 2 ∨ d.pfld F.RHK_PORT_CTRL_role p = 3 → down.pfld F.RHK_PORT_CTRL_ring_use p = 0))) ∧
    (∀ tag : Nat,
      (d.rhk.waiting.find? (fun w => w.tag = tag) = none → exec (.e2eTimeout tag) s = .next same) ∧
      (∀ w, d.rhk.waiting.find? (fun w => w.tag = tag) = some w →
        let die := match d.route none w.dest with | .port q => q / 4 | _ => 0
        let due := w.sentAt + 1000 * max 1 (d.fld F.RHK_CTRL_e2e_timeout die) ≤ d.now
        (¬ due → exec (.e2eTimeout tag) s = .next same) ∧
        (due → ∃ e : Dev, exec (.e2eTimeout tag) s = .next (left s e) ∧ e.rhk.waiting = d.rhk.waiting.filter (fun x => x ≠ w) ∧
          e.out = [.response w.master 6 []] ∧ e.isSet F.RHK_ERR_STATUS_timeout die = true)))

/-- LINK_FLIT_RECEIVE, LINK_NAK, FORWARD_ACK, PACKET_ARRIVAL and REROUTED_PACKET (13_rhanak_links_and_topology.md R469, R472-R475, R480,
R489). -/
def Obligations.LinkTraffic : Prop :=
  ∀ (s : State) (p : Fin 24), s.dev.awake = true →
    let d := found s
    let x := d.port p
    let same := left s d
    (∀ flit errs note,
      let go := fun (e : Dev) => exec (.linkFlitReceive p flit errs note) s = .next (left s e)
      let type := leNat (flit.take 2) % 16
      let seq := leNat (flit.take 2) / 16
      let failed := fun (e : Dev) => if x.rxFails + 1 < 8 then (e.port p).rxFails = x.rxFails + 1 ∧
          e.out = [.rhanak p "negative acknowledgement" [x.rxSeq]] ∧ (e.port p).rxSeq = x.rxSeq else e.portUp p = false
      (d.portUp p = false → exec (.linkFlitReceive p flit errs note) s = .next same) ∧
      (d.portUp p = true → Fec.receive errs = none → ∃ e : Dev, go e ∧ failed e) ∧
      (d.portUp p = true → flit.length = 242 → errs.length ≤ 6 → 6 ≤ type → ∃ e : Dev, go e ∧ failed e) ∧
      (d.portUp p = true → flit.length = 242 → errs.length ≤ 6 → type < 6 → seq ≠ x.rxSeq → ∃ e : Dev, go e ∧ e.rhk = d.rhk ∧ e.out = []) ∧
      (d.portUp p = true → flit.length = 242 → errs.length ≤ 6 → type < 6 → seq = x.rxSeq → ∃ e : Dev, go e ∧
        (e.port p).rxSeq = (seq + 1) % 4096 ∧ (e.port p).rxFails = 0 ∧ (e.port p).goodAt = d.now ∧
        .rhanak p "acknowledgement" [seq] ∈ e.out ∧
        (type = 1 →
          let bs := x.partialBytes ++ ((flit.drop 2).take 240).take note.filled
          (e.port p).arrived = x.arrived ++ (Packet.parse (bs.length / 24 + 1) bs).1) ∧
        (type ≠ 1 → (e.port p).arrived = x.arrived))) ∧
    (∀ seq : BitVec 12,
      let count := if x.nakSeq = some seq.toNat then x.naks + 1 else 1
      (d.portUp p = false ∨ (∀ f ∈ x.sent, f.1 ≠ seq.toNat) → exec (.linkNak p seq) s = .next same) ∧
      (d.portUp p = true → (∃ f ∈ x.sent, f.1 = seq.toNat) → ∃ e : Dev, exec (.linkNak p seq) s = .next (left s e) ∧
        e.isSet F.RHK_ERR_STATUS_replay (p / 4) = true ∧
        (count < 8 → (e.port p).naks = count ∧ (e.port p).sent = x.sent ∧ e.out =
          (x.sent.dropWhile (fun f => f.1 ≠ seq.toNat)).map (fun f => .rhanak p "flit" ((flitBytes f.2.1 f.1 f.2.2).map BitVec.toNat))) ∧
        (8 ≤ count → e.portUp p = false))) ∧
    (∀ (cls : Fin 2) (seq : BitVec 24), ∃ e : Dev, exec (.forwardAck p cls seq) s = .next (left s e) ∧
      (∀ h ∈ x.hold, Covered cls seq.toNat h → ∀ q k, h.owed = some (q, k) → .rhanak q "forward acknowledgement" [cls.val, k] ∈ e.out) ∧
      (x.waiting = [] → ∀ h, h ∈ (e.port p).hold ↔ h ∈ x.hold ∧ ¬ Covered cls seq.toNat h)) ∧
    (∀ accepted, (d.reroutedHere p = true ∨ x.arrived = [] → exec (.packetArrival p accepted) s = .next same) ∧
      (d.reroutedHere p = false → exec (.reroutedPacket p accepted) s = .next same)) ∧
    (∀ accepted pkt ks, x.arrived = pkt :: ks → d.reroutedHere p = false → ∃ e : Dev,
      exec (.packetArrival p accepted) s = .next (left s e) ∧ (e.port p).arrived = ks ∧
      .rhanak p "credit" [pkt.cls, pkt.credits] ∈ e.out ∧
      (pkt.malformed = true → e.isSet F.RHK_ERR_STATUS_malformed (p / 4) = true) ∧
      (pkt.malformed = false → pkt.rerouted = false →
        (∀ code, d.route (some p) pkt.dest = .answer code → e.isSet F.RHK_ERR_STATUS_no_route (p / 4) = true) ∧
        (∀ q, d.route (some p) pkt.dest = .port q → pkt.ttl = 0 → e.isSet F.RHK_ERR_STATUS_ttl_expired (p / 4) = true) ∧
        (∀ q, d.route (some p) pkt.dest = .port q → 0 < pkt.ttl → SentOn e q pkt))) ∧
    (∀ accepted pkt ks, x.arrived = pkt :: ks → d.reroutedHere p = true → ∃ e : Dev,
      exec (.reroutedPacket p accepted) s = .next (left s e) ∧ (e.port p).arrived = ks ∧
      .rhanak p "credit" [pkt.cls, pkt.credits] ∈ e.out ∧
      (pkt.malformed = true → e.isSet F.RHK_ERR_STATUS_malformed (p / 4) = true) ∧
      (∀ q, pkt.malformed = false → (d.skipDir p).bind d.primaryOf = some q → d.pfld F.RHK_PORT_STATUS_nb_valid q = 1 →
        pkt.dest = d.pfld F.RHK_PORT_STATUS_nb_id q →
        (d.portUp q = true → 0 < pkt.ttl → SentOn e q pkt) ∧
        (d.portUp q = false → e.isSet F.RHK_ERR_STATUS_no_route (p / 4) = true)))

/-- SYNC_EXCHANGE, SYNC_FLIT, ROOT_TIMEOUT and TIME_HOLD_END (13_rhanak_links_and_topology.md R494-R496). -/
def Obligations.TimeOverRhanak : Prop :=
  ∀ s : State, s.dev.awake = true →
    let d := found s
    let same := left s d
    (∀ fraction : Fin 8, ∃ e : Dev, exec (.syncExchange fraction) s = .next (left s e) ∧ e.regs = d.regs ∧ e.now = d.now ∧
      (∀ p < 24, d.portUp p = false → e.port p = d.port p) ∧
      ∀ p < 24, d.portUp p = true → (e.port p).syncSent = some (8 * d.now + fraction) ∧
        .rhanak p "sync" [8 * d.now + fraction, d.fld F.RHK_SYNC_root, d.fld F.RHK_SYNC_hops, d.fld F.RHK_SYNC_locked] ∈ e.out) ∧
    (∀ (p : Fin 24) (a : Announce) (sent theirs : Nat) (fraction : Fin 8),
      (d.portUp p = false → exec (.syncFlit p a sent theirs fraction) s = .next same) ∧
      (d.portUp p = true → ∃ e : Dev, exec (.syncFlit p a sent theirs fraction) s = .next (left s e) ∧ (e.port p).announce = some a ∧
        (∀ k, k ≠ p.val → e.port k = d.port k) ∧
        ∀ (mine delay : Nat) (offset : Int), (d.port p).syncSent = some mine →
          ((8 * d.now + fraction.val : Nat) : Int) = (sent : Int) - offset + delay → (theirs : Int) = (mine : Int) + offset + delay →
          (e.port p).delay = delay ∧ (e.port p).offset = offset)) ∧
    (
      let due := (∃ t, d.rhk.firstUp = some t ∧ t + 10000000 ≤ d.now) ∧ d.idValid = true ∧ d.isSet F.RHK_SYNC_root_en = true ∧
        d.rhk.lockedOnce = false ∧ ∀ p < 24, ∀ a, d.portUp p = true → (d.port p).announce = some a → a.locked = false
      (¬ due → exec .rootTimeout s = .next same) ∧
      (due → ∃ e : Dev, exec .rootTimeout s = .next (left s e) ∧ e.isSet F.TB_STATUS_locked = true ∧ e.rhk.lockedOnce = true ∧
        e.now = d.now ∧ ∀ n < 6, e.fld F.RHK_SYNC_root n = d.deviceId ∧ e.fld F.RHK_SYNC_hops n = 0 ∧ e.fld F.RHK_SYNC_locked n = 1)) ∧
    (d.isSet F.TB_STATUS_held = false → exec .timeHoldEnd s = .next same) ∧
    (d.isSet F.TB_STATUS_held = true → ∃ e : Dev, exec .timeHoldEnd s = .next (left s e) ∧ e.isSet F.TB_STATUS_held = false ∧
      e.isSet F.TB_STATUS_locked = true ∧ e.now = d.now)


namespace Sys2Proof.Claims

open Sys2Proof.Machine

/-- Distance of a PSN ahead of the one that a queue pair expects, modulo 2^24: 0 expected, below 2^23 later, otherwise a duplicate
(15_host_ethernet_interface.md R539). -/
def ahead (d : Dev) (q psn : Nat) : Nat := (psn + 2 ^ 24 - (d.qp q).recvPsn) % 2 ^ 24

/-- The access of a queue pair's packet lies in the staging window of its identity, beyond the part that the device keeps where it
writes (15_host_ethernet_interface.md R543, R544). -/
def InWindow (d : Dev) (q : Nat) (p : Rdma) (write : Bool) : Prop :=
  bits p.key 23 0 = (d.qp q).rkey ∧ p.key / 2 ^ 24 = 1 ∧ (if write then (d.qp q).canWrite else (d.qp q).canRead) = true ∧
    ∃ base n, d.windowOf (d.qp q).identity = some (base, n) ∧ base ≤ p.va ∧ p.va + p.len ≤ base + n ∧
      (write = true → 0 < p.len → base + 16384 ≤ p.va)

/-- The message that HOST_MESSAGE_SEND may send: the channel is bound to a host, holds a message, none of it is on its way, and a
queue pair that carries messages to the host runs and is not paused (15_host_ethernet_interface.md R536, R548). -/
def HostReady (d : Dev) (c : Nat) (q : Nat) : Prop :=
  (d.binding c).valid = true ∧ 0x40 ≤ (d.binding c).receiver ∧ (d.binding c).receiver ≤ 0x7F ∧ (d.ring c).msgs ≠ [] ∧
    (∀ x ∈ d.eth.qps, ∀ k ∈ x.2.sent, k.channel ≠ c) ∧ d.sendQp (d.binding c).receiver = some q ∧ bit d.eth.paused (d.qp q).pcp = false

/-- The frame passes the port (15_host_ethernet_interface.md R531, R533, R536). -/
def Passes (d : Dev) (f : Frame) : Prop :=
  f.bytes ≤ 9216 ∧ f.fcsOk = true ∧ f.uncorrected = 0 ∧ f.full = false ∧ f.stacked = false ∧
    f.vlan = (if d.isSet F.ETH_CTRL_vlan_en then some d.eth.config.vlan else none)

end Sys2Proof.Claims

/-! ### Ethernet -/

/-- RDMA_WRITE, RDMA_READ, RDMA_SEND, WRITE_WITH_IMMEDIATE, ACK_COALESCE, HOST_MESSAGE_SEND and SEND_RETRY_TIMEOUT
(15_host_ethernet_interface.md R538, R539, R543-R549). -/
def Obligations.QueuePairs : Prop :=
  ∀ (s : State) (q : Fin 1024), s.dev.awake = true →
    let d := found s
    let x := d.qp q
    let same := left s d
    let nak := { x with asked := true }
    (∀ p served psn bs imm, d.qpRuns q = false → exec (.rdmaWrite q p) s = .next same ∧ exec (.rdmaRead q p served) s = .next same ∧
      exec (.rdmaSend q psn bs) s = .next same ∧ exec (.writeWithImmediate q p imm) s = .next same) ∧
    (∀ p served, d.qpRuns q = true → 0 < ahead d q p.psn → ahead d q p.psn < 2 ^ 23 →
      ∃ e : Dev, exec (.rdmaWrite q p) s = .next (left s e) ∧ exec (.rdmaRead q p served) s = .next (left s e) ∧ e.qp q = nak) ∧
    (∀ (psn : BitVec 24) bs, d.qpRuns q = true → 0 < ahead d q psn.toNat → ahead d q psn.toNat < 2 ^ 23 →
      ∃ e : Dev, exec (.rdmaSend q psn bs) s = .next (left s e) ∧ e.qp q = nak) ∧
    (∀ p, d.qpRuns q = true → ahead d q p.psn = 0 → p.len ≤ 2 ^ 31 → InWindow d q p true →
      let r := d.serveWrite (d.hostReq q) (p.va + p.off) (Dev.clean p.data) p.accepted
      ∃ e : Dev, exec (.rdmaWrite q p) s = .next (left s e) ∧ (r.1 = 0 → e.mem = r.2.mem ∧ (e.qp q).recvPsn = (x.recvPsn + 1) % 2 ^ 24 ∧
        (e.qp q).owed = x.owed + 1 ∧ (e.qp q).state = 1) ∧ (r.1 = 1 → e.qp q = nak) ∧ (1 < r.1 → (e.qp q).state = 2)) ∧
    (∀ p served, d.qpRuns q = true → ahead d q p.psn = 0 → p.len ≤ 2 ^ 31 → served < 16 → InWindow d q p false →
      let r := d.serveRead (d.hostReq q) p.va p.len p.accepted
      ∃ e : Dev, exec (.rdmaRead q p served) s = .next (left s e) ∧ (r.1.1 = 0 →
        (e.qp q).recvPsn = (x.recvPsn + max 1 ((p.len + 2 ^ (7 + x.mtu) - 1) / 2 ^ (7 + x.mtu))) % 2 ^ 24 ∧ (e.qp q).owed = x.owed ∧
        .ethernet "READ response" q (r.1.2.map PByte.val) ∈ e.out) ∧ (r.1.1 = 1 → e.qp q = nak) ∧ (1 < r.1.1 → (e.qp q).state = 2)) ∧
    (∀ p served, d.qpRuns q = true → ahead d q p.psn = 0 → p.len ≤ 2 ^ 31 → served < 16 → bits p.key 23 0 ≠ x.rkey →
      ∃ e : Dev, ∃ f : Dev, exec (.rdmaWrite q p) s = .next (left s e) ∧ exec (.rdmaRead q p served) s = .next (left s f) ∧
        (e.qp q).state = 2 ∧ (f.qp q).state = 2 ∧ e.isSet F.ETH_ERR_STATUS_qp_error = true ∧ f.isSet F.ETH_ERR_STATUS_qp_error = true) ∧
    (∀ (psn : BitVec 24) bs, d.qpRuns q = true → ahead d q psn.toNat = 0 → x.canSend = true → 16 ≤ bs.length → bs.length ≤ 256 →
      bs.length = 16 + bodyLength bs → d.isSet F.MBX_CTRL_host_en = true →
      ∃ e : Dev, exec (.rdmaSend q psn bs) s = .next (left s e) ∧ (e.qp q).recvPsn = (x.recvPsn + 1) % 2 ^ 24 ∧ (e.qp q).owed = x.owed + 1 ∧
        e.rings = (d.mbxArrive x.identity (bits (field bs 4 1) 5 0) .ethernet bs).2.rings) ∧
    (∀ (psn : BitVec 24) bs, d.qpRuns q = true → ahead d q psn.toNat = 0 → x.canSend = false →
      ∃ e : Dev, exec (.rdmaSend q psn bs) s = .next (left s e) ∧ (e.qp q).state = 2 ∧ e.rings = d.rings) ∧
    (∀ p (imm : BitVec 32) ok e, d.writePacket q p = (ok, e) →
      exec (.rdmaWrite q p) s = .next (left s e) ∧ exec (.writeWithImmediate q p imm) s = .next (left s
        (if ok = true ∧ ahead d q p.psn = 0 ∧ x.imm ≠ 0xFF then
          e.hostMessage x.identity ({ code := 0xFFFF, channel := x.imm, arg0 := imm.toNat } : Msg).toBytes else e))) ∧
    (let due := d.qpRuns q = true ∧ (8 ≤ x.owed ∨ (0 < x.owed ∧ x.owedAt + 4000 ≤ d.now))
     (¬ due → exec (.ackCoalesce q) s = .next same) ∧
     (due → ∃ e : Dev, exec (.ackCoalesce q) s = .next (left s e) ∧ e.qp q = { x with owed := 0 } ∧
        e.out = [.ethernet "ACK" q (leBytes 3 ((x.recvPsn + 2 ^ 24 - 1) % 2 ^ 24))])) ∧
    (∀ c : Fin 64,
      ((∀ k, ¬ HostReady d c k) → exec (.hostMessageSend c) s = .next same) ∧
      (∀ m a, HostReady d c q → d.ringTake c = (some m, a) → ∃ e : Dev, exec (.hostMessageSend c) s = .next (left s e) ∧
        (e.ring c).msgs = (a.ring c).msgs ∧ (e.qp q).sendPsn = (x.sendPsn + 1) % 2 ^ 24 ∧
        (e.qp q).sent = x.sent ++ [{ channel := c, psn := x.sendPsn, bytes := m, tries := 0, at_ := d.now }] ∧
        e.out = [.ethernet "SEND" q (leBytes 3 x.sendPsn ++ m)]) ∧
      (∀ k, d.qpRuns q = true → x.sent.find? (fun y => y.channel = c.val) = some k → k.at_ + 4096 * 2 ^ x.timeout ≤ d.now →
        ∃ e : Dev, exec (.sendRetryTimeout q c) s = .next (left s e) ∧
        (if k.held = false ∧ x.retries ≤ k.tries then (e.qp q).state = 2 ∧ (e.qp q).sent = [] ∧ e.isSet F.ETH_ERR_STATUS_qp_error = true
          else (e.qp q).state = x.state ∧ e.out = [.ethernet "SEND" q (leBytes 3 k.psn ++ k.bytes)])) ∧
      ((∀ k, d.qpRuns q = true → x.sent.find? (fun y => y.channel = c.val) = some k → d.now < k.at_ + 4096 * 2 ^ x.timeout) →
        exec (.sendRetryTimeout q c) s = .next same))

/-- ETH_FRAME_RECEIVE, ETH_LINK_DOWN, ETH_LINK_UP, PFC_FRAME, CNP_RECEIVE, RATE_RECOVERY, LLDP_SEND and MANAGEMENT_DATAGRAM
(15_host_ethernet_interface.md R531-R537, R550, R551). -/
def Obligations.EthernetPort : Prop :=
  ∀ s : State, s.dev.awake = true →
    let d := found s
    let same := left s d
    let counted := fun (e : Dev) (f : Field) (k : Nat) => e.fld f = min (d.fld f + k) (2 ^ (f.hi + 1 - f.lo) - 1)
    (∀ (f : Frame) (a b : BitVec 8), d.eth.up = false → exec (.ethFrameReceive f) s = .next same ∧ exec (.pfcFrame a b) s = .next same) ∧
    (∀ f : Frame, d.eth.up = true → ¬ Passes d f → ∃ e : Dev, exec (.ethFrameReceive f) s = .next (left s e) ∧ e.eth = d.eth ∧ e.out = [] ∧
      counted e F.ETH_DROP_CNT_frames 1 ∧ counted e F.ETH_FEC_CNT_uncorrected f.uncorrected ∧
      e.fld F.ETH_RX_BYTES_bytes = d.fld F.ETH_RX_BYTES_bytes) ∧
    (∀ f : Frame, d.eth.up = true → Passes d f → ∃ e : Dev, exec (.ethFrameReceive f) s = .next (left s e) ∧
      counted e F.ETH_RX_BYTES_bytes f.bytes ∧
      (∀ t, f.proto = .arp t → t.length = 4 → d.ownAddress t = true → .ethernet "ARP reply" 0 (f.src ++ d.eth.config.mac ++ t) ∈ e.out) ∧
      (∀ t, f.proto = .neighbour t → t.length = 16 → d.ownAddress t = true →
        .ethernet "neighbour advertisement" 0 (f.src ++ d.eth.config.mac ++ t) ∈ e.out) ∧
      (∀ t bs, f.proto = .echo t bs → d.ownAddress t = true → bs.length ≤ 1472 →
        (d.eth.echoAt.filter (fun x => d.now < x + 1000000000)).length < 1000 → .ethernet "echo reply" 0 (f.src ++ t ++ bs) ∈ e.out) ∧
      (∀ q ce sup, f.proto = .roce q false ce sup → e.isSet F.ETH_ERR_STATUS_icrc = true) ∧
      (f.proto = .other → counted e F.ETH_DROP_CNT_frames 1)) ∧
    (∀ lanes : BitVec 8,
      (d.eth.up = true → lanes ≠ 0xFF → ∃ e : Dev, exec (.ethLinkDown lanes) s = .next (left s e) ∧ e.eth.up = false ∧
        e.eth.lanes = lanes.toNat ∧ e.isSet F.ETH_ERR_STATUS_link_down = true ∧ e.eth.qps = d.eth.qps) ∧
      (d.eth.up = false ∨ lanes = 0xFF → exec (.ethLinkDown lanes) s = .next same)) ∧
    (∃ e : Dev, exec .ethLinkUp s = .next (left s e) ∧ e.eth.up = true ∧ e.eth.lanes = 0xFF ∧ e.eth.qps = d.eth.qps ∧
      (d.boot.runs = .prois → e.eth.greet = none) ∧ (d.boot.runs ≠ .prois → e.eth.greet = d.eth.greet)) ∧
    (∀ pause release : BitVec 8, d.eth.up = true → ∃ e : Dev, exec (.pfcFrame pause release) s = .next (left s e) ∧ e.regs = d.regs ∧
      ∀ p < 8, bit e.eth.paused p = (if bit (d.fld F.ETH_PFC_pfc_en) p = false then bit d.eth.paused p
        else pause.getLsbD p || (bit d.eth.paused p && !release.getLsbD p))) ∧
    (∀ q : Fin 1024,
      let x := d.qp q
      (d.qpRuns q = true → d.isSet F.ETH_CC_cc_en = true → ∃ e : Dev, exec (.cnpReceive q) s = .next (left s e) ∧
        e.qp q = { x with rate := (x.rate + 1) / 2 - 1, rateAt := d.now } ∧ counted e F.ETH_CNP_CNT_received 1 ∧ ∀ k, k ≠ q.val → e.qp k = d.qp k) ∧
      (d.qpRuns q = false ∨ d.isSet F.ETH_CC_cc_en = false → exec (.cnpReceive q) s = .next same) ∧
      (d.qpRuns q = true → x.rate < 63 → x.rateAt + 1000 * d.fld F.ETH_CC_recovery ≤ d.now → ∃ e : Dev,
        exec (.rateRecovery q) s = .next (left s e) ∧ e.qp q = { x with rate := x.rate + 1, rateAt := d.now } ∧ e.regs = d.regs) ∧
      (d.qpRuns q = false ∨ 63 ≤ x.rate ∨ d.now < x.rateAt + 1000 * d.fld F.ETH_CC_recovery → exec (.rateRecovery q) s = .next same)) ∧
    (let due := d.eth.up = true ∧ d.isSet F.ETH_CTRL_lldp_en = true ∧ ∀ t, d.eth.lldpAt = some t → t + 30000000000 ≤ d.now
     (¬ due → exec .lldpSend s = .next same) ∧
     (due → ∃ e : Dev, exec .lldpSend s = .next (left s e) ∧ e.eth.lldpAt = some d.now ∧ ∃ bs, e.out = [.ethernet "LLDPDU" 0 bs] ∧
        bs.take d.eth.config.mac.length = d.eth.config.mac)) ∧
    (∀ peer v6 port payload,
      let go := fun (e : Dev) => exec (.managementDatagram peer v6 port payload) s = .next (left s e)
      let kind := field payload 2 1
      let off := d.eth.up = false ∨ d.boot.runs = .none ∨ d.isSet F.ETH_CTRL_mgmt_en = false
      let good := field payload 0 2 = 0x7E01 ∧ kind < 3 ∧ 24 ≤ payload.length ∧ payload.length = 24 + bodyLength (payload.drop 8)
      let recent := (d.eth.mgmtAt.filter (fun t => d.now < t + 1000000000)).length
      (off → go d) ∧
      (¬ off → port.toNat ≠ d.fld F.ETH_CTRL_mgmt_port → ∃ e : Dev, go e ∧ counted e F.ETH_DROP_CNT_frames 1 ∧ e.out = []) ∧
      (¬ off → port.toNat = d.fld F.ETH_CTRL_mgmt_port →
        (¬ good → ∃ e : Dev, go e ∧ counted e F.ETH_MGMT_CNT_dropped 1 ∧ e.out = []) ∧
        (good → kind ≠ 0 → go d) ∧
        (good → kind = 0 → 1000 ≤ recent → ∃ e : Dev, go e ∧ counted e F.ETH_MGMT_CNT_dropped 1 ∧
          e.isSet F.ETH_ERR_STATUS_mgmt_drop = true ∧ e.out = []) ∧
        (good → kind = 0 → recent < 1000 → ∃ e : Dev, go e ∧ counted e F.ETH_MGMT_CNT_answered 1 ∧ e.mem = d.mem ∧ e.rings = d.rings ∧
          e.out ≠ [] ∧ ∀ o ∈ e.out, ∃ b, o = .ethernet "datagram" peer (Dev.datagramHeader 1 (field payload 4 4) ++ b))))


namespace Sys2Proof.Claims

open Sys2Proof.Machine

/-- The state that an event on the pins leaves which changes nothing: only the output of the command before is gone. -/
def kept (s : State) : State := if s.dev.awake then left s (found s) else { s with dev := found s }

/-- A message on the SMBus after the bytes received so far: kept while it is not complete, dropped when it is too long, and delivered to
channel 0 otherwise (20_pins_power_rails_and_sequencing.md R664, R665). -/
def Received (d : Dev) (bs : List Byte) (e : Dev) : Prop :=
  let n := bodyLength bs
  let waits := e.smbus.partial_ = some bs ∧ e.rings = d.rings
  let dropped := fun (f : Field) => e.smbus.partial_ = none ∧ e.isSet f = true ∧ e.rings = d.rings
  (bs.length < 8 → waits) ∧
  (8 ≤ bs.length → 240 < n → dropped F.SMB_ERR_STATUS_overlong) ∧
  (8 ≤ bs.length → n ≤ 240 → 16 + n < bs.length → dropped F.SMB_ERR_STATUS_bad_cmd) ∧
  (8 ≤ bs.length → n ≤ 240 → bs.length < 16 + n → waits) ∧
  (8 ≤ bs.length → n ≤ 240 → bs.length = 16 + n →
    (d.isSet F.SMB_CTRL_mbx_en = false → dropped F.SMB_ERR_STATUS_access_denied) ∧
    (d.isSet F.SMB_CTRL_mbx_en = true → e.smbus.partial_ = none ∧ e.rings = (d.mbxArrive 0x20 0 .smbus bs).2.rings))

end Sys2Proof.Claims

/-! ### Power, temperature and screens -/

/-- POWER_WINDOW_END, LOOP_WATCHDOG, PROCHOT_ASSERT, PROCHOT_RELEASE, DROOP_EVENT, DROOP_END, THERMAL_SAMPLE, DDR_SENSOR_READ, THERMTRIP,
AUTO_SCREEN_TIMER and SCREEN_DEADLINE (16_power_thermal_and_measurement.md R560-R579, 17_reliability_and_silent_errors.md R595, R602). -/
def Obligations.PowerThermalAndScreens : Prop :=
  (∀ s : State, s.dev.awake = true →
    let d := found s
    let same := left s d
    let held := fun (e : Dev) => e.effStep = d.fMin ∧ e.effDuty = d.dutyMax
    (∀ w : Window,
      let n := d.now / 4000 - 1
      let p := (d.estimate w).1.1
      let i := (d.estimate w).1.2
      let cap : Rat := (d.capWatts : Nat)
      let icc : Rat := (d.fld F.PWR_LOOP_CFG_icc_max : Nat)
      let hyst : Rat := (d.fld F.PWR_LOOP_CFG_hyst : Nat)
      let acts := d.boot.runs = .prois ∧ d.power.changedIn ≠ some n
      ∃ e : Dev, exec (.powerWindowEnd w) s = .next (left s e) ∧ bits (e.rd .PWR_EST) 63 32 = n % 2 ^ 32 ∧
        (acts → (cap < p ∨ icc < i) → e.loopStep ≤ d.loopStep ∧ d.loopDuty ≤ e.loopDuty ∧
          (e.loopStep < d.loopStep ∨ d.loopDuty < e.loopDuty ∨ e.isSet F.PWR_ERR_STATUS_cap_miss = true)) ∧
        (acts → p < cap - hyst → i < icc - hyst / (3 / 4) →
          if 0 < d.loopDuty then e.loopStep = d.loopStep ∧ e.loopDuty + 1 = d.loopDuty
          else e.loopStep = min 44 (d.loopStep + 1) ∧ e.loopDuty = 0) ∧
        (¬ acts ∨ (p ≤ cap ∧ i ≤ icc ∧ ¬ (p < cap - hyst ∧ i < icc - hyst / (3 / 4))) → e.loopStep = d.loopStep ∧ e.loopDuty = d.loopDuty)) ∧
    (let due := d.isSet F.PWR_CTRL_wd_en = true ∧ ((∃ a < 8, 0 < (d.array a).groups) ∨ ∃ c < 4, d.runsOn c ≠ none) ∧
       d.power.freqAt + 100000 ≤ d.now ∧ d.power.forced = false
     (¬ due → exec .loopWatchdog s = .next same) ∧
     (due → ∃ e : Dev, exec .loopWatchdog s = .next (left s e) ∧ e.power.forced = true ∧ e.isSet F.PWR_ERR_STATUS_loop_wd = true ∧ held e)) ∧
    (∃ e : Dev, exec .prochotAssert s = .next (left s e) ∧ e.pins.prochotLow = true ∧ e.isSet F.PWR_ERR_STATUS_prochot = true ∧ held e) ∧
    (∃ e : Dev, exec .prochotRelease s = .next (left s e) ∧ e.pins.prochotLow = false) ∧
    (∀ island : Nat, (island ∈ d.power.stretched → exec (.droopEvent island) s = .next same) ∧
      (island ∉ d.power.stretched → ∃ e : Dev, exec (.droopEvent island) s = .next (left s e) ∧
        e.power.stretched = d.power.stretched ++ [island] ∧ e.isSet F.PWR_ERR_STATUS_droop = true ∧
        e.fld F.PWR_DROOP_CNT_events = min (d.fld F.PWR_DROOP_CNT_events + 1)
          (2 ^ (F.PWR_DROOP_CNT_events.hi + 1 - F.PWR_DROOP_CNT_events.lo) - 1)) ∧
      ∃ e : Dev, exec (.droopEnd island) s = .next (left s e) ∧ ∀ k, k ∈ e.power.stretched ↔ k ∈ d.power.stretched ∧ k ≠ island) ∧
    (∀ rs : List (Option Int), rs.length = 98 → ∃ e : Dev, exec (.thermalSample rs) s = .next (left s e) ∧
      (e.power.tripDue = true ↔ d.power.tripDue = true ∨ ∃ k t, rs[k]? = some (some t) ∧ 16 * 115 ≤ t ∧ k ∈ d.power.trip) ∧
      ∀ k < 98, (∀ t, rs[k]? = some (some t) → e.rd .TEL_SENSOR 0 k = 2 ^ 16 + (t % 2 ^ 16).toNat ∧
        (k ∈ e.power.trip ↔ 16 * 115 ≤ t)) ∧ (rs[k]? = some none → e.isSet F.TEL_SENSOR_failed 0 k = true ∧ k ∉ e.power.trip)) ∧
    (∀ rs : List (Option Int), rs.length = 32 → ∃ e : Dev, exec (.ddrSensorRead rs) s = .next (left s e) ∧
      ∀ k < 32, (∀ t, rs[k]? = some (some t) → e.rd .TEL_SENSOR 0 (98 + k) = 2 ^ 16 + (t % 2 ^ 16).toNat ∧
        (k ∈ e.power.refresh2 ↔ 16 * 85 < t)) ∧ (rs[k]? = some none → e.isSet F.TEL_SENSOR_failed 0 (98 + k) = true)) ∧
    (d.power.tripDue = false → exec .thermtrip s = .next same) ∧
    (d.power.tripDue = true → exec .thermtrip s = .next (left s { d with pins := { d.pins with tripped := true } })) ∧
    (∀ fails,
      let due := d.boot.runs = .prois ∧ d.boot.screened = true ∧ d.reset = none ∧ d.fld F.SCR_CTRL_auto_hours ≠ 0 ∧
        d.boot.screenedAt + d.fld F.SCR_CTRL_auto_hours * 3600000000000 ≤ d.now
      (d.screen ≠ none → exec (.autoScreenTimer fails) s = .next (left s (d.idleSlices fails))) ∧
      (d.screen = none → ¬ due → exec (.autoScreenTimer fails) s = .next same) ∧
      (d.screen = none → due → exec (.autoScreenTimer fails) s =
        .next (left s (d.startQuick (1000000 * max 1 (d.fld F.SCR_CTRL_qs_deadline)) none fails)))) ∧
    ((∀ x, d.screen = some x → d.now < x.deadline ∨ x.aborted = true) → exec .screenDeadline s = .next same) ∧
    (∀ x, d.screen = some x → x.deadline ≤ d.now → x.aborted = false → ∃ e : Dev, exec .screenDeadline s = .next (left s e) ∧
      e.screen = none ∧ bits (e.rd .SCR_LAST 0 0) 15 8 = if x.clean then 2 else 1)) ∧
  (∀ s : State, s.dev.awake = false → ∃ t u : State, exec .prochotAssert s = .next t ∧ t.dev.pins = { s.dev.pins with prochotLow := true } ∧
    exec .prochotRelease s = .next u ∧ u.dev.pins = { s.dev.pins with prochotLow := false })

/-! ### Resets -/

/-- POWER_ON_SCREEN, PROGRESS_WATCHDOG, STOP_DEADLINE, COMPUTE_RESET, DRAIN_TIMEOUT, COMPUTE_RECOVERY, CHIP_RESET and FIRMWARE_WATCHDOG
(17_reliability_and_silent_errors.md R594, 18_hang_detection_reset_and_recovery.md R616-R626). -/
def Obligations.HangsAndResets : Prop :=
  ∀ s : State, s.dev.awake = true →
    let d := found s
    let same := left s d
    let counted := fun (e : Dev) (f : Field) (k : Nat) => e.fld f = min (d.fld f + k) (2 ^ (f.hi + 1 - f.lo) - 1)
    (∀ fails took,
      (d.boot.runs ≠ .prois ∨ d.boot.screened = true ∨ d.screen ≠ none → exec (.powerOnScreen fails took) s = .next same) ∧
      (d.boot.runs = .prois → d.boot.screened = false → d.screen = none → ∃ e : Dev, exec (.powerOnScreen fails took) s = .next (left s e) ∧
        e.boot.screened = true ∧ e.screen = none ∧ e.isSet F.INT_FW_screen_done = true ∧ bits (e.rd .SCR_LAST 0 0) 7 0 = 2)) ∧
    (∀ (c : Fin 4) (count : Nat),
      let n := d.coreCtx c
      let hang := d.isSet F.RST_CTRL_wd_en = true ∧ 2 ^ min 30 (max 20 (d.fld F.RST_WD_CFG_wd_exp)) ≤ count
      (d.watchdogHeld c = true → exec (.progressWatchdog c count) s = .next same) ∧
      (d.watchdogHeld c = false → ∃ e : Dev, exec (.progressWatchdog c count) s = .next (left s e) ∧
        (e.core c).wdCount = min count (2 ^ 32 - 1) ∧ (¬ hang → e.ctxs = d.ctxs ∧ e.regs = d.regs) ∧
        (hang → e.isSet F.RST_ERR_STATUS_hang = true ∧ counted e F.RST_HANG_CNT_hangs 1 ∧ e.recSeq = (d.recSeq + 1) % 2 ^ 32 ∧
          ((d.ctx n).st = .running → (e.ctx n).st = .faulted ∧ (e.core c).live = false)))) ∧
    (∀ n : Fin 16,
      let due := (d.ctx n).st = .faulted ∧ (d.ctx n).aborted = false ∧ (∃ c < 4, (d.core c).ctx = some n.val) ∧ d.reset = none
      (¬ due → exec (.stopDeadline n) s = .next same) ∧
      (due → ∃ e : Dev, exec (.stopDeadline n) s = .next (left s e) ∧ (e.ctx n).st = .stopping ∧
        e.isSet F.RST_ERR_STATUS_stop_fail = true ∧ e.boot.computeDue =
          if d.isSet F.RST_CTRL_auto_cr = true ∧ d.boot.computeDue = none then some (3, some n.val) else d.boot.computeDue)) ∧
    (∀ started,
      (d.reset ≠ none ∨ d.resetCause = none ∨ d.boot.runs ≠ .prois → exec (.computeReset started) s = .next same) ∧
      (∀ cause guilty, d.reset = none → d.resetCause = some (cause, guilty) → d.boot.runs = .prois → ∃ e : Dev,
        exec (.computeReset started) s = .next (left s e) ∧ e.reset = some { cause, t0 := d.now, guilty } ∧ e.boot.computeDue = none ∧
        bits (e.rd .RST_STATUS) 10 0 = 1 ∧ e.fenced false = true ∧ e.fenced true = false)) ∧
    (∀ os,
      ((∀ r, d.reset = some r → r.drained = true ∨ d.now < r.t0 + 20000) → exec (.drainTimeout os) s = .next same) ∧
      (∀ r, d.reset = some r → r.drained = false → r.t0 + 20000 ≤ d.now → ∃ e : Dev, exec (.drainTimeout os) s = .next (left s e) ∧
        e.reset = some { r with drained := true } ∧ counted e F.RST_DRAIN_ERR_CNT_requests os.length ∧ e.fenced true = true)) ∧
    (∀ failed,
      ((∀ r, d.reset = some r → r.drained = false) → exec (.computeRecovery failed) s = .next same) ∧
      (∀ r, d.reset = some r → r.drained = true → ∃ e : Dev,
        exec (.computeRecovery failed) s = .next { left s e with links := Fabric.clearCompute s.links } ∧ e.reset = none ∧
        counted e F.RST_CR_CNT_resets 1 ∧ (∀ c, e.core c = {}) ∧
        (∀ c < 4, ∀ a < 0x4000000, e.cell (coreMemBase c + a) = 0) ∧
        ∀ n, 1 ≤ n → n < 16 → (d.ctx n).st ≠ .free → (d.ctx n).st ≠ .loading → (e.ctx n).st = .faulted ∧ (e.ctx n).aborted = true)) ∧
    (∀ ms,
      (d.boot.due = none → exec (.chipReset ms) s = .next same) ∧
      (∀ kind keep, d.boot.due = some (kind, keep) → ∃ t, exec (.chipReset ms) s = .next t ∧ t.links = [] ∧ t.pending = s.pending ∧
        t.dev.boot.due = none ∧ t.dev.reset = none ∧ (∀ n, (t.dev.ctx n).job = none) ∧ t.dev.flash.identity = s.dev.flash.identity ∧
        (keep = false ∨ kind ≠ 1 → ∀ a, t.dev.cell a = 0) ∧ ∀ a, 0x80000000000 ≤ a → t.dev.cell a = 0)) ∧
    (let due := d.boot.runs ≠ .none ∧ d.isSet F.RST_CTRL_cp_wd_en = true ∧
       d.boot.kickAt + 1000000 * max 1 (d.fld F.RST_WD_CFG_cp_wd_ms) ≤ d.now
     (¬ due → exec .firmwareWatchdog s = .next same) ∧
     (due → exec .firmwareWatchdog s = .next (left s { d with boot := { d.boot with due := some (2, false) } })))

/-! ### Pins -/

/-- The pins, JTAG and SMBus (19_boot_security_and_defaults.md R643, R644, 20_pins_power_rails_and_sequencing.md R654-R657, R662-R667). -/
def Obligations.PinsJtagAndSmbus : Prop :=
  (∀ s : State,
    let pins := s.dev.pins
    let cleared := fun (t : State) => t.dev.mem.cells = [] ∧ t.dev.rings = [] ∧ t.dev.ctxs = [] ∧ t.dev.cores = [] ∧
      t.dev.flash = s.dev.flash ∧ t.links = [] ∧ t.pending = s.pending
    (pins.resetLow = true → exec .resetNAssert s = .next (kept s)) ∧
    (pins.resetLow = false → ∃ t, exec .resetNAssert s = .next t ∧ t.dev.pins.resetLow = true ∧ t.dev.pins.power = pins.power ∧
      (pins.power = true → cleared t ∧ t.dev.pins.tap = pins.tap ∧ t.dev.power.trip = s.dev.power.trip)) ∧
    (∀ fwd smba testEn ms,
      let releases := pins.power = true ∧ (pins.resetLow = true ∨ (s.dev.boot.runs = .none ∧ s.dev.isSet F.SMB_STRAP_test_en = false))
      (¬ releases → exec (.resetNRelease fwd smba testEn ms) s = .next (kept s)) ∧
      (releases → ∃ t, exec (.resetNRelease fwd smba testEn ms) s = .next t ∧ t.dev.pins.resetLow = false ∧ t.links = [] ∧
        t.dev.fld F.SMB_STRAP_fwd = fwd.toNat ∧ t.dev.fld F.SMB_STRAP_smba = smba.toNat ∧ t.dev.isSet F.SMB_STRAP_test_en = testEn ∧
        (testEn = false → t.dev.boot.runs ≠ .none))) ∧
    (∀ rail : Fin 6, ∃ t, exec (.supplyLoss rail) s = .next t ∧ t.dev.pins.power = false ∧ t.dev.awake = false ∧
      (pins.power = true → cleared t ∧ t.dev.regs = [] ∧ t.dev.pins.tripped = (pins.tripped && decide (rail ≠ 0) && decide (rail ≠ 5)))) ∧
    (pins.power = true → exec .powerUp s = .next (kept s)) ∧
    (pins.power = false → ∃ t, exec .powerUp s = .next t ∧ t.dev.pins.power = true ∧ t.dev.pins.resetLow = true ∧
      t.dev.pins.tripped = false ∧ t.dev.pins.tap = 0 ∧ t.dev.mem.cells = [] ∧ t.dev.flash = s.dev.flash) ∧
    (∃ t, exec .tapReset s = .next t ∧ t.dev.pins = { pins with ir := .idcode, boundary := none } ∧ t.dev.mem = s.dev.mem) ∧
    (∀ i cells,
      let admitted := i = .bypass ∨ i = .idcode ∨ i = .sample ∨ ((i = .extest ∨ i = .clamp ∨ i = .highz) ∧ pins.tap = 1) ∨
        (i = .debug ∧ pins.tap = 2)
      (pins.power = false → exec (.boundaryScanInstruction i cells) s = .next (kept s)) ∧
      (pins.power = true → ∃ t, exec (.boundaryScanInstruction i cells) s = .next t ∧ t.dev.pins.tap = pins.tap ∧
        (admitted → t.dev.pins.ir = i) ∧ (¬ admitted → t.dev.pins.ir = .bypass ∧ t.dev.pins.boundary = none) ∧
        (t.dev.pins.boundary ≠ none → pins.resetLow = true ∧ pins.tap = 1) ∧
        (admitted → (i = .extest ∨ i = .clamp ∨ i = .highz) → pins.resetLow = true → t.dev.pins.boundary = some (i, cells)) ∧
        (i = .idcode → .jtag (leBytes 4 0xB06405AB) ∈ t.dev.out)))) ∧
  (∀ s : State, s.dev.awake = true →
    let d := found s
    let same := left s d
    let acks := d.smbus.readyAt ≤ d.now
    (∀ token,
      let good := d.fld F.DBG_CTRL_policy = 2 ∧ token.length = 64 + 7856 ∧ token.take 32 = d.challenge ∧
        d.tokenSigner ((token.drop 32).take 32) = true ∧ Config.signed ((token.drop 32).take 32) (token.take 32) (token.drop 64) = true
      (d.boot.runs = .none → exec (.dbgToken token) s = .next same) ∧
      (d.boot.runs ≠ .none → ∃ e : Dev, exec (.dbgToken token) s = .next (left s e) ∧
        (good → e.pins.tap = 2 ∧ e.isSet F.SEC_ERR_STATUS_debug_unlock = true ∧ e.isSet F.DBG_STATUS_token_rejected = false) ∧
        (¬ good → e.pins.tap = d.pins.tap ∧ e.isSet F.DBG_STATUS_token_rejected = true))) ∧
    (∀ key : BitVec 32,
      (∀ w, d.pins.tap ≠ 2 → ∃ e : Dev, exec (.jtagDebugAccess key w) s = .next (left s e) ∧ e.regs = d.regs ∧ e.out = [] ∧ e.pins.ir = .bypass) ∧
      (d.pins.tap = 2 → ∃ e : Dev, exec (.jtagDebugAccess key none) s = .next (left s e) ∧ e.regs = d.regs ∧
        e.out = [.jtag (leBytes 8 (d.regRead key.toNat))]) ∧
      (∀ v, d.pins.tap = 2 → exec (.jtagDebugAccess key (some v)) s =
        .next (left s ((d.loadTap .debug).keyWrite 3 key.toNat v.toNat)))) ∧
    (∀ bs pec w o, ¬ acks → ∀ i ∈ [Instr.smbMsgStart bs pec, .smbMsgAppend bs pec, .smbMsgTake, .smbMsgReadRest, .smbRegSelect w o pec,
      .smbRegRead, .smbAra], exec i s = .next same) ∧
    (∀ bs pec (w : BitVec 8) (o : BitVec 24), acks →
      let bad := pec = some false ∨ (pec = none ∧ d.isSet F.SMB_CTRL_pec_req = true)
      (bad → ∀ i ∈ [Instr.smbMsgStart bs pec, .smbMsgAppend bs pec, .smbRegSelect w o pec], ∃ e : Dev, exec i s = .next (left s e) ∧
        e.isSet F.SMB_ERR_STATUS_pec_err = true ∧ e.smbus = d.smbus ∧ e.rings = d.rings) ∧
      (¬ bad → (∃ e : Dev, exec (.smbMsgStart bs pec) s = .next (left s e) ∧ Received d bs e) ∧
        (∀ h, d.smbus.partial_ = some h → h.length = 128 → ∃ e : Dev, exec (.smbMsgAppend bs pec) s = .next (left s e) ∧ Received d (h ++ bs) e) ∧
        ((∀ h, d.smbus.partial_ = some h → h.length ≠ 128) → ∃ e : Dev, exec (.smbMsgAppend bs pec) s = .next (left s e) ∧
          e.smbus.partial_ = none ∧ e.isSet F.SMB_ERR_STATUS_bad_cmd = true ∧ e.rings = d.rings) ∧
        exec (.smbRegSelect w o pec) s = .next (left s { d with smbus := { d.smbus with window := w.toNat, offset := o.toNat / 8 * 8 } }))) ∧
    (acks →
      (∀ m a, d.ringTake 1 = (some m, a) → ∃ e : Dev, exec .smbMsgTake s = .next (left s e) ∧ e.rings = a.rings ∧
        e.out = [.smbus (m.take 128)] ∧ e.smbus.readBuf = some m) ∧
      ((d.ring 1).msgs = [] → ∃ e : Dev, exec .smbMsgTake s = .next (left s e) ∧ e.rings = d.rings ∧ e.out = [.smbus (List.replicate 16 0)]) ∧
      (∃ e : Dev, exec .smbMsgReadRest s = .next (left s e) ∧ e.out = [.smbus ((d.smbus.readBuf.getD []).drop 128)] ∧ e.regs = d.regs) ∧
      (d.smbus.window ∈ [0x41, 0x42, 0x43] → ∃ e : Dev, exec .smbRegRead s = .next (left s e) ∧
        e.out = [.smbus (leBytes 8 (d.regRead (d.smbus.window * 2 ^ 24 + d.smbus.offset)))]) ∧
      (d.smbus.window ∉ [0x41, 0x42, 0x43] → ∃ e : Dev, exec .smbRegRead s = .next (left s e) ∧ e.out = [.smbus (List.replicate 8 0xFF)] ∧
        e.isSet F.SMB_ERR_STATUS_access_denied = true) ∧
      (d.isSet F.SMB_CTRL_ara_en = true → d.alert = true → ∃ e : Dev, exec .smbAra s = .next (left s e) ∧
        e.out = [.smbus [BitVec.ofNat 8 (0x58 + d.fld F.SMB_STRAP_smba)]] ∧ e.regs = d.regs) ∧
      (d.isSet F.SMB_CTRL_ara_en = false ∨ d.alert = false → exec .smbAra s = .next same)) ∧
    (∃ e : Dev, exec .smbTimeout s = .next (left s e) ∧ e.isSet F.SMB_ERR_STATUS_timeout = true ∧ e.smbus = d.smbus ∧ e.out = []))
end

