-- ==== Sys2Proof/Laws/Tables.lean ====
section
/-!
SUPPORT. Sparse tables: what a stored entry reads as, and that a store keeps the canonical form.
-/

namespace Sys2Proof.Machine.Sp

variable {α : Type} (d : Nat → α)

theorem get_erase_same (t : List (Nat × α)) (k : Nat) : get d (erase t k) k = d k := by
  induction t with
  | nil => rfl
  | cons e t ih =>
    obtain ⟨j, v⟩ := e
    by_cases h : j = k
    · simp only [erase, h, if_true]; exact ih
    · simp only [erase, get, h, if_false]; exact ih

theorem get_erase_other (t : List (Nat × α)) {k j : Nat} (h : j ≠ k) : get d (erase t k) j = get d t j := by
  induction t with
  | nil => rfl
  | cons e t ih =>
    obtain ⟨i, v⟩ := e
    by_cases hi : i = k
    · subst hi
      have : ¬ i = j := fun e => h e.symm
      simp only [erase, get, this, if_true, if_false]; exact ih
    · simp only [erase, get, hi, if_false, ih]

theorem get_insert_same (t : List (Nat × α)) (k : Nat) (v : α) : get d (insert t k v) k = v := by
  induction t with
  | nil => simp [insert, get]
  | cons e t ih =>
    obtain ⟨j, w⟩ := e
    by_cases h : j = k
    · simp [insert, get, h]
    · by_cases hl : k < j
      · simp [insert, get, h, hl]
      · simp only [insert, get, h, hl, if_false]; exact ih

theorem get_insert_other (t : List (Nat × α)) {k j : Nat} (v : α) (h : j ≠ k) : get d (insert t k v) j = get d t j := by
  have hk : ¬ k = j := fun e => h e.symm
  induction t with
  | nil => simp [insert, get, hk]
  | cons e t ih =>
    obtain ⟨i, w⟩ := e
    by_cases hi : i = k
    · subst hi; simp [insert, get, hk]
    · by_cases hl : k < i
      · simp [insert, get, hi, hl, hk]
      · simp only [insert, get, hi, hl, if_false, ih]

variable [DecidableEq α]

/-- A stored entry reads as what was stored. -/
@[simp] theorem get_set_same (t : List (Nat × α)) (k : Nat) (v : α) : get d (set d t k v) k = v := by
  unfold set
  split
  · rename_i h; rw [get_erase_same, h]
  · exact get_insert_same d t k v

/-- Every other entry reads as before. -/
theorem get_set_other (t : List (Nat × α)) {k j : Nat} (v : α) (h : j ≠ k) : get d (set d t k v) j = get d t j := by
  unfold set
  split
  · exact get_erase_other d t h
  · exact get_insert_other d t v h

/-- What any entry reads as after a store. -/
theorem get_set (t : List (Nat × α)) (k j : Nat) (v : α) : get d (set d t k v) j = if j = k then v else get d t j := by
  by_cases h : j = k
  · subst h; simp
  · simp [h, get_set_other d t v h]

/-! ### The canonical form -/

theorem wfFrom_mono {t : List (Nat × α)} {a b : Nat} (h : a ≤ b) (w : wfFrom d (some b) t = true) : wfFrom d (some a) t = true := by
  cases t with
  | nil => rfl
  | cons e t =>
    obtain ⟨j, v⟩ := e
    simp only [wfFrom, Bool.and_eq_true, decide_eq_true_eq] at w ⊢
    exact ⟨⟨by omega, w.1.2⟩, w.2⟩

theorem wfFrom_erase {t : List (Nat × α)} (k : Nat) : ∀ lo, wfFrom d lo t = true → wfFrom d lo (erase t k) = true := by
  induction t with
  | nil => intro lo h; exact h
  | cons e t ih =>
    obtain ⟨j, v⟩ := e
    intro lo h
    simp only [wfFrom, Bool.and_eq_true] at h
    by_cases hj : j = k
    · simp only [erase, hj, if_true]
      have := ih _ h.2
      cases lo with
      | none =>
        have h2 := this
        cases ht : erase t k with
        | nil => rfl
        | cons e' t' =>
          obtain ⟨j', v'⟩ := e'
          rw [ht] at h2
          simp only [wfFrom, Bool.and_eq_true] at h2 ⊢
          exact ⟨⟨trivial, h2.1.2⟩, h2.2⟩
      | some b =>
        have hb : b < j := by simpa using h.1.1
        exact wfFrom_mono d (by omega) this
    · simp only [erase, hj, if_false, wfFrom, Bool.and_eq_true]
      exact ⟨h.1, ih _ h.2⟩

theorem wfFrom_insert {t : List (Nat × α)} (k : Nat) (v : α) (hv : v ≠ d k) :
    ∀ lo : Option Nat, (∀ b, lo = some b → b < k) → wfFrom d lo t = true → wfFrom d lo (insert t k v) = true := by
  induction t with
  | nil =>
    intro lo hlo _
    cases lo with
    | none => simp [insert, wfFrom, hv]
    | some b => simp [insert, wfFrom, hv, hlo b rfl]
  | cons e t ih =>
    obtain ⟨j, w⟩ := e
    intro lo hlo h
    simp only [wfFrom, Bool.and_eq_true] at h
    by_cases hj : j = k
    · subst hj
      simp only [insert, if_true, wfFrom, Bool.and_eq_true]
      exact ⟨⟨h.1.1, by simpa using hv⟩, h.2⟩
    · by_cases hl : k < j
      · simp only [insert, hj, hl, if_true, if_false, wfFrom, Bool.and_eq_true]
        refine ⟨⟨?_, by simpa using hv⟩, ⟨by simp, h.1.2⟩, h.2⟩
        cases lo with
        | none => rfl
        | some b => simpa using hlo b rfl
      · simp only [insert, hj, hl, if_false, wfFrom, Bool.and_eq_true]
        exact ⟨h.1, ih (some j) (fun b e => by cases e; omega) h.2⟩

/-- A store keeps the canonical form. -/
theorem wf_set {t : List (Nat × α)} (k : Nat) (v : α) (h : wf d t = true) : wf d (set d t k v) = true := by
  unfold set
  split
  · exact wfFrom_erase d k none h
  · rename_i hv; exact wfFrom_insert d k v hv none (fun b e => by cases e) h

/-- Dropping entries keeps the canonical form. -/
theorem wfFrom_filter (p : Nat × α → Bool) {t : List (Nat × α)} : ∀ lo, wfFrom d lo t = true → wfFrom d lo (t.filter p) = true := by
  induction t with
  | nil => intro lo h; exact h
  | cons e t ih =>
    obtain ⟨j, v⟩ := e
    intro lo h
    simp only [wfFrom, Bool.and_eq_true] at h
    by_cases hp : p (j, v) = true
    · simp only [List.filter_cons, hp, if_true, wfFrom, Bool.and_eq_true]
      exact ⟨h.1, ih _ h.2⟩
    · have hf : p (j, v) = false := by simpa using hp
      simp only [List.filter_cons, hf, Bool.false_eq_true, if_false]
      have := ih _ h.2
      cases lo with
      | none =>
        cases ht : t.filter p with
        | nil => rfl
        | cons e' t' =>
          obtain ⟨j', v'⟩ := e'
          rw [ht] at this
          simp only [wfFrom, Bool.and_eq_true] at this ⊢
          exact ⟨⟨trivial, this.1.2⟩, this.2⟩
      | some b =>
        have hb : b < j := by simpa using h.1.1
        exact wfFrom_mono d (by omega) this

theorem wf_filter (p : Nat × α → Bool) {t : List (Nat × α)} (h : wf d t = true) : wf d (t.filter p) = true :=
  wfFrom_filter d p none h

end Sys2Proof.Machine.Sp
end

