-- ==== Sys2Proof/Laws/State.lean ====
section
/-!
SUPPORT. What each update of the device leaves as it was, field by field, and what it reads as afterwards.
-/

namespace Sys2Proof.Machine.Dev

/-! ### Updates that are another update -/

@[simp] theorem onCore_eq (d : Dev) (c : Nat) (f : Core → Core) : d.onCore c f = d.setCore c (f (d.core c)) := (rfl)
@[simp] theorem onArray_eq (d : Dev) (a : Nat) (f : DArray → DArray) : d.onArray a f = d.setArray a (f (d.array a)) := rfl
@[simp] theorem onCtx_eq (d : Dev) (n : Nat) (f : Ctx → Ctx) : d.onCtx n f = d.setCtx n (f (d.ctx n)) := rfl
@[simp] theorem onPort_eq (d : Dev) (p : Nat) (f : RhkPort → RhkPort) : d.onPort p f = d.setPort p (f (d.port p)) := rfl

/-! ### Fields that an update leaves -/

@[simp] theorem wr_mem (d : Dev) (r : Reg) (w j v : Nat) : (d.wr r w j v).mem = d.mem := (rfl)
@[simp] theorem wr_rhk (d : Dev) (r : Reg) (w j v : Nat) : (d.wr r w j v).rhk = d.rhk := (rfl)
@[simp] theorem wr_arrays (d : Dev) (r : Reg) (w j v : Nat) : (d.wr r w j v).arrays = d.arrays := (rfl)
@[simp] theorem wr_cores (d : Dev) (r : Reg) (w j v : Nat) : (d.wr r w j v).cores = d.cores := (rfl)
@[simp] theorem wr_ctxs (d : Dev) (r : Reg) (w j v : Nat) : (d.wr r w j v).ctxs = d.ctxs := (rfl)
@[simp] theorem wr_rings (d : Dev) (r : Reg) (w j v : Nat) : (d.wr r w j v).rings = d.rings := (rfl)
@[simp] theorem wr_eventMask (d : Dev) (r : Reg) (w j v : Nat) : (d.wr r w j v).eventMask = d.eventMask := (rfl)
@[simp] theorem wr_eventSeq (d : Dev) (r : Reg) (w j v : Nat) : (d.wr r w j v).eventSeq = d.eventSeq := (rfl)
@[simp] theorem wr_now (d : Dev) (r : Reg) (w j v : Nat) : (d.wr r w j v).now = d.now := (rfl)
@[simp] theorem wr_fresh (d : Dev) (r : Reg) (w j v : Nat) : (d.wr r w j v).fresh = d.fresh := (rfl)
@[simp] theorem wr_recSeq (d : Dev) (r : Reg) (w j v : Nat) : (d.wr r w j v).recSeq = d.recSeq := (rfl)
@[simp] theorem wr_pendingRecs (d : Dev) (r : Reg) (w j v : Nat) : (d.wr r w j v).pendingRecs = d.pendingRecs := (rfl)
@[simp] theorem wr_reset (d : Dev) (r : Reg) (w j v : Nat) : (d.wr r w j v).reset = d.reset := (rfl)
@[simp] theorem wr_health (d : Dev) (r : Reg) (w j v : Nat) : (d.wr r w j v).health = d.health := (rfl)
@[simp] theorem wr_stops (d : Dev) (r : Reg) (w j v : Nat) : (d.wr r w j v).stops = d.stops := (rfl)
@[simp] theorem wr_totals (d : Dev) (r : Reg) (w j v : Nat) : (d.wr r w j v).totals = d.totals := (rfl)
@[simp] theorem wr_eth (d : Dev) (r : Reg) (w j v : Nat) : (d.wr r w j v).eth = d.eth := (rfl)
@[simp] theorem wr_power (d : Dev) (r : Reg) (w j v : Nat) : (d.wr r w j v).power = d.power := (rfl)
@[simp] theorem wr_screen (d : Dev) (r : Reg) (w j v : Nat) : (d.wr r w j v).screen = d.screen := (rfl)
@[simp] theorem wr_boot (d : Dev) (r : Reg) (w j v : Nat) : (d.wr r w j v).boot = d.boot := (rfl)
@[simp] theorem wr_flash (d : Dev) (r : Reg) (w j v : Nat) : (d.wr r w j v).flash = d.flash := (rfl)
@[simp] theorem wr_pins (d : Dev) (r : Reg) (w j v : Nat) : (d.wr r w j v).pins = d.pins := (rfl)
@[simp] theorem wr_smbus (d : Dev) (r : Reg) (w j v : Nat) : (d.wr r w j v).smbus = d.smbus := (rfl)
@[simp] theorem wr_env (d : Dev) (r : Reg) (w j v : Nat) : (d.wr r w j v).env = d.env := (rfl)
@[simp] theorem wr_out (d : Dev) (r : Reg) (w j v : Nat) : (d.wr r w j v).out = d.out := (rfl)

@[simp] theorem setFld_mem (d : Dev) (x : Field) (w j v : Nat) : (d.setFld x w j v).mem = d.mem := (rfl)
@[simp] theorem setFld_rhk (d : Dev) (x : Field) (w j v : Nat) : (d.setFld x w j v).rhk = d.rhk := (rfl)
@[simp] theorem setFld_arrays (d : Dev) (x : Field) (w j v : Nat) : (d.setFld x w j v).arrays = d.arrays := (rfl)
@[simp] theorem setFld_cores (d : Dev) (x : Field) (w j v : Nat) : (d.setFld x w j v).cores = d.cores := (rfl)
@[simp] theorem setFld_ctxs (d : Dev) (x : Field) (w j v : Nat) : (d.setFld x w j v).ctxs = d.ctxs := (rfl)
@[simp] theorem setFld_rings (d : Dev) (x : Field) (w j v : Nat) : (d.setFld x w j v).rings = d.rings := (rfl)
@[simp] theorem setFld_eventMask (d : Dev) (x : Field) (w j v : Nat) : (d.setFld x w j v).eventMask = d.eventMask := (rfl)
@[simp] theorem setFld_eventSeq (d : Dev) (x : Field) (w j v : Nat) : (d.setFld x w j v).eventSeq = d.eventSeq := (rfl)
@[simp] theorem setFld_now (d : Dev) (x : Field) (w j v : Nat) : (d.setFld x w j v).now = d.now := (rfl)
@[simp] theorem setFld_fresh (d : Dev) (x : Field) (w j v : Nat) : (d.setFld x w j v).fresh = d.fresh := (rfl)
@[simp] theorem setFld_recSeq (d : Dev) (x : Field) (w j v : Nat) : (d.setFld x w j v).recSeq = d.recSeq := (rfl)
@[simp] theorem setFld_pendingRecs (d : Dev) (x : Field) (w j v : Nat) : (d.setFld x w j v).pendingRecs = d.pendingRecs := (rfl)
@[simp] theorem setFld_reset (d : Dev) (x : Field) (w j v : Nat) : (d.setFld x w j v).reset = d.reset := (rfl)
@[simp] theorem setFld_health (d : Dev) (x : Field) (w j v : Nat) : (d.setFld x w j v).health = d.health := (rfl)
@[simp] theorem setFld_stops (d : Dev) (x : Field) (w j v : Nat) : (d.setFld x w j v).stops = d.stops := (rfl)
@[simp] theorem setFld_totals (d : Dev) (x : Field) (w j v : Nat) : (d.setFld x w j v).totals = d.totals := (rfl)
@[simp] theorem setFld_eth (d : Dev) (x : Field) (w j v : Nat) : (d.setFld x w j v).eth = d.eth := (rfl)
@[simp] theorem setFld_power (d : Dev) (x : Field) (w j v : Nat) : (d.setFld x w j v).power = d.power := (rfl)
@[simp] theorem setFld_screen (d : Dev) (x : Field) (w j v : Nat) : (d.setFld x w j v).screen = d.screen := (rfl)
@[simp] theorem setFld_boot (d : Dev) (x : Field) (w j v : Nat) : (d.setFld x w j v).boot = d.boot := (rfl)
@[simp] theorem setFld_flash (d : Dev) (x : Field) (w j v : Nat) : (d.setFld x w j v).flash = d.flash := (rfl)
@[simp] theorem setFld_pins (d : Dev) (x : Field) (w j v : Nat) : (d.setFld x w j v).pins = d.pins := (rfl)
@[simp] theorem setFld_smbus (d : Dev) (x : Field) (w j v : Nat) : (d.setFld x w j v).smbus = d.smbus := (rfl)
@[simp] theorem setFld_env (d : Dev) (x : Field) (w j v : Nat) : (d.setFld x w j v).env = d.env := (rfl)
@[simp] theorem setFld_out (d : Dev) (x : Field) (w j v : Nat) : (d.setFld x w j v).out = d.out := (rfl)

@[simp] theorem raise_mem (d : Dev) (x : Field) (w j : Nat) : (d.raise x w j).mem = d.mem := (rfl)
@[simp] theorem raise_rhk (d : Dev) (x : Field) (w j : Nat) : (d.raise x w j).rhk = d.rhk := (rfl)
@[simp] theorem raise_arrays (d : Dev) (x : Field) (w j : Nat) : (d.raise x w j).arrays = d.arrays := (rfl)
@[simp] theorem raise_cores (d : Dev) (x : Field) (w j : Nat) : (d.raise x w j).cores = d.cores := (rfl)
@[simp] theorem raise_ctxs (d : Dev) (x : Field) (w j : Nat) : (d.raise x w j).ctxs = d.ctxs := (rfl)
@[simp] theorem raise_rings (d : Dev) (x : Field) (w j : Nat) : (d.raise x w j).rings = d.rings := (rfl)
@[simp] theorem raise_eventMask (d : Dev) (x : Field) (w j : Nat) : (d.raise x w j).eventMask = d.eventMask := (rfl)
@[simp] theorem raise_eventSeq (d : Dev) (x : Field) (w j : Nat) : (d.raise x w j).eventSeq = d.eventSeq := (rfl)
@[simp] theorem raise_now (d : Dev) (x : Field) (w j : Nat) : (d.raise x w j).now = d.now := (rfl)
@[simp] theorem raise_fresh (d : Dev) (x : Field) (w j : Nat) : (d.raise x w j).fresh = d.fresh := (rfl)
@[simp] theorem raise_recSeq (d : Dev) (x : Field) (w j : Nat) : (d.raise x w j).recSeq = d.recSeq := (rfl)
@[simp] theorem raise_pendingRecs (d : Dev) (x : Field) (w j : Nat) : (d.raise x w j).pendingRecs = d.pendingRecs := (rfl)
@[simp] theorem raise_reset (d : Dev) (x : Field) (w j : Nat) : (d.raise x w j).reset = d.reset := (rfl)
@[simp] theorem raise_health (d : Dev) (x : Field) (w j : Nat) : (d.raise x w j).health = d.health := (rfl)
@[simp] theorem raise_stops (d : Dev) (x : Field) (w j : Nat) : (d.raise x w j).stops = d.stops := (rfl)
@[simp] theorem raise_totals (d : Dev) (x : Field) (w j : Nat) : (d.raise x w j).totals = d.totals := (rfl)
@[simp] theorem raise_eth (d : Dev) (x : Field) (w j : Nat) : (d.raise x w j).eth = d.eth := (rfl)
@[simp] theorem raise_power (d : Dev) (x : Field) (w j : Nat) : (d.raise x w j).power = d.power := (rfl)
@[simp] theorem raise_screen (d : Dev) (x : Field) (w j : Nat) : (d.raise x w j).screen = d.screen := (rfl)
@[simp] theorem raise_boot (d : Dev) (x : Field) (w j : Nat) : (d.raise x w j).boot = d.boot := (rfl)
@[simp] theorem raise_flash (d : Dev) (x : Field) (w j : Nat) : (d.raise x w j).flash = d.flash := (rfl)
@[simp] theorem raise_pins (d : Dev) (x : Field) (w j : Nat) : (d.raise x w j).pins = d.pins := (rfl)
@[simp] theorem raise_smbus (d : Dev) (x : Field) (w j : Nat) : (d.raise x w j).smbus = d.smbus := (rfl)
@[simp] theorem raise_env (d : Dev) (x : Field) (w j : Nat) : (d.raise x w j).env = d.env := (rfl)
@[simp] theorem raise_out (d : Dev) (x : Field) (w j : Nat) : (d.raise x w j).out = d.out := (rfl)

@[simp] theorem bump_mem (d : Dev) (x : Field) (w j k : Nat) : (d.bump x w j k).mem = d.mem := (rfl)
@[simp] theorem bump_rhk (d : Dev) (x : Field) (w j k : Nat) : (d.bump x w j k).rhk = d.rhk := (rfl)
@[simp] theorem bump_arrays (d : Dev) (x : Field) (w j k : Nat) : (d.bump x w j k).arrays = d.arrays := (rfl)
@[simp] theorem bump_cores (d : Dev) (x : Field) (w j k : Nat) : (d.bump x w j k).cores = d.cores := (rfl)
@[simp] theorem bump_ctxs (d : Dev) (x : Field) (w j k : Nat) : (d.bump x w j k).ctxs = d.ctxs := (rfl)
@[simp] theorem bump_rings (d : Dev) (x : Field) (w j k : Nat) : (d.bump x w j k).rings = d.rings := (rfl)
@[simp] theorem bump_eventMask (d : Dev) (x : Field) (w j k : Nat) : (d.bump x w j k).eventMask = d.eventMask := (rfl)
@[simp] theorem bump_eventSeq (d : Dev) (x : Field) (w j k : Nat) : (d.bump x w j k).eventSeq = d.eventSeq := (rfl)
@[simp] theorem bump_now (d : Dev) (x : Field) (w j k : Nat) : (d.bump x w j k).now = d.now := (rfl)
@[simp] theorem bump_fresh (d : Dev) (x : Field) (w j k : Nat) : (d.bump x w j k).fresh = d.fresh := (rfl)
@[simp] theorem bump_recSeq (d : Dev) (x : Field) (w j k : Nat) : (d.bump x w j k).recSeq = d.recSeq := (rfl)
@[simp] theorem bump_pendingRecs (d : Dev) (x : Field) (w j k : Nat) : (d.bump x w j k).pendingRecs = d.pendingRecs := (rfl)
@[simp] theorem bump_reset (d : Dev) (x : Field) (w j k : Nat) : (d.bump x w j k).reset = d.reset := (rfl)
@[simp] theorem bump_health (d : Dev) (x : Field) (w j k : Nat) : (d.bump x w j k).health = d.health := (rfl)
@[simp] theorem bump_stops (d : Dev) (x : Field) (w j k : Nat) : (d.bump x w j k).stops = d.stops := (rfl)
@[simp] theorem bump_totals (d : Dev) (x : Field) (w j k : Nat) : (d.bump x w j k).totals = d.totals := (rfl)
@[simp] theorem bump_eth (d : Dev) (x : Field) (w j k : Nat) : (d.bump x w j k).eth = d.eth := (rfl)
@[simp] theorem bump_power (d : Dev) (x : Field) (w j k : Nat) : (d.bump x w j k).power = d.power := (rfl)
@[simp] theorem bump_screen (d : Dev) (x : Field) (w j k : Nat) : (d.bump x w j k).screen = d.screen := (rfl)
@[simp] theorem bump_boot (d : Dev) (x : Field) (w j k : Nat) : (d.bump x w j k).boot = d.boot := (rfl)
@[simp] theorem bump_flash (d : Dev) (x : Field) (w j k : Nat) : (d.bump x w j k).flash = d.flash := (rfl)
@[simp] theorem bump_pins (d : Dev) (x : Field) (w j k : Nat) : (d.bump x w j k).pins = d.pins := (rfl)
@[simp] theorem bump_smbus (d : Dev) (x : Field) (w j k : Nat) : (d.bump x w j k).smbus = d.smbus := (rfl)
@[simp] theorem bump_env (d : Dev) (x : Field) (w j k : Nat) : (d.bump x w j k).env = d.env := (rfl)
@[simp] theorem bump_out (d : Dev) (x : Field) (w j k : Nat) : (d.bump x w j k).out = d.out := (rfl)

@[simp] theorem setCore_regs (d : Dev) (c : Nat) (x : Core) : (d.setCore c x).regs = d.regs := (rfl)
@[simp] theorem setCore_mem (d : Dev) (c : Nat) (x : Core) : (d.setCore c x).mem = d.mem := (rfl)
@[simp] theorem setCore_rhk (d : Dev) (c : Nat) (x : Core) : (d.setCore c x).rhk = d.rhk := (rfl)
@[simp] theorem setCore_arrays (d : Dev) (c : Nat) (x : Core) : (d.setCore c x).arrays = d.arrays := (rfl)
@[simp] theorem setCore_ctxs (d : Dev) (c : Nat) (x : Core) : (d.setCore c x).ctxs = d.ctxs := (rfl)
@[simp] theorem setCore_rings (d : Dev) (c : Nat) (x : Core) : (d.setCore c x).rings = d.rings := (rfl)
@[simp] theorem setCore_eventMask (d : Dev) (c : Nat) (x : Core) : (d.setCore c x).eventMask = d.eventMask := (rfl)
@[simp] theorem setCore_eventSeq (d : Dev) (c : Nat) (x : Core) : (d.setCore c x).eventSeq = d.eventSeq := (rfl)
@[simp] theorem setCore_now (d : Dev) (c : Nat) (x : Core) : (d.setCore c x).now = d.now := (rfl)
@[simp] theorem setCore_fresh (d : Dev) (c : Nat) (x : Core) : (d.setCore c x).fresh = d.fresh := (rfl)
@[simp] theorem setCore_recSeq (d : Dev) (c : Nat) (x : Core) : (d.setCore c x).recSeq = d.recSeq := (rfl)
@[simp] theorem setCore_pendingRecs (d : Dev) (c : Nat) (x : Core) : (d.setCore c x).pendingRecs = d.pendingRecs := (rfl)
@[simp] theorem setCore_reset (d : Dev) (c : Nat) (x : Core) : (d.setCore c x).reset = d.reset := (rfl)
@[simp] theorem setCore_health (d : Dev) (c : Nat) (x : Core) : (d.setCore c x).health = d.health := (rfl)
@[simp] theorem setCore_stops (d : Dev) (c : Nat) (x : Core) : (d.setCore c x).stops = d.stops := (rfl)
@[simp] theorem setCore_totals (d : Dev) (c : Nat) (x : Core) : (d.setCore c x).totals = d.totals := (rfl)
@[simp] theorem setCore_eth (d : Dev) (c : Nat) (x : Core) : (d.setCore c x).eth = d.eth := (rfl)
@[simp] theorem setCore_power (d : Dev) (c : Nat) (x : Core) : (d.setCore c x).power = d.power := (rfl)
@[simp] theorem setCore_screen (d : Dev) (c : Nat) (x : Core) : (d.setCore c x).screen = d.screen := (rfl)
@[simp] theorem setCore_boot (d : Dev) (c : Nat) (x : Core) : (d.setCore c x).boot = d.boot := (rfl)
@[simp] theorem setCore_flash (d : Dev) (c : Nat) (x : Core) : (d.setCore c x).flash = d.flash := (rfl)
@[simp] theorem setCore_pins (d : Dev) (c : Nat) (x : Core) : (d.setCore c x).pins = d.pins := (rfl)
@[simp] theorem setCore_smbus (d : Dev) (c : Nat) (x : Core) : (d.setCore c x).smbus = d.smbus := (rfl)
@[simp] theorem setCore_env (d : Dev) (c : Nat) (x : Core) : (d.setCore c x).env = d.env := (rfl)
@[simp] theorem setCore_out (d : Dev) (c : Nat) (x : Core) : (d.setCore c x).out = d.out := (rfl)

@[simp] theorem setArray_regs (d : Dev) (a : Nat) (x : DArray) : (d.setArray a x).regs = d.regs := (rfl)
@[simp] theorem setArray_mem (d : Dev) (a : Nat) (x : DArray) : (d.setArray a x).mem = d.mem := (rfl)
@[simp] theorem setArray_rhk (d : Dev) (a : Nat) (x : DArray) : (d.setArray a x).rhk = d.rhk := (rfl)
@[simp] theorem setArray_cores (d : Dev) (a : Nat) (x : DArray) : (d.setArray a x).cores = d.cores := (rfl)
@[simp] theorem setArray_ctxs (d : Dev) (a : Nat) (x : DArray) : (d.setArray a x).ctxs = d.ctxs := (rfl)
@[simp] theorem setArray_rings (d : Dev) (a : Nat) (x : DArray) : (d.setArray a x).rings = d.rings := (rfl)
@[simp] theorem setArray_eventMask (d : Dev) (a : Nat) (x : DArray) : (d.setArray a x).eventMask = d.eventMask := (rfl)
@[simp] theorem setArray_eventSeq (d : Dev) (a : Nat) (x : DArray) : (d.setArray a x).eventSeq = d.eventSeq := (rfl)
@[simp] theorem setArray_now (d : Dev) (a : Nat) (x : DArray) : (d.setArray a x).now = d.now := (rfl)
@[simp] theorem setArray_fresh (d : Dev) (a : Nat) (x : DArray) : (d.setArray a x).fresh = d.fresh := (rfl)
@[simp] theorem setArray_recSeq (d : Dev) (a : Nat) (x : DArray) : (d.setArray a x).recSeq = d.recSeq := (rfl)
@[simp] theorem setArray_pendingRecs (d : Dev) (a : Nat) (x : DArray) : (d.setArray a x).pendingRecs = d.pendingRecs := (rfl)
@[simp] theorem setArray_reset (d : Dev) (a : Nat) (x : DArray) : (d.setArray a x).reset = d.reset := (rfl)
@[simp] theorem setArray_health (d : Dev) (a : Nat) (x : DArray) : (d.setArray a x).health = d.health := (rfl)
@[simp] theorem setArray_stops (d : Dev) (a : Nat) (x : DArray) : (d.setArray a x).stops = d.stops := (rfl)
@[simp] theorem setArray_totals (d : Dev) (a : Nat) (x : DArray) : (d.setArray a x).totals = d.totals := (rfl)
@[simp] theorem setArray_eth (d : Dev) (a : Nat) (x : DArray) : (d.setArray a x).eth = d.eth := (rfl)
@[simp] theorem setArray_power (d : Dev) (a : Nat) (x : DArray) : (d.setArray a x).power = d.power := (rfl)
@[simp] theorem setArray_screen (d : Dev) (a : Nat) (x : DArray) : (d.setArray a x).screen = d.screen := (rfl)
@[simp] theorem setArray_boot (d : Dev) (a : Nat) (x : DArray) : (d.setArray a x).boot = d.boot := (rfl)
@[simp] theorem setArray_flash (d : Dev) (a : Nat) (x : DArray) : (d.setArray a x).flash = d.flash := (rfl)
@[simp] theorem setArray_pins (d : Dev) (a : Nat) (x : DArray) : (d.setArray a x).pins = d.pins := (rfl)
@[simp] theorem setArray_smbus (d : Dev) (a : Nat) (x : DArray) : (d.setArray a x).smbus = d.smbus := (rfl)
@[simp] theorem setArray_env (d : Dev) (a : Nat) (x : DArray) : (d.setArray a x).env = d.env := (rfl)
@[simp] theorem setArray_out (d : Dev) (a : Nat) (x : DArray) : (d.setArray a x).out = d.out := (rfl)

@[simp] theorem setCtx_regs (d : Dev) (n : Nat) (x : Ctx) : (d.setCtx n x).regs = d.regs := (rfl)
@[simp] theorem setCtx_mem (d : Dev) (n : Nat) (x : Ctx) : (d.setCtx n x).mem = d.mem := (rfl)
@[simp] theorem setCtx_rhk (d : Dev) (n : Nat) (x : Ctx) : (d.setCtx n x).rhk = d.rhk := (rfl)
@[simp] theorem setCtx_arrays (d : Dev) (n : Nat) (x : Ctx) : (d.setCtx n x).arrays = d.arrays := (rfl)
@[simp] theorem setCtx_cores (d : Dev) (n : Nat) (x : Ctx) : (d.setCtx n x).cores = d.cores := (rfl)
@[simp] theorem setCtx_rings (d : Dev) (n : Nat) (x : Ctx) : (d.setCtx n x).rings = d.rings := (rfl)
@[simp] theorem setCtx_eventMask (d : Dev) (n : Nat) (x : Ctx) : (d.setCtx n x).eventMask = d.eventMask := (rfl)
@[simp] theorem setCtx_eventSeq (d : Dev) (n : Nat) (x : Ctx) : (d.setCtx n x).eventSeq = d.eventSeq := (rfl)
@[simp] theorem setCtx_now (d : Dev) (n : Nat) (x : Ctx) : (d.setCtx n x).now = d.now := (rfl)
@[simp] theorem setCtx_fresh (d : Dev) (n : Nat) (x : Ctx) : (d.setCtx n x).fresh = d.fresh := (rfl)
@[simp] theorem setCtx_recSeq (d : Dev) (n : Nat) (x : Ctx) : (d.setCtx n x).recSeq = d.recSeq := (rfl)
@[simp] theorem setCtx_pendingRecs (d : Dev) (n : Nat) (x : Ctx) : (d.setCtx n x).pendingRecs = d.pendingRecs := (rfl)
@[simp] theorem setCtx_reset (d : Dev) (n : Nat) (x : Ctx) : (d.setCtx n x).reset = d.reset := (rfl)
@[simp] theorem setCtx_health (d : Dev) (n : Nat) (x : Ctx) : (d.setCtx n x).health = d.health := (rfl)
@[simp] theorem setCtx_stops (d : Dev) (n : Nat) (x : Ctx) : (d.setCtx n x).stops = d.stops := (rfl)
@[simp] theorem setCtx_totals (d : Dev) (n : Nat) (x : Ctx) : (d.setCtx n x).totals = d.totals := (rfl)
@[simp] theorem setCtx_eth (d : Dev) (n : Nat) (x : Ctx) : (d.setCtx n x).eth = d.eth := (rfl)
@[simp] theorem setCtx_power (d : Dev) (n : Nat) (x : Ctx) : (d.setCtx n x).power = d.power := (rfl)
@[simp] theorem setCtx_screen (d : Dev) (n : Nat) (x : Ctx) : (d.setCtx n x).screen = d.screen := (rfl)
@[simp] theorem setCtx_boot (d : Dev) (n : Nat) (x : Ctx) : (d.setCtx n x).boot = d.boot := (rfl)
@[simp] theorem setCtx_flash (d : Dev) (n : Nat) (x : Ctx) : (d.setCtx n x).flash = d.flash := (rfl)
@[simp] theorem setCtx_pins (d : Dev) (n : Nat) (x : Ctx) : (d.setCtx n x).pins = d.pins := (rfl)
@[simp] theorem setCtx_smbus (d : Dev) (n : Nat) (x : Ctx) : (d.setCtx n x).smbus = d.smbus := (rfl)
@[simp] theorem setCtx_env (d : Dev) (n : Nat) (x : Ctx) : (d.setCtx n x).env = d.env := (rfl)
@[simp] theorem setCtx_out (d : Dev) (n : Nat) (x : Ctx) : (d.setCtx n x).out = d.out := (rfl)

@[simp] theorem setRing_regs (d : Dev) (c : Nat) (x : Ring) : (d.setRing c x).regs = d.regs := (rfl)
@[simp] theorem setRing_mem (d : Dev) (c : Nat) (x : Ring) : (d.setRing c x).mem = d.mem := (rfl)
@[simp] theorem setRing_rhk (d : Dev) (c : Nat) (x : Ring) : (d.setRing c x).rhk = d.rhk := (rfl)
@[simp] theorem setRing_arrays (d : Dev) (c : Nat) (x : Ring) : (d.setRing c x).arrays = d.arrays := (rfl)
@[simp] theorem setRing_cores (d : Dev) (c : Nat) (x : Ring) : (d.setRing c x).cores = d.cores := (rfl)
@[simp] theorem setRing_ctxs (d : Dev) (c : Nat) (x : Ring) : (d.setRing c x).ctxs = d.ctxs := (rfl)
@[simp] theorem setRing_eventMask (d : Dev) (c : Nat) (x : Ring) : (d.setRing c x).eventMask = d.eventMask := (rfl)
@[simp] theorem setRing_eventSeq (d : Dev) (c : Nat) (x : Ring) : (d.setRing c x).eventSeq = d.eventSeq := (rfl)
@[simp] theorem setRing_now (d : Dev) (c : Nat) (x : Ring) : (d.setRing c x).now = d.now := (rfl)
@[simp] theorem setRing_fresh (d : Dev) (c : Nat) (x : Ring) : (d.setRing c x).fresh = d.fresh := (rfl)
@[simp] theorem setRing_recSeq (d : Dev) (c : Nat) (x : Ring) : (d.setRing c x).recSeq = d.recSeq := (rfl)
@[simp] theorem setRing_pendingRecs (d : Dev) (c : Nat) (x : Ring) : (d.setRing c x).pendingRecs = d.pendingRecs := (rfl)
@[simp] theorem setRing_reset (d : Dev) (c : Nat) (x : Ring) : (d.setRing c x).reset = d.reset := (rfl)
@[simp] theorem setRing_health (d : Dev) (c : Nat) (x : Ring) : (d.setRing c x).health = d.health := (rfl)
@[simp] theorem setRing_stops (d : Dev) (c : Nat) (x : Ring) : (d.setRing c x).stops = d.stops := (rfl)
@[simp] theorem setRing_totals (d : Dev) (c : Nat) (x : Ring) : (d.setRing c x).totals = d.totals := (rfl)
@[simp] theorem setRing_eth (d : Dev) (c : Nat) (x : Ring) : (d.setRing c x).eth = d.eth := (rfl)
@[simp] theorem setRing_power (d : Dev) (c : Nat) (x : Ring) : (d.setRing c x).power = d.power := (rfl)
@[simp] theorem setRing_screen (d : Dev) (c : Nat) (x : Ring) : (d.setRing c x).screen = d.screen := (rfl)
@[simp] theorem setRing_boot (d : Dev) (c : Nat) (x : Ring) : (d.setRing c x).boot = d.boot := (rfl)
@[simp] theorem setRing_flash (d : Dev) (c : Nat) (x : Ring) : (d.setRing c x).flash = d.flash := (rfl)
@[simp] theorem setRing_pins (d : Dev) (c : Nat) (x : Ring) : (d.setRing c x).pins = d.pins := (rfl)
@[simp] theorem setRing_smbus (d : Dev) (c : Nat) (x : Ring) : (d.setRing c x).smbus = d.smbus := (rfl)
@[simp] theorem setRing_env (d : Dev) (c : Nat) (x : Ring) : (d.setRing c x).env = d.env := (rfl)
@[simp] theorem setRing_out (d : Dev) (c : Nat) (x : Ring) : (d.setRing c x).out = d.out := (rfl)

@[simp] theorem onMem_regs (d : Dev) (f : MemSys → MemSys) : (d.onMem f).regs = d.regs := (rfl)
@[simp] theorem onMem_rhk (d : Dev) (f : MemSys → MemSys) : (d.onMem f).rhk = d.rhk := (rfl)
@[simp] theorem onMem_arrays (d : Dev) (f : MemSys → MemSys) : (d.onMem f).arrays = d.arrays := (rfl)
@[simp] theorem onMem_cores (d : Dev) (f : MemSys → MemSys) : (d.onMem f).cores = d.cores := (rfl)
@[simp] theorem onMem_ctxs (d : Dev) (f : MemSys → MemSys) : (d.onMem f).ctxs = d.ctxs := (rfl)
@[simp] theorem onMem_rings (d : Dev) (f : MemSys → MemSys) : (d.onMem f).rings = d.rings := (rfl)
@[simp] theorem onMem_eventMask (d : Dev) (f : MemSys → MemSys) : (d.onMem f).eventMask = d.eventMask := (rfl)
@[simp] theorem onMem_eventSeq (d : Dev) (f : MemSys → MemSys) : (d.onMem f).eventSeq = d.eventSeq := (rfl)
@[simp] theorem onMem_now (d : Dev) (f : MemSys → MemSys) : (d.onMem f).now = d.now := (rfl)
@[simp] theorem onMem_fresh (d : Dev) (f : MemSys → MemSys) : (d.onMem f).fresh = d.fresh := (rfl)
@[simp] theorem onMem_recSeq (d : Dev) (f : MemSys → MemSys) : (d.onMem f).recSeq = d.recSeq := (rfl)
@[simp] theorem onMem_pendingRecs (d : Dev) (f : MemSys → MemSys) : (d.onMem f).pendingRecs = d.pendingRecs := (rfl)
@[simp] theorem onMem_reset (d : Dev) (f : MemSys → MemSys) : (d.onMem f).reset = d.reset := (rfl)
@[simp] theorem onMem_health (d : Dev) (f : MemSys → MemSys) : (d.onMem f).health = d.health := (rfl)
@[simp] theorem onMem_stops (d : Dev) (f : MemSys → MemSys) : (d.onMem f).stops = d.stops := (rfl)
@[simp] theorem onMem_totals (d : Dev) (f : MemSys → MemSys) : (d.onMem f).totals = d.totals := (rfl)
@[simp] theorem onMem_eth (d : Dev) (f : MemSys → MemSys) : (d.onMem f).eth = d.eth := (rfl)
@[simp] theorem onMem_power (d : Dev) (f : MemSys → MemSys) : (d.onMem f).power = d.power := (rfl)
@[simp] theorem onMem_screen (d : Dev) (f : MemSys → MemSys) : (d.onMem f).screen = d.screen := (rfl)
@[simp] theorem onMem_boot (d : Dev) (f : MemSys → MemSys) : (d.onMem f).boot = d.boot := (rfl)
@[simp] theorem onMem_flash (d : Dev) (f : MemSys → MemSys) : (d.onMem f).flash = d.flash := (rfl)
@[simp] theorem onMem_pins (d : Dev) (f : MemSys → MemSys) : (d.onMem f).pins = d.pins := (rfl)
@[simp] theorem onMem_smbus (d : Dev) (f : MemSys → MemSys) : (d.onMem f).smbus = d.smbus := (rfl)
@[simp] theorem onMem_env (d : Dev) (f : MemSys → MemSys) : (d.onMem f).env = d.env := (rfl)
@[simp] theorem onMem_out (d : Dev) (f : MemSys → MemSys) : (d.onMem f).out = d.out := (rfl)

@[simp] theorem emit_regs (d : Dev) (o : Out) : (d.emit o).regs = d.regs := (rfl)
@[simp] theorem emit_mem (d : Dev) (o : Out) : (d.emit o).mem = d.mem := (rfl)
@[simp] theorem emit_rhk (d : Dev) (o : Out) : (d.emit o).rhk = d.rhk := (rfl)
@[simp] theorem emit_arrays (d : Dev) (o : Out) : (d.emit o).arrays = d.arrays := (rfl)
@[simp] theorem emit_cores (d : Dev) (o : Out) : (d.emit o).cores = d.cores := (rfl)
@[simp] theorem emit_ctxs (d : Dev) (o : Out) : (d.emit o).ctxs = d.ctxs := (rfl)
@[simp] theorem emit_rings (d : Dev) (o : Out) : (d.emit o).rings = d.rings := (rfl)
@[simp] theorem emit_eventMask (d : Dev) (o : Out) : (d.emit o).eventMask = d.eventMask := (rfl)
@[simp] theorem emit_eventSeq (d : Dev) (o : Out) : (d.emit o).eventSeq = d.eventSeq := (rfl)
@[simp] theorem emit_now (d : Dev) (o : Out) : (d.emit o).now = d.now := (rfl)
@[simp] theorem emit_fresh (d : Dev) (o : Out) : (d.emit o).fresh = d.fresh := (rfl)
@[simp] theorem emit_recSeq (d : Dev) (o : Out) : (d.emit o).recSeq = d.recSeq := (rfl)
@[simp] theorem emit_pendingRecs (d : Dev) (o : Out) : (d.emit o).pendingRecs = d.pendingRecs := (rfl)
@[simp] theorem emit_reset (d : Dev) (o : Out) : (d.emit o).reset = d.reset := (rfl)
@[simp] theorem emit_health (d : Dev) (o : Out) : (d.emit o).health = d.health := (rfl)
@[simp] theorem emit_stops (d : Dev) (o : Out) : (d.emit o).stops = d.stops := (rfl)
@[simp] theorem emit_totals (d : Dev) (o : Out) : (d.emit o).totals = d.totals := (rfl)
@[simp] theorem emit_eth (d : Dev) (o : Out) : (d.emit o).eth = d.eth := (rfl)
@[simp] theorem emit_power (d : Dev) (o : Out) : (d.emit o).power = d.power := (rfl)
@[simp] theorem emit_screen (d : Dev) (o : Out) : (d.emit o).screen = d.screen := (rfl)
@[simp] theorem emit_boot (d : Dev) (o : Out) : (d.emit o).boot = d.boot := (rfl)
@[simp] theorem emit_flash (d : Dev) (o : Out) : (d.emit o).flash = d.flash := (rfl)
@[simp] theorem emit_pins (d : Dev) (o : Out) : (d.emit o).pins = d.pins := (rfl)
@[simp] theorem emit_smbus (d : Dev) (o : Out) : (d.emit o).smbus = d.smbus := (rfl)
@[simp] theorem emit_env (d : Dev) (o : Out) : (d.emit o).env = d.env := (rfl)

@[simp] theorem onEth_regs (d : Dev) (f : Eth → Eth) : (d.onEth f).regs = d.regs := (rfl)
@[simp] theorem onEth_mem (d : Dev) (f : Eth → Eth) : (d.onEth f).mem = d.mem := (rfl)
@[simp] theorem onEth_rhk (d : Dev) (f : Eth → Eth) : (d.onEth f).rhk = d.rhk := (rfl)
@[simp] theorem onEth_arrays (d : Dev) (f : Eth → Eth) : (d.onEth f).arrays = d.arrays := (rfl)
@[simp] theorem onEth_cores (d : Dev) (f : Eth → Eth) : (d.onEth f).cores = d.cores := (rfl)
@[simp] theorem onEth_ctxs (d : Dev) (f : Eth → Eth) : (d.onEth f).ctxs = d.ctxs := (rfl)
@[simp] theorem onEth_rings (d : Dev) (f : Eth → Eth) : (d.onEth f).rings = d.rings := (rfl)
@[simp] theorem onEth_eventMask (d : Dev) (f : Eth → Eth) : (d.onEth f).eventMask = d.eventMask := (rfl)
@[simp] theorem onEth_eventSeq (d : Dev) (f : Eth → Eth) : (d.onEth f).eventSeq = d.eventSeq := (rfl)
@[simp] theorem onEth_now (d : Dev) (f : Eth → Eth) : (d.onEth f).now = d.now := (rfl)
@[simp] theorem onEth_fresh (d : Dev) (f : Eth → Eth) : (d.onEth f).fresh = d.fresh := (rfl)
@[simp] theorem onEth_recSeq (d : Dev) (f : Eth → Eth) : (d.onEth f).recSeq = d.recSeq := (rfl)
@[simp] theorem onEth_pendingRecs (d : Dev) (f : Eth → Eth) : (d.onEth f).pendingRecs = d.pendingRecs := (rfl)
@[simp] theorem onEth_reset (d : Dev) (f : Eth → Eth) : (d.onEth f).reset = d.reset := (rfl)
@[simp] theorem onEth_health (d : Dev) (f : Eth → Eth) : (d.onEth f).health = d.health := (rfl)
@[simp] theorem onEth_stops (d : Dev) (f : Eth → Eth) : (d.onEth f).stops = d.stops := (rfl)
@[simp] theorem onEth_totals (d : Dev) (f : Eth → Eth) : (d.onEth f).totals = d.totals := (rfl)
@[simp] theorem onEth_power (d : Dev) (f : Eth → Eth) : (d.onEth f).power = d.power := (rfl)
@[simp] theorem onEth_screen (d : Dev) (f : Eth → Eth) : (d.onEth f).screen = d.screen := (rfl)
@[simp] theorem onEth_boot (d : Dev) (f : Eth → Eth) : (d.onEth f).boot = d.boot := (rfl)
@[simp] theorem onEth_flash (d : Dev) (f : Eth → Eth) : (d.onEth f).flash = d.flash := (rfl)
@[simp] theorem onEth_pins (d : Dev) (f : Eth → Eth) : (d.onEth f).pins = d.pins := (rfl)
@[simp] theorem onEth_smbus (d : Dev) (f : Eth → Eth) : (d.onEth f).smbus = d.smbus := (rfl)
@[simp] theorem onEth_env (d : Dev) (f : Eth → Eth) : (d.onEth f).env = d.env := (rfl)
@[simp] theorem onEth_out (d : Dev) (f : Eth → Eth) : (d.onEth f).out = d.out := (rfl)

@[simp] theorem onPins_regs (d : Dev) (f : Pins → Pins) : (d.onPins f).regs = d.regs := (rfl)
@[simp] theorem onPins_mem (d : Dev) (f : Pins → Pins) : (d.onPins f).mem = d.mem := (rfl)
@[simp] theorem onPins_rhk (d : Dev) (f : Pins → Pins) : (d.onPins f).rhk = d.rhk := (rfl)
@[simp] theorem onPins_arrays (d : Dev) (f : Pins → Pins) : (d.onPins f).arrays = d.arrays := (rfl)
@[simp] theorem onPins_cores (d : Dev) (f : Pins → Pins) : (d.onPins f).cores = d.cores := (rfl)
@[simp] theorem onPins_ctxs (d : Dev) (f : Pins → Pins) : (d.onPins f).ctxs = d.ctxs := (rfl)
@[simp] theorem onPins_rings (d : Dev) (f : Pins → Pins) : (d.onPins f).rings = d.rings := (rfl)
@[simp] theorem onPins_eventMask (d : Dev) (f : Pins → Pins) : (d.onPins f).eventMask = d.eventMask := (rfl)
@[simp] theorem onPins_eventSeq (d : Dev) (f : Pins → Pins) : (d.onPins f).eventSeq = d.eventSeq := (rfl)
@[simp] theorem onPins_now (d : Dev) (f : Pins → Pins) : (d.onPins f).now = d.now := (rfl)
@[simp] theorem onPins_fresh (d : Dev) (f : Pins → Pins) : (d.onPins f).fresh = d.fresh := (rfl)
@[simp] theorem onPins_recSeq (d : Dev) (f : Pins → Pins) : (d.onPins f).recSeq = d.recSeq := (rfl)
@[simp] theorem onPins_pendingRecs (d : Dev) (f : Pins → Pins) : (d.onPins f).pendingRecs = d.pendingRecs := (rfl)
@[simp] theorem onPins_reset (d : Dev) (f : Pins → Pins) : (d.onPins f).reset = d.reset := (rfl)
@[simp] theorem onPins_health (d : Dev) (f : Pins → Pins) : (d.onPins f).health = d.health := (rfl)
@[simp] theorem onPins_stops (d : Dev) (f : Pins → Pins) : (d.onPins f).stops = d.stops := (rfl)
@[simp] theorem onPins_totals (d : Dev) (f : Pins → Pins) : (d.onPins f).totals = d.totals := (rfl)
@[simp] theorem onPins_eth (d : Dev) (f : Pins → Pins) : (d.onPins f).eth = d.eth := (rfl)
@[simp] theorem onPins_power (d : Dev) (f : Pins → Pins) : (d.onPins f).power = d.power := (rfl)
@[simp] theorem onPins_screen (d : Dev) (f : Pins → Pins) : (d.onPins f).screen = d.screen := (rfl)
@[simp] theorem onPins_boot (d : Dev) (f : Pins → Pins) : (d.onPins f).boot = d.boot := (rfl)
@[simp] theorem onPins_flash (d : Dev) (f : Pins → Pins) : (d.onPins f).flash = d.flash := (rfl)
@[simp] theorem onPins_smbus (d : Dev) (f : Pins → Pins) : (d.onPins f).smbus = d.smbus := (rfl)
@[simp] theorem onPins_env (d : Dev) (f : Pins → Pins) : (d.onPins f).env = d.env := (rfl)
@[simp] theorem onPins_out (d : Dev) (f : Pins → Pins) : (d.onPins f).out = d.out := (rfl)

@[simp] theorem onSmb_regs (d : Dev) (f : SmBus → SmBus) : (d.onSmb f).regs = d.regs := (rfl)
@[simp] theorem onSmb_mem (d : Dev) (f : SmBus → SmBus) : (d.onSmb f).mem = d.mem := (rfl)
@[simp] theorem onSmb_rhk (d : Dev) (f : SmBus → SmBus) : (d.onSmb f).rhk = d.rhk := (rfl)
@[simp] theorem onSmb_arrays (d : Dev) (f : SmBus → SmBus) : (d.onSmb f).arrays = d.arrays := (rfl)
@[simp] theorem onSmb_cores (d : Dev) (f : SmBus → SmBus) : (d.onSmb f).cores = d.cores := (rfl)
@[simp] theorem onSmb_ctxs (d : Dev) (f : SmBus → SmBus) : (d.onSmb f).ctxs = d.ctxs := (rfl)
@[simp] theorem onSmb_rings (d : Dev) (f : SmBus → SmBus) : (d.onSmb f).rings = d.rings := (rfl)
@[simp] theorem onSmb_eventMask (d : Dev) (f : SmBus → SmBus) : (d.onSmb f).eventMask = d.eventMask := (rfl)
@[simp] theorem onSmb_eventSeq (d : Dev) (f : SmBus → SmBus) : (d.onSmb f).eventSeq = d.eventSeq := (rfl)
@[simp] theorem onSmb_now (d : Dev) (f : SmBus → SmBus) : (d.onSmb f).now = d.now := (rfl)
@[simp] theorem onSmb_fresh (d : Dev) (f : SmBus → SmBus) : (d.onSmb f).fresh = d.fresh := (rfl)
@[simp] theorem onSmb_recSeq (d : Dev) (f : SmBus → SmBus) : (d.onSmb f).recSeq = d.recSeq := (rfl)
@[simp] theorem onSmb_pendingRecs (d : Dev) (f : SmBus → SmBus) : (d.onSmb f).pendingRecs = d.pendingRecs := (rfl)
@[simp] theorem onSmb_reset (d : Dev) (f : SmBus → SmBus) : (d.onSmb f).reset = d.reset := (rfl)
@[simp] theorem onSmb_health (d : Dev) (f : SmBus → SmBus) : (d.onSmb f).health = d.health := (rfl)
@[simp] theorem onSmb_stops (d : Dev) (f : SmBus → SmBus) : (d.onSmb f).stops = d.stops := (rfl)
@[simp] theorem onSmb_totals (d : Dev) (f : SmBus → SmBus) : (d.onSmb f).totals = d.totals := (rfl)
@[simp] theorem onSmb_eth (d : Dev) (f : SmBus → SmBus) : (d.onSmb f).eth = d.eth := (rfl)
@[simp] theorem onSmb_power (d : Dev) (f : SmBus → SmBus) : (d.onSmb f).power = d.power := (rfl)
@[simp] theorem onSmb_screen (d : Dev) (f : SmBus → SmBus) : (d.onSmb f).screen = d.screen := (rfl)
@[simp] theorem onSmb_boot (d : Dev) (f : SmBus → SmBus) : (d.onSmb f).boot = d.boot := (rfl)
@[simp] theorem onSmb_flash (d : Dev) (f : SmBus → SmBus) : (d.onSmb f).flash = d.flash := (rfl)
@[simp] theorem onSmb_pins (d : Dev) (f : SmBus → SmBus) : (d.onSmb f).pins = d.pins := (rfl)
@[simp] theorem onSmb_env (d : Dev) (f : SmBus → SmBus) : (d.onSmb f).env = d.env := (rfl)
@[simp] theorem onSmb_out (d : Dev) (f : SmBus → SmBus) : (d.onSmb f).out = d.out := (rfl)

@[simp] theorem setPort_regs (d : Dev) (p : Nat) (x : RhkPort) : (d.setPort p x).regs = d.regs := (rfl)
@[simp] theorem setPort_mem (d : Dev) (p : Nat) (x : RhkPort) : (d.setPort p x).mem = d.mem := (rfl)
@[simp] theorem setPort_arrays (d : Dev) (p : Nat) (x : RhkPort) : (d.setPort p x).arrays = d.arrays := (rfl)
@[simp] theorem setPort_cores (d : Dev) (p : Nat) (x : RhkPort) : (d.setPort p x).cores = d.cores := (rfl)
@[simp] theorem setPort_ctxs (d : Dev) (p : Nat) (x : RhkPort) : (d.setPort p x).ctxs = d.ctxs := (rfl)
@[simp] theorem setPort_rings (d : Dev) (p : Nat) (x : RhkPort) : (d.setPort p x).rings = d.rings := (rfl)
@[simp] theorem setPort_eventMask (d : Dev) (p : Nat) (x : RhkPort) : (d.setPort p x).eventMask = d.eventMask := (rfl)
@[simp] theorem setPort_eventSeq (d : Dev) (p : Nat) (x : RhkPort) : (d.setPort p x).eventSeq = d.eventSeq := (rfl)
@[simp] theorem setPort_now (d : Dev) (p : Nat) (x : RhkPort) : (d.setPort p x).now = d.now := (rfl)
@[simp] theorem setPort_fresh (d : Dev) (p : Nat) (x : RhkPort) : (d.setPort p x).fresh = d.fresh := (rfl)
@[simp] theorem setPort_recSeq (d : Dev) (p : Nat) (x : RhkPort) : (d.setPort p x).recSeq = d.recSeq := (rfl)
@[simp] theorem setPort_pendingRecs (d : Dev) (p : Nat) (x : RhkPort) : (d.setPort p x).pendingRecs = d.pendingRecs := (rfl)
@[simp] theorem setPort_reset (d : Dev) (p : Nat) (x : RhkPort) : (d.setPort p x).reset = d.reset := (rfl)
@[simp] theorem setPort_health (d : Dev) (p : Nat) (x : RhkPort) : (d.setPort p x).health = d.health := (rfl)
@[simp] theorem setPort_stops (d : Dev) (p : Nat) (x : RhkPort) : (d.setPort p x).stops = d.stops := (rfl)
@[simp] theorem setPort_totals (d : Dev) (p : Nat) (x : RhkPort) : (d.setPort p x).totals = d.totals := (rfl)
@[simp] theorem setPort_eth (d : Dev) (p : Nat) (x : RhkPort) : (d.setPort p x).eth = d.eth := (rfl)
@[simp] theorem setPort_power (d : Dev) (p : Nat) (x : RhkPort) : (d.setPort p x).power = d.power := (rfl)
@[simp] theorem setPort_screen (d : Dev) (p : Nat) (x : RhkPort) : (d.setPort p x).screen = d.screen := (rfl)
@[simp] theorem setPort_boot (d : Dev) (p : Nat) (x : RhkPort) : (d.setPort p x).boot = d.boot := (rfl)
@[simp] theorem setPort_flash (d : Dev) (p : Nat) (x : RhkPort) : (d.setPort p x).flash = d.flash := (rfl)
@[simp] theorem setPort_pins (d : Dev) (p : Nat) (x : RhkPort) : (d.setPort p x).pins = d.pins := (rfl)
@[simp] theorem setPort_smbus (d : Dev) (p : Nat) (x : RhkPort) : (d.setPort p x).smbus = d.smbus := (rfl)
@[simp] theorem setPort_env (d : Dev) (p : Nat) (x : RhkPort) : (d.setPort p x).env = d.env := (rfl)
@[simp] theorem setPort_out (d : Dev) (p : Nat) (x : RhkPort) : (d.setPort p x).out = d.out := (rfl)

/-! ### What is read after an update -/

@[simp] theorem core_setCore (d : Dev) (c : Nat) (x : Core) : (d.setCore c x).core c = x := by simp [core, setCore]

theorem core_setCore_other (d : Dev) {c k : Nat} (x : Core) (h : k ≠ c) : (d.setCore c x).core k = d.core k := by
  simp [core, setCore, Sp.get_set_other _ _ _ h]

@[simp] theorem array_setArray (d : Dev) (a : Nat) (x : DArray) : (d.setArray a x).array a = x := by simp [array, setArray]

theorem array_setArray_other (d : Dev) {a k : Nat} (x : DArray) (h : k ≠ a) : (d.setArray a x).array k = d.array k := by
  simp [array, setArray, Sp.get_set_other _ _ _ h]

@[simp] theorem ctx_setCtx (d : Dev) (n : Nat) (x : Ctx) : (d.setCtx n x).ctx n = x := by simp [ctx, setCtx]

theorem ctx_setCtx_other (d : Dev) {n k : Nat} (x : Ctx) (h : k ≠ n) : (d.setCtx n x).ctx k = d.ctx k := by
  simp [ctx, setCtx, Sp.get_set_other _ _ _ h]

@[simp] theorem ring_setRing (d : Dev) (c : Nat) (x : Ring) : (d.setRing c x).ring c = x := by simp [ring, setRing]

theorem ring_setRing_other (d : Dev) {c k : Nat} (x : Ring) (h : k ≠ c) : (d.setRing c x).ring k = d.ring k := by
  simp [ring, setRing, Sp.get_set_other _ _ _ h]

@[simp] theorem port_setPort (d : Dev) (p : Nat) (x : RhkPort) : (d.setPort p x).port p = x := by simp [port, setPort]

theorem port_setPort_other (d : Dev) {p k : Nat} (x : RhkPort) (h : k ≠ p) : (d.setPort p x).port k = d.port k := by
  simp [port, setPort, Sp.get_set_other _ _ _ h]

@[simp] theorem cell_setCell (d : Dev) (a : Nat) (b : Byte) : (d.setCell a b).cell a = b := by simp [cell, setCell, onMem]

theorem cell_setCell_other (d : Dev) {a k : Nat} (b : Byte) (h : k ≠ a) : (d.setCell a b).cell k = d.cell k := by
  simp [cell, setCell, onMem, Sp.get_set_other _ _ _ h]

/-- A register stored reads as stored, its 64 bits. -/
theorem rd_wr (d : Dev) (r : Reg) (w j v : Nat) : (d.wr r w j v).rd r w j = v % 2 ^ 64 := by
  simp [rd, wr, RegFile.rd, RegFile.wr, BitVec.toNat_ofNat]

/-- A register at another address reads as before. -/
theorem rd_wr_other (d : Dev) {r r' : Reg} {w j w' j' : Nat} (v : Nat) (h : r'.key w' j' ≠ r.key w j) :
    (d.wr r w j v).rd r' w' j' = d.rd r' w' j' := by
  have : ∀ (x : RegFile), Sp.get (fun _ => r'.reset j') (Sp.set (fun _ => r.reset j) x (r.key w j) (BitVec.ofNat 64 v)) (r'.key w' j')
      = Sp.get (fun _ => r'.reset j') x (r'.key w' j') := by
    intro x
    unfold Sp.set
    split
    · exact Sp.get_erase_other _ _ h
    · exact Sp.get_insert_other _ _ _ h
  simp [rd, wr, RegFile.rd, RegFile.wr, this]

end Sys2Proof.Machine.Dev

namespace Sys2Proof.Machine

/-- A command's effect while the device runs. -/
theorem Dev.command_awake (d : Dev) (env : Env) (f : Dev → Dev) (h : d.awake = true) :
    d.command env f = Dev.settle d (f (d.begun env)) := by simp [Dev.command, h]

/-- A command leaves the queue and the fabric links. -/
theorem State.apply_next (s : State) (f : Dev → Dev) (env : Env) :
    s.apply f env = .next { pending := s.pending, dev := s.dev.command env f, links := s.links } := rfl

end Sys2Proof.Machine
end

