-- ==== Sys2Proof/Laws/Memory.lean ====
section
/-!
SUPPORT. Every operation over memory keeps its canonical form, and State.reset has it.
-/

namespace Sys2Proof.Machine

/-- Memory is in its canonical form. -/
abbrev Dev.MemOk (d : Dev) : Prop := Memory.wf d.mem.cells = true

/-- State.reset's memory is in its canonical form. -/
theorem memOk_reset : State.reset.dev.MemOk := rfl

namespace Dev

/-- What every element of a fold keeps, the fold keeps. -/
theorem foldl_keeps {β : Type} {P : Dev → Prop} {f : Dev → β → Dev} (h : ∀ d x, P d → P (f d x)) :
    ∀ (l : List β) (d : Dev), P d → P (l.foldl f d)
  | [], _, hd => hd
  | x :: t, d, hd => foldl_keeps h t (f d x) (h d x hd)

theorem memOk_of_cells {d e : Dev} (h : e.mem.cells = d.mem.cells) (hd : d.MemOk) : e.MemOk := by
  unfold MemOk; rw [h]; exact hd

theorem bump_memOk (d : Dev) (f : Field) (i j n : Nat) (h : d.MemOk) : (d.bump f i j n).MemOk := memOk_of_cells (by rw [bump_mem]) h

theorem raise_memOk (d : Dev) (f : Field) (i j : Nat) (h : d.MemOk) : (d.raise f i j).MemOk := memOk_of_cells (by rw [raise_mem]) h

theorem setCell_memOk (d : Dev) (a : Nat) (b : Byte) (h : d.MemOk) : (d.setCell a b).MemOk := Sp.wf_set _ a b h

theorem setPoison_memOk (d : Dev) (a : Nat) (p : Bool) (h : d.MemOk) : (d.setPoison a p).MemOk := h

theorem setFlips_memOk (d : Dev) (a : Nat) (l : List Nat) (h : d.MemOk) : (d.setFlips a l).MemOk := h

theorem setSymErrs_memOk (d : Dev) (a : Nat) (l : List (Nat × Nat)) (h : d.MemOk) : (d.setSymErrs a l).MemOk := h

theorem setSlice_memOk (d : Dev) (k : Nat) (l : List CacheLine) (h : d.MemOk) : (d.setSlice k l).MemOk := h

theorem setPoison64_memOk (d : Dev) (a : Nat) (p : Bool) (h : d.MemOk) : (d.setPoison64 a p).MemOk :=
  foldl_keeps (fun d w h => setPoison_memOk d w p h) _ d h

theorem flipBit_memOk (d : Dev) (w i : Nat) (h : d.MemOk) : (d.flipBit w i).MemOk := by
  unfold flipBit; split
  · exact setCell_memOk d _ _ h
  · exact h

theorem countCe_memOk (d : Dev) (b : Sram) (h : d.MemOk) : (d.countCe b).MemOk := by cases b <;> exact h

theorem captureSram_memOk (d : Dev) (b : Sram) (rq : Req) (s : Bool) (a : Nat) (h : d.MemOk) : (d.captureSram b rq s a).MemOk := by
  unfold captureSram; cases b <;> dsimp only <;> split <;> exact h

theorem countUe_memOk (d : Dev) (b : Sram) (rq : Req) (s : Bool) (a : Nat) (h : d.MemOk) : (d.countUe b rq s a).MemOk := by
  have := captureSram_memOk d b rq s a h
  unfold countUe; cases b <;> exact this

theorem touchWord_memOk (d : Dev) (b : Sram) (rq : Req) (s : Bool) (w : Nat) (h : d.MemOk) : (d.touchWord b rq s w).MemOk := by
  have h0 : (d.setFlips w []).MemOk := h
  have hu := setPoison_memOk _ w true (countUe_memOk (d.setFlips w []) b rq s w h0)
  unfold touchWord
  dsimp only
  have hf : ∀ l : List Nat, ((l.foldl (fun d i => d.flipBit w i) (d.setFlips w [])).setPoison w false).MemOk :=
    fun l => setPoison_memOk _ w false (foldl_keeps (fun d i h => flipBit_memOk d w i h) l _ h0)
  split
  · exact h
  · split
    · exact countCe_memOk _ b h0
    · split
      · exact setPoison_memOk _ w true h0
      · split
        · exact hu
        · split
          · exact hf _
          · split
            · exact hu
            · split
              · exact hu
              · exact countCe_memOk _ b (hf _)

theorem eraseDevice_mem (d : Dev) (cw v : Nat) : (d.eraseDevice cw v).mem = d.mem := by
  unfold eraseDevice
  dsimp only
  split
  · rfl
  · split <;> simp

theorem noteCorrections_cells (d : Dev) (cw : Nat) (l : List (Nat × Nat)) : (d.noteCorrections cw l).mem.cells = d.mem.cells := by
  unfold noteCorrections
  dsimp only
  split
  · simp [onMem]
  · rw [eraseDevice_mem]; simp [onMem]

theorem noteCorrections_memOk (d : Dev) (cw : Nat) (l : List (Nat × Nat)) (h : d.MemOk) : (d.noteCorrections cw l).MemOk :=
  memOk_of_cells (noteCorrections_cells d cw l) h

theorem captureDdr_mem (d : Dev) (rq : Req) (p : Bool) (cw : Nat) : (d.captureDdr rq p cw).mem = d.mem := by
  unfold captureDdr
  simp only [apply_ite Dev.mem, wr_mem, ite_self]

theorem captureDdr_memOk (d : Dev) (rq : Req) (p : Bool) (cw : Nat) (h : d.MemOk) : (d.captureDdr rq p cw).MemOk :=
  memOk_of_cells (by rw [captureDdr_mem]) h

theorem touchCodeword_memOk (d : Dev) (rq : Req) (p : Bool) (cw : Nat) (h : d.MemOk) : (d.touchCodeword rq p cw).MemOk := by
  unfold touchCodeword; dsimp only
  generalize hd1 : d.onMem _ = d1
  have h1 : d1.MemOk := by rw [← hd1]; exact h
  clear hd1 h
  split
  · exact h1
  · split
    · exact setSymErrs_memOk _ _ _ h1
    · exact setPoison64_memOk _ _ _ (setSymErrs_memOk _ _ _ h1)
    · refine noteCorrections_memOk _ _ _ (raise_memOk _ _ _ _ (bump_memOk _ _ _ _ _ ?_))
      refine foldl_keeps (fun d e h => ?_) _ _ (setPoison64_memOk _ _ _ (setSymErrs_memOk _ _ _ h1))
      split
      · exact setCell_memOk d _ _ h
      · exact h
    · exact setPoison64_memOk _ _ _ (setSymErrs_memOk _ _ _ (raise_memOk _ _ _ _ (bump_memOk _ _ _ _ _ (captureDdr_memOk _ rq p cw h1))))

theorem writeBack_memOk (d : Dev) (k line : Nat) (h : d.MemOk) : (d.writeBack k line).MemOk := by
  unfold writeBack; dsimp only
  refine bump_memOk _ _ _ _ _ ?_
  refine foldl_keeps (fun d cw h => ?_) _ _ (foldl_keeps (fun d w h => touchWord_memOk d _ _ _ w h) _ _ h)
  split
  · exact setPoison64_memOk _ _ _ (raise_memOk _ _ _ _ (captureDdr_memOk _ _ _ cw (setSymErrs_memOk d cw [] h)))
  · exact setSymErrs_memOk d cw [] h

theorem flushSlice_memOk (d : Dev) (k : Nat) (h : d.MemOk) : (d.flushSlice k).MemOk :=
  setSlice_memOk _ _ _ (foldl_keeps (fun d l h => by split; exact writeBack_memOk d k _ h; exact h) _ _ h)

theorem flushCache_memOk (d : Dev) (h : d.MemOk) : d.flushCache.MemOk := foldl_keeps (fun d k h => flushSlice_memOk d k h) _ _ h

theorem draw_memOk (d : Dev) (w : Nat) (h : d.MemOk) : (d.draw w).2.MemOk := h

theorem tagCheck_memOk (d : Dev) (k line : Nat) (h : d.MemOk) : (d.tagCheck k line).MemOk := by
  unfold tagCheck; dsimp only
  refine foldl_keeps (fun d e h => ?_) _ _ h
  generalize hd1 : d.onMem _ = d1
  have h1 : d1.MemOk := by rw [← hd1]; exact h
  clear hd1 h
  split
  · exact raise_memOk _ _ _ _ h1
  · have h2 := raise_memOk d1 F.SHM_ERR_STATUS_tag_fatal k 0 h1
    split
    · exact h2
    · split
      · exact foldl_keeps (fun d i h => setCell_memOk _ _ _ (draw_memOk d 8 h)) _ _ (setSlice_memOk _ _ _ h2)
      · exact setSlice_memOk _ _ _ h2

theorem fillLine_memOk (d : Dev) (rq : Req) (k line : Nat) (h : d.MemOk) : (d.fillLine rq k line).MemOk := by
  have ht := foldl_keeps (P := MemOk) (fun d cw h => touchCodeword_memOk d rq false cw h) (granules 64 line 256) d h
  unfold fillLine; dsimp only
  split
  · exact setSlice_memOk _ _ _ ht
  · split
    · exact ht
    · split
      · exact setSlice_memOk _ _ _ (writeBack_memOk _ _ _ ht)
      · exact setSlice_memOk _ _ _ ht

theorem cacheAccess_memOk (d : Dev) (rq : Req) (line : Nat) (w : Bool) (h : d.MemOk) : (d.cacheAccess rq line w).2.MemOk := by
  have ht := tagCheck_memOk d (cacheHome line) line h
  unfold cacheAccess; dsimp only
  split
  · exact h
  · split
    · exact setSlice_memOk _ _ _ (bump_memOk _ _ _ _ _ ht)
    · split
      · exact bump_memOk _ _ _ _ _ ht
      · exact setSlice_memOk _ _ _ (fillLine_memOk _ _ _ _ (bump_memOk _ _ _ _ _ ht))

/-- A read of memory keeps the canonical form. -/
theorem readMem_memOk (d : Dev) (rq : Req) (a len : Nat) (h : d.MemOk) : (d.readMem rq a len).2.MemOk := by
  unfold readMem
  split
  · exact foldl_keeps (fun d w h => touchWord_memOk d _ rq false w h) _ _ h
  · exact foldl_keeps (fun d w h => touchWord_memOk d _ rq false w h) _ _ h
  · refine foldl_keeps (fun d line h => ?_) _ _ h
    dsimp only
    have hc := cacheAccess_memOk d rq line false h
    split
    · exact foldl_keeps (fun d w h => touchWord_memOk d _ rq false w h) _ _ hc
    · exact foldl_keeps (fun d cw h => touchCodeword_memOk d rq false cw h) _ _ hc
  · exact h

theorem writeGranule_memOk (d : Dev) (size g a : Nat) (bs : List PByte) (t : Dev → Nat → Dev)
    (ht : ∀ d w, d.MemOk → (t d w).MemOk) (h : d.MemOk) : (d.writeGranule size g a bs t).MemOk := by
  unfold writeGranule; dsimp only
  refine foldl_keeps (fun d w h => setPoison_memOk d w _ h) _ _ ?_
  refine foldl_keeps (fun d x h => setCell_memOk d _ _ h) _ _ ?_
  split
  · split <;> exact h
  · exact ht d g h

/-- A write of memory keeps the canonical form. -/
theorem writeMem_memOk (d : Dev) (rq : Req) (a : Nat) (bs : List PByte) (h : d.MemOk) : (d.writeMem rq a bs).MemOk := by
  have hw : ∀ (b : Sram) (d : Dev) (w : Nat), d.MemOk → (d.touchWord b rq false w).MemOk :=
    fun b d w h => touchWord_memOk d b rq false w h
  unfold writeMem; dsimp only
  split
  · exact foldl_keeps (fun d g h => writeGranule_memOk d _ g a bs _ (hw _) h) _ _ h
  · split
    · exact raise_memOk _ _ _ _ (captureSram_memOk _ _ rq false _ (foldl_keeps (fun d g h => writeGranule_memOk d 8 g a bs _ (hw _) h) _ _ h))
    · exact foldl_keeps (fun d g h => writeGranule_memOk d 8 g a bs _ (hw _) h) _ _ h
  · refine foldl_keeps (fun d line h => ?_) _ _ h
    have hc := cacheAccess_memOk d rq line true h
    split
    · exact foldl_keeps (fun d g h => writeGranule_memOk d _ g _ _ _ (hw _) h) _ _ hc
    · refine foldl_keeps (fun d g h => ?_) _ _ ?_
      · split
        · exact raise_memOk _ _ _ _ (captureDdr_memOk _ rq false g h)
        · exact h
      · exact foldl_keeps (fun d g h => writeGranule_memOk d _ g _ _ _ (fun d w h => touchCodeword_memOk d rq false w h) h) _ _ hc
  · exact h

/-- A store outside every request keeps the canonical form. -/
theorem pokeRange_memOk (d : Dev) (a : Nat) (bs : List Byte) (h : d.MemOk) : (d.pokeRange a bs).MemOk :=
  foldl_keeps (fun d _ h => setPoison_memOk _ _ _ (setCell_memOk d _ _ h)) _ _ h

/-- Zeroing keeps the canonical form. -/
theorem zeroRange_memOk (d : Dev) (a len : Nat) (h : d.MemOk) : (d.zeroRange a len).MemOk := Sp.wf_filter _ _ h

end Dev

end Sys2Proof.Machine
end

