-- ==== Sys2Proof/Laws/Sequencer.lean ====
section
/-!
SUPPORT. The fields of an instruction word, and what the sequencer's step does with a word that it fetches.
-/

namespace Sys2Proof.Machine

theorem bits_eq_mod (n hi lo : Nat) : bits n hi lo = n / 2 ^ lo % 2 ^ (hi + 1 - lo) := by
  rw [bits, Nat.shiftRight_eq_div_pow]

/-- A well-formed instruction word holds its opcode and nothing in its reserved bits. -/
theorem encode_opcode {w : SeqWord} (h : w.wf = true) {op : Nat} (ho : op < 256) :
    bits (w.encode op) 7 0 = op ∧ bits (w.encode op) 31 28 = 0 := by
  simp only [SeqWord.wf, Bool.and_eq_true, decide_eq_true_eq] at h
  constructor <;> simp only [bits_eq_mod, SeqWord.encode] <;> omega

/-- Reading the fields of a well-formed instruction word gives them back. -/
theorem of_encode {w : SeqWord} (h : w.wf = true) {op : Nat} (ho : op < 256) : SeqWord.of (w.encode op) = w := by
  obtain ⟨d, a, b, f, imm⟩ := w
  simp only [SeqWord.wf, Bool.and_eq_true, decide_eq_true_eq] at h
  have hi : (w : BitVec 32) → BitVec.ofNat 32 w.toNat = w := by simp
  have e : (op + d * 2 ^ 8 + a * 2 ^ 13 + b * 2 ^ 18 + f * 2 ^ 23 + imm.toNat * 2 ^ 32) >>> 32 = imm.toNat := by
    rw [Nat.shiftRight_eq_div_pow]; omega
  simp only [SeqWord.of, SeqWord.encode, e, hi, bits_eq_mod, SeqWord.mk.injEq, and_true]
  refine ⟨?_, ?_, ?_, ?_⟩ <;> omega

/-- What the sequencer does with an instruction that stands at its program counter: its effect, or its stop. -/
theorem runSeq_fetched {d e : Dev} {c op : Nat} {w : SeqWord} {effect : UnitId → SeqWord → Run Unit}
    (hr : d.coreRuns c = true) (hl : (d.core c).live = true) (hs : (d.core c).seqStopped = none)
    (hw : w.wf = true) (hd : seqDefined op w.f = true) (ho : op < 256)
    (hf : Run.fetchWord (d.seqUnit c 0) d = (.ok (w.encode op), e)) :
    d.runSeq c op w effect = match effect (d.seqUnit c op) w e with
      | (.ok (), x) => x
      | (.error s, _) => d.seqStop c (d.seqUnit c op) s := by
  have hf' : bits (w.encode op) 27 23 = w.f := by
    have := congrArg SeqWord.f (of_encode hw ho); simpa [SeqWord.of] using this
  have hk : Run.wordDefined (w.encode op) = true := by
    simp [Run.wordDefined, encode_opcode hw ho, hf', hd]
  rcases he : effect (d.seqUnit c op) w e with ⟨_ | _, x⟩ <;>
    simp only [Dev.runSeq, hr, hl, hs, hf, hk, he, encode_opcode hw ho, of_encode hw ho, Bool.not_true,
      Option.isSome_none, Bool.or_self, Bool.false_eq_true, if_false, ne_eq, not_true_eq_false, or_self]

/-! ### The registers of a core -/

namespace Dev

@[simp] theorem setSreg_pc (d : Dev) (c k i : Nat) (v : W64) : (d.setSreg c i v).pc k = d.pc k := by
  unfold setSreg pc
  split
  · rfl
  · by_cases h : k = c
    · subst h; simp
    · simp [core_setCore_other _ _ h]

@[simp] theorem setPc_pc (d : Dev) (c n : Nat) : (d.setPc c n).pc c = n % 2 ^ 64 := by simp [setPc, pc]

@[simp] theorem setPc_sreg (d : Dev) (c n k i : Nat) : (d.setPc c n).sreg k i = d.sreg k i := by
  unfold sreg setPc
  by_cases h : k = c
  · subst h; simp
  · simp [core_setCore_other _ _ h]

theorem setSreg_sreg (d : Dev) (c i j : Nat) (v : W64) :
    (d.setSreg c i v).sreg c j = if j = i ∧ i ≠ 0 then v else d.sreg c j := by
  unfold setSreg sreg
  by_cases hi : i = 0
  · subst hi; by_cases hj : j = 0 <;> simp [hj]
  · by_cases hj : j = 0
    · subst hj; simp [hi, Ne.symm hi]
    · simp [hi, hj, Sp.get_set]

end Dev

/-! ### The effects -/

namespace Run

theorem nextPc_eq (c : Nat) (d : Dev) : nextPc c d = (.ok (), d.setPc c (d.pc c + 8)) := rfl

theorem upd_bind {α : Type} (f : Dev → Dev) (g : Unit → Run α) (d : Dev) : (upd f >>= g) d = g () (f d) := rfl

theorem dev_bind {α : Type} (g : Dev → Run α) (d : Dev) : (dev >>= g) d = g d d := rfl

/-- Work followed by more work: the more is done on what an answer and its device were, and a stop stays. -/
theorem bind_apply {α β : Type} (x : Run α) (g : α → Run β) (d : Dev) :
    (x >>= g) d = match x d with
      | (.ok a, e) => g a e
      | (.error s, e) => (.error s, e) := by
  show (ExceptT.bind x g) d = _
  unfold ExceptT.bind ExceptT.mk
  show (StateT.bind x (ExceptT.bindCont g)) d = _
  unfold StateT.bind
  rcases x d with ⟨_ | _, e⟩ <;> rfl

theorem seqAlu_eq (u : UnitId) (i : SeqWord) (d : Dev) : seqAlu u i d =
    (.ok (), (d.setSreg u.core i.d (aluOp i.f (d.sreg u.core i.a) (d.sreg u.core i.b))).setPc u.core (d.pc u.core + 8)) := by
  simp only [seqAlu, upd_bind, nextPc_eq, Dev.setSreg_pc]

theorem seqAlui_eq (u : UnitId) (i : SeqWord) (d : Dev) : seqAlui u i d =
    (.ok (), (d.setSreg u.core i.d (aluOp i.f (d.sreg u.core i.a) i.simm)).setPc u.core (d.pc u.core + 8)) := by
  simp only [seqAlui, upd_bind, nextPc_eq, Dev.setSreg_pc]

theorem seqLih_eq (u : UnitId) (i : SeqWord) (d : Dev) : seqLih u i d =
    (.ok (), (d.setSreg u.core i.d (i.imm ++ (d.sreg u.core i.d).setWidth 32)).setPc u.core (d.pc u.core + 8)) := by
  simp only [seqLih, upd_bind, nextPc_eq, Dev.setSreg_pc]

end Run

end Sys2Proof.Machine
end

