-- ==== Sys2Proof/WellFormed.lean ====
section
/-!
DEFINITION. What a command's operands satisfy beyond their types: each field fits the bits that carry it.
-/

namespace Sys2Proof

/-- The operands of a command fit what carries them. -/
def Instr.wellFormed (i : Instr) : Bool :=
  match i with
  | .alu _ w => w.wf
  | .alui _ w => w.wf
  | .lih _ w => w.wf
  | .ld _ w => w.wf
  | .st _ w => w.wf
  | .br _ w => w.wf
  | .jal _ w => w.wf
  | .jalr _ w => w.wf
  | .issue _ w => w.wf
  | .csrr _ w => w.wf
  | .csrc _ w => w.wf
  | .halt _ w => w.wf
  | .scrub b => b.wf
  | .flitReceive _ _ words _ => decide (words.length = 36) && words.all (fun x => decide (x < 2 ^ 32))
  | .linkFlitReceive _ flit _ _ => decide (flit.length = 242)
  | .mailboxArrival _ _ _ bs => decide (16 ≤ bs.length ∧ bs.length ≤ 256)
  | .thermalSample rs => decide (rs.length = 98)
  | .ddrSensorRead rs => decide (rs.length = 32)
  | .smbMsgStart bs _ => decide (1 ≤ bs.length ∧ bs.length ≤ 128)
  | .smbMsgAppend bs _ => decide (1 ≤ bs.length ∧ bs.length ≤ 128)
  | .boundaryScanInstruction tap _ => tap != .debug
  | .contextDone ..
  | .daTile ..
  | .tileShadowCopy ..
  | .daPass ..
  | .startRamp ..
  | .stopRamp ..
  | .barrierStaggerStart ..
  | .daExport ..
  | .daImport ..
  | .daSync ..
  | .gather ..
  | .scatter ..
  | .scatterAdd ..
  | .topK ..
  | .segMerge ..
  | .spmmCsr ..
  | .spmmBsr ..
  | .combine ..
  | .gmeSync ..
  | .veMap ..
  | .veRowred ..
  | .veSync ..
  | .stLoad ..
  | .stStore ..
  | .stCopy ..
  | .stTile ..
  | .stMaxscan ..
  | .qDrain ..
  | .evSignal ..
  | .evWait ..
  | .route ..
  | .walk ..
  | .hdPush ..
  | .hdFetch ..
  | .hdPop ..
  | .hdTurn ..
  | .hdDrop ..
  | .hoardWriteBack ..
  | .hoardPrefetch ..
  | .wqPush ..
  | .wBubbleIssue ..
  | .wqEntryComplete ..
  | .wqFlush ..
  | .mbPost ..
  | .mbTake ..
  | .updNorm ..
  | .updNormred ..
  | .updApply ..
  | .colExpmax ..
  | .colAllreduce ..
  | .colRedscat ..
  | .colAllgather ..
  | .colAlltoall ..
  | .colPermute ..
  | .colBarrier ..
  | .colGradstep ..
  | .colGradwait ..
  | .colFill ..
  | .bucketComplete ..
  | .colRemap ..
  | .collectiveMessage ..
  | .barrierRelease ..
  | .timedRelease ..
  | .abortNotice ..
  | .peerTimeout ..
  | .scrYield ..
  | .fillAdvance ..
  | .drain ..
  | .memoryRead ..
  | .memoryWrite ..
  | .patrol ..
  | .pageFaultResume ..
  | .faultDeadline ..
  | .preemptDeadline ..
  | .fabricNak ..
  | .fabricAck ..
  | .fabricTraining ..
  | .fabricTrainTimeout ..
  | .portTraining ..
  | .trainingRetry ..
  | .portDown ..
  | .linkNak ..
  | .forwardAck ..
  | .packetArrival ..
  | .reroutedPacket ..
  | .leavingNotice ..
  | .e2eTimeout ..
  | .syncExchange ..
  | .syncFlit ..
  | .rootTimeout
  | .mbxCmdPost ..
  | .mbxCmdTake ..
  | .mbxDbSet ..
  | .retireCmd ..
  | .tlbInv ..
  | .frecClr ..
  | .retrain ..
  | .cpKick
  | .pwrFreqWrite ..
  | .routeBankWrite ..
  | .routeEntryWrite ..
  | .registerWrite ..
  | .getInfo ..
  | .getStatus ..
  | .getCounters ..
  | .getTelemetry ..
  | .getFaultRecord ..
  | .getFlags ..
  | .ackAlert ..
  | .setEventMask ..
  | .stopFunction ..
  | .startFunction ..
  | .resetDevice ..
  | .loadJob ..
  | .unloadJob ..
  | .startContext ..
  | .preemptContext ..
  | .resumeContext ..
  | .killContext ..
  | .mapPages ..
  | .setContextLimits ..
  | .setAudit ..
  | .setCacheSplit ..
  | .setPowerCap ..
  | .runScreen ..
  | .loadTestPack ..
  | .setRoutes ..
  | .swapRouteBank ..
  | .setRouteMode ..
  | .setPort ..
  | .returnPort ..
  | .setLinkParams ..
  | .bindChannel ..
  | .setEthConfig ..
  | .bindHost ..
  | .getQuote ..
  | .updateImage ..
  | .updateConfig ..
  | .ethFrameReceive ..
  | .ethLinkDown ..
  | .pfcFrame ..
  | .cnpReceive ..
  | .rateRecovery ..
  | .rdmaWrite ..
  | .rdmaRead ..
  | .rdmaSend ..
  | .writeWithImmediate ..
  | .ackCoalesce ..
  | .hostMessageSend ..
  | .sendRetryTimeout ..
  | .lldpSend
  | .managementDatagram ..
  | .powerWindowEnd ..
  | .loopWatchdog
  | .prochotAssert
  | .prochotRelease
  | .droopEvent ..
  | .droopEnd ..
  | .thermtrip
  | .autoScreenTimer ..
  | .screenDeadline
  | .powerOnScreen ..
  | .progressWatchdog ..
  | .stopDeadline ..
  | .computeReset ..
  | .drainTimeout ..
  | .computeRecovery ..
  | .chipReset ..
  | .firmwareWatchdog
  | .resetNAssert
  | .resetNRelease ..
  | .supplyLoss ..
  | .dbgToken ..
  | .jtagDebugAccess ..
  | .smbMsgTake
  | .smbMsgReadRest
  | .smbRegSelect ..
  | .smbRegRead
  | .smbAra
  | .smbTimeout
  | .ethLinkUp
  | .powerUp
  | .timeHoldEnd
  | .tapReset => true

end Sys2Proof
end

