-- ==== Sys2Proof/Tests/Slice0.lean ====
section
/-!
SUPPORT. The model's own tests: a state that meets the hypotheses of each statement, results that the spec states, and terms that
the well-formedness checks refuse.
-/

namespace Sys2Proof.Tests

set_option Elab.async false

open Sys2Proof.Machine Sys2Proof.Claims

/-! ### Small states -/

/-- An address in core memory 0. -/
def A (n : Nat) : Nat := coreMemBase 0 + n

/-- Words stored at places of core memory 0. -/
def put (l : List (Nat × List Nat)) (d : Dev) : Dev := l.foldl (fun d x => d.pokeRange (A x.1) (wordBytes x.2)) d

/-- A descriptor of n elements at a place of core memory 0 (07_streams_descriptors_and_layouts.md R252). -/
def vec (fmt n a : Nat) : List Nat := [A a + fmt * 2 ^ 48 + 2 ^ 52, 1 + n * 2 ^ 40]

/-- A descriptor of dense rows. -/
def mat (fmt cols rows a : Nat) : List Nat := [A a + fmt * 2 ^ 48 + 2 * 2 ^ 52, 1 + cols * 2 ^ 40, cols + rows * 2 ^ 40]

/-- A descriptor of one element through an owner table. -/
def dist (fmt a owner : Nat) : List Nat := [A a + fmt * 2 ^ 48 + 2 ^ 52 + 2 ^ 56, 1 + 2 ^ 40, 0, 0, 0, 0, 0, A owner / 4096 * 2 ^ 28]

/-- Core 0 runs context 0. -/
def core0 (k : Core → Core) (mem : List (Nat × List Nat) := []) (job : Option Job := none) : State :=
  { dev := put mem { cores := [(0, k { ctx := some 0 })]
                     ctxs := match job with | none => [] | some j => [(0, { st := .running, job := some j })] } }

/-- An operation word whose parameter block stands at 0x100. -/
def word (opcode hi : Nat) (task : Nat := 0) : Op := { w0 := opcode + hi * 2 ^ 8, w1 := A 0x100, id := 1, task }

/-- The operation stands at the head of task list 0. -/
def inTask (o : Op) (mem : List (Nat × List Nat) := []) (job : Option Job := none) : State :=
  core0 (fun k => { k with tasks := [(0, [o])] }) mem job

/-- The operation waits at the fetch engine. -/
def inFetch (o : Op) (mem : List (Nat × List Nat) := []) (job : Option Job := none) : State :=
  core0 (fun k => { k with waiting := [{ o with task := 8 }] }) mem job

/-- The device changed. -/
def withDev (f : Dev → Dev) (s : State) : State := { s with dev := f s.dev }

/-- Core 0 changed. -/
def withCore (f : Core → Core) (s : State) : State := withDev (fun d => d.onCore 0 f) s

/-- The device after a command. -/
def after (i : Instr) (s : State) : Dev := match exec i s with | .next t => t.dev | _ => {}

/-- Byte n of core memory 0 after a command. -/
def byteAfter (i : Instr) (s : State) (n : Nat) : Byte := (after i s).cell (A n)

/-- Work that comes to its end. -/
def done (r : Except Stop Unit × Dev) : Bool := match r.1 with | .ok _ => true | .error _ => false

theorem eq_of_done {r : Except Stop Unit × Dev} (h : done r = true) : r = (.ok (), r.2) := by
  unfold done at h
  obtain ⟨_ | _, d⟩ := r <;> simp_all

/-! ### The execute engine -/

/-- The execute engine of core 0 starts an operation, and its work comes to its end. -/
def execEnds (s : State) (env : Env) (code : Nat) (work : UnitId → Op → Run Unit) (eng : Op → Nat := Dev.execEngine 0) : Bool :=
  s.dev.awake && match (found s env).takeTask 0 code with
    | some (o, d) => done (work (d.unitOf 0 o (eng o)) o (d.onHeld 0 o.id (fun x => { x with stalled := false }))) &&
      ((d.core 0).held.takeWhile (fun x => x.id ≠ o.id)).all (fun x => !Dev.sharesEngine x o)
    | none => false

/-- An operation of the execute engine that starts and comes to its end. -/
def ExecWitness (s : State) (env : Env) (code : Nat) (work : UnitId → Op → Run Unit) : Prop :=
  ∃ o d e, ExecStarts s env 0 code o d ∧ Ends work d 0 (Dev.execEngine 0 o) o e

/-- The same for the engines of the execute side. -/
def EngineWitness (s : State) (env : Env) (code : Nat) (work : UnitId → Op → Run Unit) : Prop :=
  ∃ o d e, EngineRuns s env 0 .start code o d ∧ Ends work d 0 (Dev.execEngine 0 o) o e

/-- The same for the update engine. -/
def UpdateWitness (s : State) (env : Env) (code : Nat) (work : UnitId → Op → Run Unit) : Prop :=
  ∃ o d e, UpdateRuns s env 0 .start code o d ∧ Ends work d 0 0x70 o e

theorem of_execEnds {s : State} {env : Env} {code : Nat} {work : UnitId → Op → Run Unit} {eng : Op → Nat}
    (h : execEnds s env code work eng = true) :
    ∃ o d e, ExecStarts s env 0 code o d ∧ EngineRuns s env 0 .start code o d ∧ Ends work d 0 (eng o) o e := by
  unfold execEnds at h
  rw [Bool.and_eq_true] at h
  obtain ⟨ha, h⟩ := h
  split at h
  · rename_i o d ht
    rw [Bool.and_eq_true, List.all_eq_true] at h
    have hs : ExecStarts s env 0 code o d := ⟨ha, ht⟩
    exact ⟨o, d, _, hs, ⟨fun x hx => by simpa using h.2 x hx, .inl ⟨rfl, hs⟩⟩, eq_of_done h.1⟩
  · cases h

theorem exec_ends {s : State} {env : Env} {code : Nat} {work : UnitId → Op → Run Unit}
    (h : execEnds s env code work = true) : ExecWitness s env code work := by
  obtain ⟨o, d, e, h1, -, h2⟩ := of_execEnds h
  exact ⟨o, d, e, h1, h2⟩

theorem engine_ends {s : State} {env : Env} {code : Nat} {work : UnitId → Op → Run Unit}
    (h : execEnds s env code work = true) : EngineWitness s env code work := by
  obtain ⟨o, d, e, -, h1, h2⟩ := of_execEnds h
  exact ⟨o, d, e, h1, h2⟩

theorem update_ends {s : State} {env : Env} {code : Nat} {work : UnitId → Op → Run Unit}
    (h : execEnds s env code work (fun _ => 0x70) = true) : UpdateWitness s env code work := by
  obtain ⟨o, d, e, h1, -, h2⟩ := of_execEnds h
  exact ⟨o, d, e, .inl ⟨rfl, h1⟩, h2⟩

/-- The word of a gather-merge operation for engine 0. -/
def gme (op i o : Nat) : Op := word op (1 + i * 2 ^ 8 + o * 2 ^ 12)

/-- Its parameter block and what it points to. -/
def gmeMem (ptrs : List Nat) (w6 : Nat) (l : List (Nat × List Nat)) : List (Nat × List Nat) :=
  [(0x100, ptrs.map A ++ List.replicate (6 - ptrs.length) 0 ++ [w6])] ++ l

/-- The FP32 numbers 1 and 2. -/
def two : Nat := 0x40000000 * 2 ^ 32 + 0x3F800000

def sGather : State := inTask (gme 0x30 0 0) (gmeMem [0x200, 0x240, 0x280] 0
  [(0x200, vec 0xE 1 0x400), (0x240, mat 0 1 2 0x440), (0x280, mat 0 1 1 0x480), (0x400, [1]), (0x440, [two])])
def sScatter : State := inTask (gme 0x31 0 0) (gmeMem [0x200, 0x240, 0x280] 0
  [(0x200, vec 0xE 1 0x400), (0x240, mat 0 1 1 0x440), (0x280, mat 0 1 2 0x480), (0x400, [1]), (0x440, [0x40000000])])
def sScatterAdd : State := inTask (gme 0x32 0 0) (gmeMem [0x200, 0x240, 0x280] 0
  [(0x200, vec 0xE 1 0x400), (0x240, mat 0 1 1 0x440), (0x280, mat 0 1 2 0x480), (0x400, [1]), (0x440, [0x40000000]), (0x480, [two])])
def sTopK : State := inTask (gme 0x33 0 0) (gmeMem [0x200, 0x240, 0x280] (2 ^ 32)
  [(0x200, mat 0 2 1 0x400), (0x240, mat 0 1 1 0x440), (0x280, mat 0xE 1 1 0x480), (0x400, [two])])
def sSegMerge : State := inTask (gme 0x34 0 0) (gmeMem [0x200, 0x240, 0x280] 0
  [(0x200, vec 0xE 1 0x400), (0x240, mat 0 1 2 0x440), (0x280, mat 0 1 1 0x480), (0x400, [2]), (0x440, [two])])
def sSpmmCsr : State := inTask (gme 0x35 1 0) (gmeMem [0x200, 0x240, 0x280, 0x2C0, 0x300] 0
  [(0x200, vec 0xE 2 0x400), (0x240, vec 0xE 1 0x440), (0x280, vec 1 1 0x480), (0x2C0, mat 1 1 2 0x4C0), (0x300, mat 0 1 1 0x500),
   (0x400, [2 ^ 32]), (0x440, [1]), (0x480, [0x4000]), (0x4C0, [0x40003F80])])
def sSpmmBsr : State := inTask (gme 0x36 1 0) (gmeMem [0x200, 0x240, 0x280, 0x2C0, 0x300] (3 * 2 ^ 40)
  [(0x200, vec 0xE 2 0x400), (0x240, vec 0xE 1 0x440), (0x280, vec 1 64 0x480), (0x2C0, mat 1 1 8 0x540), (0x300, mat 0 1 8 0x580),
   (0x480, [0x4000]), (0x540, [0x40003F80])])
def sCombine : State := inTask (gme 0x37 0 0) (gmeMem [0x200, 0x240, 0x280, 0x2C0, 0x300, 0x340] (2 ^ 32)
  [(0x200, vec 0xF 1 0x400), (0x240, mat 0 1 1 0x440), (0x280, mat 0 1 1 0x480), (0x2C0, mat 0 1 1 0x4C0), (0x300, vec 0xE 64 0x600),
   (0x340, vec 0 1 0x540), (0x440, [0x40000000]), (0x480, [0x40000000])])
def sGmeSync : State := inTask { gme 0x38 0 0 with w1 := 0 }

/-- The word of a vector-engine operation for engine 0. -/
def ve (op fn : Nat) : Op := word op (1 + fn * 2 ^ 24)

def sVeMap : State := inTask (ve 0x90 1)
  [(0x100, [A 0x200, A 0x240, 0, A 0x280]), (0x200, vec 0 2 0x400), (0x240, vec 0 2 0x440), (0x280, vec 0 2 0x480), (0x400, [two]), (0x440, [two])]
def sVeRowred : State := inTask (ve 0x91 0) [(0x100, [A 0x200, 0, 0, A 0x280]), (0x200, mat 0 2 1 0x400), (0x280, vec 0 1 0x480), (0x400, [two])]
def sVeSync : State := inTask { ve 0x9F 0 with w1 := 0 }
def sUpdNorm : State := inTask (word 0x68 0)
def sUpdNormred : State := inTask (word 0x69 0)
def sUpdApply : State := inTask (word 0x6A 0) [(0x150, [2 ^ 48])]

theorem witness_gather : EngineWitness sGather {} 0x30 Run.gather := engine_ends (by decide +kernel)
theorem witness_scatter : EngineWitness sScatter {} 0x31 Run.scatter := engine_ends (by decide +kernel)
theorem witness_scatterAdd : EngineWitness sScatterAdd {} 0x32 Run.scatterAdd := engine_ends (by decide +kernel)
theorem witness_topK : EngineWitness sTopK {} 0x33 Run.topK := engine_ends (by decide +kernel)
theorem witness_segMerge : EngineWitness sSegMerge {} 0x34 Run.segMerge := engine_ends (by decide +kernel)
theorem witness_spmmCsr : EngineWitness sSpmmCsr {} 0x35 Run.spmmCsr := engine_ends (by decide +kernel)
theorem witness_spmmBsr : EngineWitness sSpmmBsr {} 0x36 Run.spmmBsr := engine_ends (by decide +kernel)
theorem witness_combine : EngineWitness sCombine {} 0x37 Run.combineRows := engine_ends (by decide +kernel)
theorem witness_gmeSync : EngineWitness sGmeSync {} 0x38 Run.gmeSync := engine_ends (by decide +kernel)
theorem witness_veMap : EngineWitness sVeMap {} 0x90 Run.veMap := engine_ends (by decide +kernel)
theorem witness_veRowred : EngineWitness sVeRowred {} 0x91 Run.veRowred := engine_ends (by decide +kernel)
theorem witness_veSync : EngineWitness sVeSync {} 0x9F Run.veSync := engine_ends (by decide +kernel)
theorem witness_updNorm : UpdateWitness sUpdNorm {} 0x68 Run.updNorm := update_ends (by decide +kernel)
theorem witness_updNormred : UpdateWitness sUpdNormred {} 0x69 Run.updNormred := update_ends (by decide +kernel)
theorem witness_updApply : UpdateWitness sUpdApply {} 0x6A Run.updApply := update_ends (by decide +kernel)

/-! ### The fetch engine -/

/-- A unit of the fetch side takes the operation that waits on core 0, and its work comes to its end. -/
def fetchEnds (s : State) (env : Env) (code : Nat) (free : Dev → Bool) (work : UnitId → Op → Run Unit) (eng : Nat) : Bool :=
  match (s.dev.core 0).waiting with
  | [] => false
  | o :: rest =>
    let d := (found s env).onCore 0 (fun k => { k with waiting := rest, held := k.held ++ [o] })
    s.dev.awake && s.dev.coreRuns 0 && decide (o.opcode = code) && free (found s env) &&
      done (work (d.unitOf 0 o eng) o (d.onHeld 0 o.id (fun x => { x with stalled := false })))

/-- An operation of a unit of the fetch side that starts and comes to its end. -/
def FetchWitness (s : State) (env : Env) (code : Nat) (free : Dev → Bool) (work : UnitId → Op → Run Unit) (eng : Nat) : Prop :=
  ∃ o d e, FetchRuns s env 0 .start code free o d ∧ Ends work d 0 eng o e

theorem fetch_ends {s : State} {env : Env} {code : Nat} {free : Dev → Bool} {work : UnitId → Op → Run Unit} {eng : Nat}
    (h : fetchEnds s env code free work eng = true) :
    FetchWitness s env code free work eng := by
  unfold fetchEnds at h
  split at h
  · cases h
  · rename_i o rest hw
    simp only [Bool.and_eq_true, decide_eq_true_eq] at h
    obtain ⟨⟨⟨⟨h1, h2⟩, h3⟩, h4⟩, h5⟩ := h
    exact ⟨o, _, _, ⟨h1, h2, h3, .inl ⟨rfl, h4, rest, hw, rfl⟩⟩, eq_of_done h5⟩

/-- A stream that waits on core 0 starts, and its work comes to its end. -/
def streamEnds (s : State) (env : Env) (code : Nat) (work : UnitId → Op → Run Unit) : Bool :=
  match (s.dev.core 0).waiting with
  | [] => false
  | o' :: rest =>
    let o := { o' with stream := (s.dev.core 0).nextStream % 32 }
    let d := (found s env).onCore 0 (fun k =>
      { k with waiting := rest, streams := k.streams ++ [o], nextStream := (k.nextStream + 1) % 32 })
    s.dev.awake && s.dev.coreRuns 0 && decide (o.opcode = code) && decide (s.dev.activePlaces 0 < 32) &&
      (s.dev.core 0).held.all (fun x => decide (x.opcode ≠ 0x51)) &&
      done (work (d.unitOf 0 o 0x20) o (d.onStream 0 o.id (fun x => { x with stalled := false })))

/-- A stream that starts and comes to its end. -/
def StreamWitness (s : State) (env : Env) (code : Nat) (work : UnitId → Op → Run Unit) : Prop :=
  ∃ o d e, StreamRuns s env 0 .start code o d ∧ StreamEnds work d 0 o e

theorem stream_ends {s : State} {env : Env} {code : Nat} {work : UnitId → Op → Run Unit} (h : streamEnds s env code work = true) :
    StreamWitness s env code work := by
  unfold streamEnds at h
  split at h
  · cases h
  · rename_i o rest hw
    simp only [Bool.and_eq_true, decide_eq_true_eq, List.all_eq_true] at h
    obtain ⟨⟨⟨⟨⟨h1, h2⟩, h3⟩, h4⟩, h5⟩, h6⟩ := h
    exact ⟨_, _, _, ⟨h1, h2, h3, .inl ⟨rfl, h4, h5, o, rest, hw, rfl, rfl⟩⟩, eq_of_done h6⟩

/-- A valid entry of the queue table: slots of 512 bytes from a place of core memory 0 on (07_streams_descriptors_and_layouts.md
R246). -/
def qent (count base : Nat) : Nat × Nat := (2 ^ 63 + 512 * 2 ^ 16 + (count - 1) * 2 ^ 8, base)

/-- Core 0's queue table. -/
def withQ (l : List (Nat × (Nat × Nat))) (s : State) : State := withCore (fun k => { k with qtable := l }) s

/-- Core 0's Hoard. -/
def withH (h : Hoard) (s : State) : State := withCore (fun k => { k with hoard := h }) s

/-- A channel with a sender and a receiver. -/
def bindCh (c sender receiver : Nat) (s : State) : State :=
  withDev (fun d => ((d.setFld F.MBX_BIND_sender 0 c sender).setFld F.MBX_BIND_receiver 0 c receiver).setFld F.MBX_BIND_valid 0 c 1) s

/-- The parameter block of a collective. -/
def colBlk (src dst aux rest : Nat) : List (Nat × List Nat) := [(0x100, [src, dst, aux, rest])]

def sLoad : State := withQ [(0, qent 2 0x1000)] (inFetch (word 0x10 0) [(0x100, [A 0x200]), (0x200, vec 0 2 0x400), (0x400, [two])])
def sStore : State := withDev (fun d => d.setSlot 0 { fill := 512, full := true }) (withQ [(0, qent 2 0x1000)]
  (inFetch (word 0x11 0) [(0x100, [0, A 0x200]), (0x200, vec 0 2 0x400), (0x1000, [two])]))
def sCopy : State := inFetch (word 0x12 0) [(0x100, [A 0x200, A 0x240]), (0x200, vec 0 2 0x400), (0x240, vec 0 2 0x440), (0x400, [two])]
def sTile : State := withQ [(0, (2 ^ 63 + 0x200000 * 2 ^ 16, 0x1000))]
  (inFetch (word 0x13 0) [(0x100, [A 0x200]), (0x200, mat 1 512 0 0x400)] (some { mask := 1 }))
def sMaxscan : State := inFetch (word 0x14 0) [(0x100, [A 0x200, 0, 0, A 0x480]), (0x200, mat 0 2 1 0x400), (0x400, [two])]
def sRoute : State := inFetch (word 0x40 0)
  [(0x100, [A 0x200, A 0x240, A 0x280, A 0x2C0, A 0x300, 0, 1 + 2 ^ 32 + 2 ^ 48, 1]), (0x240, [2 ^ 40])]
def sWalk : State := inFetch (word 0x41 0) [(0x100, [A 0x400, A 0x500, A 0x8000, 0, 0, 1 + 2 ^ 48])]

/-- A job with sequence slots, a Hoard on core 0 and a layer table. -/
def hoardJob : Job :=
  { seqSlots := 2, layerTable := A 0x900, layerCount := 1
    hoards := [{ core := 0, task := 0, maxFrames := 4, resBase := A 0x4000, resBytes := 0x2000, homeBase := A 0x8000, homeBytes := 0
                 directory := 0, wqArea := 0 }] }

/-- A frame of slot 1 with tag 7. -/
def frame1 : HoardFrame := { id := 1, at_ := 0, size := 0x500, slot := 1, tag := 7 }

/-- The Hoard that holds it. -/
def hoard1 : Hoard := { frames := [frame1], pushNo := 1 }

def sPush : State := inFetch (word 0x50 1) [(0x100, [A 0x200]), (0x200, vec 0 1 0x400), (0x400, [0x3F800000])] (some hoardJob)
def sFetch : State := withH hoard1 (inFetch (word 0x51 1) [(0x100, [A 0x400, 7 * 2 ^ 32]),
  (0x4000, [0x6B01 * 2 ^ 48 + 2 ^ 34 + 7, 0, 5, 1]), (0x4100, descWords .fp32 [1] [1] 0 false 0)] (some hoardJob))
def sPop : State := withH hoard1 (inFetch { word 0x52 1 with w1 := 7 } [] (some hoardJob))
def sTurn : State := withH hoard1 (inFetch { word 0x53 1 with w1 := 0 } [] (some hoardJob))
def sDrop : State := withH hoard1 (inFetch { word 0x54 1 with w1 := 0 } [] (some hoardJob))
def sWPush : State := withH hoard1 (inFetch (word 0x58 0) [(0x100, [A 0x200, 1 + 2 ^ 8 + 5 * 2 ^ 32, 1]), (0x900, [5])] (some hoardJob))
def sWFlush : State := withH hoard1 (inFetch { word 0x59 0 with w1 := 0 } [] (some hoardJob))
def sPost : State := bindCh 8 0x10 0x40 (inFetch (word 0x60 8))
def sTake : State := bindCh 8 0 0x10 (inFetch (word 0x61 8))
def sExpmax : State := inFetch (word 0x70 0) (colBlk (A 0x400) (A 0x440) (A 0x480) 2)
def sAllreduce : State := inFetch (word 0x71 0)
  (colBlk (A 0x200) (A 0x240) (A 0x480) 0 ++ [(0x200, vec 0 1 0x400), (0x240, vec 0xC 1 0x440), (0x400, [0x3F800000])])
def sRedscat : State := inFetch (word 0x72 0) (colBlk (A 0x200) (A 0x240) (A 0x480) 0 ++
  [(0x200, vec 0 1 0x400), (0x240, dist 0xC 0x440 0x1000), (0x400, [0x3F800000]), (0x1000, [A 0x1100 + 2 ^ 48]), (0x1100, [A 0x440, 2 ^ 22])])
def sAllgather : State := inFetch (word 0x73 0) (colBlk (A 0x240) (A 0x200) 0 0 ++
  [(0x200, vec 0 1 0x400), (0x240, dist 0 0x440 0x1000), (0x440, [0x3F800000]), (0x1000, [A 0x1100 + 2 ^ 48]), (0x1100, [A 0x440, 2 ^ 22])])
def sAlltoall : State := inFetch (word 0x74 0) (colBlk 0 0 (A 0x200) 0 ++
  [(0x200, [A 0x400, A 0x440, A 0x480, A 0x4C0, A 0x500, A 0x540, A 0x1000, 4 + 2 ^ 32, 0, A 0x600]), (0x400, [1]),
   (0x1000, [A 0x1100 + 2 ^ 48]), (0x1100, [0, 2 ^ 22])])
def sPermute : State := inFetch (word 0x75 0) (colBlk (A 0x200) 0 (A 0x1200 + 2 ^ 48) 0 ++
  [(0x200, dist 0 0x440 0x1000), (0x440, [0x3F800000]), (0x1000, [A 0x1100 + 2 ^ 48]), (0x1100, [A 0x440, 2 ^ 22]), (0x1200, [A 0x480, 2 ^ 22])])
def sBarrier : State := inFetch (word 0x76 0)
def sGradstep : State := inFetch (word 0x77 0) (colBlk 0 0 (A 0x200) 0)
def sGradwait : State := inFetch { word 0x78 0 with w1 := 0 }
def sFill : State := inFetch { word 0x79 0 with w1 := 5 }
def sRemap : State := inFetch { word 0x7A 0 with w1 := 0 }

theorem witness_stLoad : StreamWitness sLoad {} 0x10 Run.stLoad := stream_ends (by decide +kernel)
theorem witness_stStore : StreamWitness sStore {} 0x11 Run.stStore := stream_ends (by decide +kernel)
theorem witness_stCopy : StreamWitness sCopy {} 0x12 Run.stCopy := stream_ends (by decide +kernel)
theorem witness_stTile : StreamWitness sTile {} 0x13 Run.stTile := stream_ends (by decide +kernel)
theorem witness_stMaxscan : StreamWitness sMaxscan {} 0x14 Run.stMaxscan := stream_ends (by decide +kernel)
theorem witness_route : FetchWitness sRoute {} 0x40 (·.walkerFree 0) Run.route 0x74 := fetch_ends (by decide +kernel)
theorem witness_walk : FetchWitness sWalk {} 0x41 (·.walkerFree 0) Run.walk 0x74 := fetch_ends (by decide +kernel)
theorem witness_hdPush : FetchWitness sPush {} 0x50 (·.hoardFree 0) Run.hdPush 0x20 := fetch_ends (by decide +kernel)
theorem witness_hdFetch : FetchWitness sFetch {} 0x51 (·.hoardFree 0) Run.hdFetch 0x20 := fetch_ends (by decide +kernel)
theorem witness_hdPop : FetchWitness sPop {} 0x52 (·.hoardFree 0) Run.hdPop 0x20 := fetch_ends (by decide +kernel)
theorem witness_hdTurn : FetchWitness sTurn {} 0x53 (·.hoardFree 0) Run.hdTurn 0x20 := fetch_ends (by decide +kernel)
theorem witness_hdDrop : FetchWitness sDrop {} 0x54 (·.hoardFree 0) Run.hdDrop 0x20 := fetch_ends (by decide +kernel)
theorem witness_wqPush : FetchWitness sWPush { groupTable := A 0xA00 } 0x58 (·.hoardFree 0) Run.wqPush 0x20 := fetch_ends (by decide +kernel)
theorem witness_wqFlush : FetchWitness sWFlush {} 0x59 (·.hoardFree 0) Run.wqFlush 0x20 := fetch_ends (by decide +kernel)
theorem witness_mbPost : FetchWitness sPost {} 0x60 (fun _ => true) Run.mbPost 0x20 := fetch_ends (by decide +kernel)
theorem witness_mbTake : FetchWitness sTake {} 0x61 (fun _ => true) Run.mbTake 0x20 := fetch_ends (by decide +kernel)
theorem witness_colExpmax : FetchWitness sExpmax {} 0x70 (fun _ => true) Run.colExpmax 0x80 := fetch_ends (by decide +kernel)
theorem witness_colAllreduce : FetchWitness sAllreduce {} 0x71 (fun _ => true) Run.colAllreduce 0x80 := fetch_ends (by decide +kernel)
theorem witness_colRedscat : FetchWitness sRedscat {} 0x72 (fun _ => true) Run.colRedscat 0x80 := fetch_ends (by decide +kernel)
theorem witness_colAllgather : FetchWitness sAllgather {} 0x73 (fun _ => true) Run.colAllgather 0x80 := fetch_ends (by decide +kernel)
theorem witness_colAlltoall : FetchWitness sAlltoall {} 0x74 (fun _ => true) Run.colAlltoall 0x80 := fetch_ends (by decide +kernel)
theorem witness_colPermute : FetchWitness sPermute {} 0x75 (fun _ => true) Run.colPermute 0x80 := fetch_ends (by decide +kernel)
theorem witness_colBarrier : FetchWitness sBarrier {} 0x76 (fun _ => true) Run.colBarrier 0x81 := fetch_ends (by decide +kernel)
theorem witness_colGradstep : FetchWitness sGradstep {} 0x77 (fun _ => true) Run.colGradstep 0x80 := fetch_ends (by decide +kernel)
theorem witness_colGradwait : FetchWitness sGradwait {} 0x78 (fun _ => true) Run.colGradwait 0x80 := fetch_ends (by decide +kernel)
theorem witness_colFill : FetchWitness sFill {} 0x79 (fun _ => true) Run.colFill 0x80 := fetch_ends (by decide +kernel)
theorem witness_colRemap : FetchWitness sRemap {} 0x7A (fun _ => true) Run.colRemap 0x80 := fetch_ends (by decide +kernel)

/-! ### The dense arrays -/

/-- The device with the next operation of the execute engine taken into its unit. -/
def taken (s : State) (code : Nat) (env : Env := {}) : Dev := (((found s env).takeTask 0 code).map Prod.snd).getD {}

theorem starts {s : State} {code : Nat} {env : Env} {o : Op}
    (h : (s.dev.awake && decide (((found s env).takeTask 0 code).map Prod.fst = some o)) = true) :
    ExecStarts s env 0 code o (taken s code env) := by
  simp only [Bool.and_eq_true, decide_eq_true_eq] at h
  refine ⟨h.1, ?_⟩
  unfold taken
  cases ht : (found s env).takeTask 0 code with
  | none => simp [ht] at h
  | some x => obtain ⟨y, d⟩ := x; simp [ht] at h ⊢; exact h.2

/-- A word of an array operation on array 0, with BF16 operands and queue 0. -/
def da (op more : Nat) : Op := { word (op + 1 * 2 ^ 8 + 1 * 2 ^ 16 + 1 * 2 ^ 20 + more) 0 with w1 := 0 }

/-- A queue of core memory with one slot of 2 MiB, full. -/
def bigQ (s : State) : State := withDev (fun d => d.setSlot 0 { fill := 0x200000, full := true }) (withQ [(0, (2 ^ 63 + 0x200000 * 2 ^ 16, 0x1000))] s)

def sDaTile : State := bigQ (inTask (da 0x20 0))
def tile0 : Tile := { aFmt := 1, wFmt := 1, elems := [0x3F80], colMax := [0], rowMax := [0] }
def block0 : Block := { fmt := 1, rowLen := 512, rows := [{ elems := [0x4000], rowMax := 1, complete := true }] }
def array0 : DArray := { tiles := [(0, some tile0)], shadow := some (0, tile0), groups := 8, ramp := .running, blocks := [(0, some block0)] }
def sDaPass : State := withDev (fun d => (d.setArray 0 array0).setSlot 16384 { fill := 0x20000, full := true })
  (withQ [(0, (2 ^ 63 + 1, 0))] (inTask (da 0x21 0)))
def bank0 : Bank := { started := true, outputs := 1, rows := 1, busy := true, acc := [(0, { empty := false, sum := 2 ^ 64, anchor := 0 })] }
def sDaExport : State := withDev (fun d => d.setArray 0 { banks := [(0, bank0)] })
  (withQ [(0, (2 ^ 63 + 512 * 2 ^ 16, 0x1000))] (inTask { da 0x22 0 with w0 := 0x22 + 2 ^ 8 }))
def sDaImport : State := bigQ (inTask (da 0x23 0))
def sDaSync : State := inTask (da 0x24 0)
def sYield : State := inTask { word 0x80 0 with w1 := 0 }
def sQDrain : State := bigQ (inTask { word 0x18 0 with w1 := 0 })
def sSignal : State := inTask { word 0x19 3 with w1 := 0 }
def sEvWait : State := inTask { word 0x1A 3 with w1 := 0 }

theorem witness_daTile : ExecWitness sDaTile {} 0x20 Run.daTile := exec_ends (by decide +kernel)
theorem witness_daPass : ExecWitness sDaPass {} 0x21 Run.daPass := exec_ends (by decide +kernel)
theorem witness_daExport : ExecWitness sDaExport {} 0x22 Run.daExport := exec_ends (by decide +kernel)
theorem witness_daImport : ExecWitness sDaImport {} 0x23 Run.daImport := exec_ends (by decide +kernel)
theorem witness_daSync : ExecWitness sDaSync {} 0x24 Run.daSync := exec_ends (by decide +kernel)
theorem witness_scrYield : ExecWitness sYield {} 0x80 (Run.scrYield []) := exec_ends (by decide +kernel)
theorem witness_qDrain : ExecWitness sQDrain {} 0x18 Run.qDrain := exec_ends (by decide +kernel)
theorem witness_evSignal : ExecWitness sSignal {} 0x19 Run.evSignal := exec_ends (by decide +kernel)
theorem witness_evWait : ExecWitness sEvWait {} 0x1A Run.evWait := exec_ends (by decide +kernel)

/-! ### The machine and the sequencers -/

/-- Core 0 runs context 0 with its program counter at the start of its core memory. -/
def onCore0 : Dev :=
  { cores := [(0, { ctx := some 0, live := true, pc := coreMemBase 0
                    sregs := [(1, 5), (2, 3), (4, BitVec.ofNat 64 (A 0x200)), (5, BitVec.ofNat 64 (2 ^ 64 - 8))] })] }

/-- The same with an instruction there. -/
def atPc (op : Nat) (w : SeqWord) (mem : List (Nat × List Nat) := []) : State :=
  { dev := put mem (onCore0.pokeRange (coreMemBase 0) (leBytes 8 (w.encode op))) }

/-- The device that the fetch leaves. -/
def fetched (s : State) : Dev := (Run.fetchWord ((found s).seqUnit 0 0) (found s)).2

theorem seqAt_of {s : State} {op : Nat} {w : SeqWord}
    (h : (s.dev.awake && s.dev.coreRuns 0 && (s.dev.core 0).live && (s.dev.core 0).seqStopped.isNone && w.wf && seqDefined op w.f &&
      decide ((Run.fetchWord ((found s).seqUnit 0 0) (found s)).1 = .ok (w.encode op))) = true) :
    SeqAt s 0 op w (fetched s) := by
  simp only [Bool.and_eq_true, decide_eq_true_eq, Option.isNone_iff_eq_none] at h
  obtain ⟨⟨⟨⟨⟨⟨h1, h2⟩, h3⟩, h4⟩, h5⟩, h6⟩, h7⟩ := h
  exact ⟨h1, h2, h3, h4, h5, h6, Prod.ext h7 rfl⟩

/-- A result with a value. -/
def okVal {α : Type} (r : Except Stop α × Dev) : Option α := match r.1 with | .ok v => some v | .error _ => none

theorem eq_of_okVal {α : Type} {r : Except Stop α × Dev} {v : α} (h : okVal r = some v) : r = (.ok v, r.2) := by
  unfold okVal at h
  obtain ⟨_ | _, d⟩ := r <;> simp_all

def wAlu (f : Nat) : SeqWord := ⟨3, 1, 2, f, 0⟩
def wAlui : SeqWord := ⟨3, 1, 0, 0, 0xFFFFFFFF⟩
def wLih : SeqWord := ⟨1, 0, 0, 0, 7⟩
def wLd : SeqWord := ⟨3, 4, 0, 7, 0⟩
def wSt : SeqWord := ⟨0, 4, 1, 3, 0x10⟩
def wBr (f : Nat) (imm : BitVec 32) : SeqWord := ⟨0, 1, 2, f, imm⟩
def wJal (imm : BitVec 32) : SeqWord := ⟨6, 0, 0, 0, imm⟩
def wJalr (imm : BitVec 32) : SeqWord := ⟨6, 4, 0, 0, imm⟩
def wCsrr (n : BitVec 32) : SeqWord := ⟨6, 0, 0, 0, n⟩
def wCsrc : SeqWord := ⟨0, 1, 0, 0, 0⟩
def wHalt : SeqWord := ⟨0, 0, 0, 0, 0⟩
def wIssue (f : Nat) : SeqWord := ⟨0, 4, 0, f, 0⟩

def asleep : State := { dev := { onCore0 with pins := { onCore0.pins with resetLow := true } } }
def heldTime : State := { dev := ({} : Dev).setFld F.TB_STATUS_held 0 0 1 }

theorem witness_emptyQueueTicks : State.reset.pending = [] ∧ State.reset.dev.awake = true ∧ State.reset.dev.isSet F.TB_STATUS_held = false := by
  decide +kernel
theorem witness_emptyQueueTicks_held : heldTime.pending = [] ∧ heldTime.dev.isSet F.TB_STATUS_held = true := by decide +kernel
theorem witness_asleepTakesNothing : asleep.pending = [] ∧ asleep.dev.awake = false := by decide +kernel
theorem witness_resetOfNoSum : bit ({} : Dev).intSum 63 = false ∧ (Reg.TB_NOW).key 0 0 ∉ mailKeys := by decide +kernel

theorem witness_alu : ∀ f < 11, SeqAt (atPc 0x00 (wAlu f)) 0 0x00 (wAlu f) (fetched (atPc 0x00 (wAlu f))) := by
  intro f hf
  apply seqAt_of
  revert hf f
  decide +kernel
theorem witness_alui : SeqAt (atPc 0x01 wAlui) 0 0x01 wAlui (fetched (atPc 0x01 wAlui)) := seqAt_of (by decide +kernel)
theorem witness_lih : SeqAt (atPc 0x02 wLih) 0 0x02 wLih (fetched (atPc 0x02 wLih)) := seqAt_of (by decide +kernel)

theorem witness_ld : let s := atPc 0x08 wLd [(0x200, [0xFFFFFFFF00000000])]
    SeqAt s 0 0x08 wLd (fetched s) ∧ ∃ v e, Run.narrowRead ((found s).seqUnit 0 0x08) (effective (fetched s) 0 wLd) (2 ^ (wLd.f % 4)) {}
      (fetched s) = (.ok v, e) :=
  ⟨seqAt_of (by decide +kernel), 0xFFFFFFFF00000000, _, eq_of_okVal (by decide +kernel)⟩
theorem witness_st : let s := atPc 0x09 wSt
    SeqAt s 0 0x09 wSt (fetched s) ∧ ∃ pa e, Run.narrow ((found s).seqUnit 0 0x09) (effective (fetched s) 0 wSt) (2 ^ wSt.f)
      { write := true } (fetched s) = (.ok pa, e) :=
  ⟨seqAt_of (by decide +kernel), A 0x210, _, eq_of_okVal (by decide +kernel)⟩

/-- BR over every condition, once where it holds and once where it does not, with a target in the middle of an instruction too. -/
theorem witness_br : ∀ x ∈ [(1, (8 : BitVec 32)), (3, 8), (5, 8), (1, 4)],
    let w := wBr x.1 x.2
    SeqAt (atPc 0x10 w) 0 0x10 w (fetched (atPc 0x10 w)) ∧
      BranchHolds w.f ((fetched (atPc 0x10 w)).sreg 0 w.a) ((fetched (atPc 0x10 w)).sreg 0 w.b) := by
  intro x hx
  refine ⟨seqAt_of ?_, ?_⟩
  · revert hx x; decide +kernel
  · unfold BranchHolds; revert hx x; decide +kernel
theorem witness_br_not : ∀ f ∈ [0, 2, 4],
    let w := wBr f 8
    SeqAt (atPc 0x10 w) 0 0x10 w (fetched (atPc 0x10 w)) ∧
      ¬ BranchHolds w.f ((fetched (atPc 0x10 w)).sreg 0 w.a) ((fetched (atPc 0x10 w)).sreg 0 w.b) := by
  intro x hx
  refine ⟨seqAt_of ?_, ?_⟩
  · revert hx x; decide +kernel
  · unfold BranchHolds; revert hx x; decide +kernel
theorem witness_br_targets : ((fetched (atPc 0x10 (wBr 1 8))).pc 0 + 8) % 8 = 0 ∧ ((fetched (atPc 0x10 (wBr 1 4))).pc 0 + 4) % 8 ≠ 0 := by
  decide +kernel
theorem witness_jal : ∀ n ∈ [0xFFFFFFF8, 4],
    let imm := BitVec.ofNat 32 n
    SeqAt (atPc 0x11 (wJal imm)) 0 0x11 (wJal imm) (fetched (atPc 0x11 (wJal imm))) := by
  intro x hx
  apply seqAt_of
  revert hx x; decide +kernel
theorem witness_jal_targets : ((fetched (atPc 0x11 (wJal 8))).pc 0 + ((wJal 8).imm.signExtend 64).toNat) % 8 = 0 ∧
    ((fetched (atPc 0x11 (wJal 4))).pc 0 + ((wJal 4).imm.signExtend 64).toNat) % 8 ≠ 0 := by decide +kernel
theorem witness_jalr : ∀ n ∈ [0, 4],
    let imm := BitVec.ofNat 32 n
    SeqAt (atPc 0x12 (wJalr imm)) 0 0x12 (wJalr imm) (fetched (atPc 0x12 (wJalr imm))) := by
  intro x hx
  apply seqAt_of
  revert hx x; decide +kernel
theorem witness_jalr_targets : (((fetched (atPc 0x12 (wJalr 8))).sreg 0 4).toNat + ((wJalr 8).imm.signExtend 64).toNat) % 8 = 0 ∧
    (((fetched (atPc 0x12 (wJalr 4))).sreg 0 4).toNat + ((wJalr 4).imm.signExtend 64).toNat) % 8 ≠ 0 := by decide +kernel
theorem witness_csrr : ∀ n < 7,
    SeqAt (atPc 0x19 (wCsrr (BitVec.ofNat 32 n))) 0 0x19 (wCsrr (BitVec.ofNat 32 n)) (fetched (atPc 0x19 (wCsrr (BitVec.ofNat 32 n)))) := by
  intro n hn
  apply seqAt_of
  revert hn n; decide +kernel
theorem witness_csrc : SeqAt (atPc 0x1A wCsrc) 0 0x1A wCsrc (fetched (atPc 0x1A wCsrc)) := seqAt_of (by decide +kernel)
theorem witness_halt : SeqAt (atPc 0x1F wHalt) 0 0x1F wHalt (fetched (atPc 0x1F wHalt)) := seqAt_of (by decide +kernel)

/-- An answered next state. -/
def answers (i : Instr) (s : State) : Bool := match exec i s with | .next _ => true | _ => false

theorem of_answers {i : Instr} {s : State} (h : answers i s = true) : ∃ t, exec i s = .next t := by
  unfold answers at h
  split at h
  · exact ⟨_, ‹_›⟩
  · cases h

theorem witness_sequencerRegisterFrame : ∀ x ∈ [(Instr.alu 0 (wAlu 0), 0x00, wAlu 0), (.alui 0 wAlui, 0x01, wAlui), (.lih 0 wLih, 0x02, wLih),
      (.br 0 (wBr 1 8), 0x10, wBr 1 8), (.jal 0 (wJal 8), 0x11, wJal 8), (.jalr 0 (wJalr 8), 0x12, wJalr 8), (.csrr 0 (wCsrr 6), 0x19, wCsrr 6)],
    SeqAt (atPc x.2.1 x.2.2) 0 x.2.1 x.2.2 (fetched (atPc x.2.1 x.2.2)) ∧ ∃ t, exec x.1 (atPc x.2.1 x.2.2) = .next t := by
  intro x hx
  refine ⟨seqAt_of ?_, of_answers ?_⟩ <;> (revert hx x; decide +kernel)

/-- SCR_YIELD for task list 0 and STREAM for the fetch engine stand at the ISSUE's address. -/
theorem witness_issue : ∀ x ∈ [(0, 0x80), (8, 0x10)],
    let w := wIssue x.1
    let s := atPc 0x18 w [(0x200, [x.2, 0])]
    let u := (found s).seqUnit 0 0x18
    SeqAt s 0 0x18 w (fetched s) ∧ ∃ pa d1 bs d2, Run.narrow u (effective (fetched s) 0 w : Nat) 16 {} (fetched s) = (.ok pa, d1) ∧
      d1.readMem u.req pa 16 = (bs, d2) ∧ bs.any PByte.poison = false ∧
      routable (leNat ((bs.map PByte.val).take 8) % 256) w.f = true ∧ opListed (leNat ((bs.map PByte.val).take 8) % 256) = true ∧
      ¬ (leNat ((bs.map PByte.val).take 8) % 256 = 0x18 ∧ w.f = 8) ∧ (d2.core 0).waiting.length < 32 ∧ (d2.tasks 0 w.f).length < 32 := by
  intro x hx
  refine ⟨seqAt_of ?_, A 0x200, _, _, _, eq_of_okVal ?_, (Prod.eta _).symm, ?_⟩ <;> (revert hx x; decide +kernel)

def haltedJob : State :=
  { dev := { cores := [(0, { ctx := some 1, halted := true })], ctxs := [(1, { st := .running, job := some { mask := 1 } })] } }
theorem witness_contextDone : haltedJob.dev.awake = true ∧ (1 : Fin 16) ≠ 0 ∧ (haltedJob.dev.ctx 1).st = .running ∧
    haltedJob.dev.coresOf 1 = [0] ∧ (∀ c ∈ haltedJob.dev.coresOf 1, haltedJob.dev.coreDone c = true) := by decide +kernel

/-! Results that the specification states. -/

/-- ADD of 5 and 3 (08_jobs_contexts_and_translation.md R298). -/
theorem test_add : (after (.alu 0 (wAlu 0)) (atPc 0x00 (wAlu 0))).sreg 0 3 = 8 := by decide +kernel
/-- An immediate is sign-extended: 5 + (-1). -/
theorem test_alui : (after (.alui 0 wAlui) (atPc 0x01 wAlui)).sreg 0 3 = 4 := by decide +kernel
/-- LIH keeps the lower half. -/
theorem test_lih : (after (.lih 0 wLih) (atPc 0x02 wLih)).sreg 0 1 = 0x700000005 := by decide +kernel
/-- LD with f = 6 sign-extends four bytes. -/
theorem test_ld : (after (.ld 0 ⟨3, 4, 0, 6, 0⟩) (atPc 0x08 ⟨3, 4, 0, 6, 0⟩ [(0x200, [0x80000001])])).sreg 0 3 = 0xFFFFFFFF80000001 := by
  decide +kernel
/-- ST writes the low bytes of b, low byte first. -/
theorem test_st : byteAfter (.st 0 wSt) (atPc 0x09 wSt) 0x210 = 5 ∧ byteAfter (.st 0 wSt) (atPc 0x09 wSt) 0x211 = 0 := by decide +kernel
/-- SLT and SLTU of 5 against -8. -/
theorem test_slt : (after (.alu 0 ⟨3, 1, 5, 9, 0⟩) (atPc 0x00 ⟨3, 1, 5, 9, 0⟩)).sreg 0 3 = 0 ∧
    (after (.alu 0 ⟨3, 1, 5, 10, 0⟩) (atPc 0x00 ⟨3, 1, 5, 10, 0⟩)).sreg 0 3 = 1 := by decide +kernel
/-- A branch backwards. -/
theorem test_br : (after (.br 0 (wBr 1 0xFFFFFFF8)) (atPc 0x10 (wBr 1 0xFFFFFFF8))).pc 0 = coreMemBase 0 - 8 := by decide +kernel
theorem test_jal : (after (.jal 0 (wJal 16)) (atPc 0x11 (wJal 16))).pc 0 = coreMemBase 0 + 16 ∧
    (after (.jal 0 (wJal 16)) (atPc 0x11 (wJal 16))).sreg 0 6 = BitVec.ofNat 64 (coreMemBase 0 + 8) := by decide +kernel
theorem test_jalr_misaligned : ((after (.jalr 0 (wJalr 4)) (atPc 0x12 (wJalr 4))).ctx 0).st = .faulted := by decide +kernel
theorem test_halt : ((after (.halt 0 wHalt) (atPc 0x1F wHalt)).core 0).halted = true := by decide +kernel
theorem test_issue : (after (.issue 0 (wIssue 0)) (atPc 0x18 (wIssue 0) [(0x200, [0x80, 0])])).tasks 0 0 =
    [{ w0 := 0x80, w1 := 0, id := 1, pc := coreMemBase 0, ctx := 0, task := 0 }] := by decide +kernel
theorem test_contextDone : ((after (.contextDone 1) haltedJob).ctx 1).st = .loaded := by decide +kernel

/-! ### Memory, slot state and page faults -/

/-- One module of 8 GiB on each channel, in use. -/
def ddrMods : List Module := (List.range 32).map (fun n =>
  { channel := n, capacity := 8, ranks := 1, rate := 6400, supported := true, serial := n, trains := true })
def ddrDev : Dev := { mem := { modules := ddrMods, ddrUp := true } }
def plain : State := { dev := ddrDev }
def wbytes : List PByte := [{ val := 1 }, { val := 0 }, { val := 3, poison := true }]
def rdmaPkt : Rdma := { psn := 0, key := 0, va := 0, len := 8 }

theorem witness_readKeepsBytes : ddrDev.mem.flips = [] ∧ ddrDev.mem.symErrs = [] ∧ ddrDev.mem.tagErrs = [] ∧
    ddrDev.home (A 0) = .coreMem 0 ∧ ddrDev.home (A 0x3FFFFFF) = .coreMem 0 ∧ ddrDev.home (sharedBase + 64) = .shared 0 ∧
    ddrDev.home 0x40 = .ddr ∧ ddrDev.home (ddrDev.ddrBytes - 1) = .ddr := by decide +kernel
theorem witness_memoryStaysCanonical : Memory.wf plain.dev.mem.cells = true ∧
    ∀ i ∈ [Instr.memoryRead {} (BitVec.ofNat 64 (A 0)) 8 false, .memoryWrite {} (BitVec.ofNat 64 (A 0)) wbytes false, .scrub (.die 0), .patrol 0,
      .rdmaWrite 0 rdmaPkt, .rdmaRead 0 rdmaPkt 0], ∃ t, exec i plain = .next t := by
  refine ⟨by decide +kernel, fun i hi => of_answers ?_⟩
  revert hi i
  decide +kernel
theorem witness_memoryStaysCanonical_seq : Memory.wf (atPc 0x08 wLd).dev.mem.cells = true ∧ Memory.wf (atPc 0x09 wSt).dev.mem.cells = true ∧
    (∃ t, exec (.ld 0 wLd) (atPc 0x08 wLd) = .next t) ∧ ∃ t, exec (.st 0 wSt) (atPc 0x09 wSt) = .next t :=
  ⟨by decide +kernel, by decide +kernel, of_answers (by decide +kernel), of_answers (by decide +kernel)⟩

/-- A request of 4 bytes to core memory 0, to shared memory and to DDR5. -/
theorem witness_memoryAnswers : ∀ a ∈ [A 0, sharedBase, 0x1000],
    plain.dev.awake = true ∧ plain.dev.pins.tripped = false ∧ (found plain).route none (bits a 63 48) = .here ∧
      ¬ (regBase ≤ bits a 47 0 ∧ bits a 47 0 < regBase + 2 ^ 32) ∧ (found plain).requestCode {} (bits a 47 0) 4 false = (0, none) ∧
      ∀ i < 4, (found plain).poisoned (bits a 47 0 + i) = false := by decide +kernel

def slotState : State := withQ [(0, qent 2 0x1000)] (core0 id)
theorem witness_slotRequests : slotState.dev.awake = true ∧ slotState.dev.pins.tripped = false ∧ slotState.dev.reset = none ∧
    ∃ e, slotState.dev.queue 0 0 = some e ∧ 1 < e.count ∧ ∀ x ∈ e.keys 0 1, (slotState.dev.slot x).owner = 0 ∧ (slotState.dev.slot x).full = false := by
  refine ⟨by decide +kernel, by decide +kernel, by decide +kernel, { stateIdx := 0, slotLen := 512, count := 2, home := 0, base := 0x1000 }, ?_⟩
  decide +kernel

theorem witness_scrub : plain.dev.awake = true ∧ plain.dev.reset = none ∧ plain.dev.isSet F.SHM_CTRL_scrub_en 3 = true ∧
    plain.dev.isSet F.CMEM_CTRL_scrub_en 3 = true ∧ (Dev.ScrubBlock.die 31).wf = true := by decide +kernel
theorem witness_patrol : plain.dev.awake = true ∧ plain.dev.reset = none ∧ plain.dev.mem.selfRefresh = false ∧
    0 < plain.dev.fld F.DDR_CTRL_patrol_hours 7 ∧ 0 < plain.dev.ddrBytes / 32 / 64 := by decide +kernel

def pageFault : FaultInfo := { cause := 0x01, ctx := 0, engine := 0x20, vaddr := A 0x1234 }
def sPageFault : State := withDev (fun d => d.onCtx 0 (fun x => { x with pageFaults := [pageFault] }))
  (core0 (fun k => { k with streams := [{ w0 := 0x10, w1 := 0, id := 1, stopped := some (A 0x1234) }] }))
theorem witness_pageFaultResume : sPageFault.dev.awake = true ∧ sPageFault.dev.pins.tripped = false ∧ (sPageFault.dev.ctx 0).st = .running ∧
    (found sPageFault).pagePresent 0 (A 0x1FFF) = true := by decide +kernel
theorem witness_faultDeadline : sPageFault.dev.awake = true ∧ (sPageFault.dev.ctx 0).st = .running ∧
    (sPageFault.dev.ctx 0).pageFaults.find? (fun f => f.vaddr = A 0x1234) = some pageFault := by decide +kernel
theorem witness_fatalFault : pageFault.ctx < 16 ∧ (plain.dev.ctx pageFault.ctx).st ≠ .faulted ∧ (plain.dev.ctx pageFault.ctx).st ≠ .stopping ∧
    plain.dev.ringFull = false ∧ plain.dev.pendingRecs = [] := by decide +kernel

/-- A write takes the range and no byte beside it. -/
theorem test_memoryWrite : byteAfter (.memoryWrite {} (BitVec.ofNat 64 (A 2)) wbytes false) plain 2 = 1 ∧
    byteAfter (.memoryWrite {} (BitVec.ofNat 64 (A 2)) wbytes false) plain 4 = 3 ∧
    byteAfter (.memoryWrite {} (BitVec.ofNat 64 (A 2)) wbytes false) plain 5 = 0 := by decide +kernel
/-- An address that no target holds answers DECODE_ERR, code 4 (01_package_and_fabric.md R29, R36). -/
theorem test_memoryRead_hole : (after (.memoryRead { master := 0x10 } 0x0D0000000000 8 false) plain).out = [.response 0x10 4 []] := by decide +kernel
theorem test_fillAdvance : ((after (.fillAdvance {} 0 0 1 512 false false false) slotState).slot 1).full = true ∧
    ((after (.fillAdvance {} 0 0 1 511 false false false) slotState).slot 1).full = false := by decide +kernel
theorem test_drain : ((after (.drain {} 0 0 0 false) (withDev (fun d => d.setSlot 0 { fill := 512, full := true }) slotState)).slot 0).full = false := by
  decide +kernel
theorem test_pageFaultResume : ((after (.pageFaultResume 0 (BitVec.ofNat 48 (A 0x1FFF))) sPageFault).core 0).streams.map Op.stopped = [none] := by
  decide +kernel
theorem test_faultDeadline : ((after (.faultDeadline 0 (BitVec.ofNat 48 (A 0x1234))) sPageFault).ctx 0).st = .faulted := by decide +kernel
theorem test_scrub : (after (.scrub (.half 0 false)) { dev := { mem := { flips := [(A 0x40, [3])] } } }).flipsAt (A 0x40) = [] := by decide +kernel

theorem witness_tileLoads : let s := sDaTile; let o := da 0x20 0; let d := taken s 0x20; let w := DaWord.of o
    let q : QEntry := { stateIdx := 0, slotLen := 0x200000, count := 1, home := 0, base := 0x1000 }
    ExecStarts s {} 0 0x20 o d ∧ ArrayWord d 0 o ∧ ArrayFormats w ∧ (w.paired = true → w.slot % 2 = 0) ∧ d.queue 0 w.src = some q ∧ q.home = 0 ∧
      LinksUp d 0 0 w ∧ w.layout.bytes ≤ d.slotFill 0 q (d.head 0 w.src) ∧ d.home (q.addr 0 (d.head 0 w.src)) = .coreMem 0 ∧ Sound d := by
  refine ⟨starts (by decide +kernel), by unfold ArrayWord; decide +kernel, by unfold ArrayFormats; decide +kernel, by decide +kernel,
    by decide +kernel, rfl, by unfold LinksUp; decide +kernel, by decide +kernel, by decide +kernel, by unfold Sound; decide +kernel⟩

theorem witness_passAccumulates : let s := sDaPass; let o := da 0x21 0; let d := taken s 0x21; let w := DaWord.of o
    let q : QEntry := { stateIdx := 0, slotLen := 0x20000, count := 1, home := 1, base := 0 }; let k := d.head 0 w.src
    ExecStarts s {} 0 0x21 o d ∧ ArrayWord d 0 o ∧ ArrayFormats w ∧ (w.sel ≠ 3 → w.rows ≤ 128) ∧ d.queue 0 w.src = some q ∧ q.home = w.sel ∧
      LinksUp d 0 0 w ∧ (∀ i < d.unitSpan 0 q k, d.slotFull 0 q ((k + i) % q.count) = true) ∧ (∀ a ∈ w.arrays 0, PassReady d o w a tile0) ∧
      w.arrays 0 = [0] ∧ (q.blocks 0 k).find? (fun x => x.1 = 0) = some (0, 0) ∧ d.block 0 0 = some block0 ∧
      (∀ r ∈ block0.rows, (Fmt.ofCode w.aFmt).isMx = true → r.scales.length = ceilDiv w.reduction 32) := by
  refine ⟨starts (by decide +kernel), by unfold ArrayWord; decide +kernel, by unfold ArrayFormats; decide +kernel, by decide +kernel,
    by decide +kernel, by decide +kernel, by unfold LinksUp; decide +kernel, by decide +kernel, fun a ha => ?_, by decide +kernel,
    by decide +kernel, by decide +kernel, by decide +kernel⟩
  have h0 : a = 0 := by
    rw [show (DaWord.of (da 0x21 0)).arrays 0 = [0] from by decide +kernel] at ha
    simpa using ha
  subst h0
  exact ⟨⟨tile0, by decide +kernel, by decide +kernel, by decide +kernel, by decide +kernel, by decide +kernel, by decide +kernel⟩,
    by decide +kernel, by decide +kernel, by decide +kernel, by decide +kernel, by decide +kernel, by decide +kernel⟩

theorem witness_exportWritesTheBank : let s := sDaExport; let o := { da 0x22 0 with w0 := 0x22 + 2 ^ 8 }; let d := taken s 0x22; let w := DaWord.of o
    let q : QEntry := { stateIdx := 0, slotLen := 512, count := 1, home := 0, base := 0x1000 }; let k := d.tail 0 w.dst
    ExecStarts s {} 0 0x22 o d ∧ ArrayWord d 0 o ∧ (w.raw = true ∨ w.wFmt ∈ [0, 1, 2, 3, 4, 0xC]) ∧ (w.sel ≠ 3 → w.rows ≤ 128) ∧
      d.queue 0 w.dst = some q ∧ q.home = 0 ∧ LinksUp d 0 8 w ∧ d.slotEmpty 0 q k = true ∧
      (∀ a ∈ w.arrays 0, (d.bank a w.bank).suspect = false ∧ (d.bank a w.bank).audit = 0) ∧
      w.arrays 0 = [0] ∧ w.share 0 = 1 ∧ (d.bank 0 w.bank).outputs = 1 ∧ (Fmt.ofCode w.wFmt).width / 8 ≤ q.slotLen ∧
      d.home (q.addr 0 k) = .coreMem 0 ∧ Sound d := by
  refine ⟨starts (by decide +kernel), by unfold ArrayWord; decide +kernel, by decide +kernel, by decide +kernel,
    by decide +kernel, rfl, by unfold LinksUp; decide +kernel, by decide +kernel, by decide +kernel, by decide +kernel,
    by decide +kernel, by decide +kernel, by decide +kernel, by decide +kernel, by unfold Sound; decide +kernel⟩

theorem witness_importAccumulates : let s := sDaImport; let o := da 0x23 0; let d := taken s 0x23; let w := DaWord.of o
    let q : QEntry := { stateIdx := 0, slotLen := 0x200000, count := 1, home := 0, base := 0x1000 }; let k := d.head 0 w.src
    ExecStarts s {} 0 0x23 o d ∧ ArrayWord d 0 o ∧ ArrayFormats w ∧ (w.sel ≠ 3 → w.rows ≤ 128) ∧ d.queue 0 w.src = some q ∧ q.home = 0 ∧
      LinksUp d 0 0 w ∧ (∀ a ∈ w.arrays 0, w.share a * w.outputs ≤ 65536 ∧ (w.mode = 1 → w.share a ≤ w.maxRows) ∧
        (w.acc = true → (d.bank a w.bank).started = true → (d.bank a w.bank).outputs = w.outputs)) ∧
      w.rows * w.outputs * 16 ≤ q.slotLen ∧ w.rows * w.outputs * 16 ≤ d.slotFill 0 q k ∧ d.home (q.addr 0 k) = .coreMem 0 ∧ Sound d := by
  refine ⟨starts (by decide +kernel), by unfold ArrayWord; decide +kernel, by unfold ArrayFormats; decide +kernel, by decide +kernel,
    by decide +kernel, rfl, by unfold LinksUp; decide +kernel, by decide +kernel, by decide +kernel, by decide +kernel, by decide +kernel,
    by unfold Sound; decide +kernel⟩
theorem witness_daSync_word : ExecStarts sDaSync {} 0 0x24 (da 0x24 0) (taken sDaSync 0x24) ∧ ArrayWord (taken sDaSync 0x24) 0 (da 0x24 0) :=
  ⟨starts (by decide +kernel), by unfold ArrayWord; decide +kernel⟩

/-- A pass stands before the array; its groups are gated and its tile is in its slot. -/
def sReady (groups : Nat) (shadow : Bool) : State :=
  withDev (fun d => d.setArray 0 { array0 with groups, shadow := if shadow then some (0, tile0) else none }) sDaPass
theorem witness_shadowCopy : let s := sReady 8 false
    s.dev.awake = true ∧ s.dev.pins.tripped = false ∧ s.dev.nextPass 0 = some (da 0x21 0, DaWord.of (da 0x21 0)) ∧
      s.dev.tile 0 (DaWord.of (da 0x21 0)).slot = some tile0 ∧ tile0.codesOnly = false ∧ s.dev.coreRuns 0 = true := by decide +kernel
theorem witness_startRamp : (sReady 0 true).dev.rampDue 0 = true ∧ ((sReady 0 true).dev.array 0).groups < 8 := by decide +kernel
theorem witness_stopRamp : State.reset.dev.rampDue 7 = false ∧
    ((withDev (fun d => d.setArray 7 { groups := 8 }) State.reset).dev.array 7).groups ≠ 0 ∧
    (withDev (fun d => d.setArray 7 { groups := 8 }) State.reset).dev.rampDue 7 = false := by decide +kernel

def evOp (op : Nat) (v : Nat) : Op := { w0 := op, w1 := v, id := 1, task := 8 }
theorem witness_events : ∀ o ∈ [evOp 0x19 0, evOp 0x1A 0, evOp 0x1A (2 ^ 31)], let s := inFetch o
    s.dev.awake = true ∧ s.dev.coreRuns 0 = true ∧ (s.dev.core 0).waiting = [o] ∧ bits o.w0 31 24 = 0 ∧ bits o.w0 63 48 = 0 ∧
      bits o.w1 63 48 = 0 ∧ (s.dev.core 0).held = [] ∧ (s.dev.core 0).streams = [] := by decide +kernel
theorem witness_evWait_bounds : (0 + 2 ^ 32 - bits (evOp 0x1A 0).w1 31 0) % 2 ^ 32 < 2 ^ 31 ∧
    2 ^ 31 ≤ (0 + 2 ^ 32 - bits (evOp 0x1A (2 ^ 31)).w1 31 0) % 2 ^ 32 := by decide +kernel
theorem witness_qDrain_slot : let s := sQDrain; let o := { word 0x18 0 with w1 := 0 }; let d := taken s 0x18
    let q : QEntry := { stateIdx := 0, slotLen := 0x200000, count := 1, home := 0, base := 0x1000 }
    ExecStarts s {} 0 0x18 o d ∧ bits o.w0 31 24 = 0 ∧ bits o.w0 63 48 = 0 ∧ bits o.w1 63 48 = 0 ∧ d.queue 0 (bits o.w0 15 8) = some q ∧
      q.home < 4 ∧ d.head 0 (bits o.w0 15 8) < q.count ∧ d.slotFull 0 q (d.head 0 (bits o.w0 15 8)) = true :=
  ⟨starts (by decide +kernel), by decide +kernel, by decide +kernel, by decide +kernel, by decide +kernel, by decide, by decide +kernel,
    by decide +kernel⟩

theorem test_export : byteAfter (.daExport 0 {}) sDaExport 0x1000 = 0 ∧ ((after (.daExport 0 {}) sDaExport).slot 0).full = true := by decide +kernel
theorem test_startRamp : ((after (.startRamp 0) (sReady 0 true)).array 0).groups = 8 := by decide +kernel
theorem test_stopRamp : ((after (.stopRamp 7 3) (withDev (fun d => d.setArray 7 { groups := 8 }) State.reset)).array 7).groups = 5 := by decide +kernel
theorem test_shadowCopy : ((after (.tileShadowCopy 0) (sReady 8 false)).array 0).shadow = some (0, tile0) := by decide +kernel
theorem test_evSignal : Sp.get (fun _ => 0) ((after (.evSignal 0 true) (inFetch (evOp 0x19 0))).core 0).events 0 = 1 := by decide +kernel
theorem test_evWait_waits : ((after (.evWait 0 true) (inFetch (evOp 0x1A 1))).core 0).waiting = [evOp 0x1A 1] := by decide +kernel

/-! ### Operations that stop, the Hoard and the collectives -/

theorem engineStarts {s : State} {env : Env} {code : Nat} {o : Op}
    (h : (s.dev.awake && decide (((found s env).takeTask 0 code).map Prod.fst = some o) &&
      (((taken s code env).core 0).held.takeWhile (fun x => x.id ≠ o.id)).all (fun x => !Dev.sharesEngine x o)) = true) :
    EngineRuns s env 0 .start code o (taken s code env) := by
  rw [Bool.and_eq_true, List.all_eq_true] at h
  exact ⟨fun x hx => by simpa using h.2 x hx, .inl ⟨rfl, starts h.1⟩⟩

/-- The device with the one operation that waits taken by its unit. -/
def fetchTaken (s : State) (o : Op) (env : Env := {}) : Dev :=
  (found s env).onCore 0 (fun k => { k with waiting := [], held := k.held ++ [o] })

theorem fetchStarts {s : State} {env : Env} {code : Nat} {free : Dev → Bool} {o : Op}
    (h : (s.dev.awake && s.dev.coreRuns 0 && decide (o.opcode = code) && free (found s env) && decide ((s.dev.core 0).waiting = [o])) = true) :
    FetchRuns s env 0 .start code free o (fetchTaken s o env) := by
  simp only [Bool.and_eq_true, decide_eq_true_eq] at h
  exact ⟨h.1.1.1.1, h.1.1.1.2, h.1.1.2, .inl ⟨rfl, h.1.2, [], h.2, rfl⟩⟩

/-- The work of an operation stops. -/
def stopOf (r : Except Stop Unit × Dev) : Option Stop := match r.1 with | .ok _ => none | .error x => some x

theorem eq_of_stopOf {r : Except Stop Unit × Dev} {x : Stop} (h : stopOf r = some x) : r = (.error x, r.2) := by
  unfold stopOf at h
  obtain ⟨_ | _, d⟩ := r <;> simp_all

/-- The device on which a unit's work begins. -/
def onHeldStart (d : Dev) (o : Op) : Dev := d.onHeld 0 o.id (fun x => { x with stalled := false })

theorem witness_gmeSync_earlier : let o := { gme 0x38 0 0 with w1 := 0 }; let d := taken sGmeSync 0x38
    EngineRuns sGmeSync {} 0 .start 0x38 o d ∧ bits o.w0 15 8 ≠ 0 ∧ bits o.w0 63 30 = 0 ∧ bits o.w1 63 48 = 0 ∧ o.w1 % 128 = 0 ∧
      ∀ x ∈ (d.core 0).held, x.id = o.id :=
  ⟨engineStarts (by decide +kernel), by decide +kernel, by decide +kernel, by decide +kernel, by decide +kernel, by decide +kernel⟩
theorem witness_veSync_earlier : let o := { ve 0x9F 0 with w1 := 0 }; let d := taken sVeSync 0x9F
    EngineRuns sVeSync {} 0 .start 0x9F o d ∧ bits o.w0 11 8 ≠ 0 ∧ bits o.w0 15 12 = 0 ∧ bits o.w0 31 29 = 0 ∧ bits o.w0 63 32 = 0 ∧ o.w1 = 0 ∧
      ∀ x ∈ (d.core 0).held, x.id = o.id :=
  ⟨engineStarts (by decide +kernel), by decide +kernel, by decide +kernel, by decide +kernel, by decide +kernel, by decide +kernel,
    by decide +kernel⟩

/-- A ROUTE whose block is all zero, a GATHER whose block is, and a DA_TILE whose word has a reserved bit. -/
def sRouteBad : State := inFetch (word 0x40 0)
def sGatherBad : State := inTask (gme 0x30 0 0)
def sTileBad : State := inTask (da 0x20 (2 ^ 31))
theorem witness_route_fatal : ∃ r, let o := { word 0x40 0 with task := 8 }; let d := fetchTaken sRouteBad o
    FetchRuns sRouteBad {} 0 .start 0x40 (fun d => d.walkerFree 0) o d ∧
      Run.route (d.unitOf 0 o 0x74) o (onHeldStart d o) = (.error r, (Run.route (d.unitOf 0 o 0x74) o (onHeldStart d o)).2) :=
  ⟨.fatal 0x11 0 0 0 none, fetchStarts (by decide +kernel), eq_of_stopOf (by decide +kernel)⟩
theorem witness_gather_fatal : ∃ r, let o := gme 0x30 0 0; let d := taken sGatherBad 0x30
    EngineRuns sGatherBad {} 0 .start 0x30 o d ∧
      Run.gather (d.unitOf 0 o (Dev.execEngine 0 o)) o (onHeldStart d o) =
        (.error r, (Run.gather (d.unitOf 0 o (Dev.execEngine 0 o)) o (onHeldStart d o)).2) :=
  ⟨.fatal 0x08 0 0 0 none, engineStarts (by decide +kernel), eq_of_stopOf (by decide +kernel)⟩
theorem witness_tile_fatal : ∃ r, let o := da 0x20 (2 ^ 31); let d := taken sTileBad 0x20
    ExecStarts sTileBad {} 0 0x20 o d ∧
      Run.daTile (d.unitOf 0 o (Dev.execEngine 0 o)) o (onHeldStart d o) =
        (.error r, (Run.daTile (d.unitOf 0 o (Dev.execEngine 0 o)) o (onHeldStart d o)).2) :=
  ⟨.fatal 0x06 0 0 0 (some 48), starts (by decide +kernel), eq_of_stopOf (by decide +kernel)⟩

/-- A context whose table maps nothing. -/
def sPaged : State :=
  { dev := ((({ cores := [(0, { ctx := some 1, waiting := [{ word 0x10 0 with task := 8, ctx := 1 }] })]
                ctxs := [(1, { st := .running, job := some { mask := 1 } })] } : Dev).setFld F.CTX_PT_ROOT_valid 0 1 1).setFld
              F.CTX_PT_ROOT_root 0 1 (A 0x8000 / 4096)) }
theorem witness_stLoad_page : let o := { word 0x10 0 with task := 8, ctx := 1 }
    let d := (found sPaged).onCore 0 (fun k => { k with waiting := [], streams := k.streams ++ [o], nextStream := (k.nextStream + 1) % 32 })
    StreamRuns sPaged {} 0 .start 0x10 o d ∧ ∃ va dv,
      Run.stLoad (d.unitOf 0 o 0x20) o (d.onStream 0 o.id (fun x => { x with stalled := false })) =
        (.error (.page va dv), (Run.stLoad (d.unitOf 0 o 0x20) o (d.onStream 0 o.id (fun x => { x with stalled := false }))).2) :=
  ⟨⟨by decide +kernel, by decide +kernel, by decide +kernel, .inl ⟨rfl, by decide +kernel, by decide +kernel,
    { word 0x10 0 with task := 8, ctx := 1 }, [], by decide +kernel, by decide +kernel, rfl⟩⟩, A 0x100, 0, eq_of_stopOf (by decide +kernel)⟩

theorem witness_hoardWords : ∀ x ∈ [(sPop, 0x52, 7), (sTurn, 0x53, 0), (sDrop, 0x54, 0)],
    let o := { word x.2.1 1 with w1 := x.2.2, task := 8 }; let d := fetchTaken x.1 o
    FetchRuns x.1 {} 0 .start x.2.1 (fun d => d.hoardFree 0) o d ∧ HoardWord d o ∧
      ((x.1.dev.core 0).hoard.stack (bits o.w0 13 8)) = [frame1] ∧ frame1.tag = 7 := by
  intro x hx
  refine ⟨fetchStarts ?_, ?_⟩
  · revert hx x; decide +kernel
  · unfold HoardWord; revert hx x; decide +kernel

/-- A home ring, so that frames leave the resident region. -/
def homeJob : Job := { hoardJob with hoards := hoardJob.hoards.map (fun i => { i with homeBytes := 0x4000 }) }
def wqEntry (body : Nat) (ids : List Nat) : WEntry := { body := A body, count := 1, frames := [1], group := 0, bucket := 0, bytes := 0, ids }
def sBack : State := withDev (fun d => (d.setFld F.HD_CTRL_wb_ahead 0 0 1).setFld F.HD_CTRL_pf_en 0 0 1)
  (withH { hoard1 with resident := [{ frame := 1, at_ := 0, size := 0x500 }], resHead := 0x500 } (core0 id [] (some homeJob)))
def sAhead : State := withDev (fun d => (d.setFld F.HD_CTRL_pf_window 0 0 1).setFld F.HD_CTRL_pf_en 0 0 1)
  (withH { frames := [{ frame1 with home := true }], pushNo := 1, turned := [1] } (core0 id [] (some homeJob)))
def sBubble : State := withDev (fun d => d.setFld F.WQ_CTRL_drain_en 0 0 1)
  (withH { hoard1 with queue := [wqEntry 0x600 []] } (core0 id [(0x600, [0x80, 0])] (some homeJob)))
def sComplete : State := withH { hoard1 with running := [wqEntry 0x600 [9]] } (core0 id [] (some homeJob))

theorem witness_wqFlush_empty : let o := { word 0x59 0 with w1 := 0, task := 8 }
    FetchRuns sWFlush {} 0 .start 0x59 (fun d => d.hoardFree 0) o (fetchTaken sWFlush o) ∧ bits o.w0 63 14 = 0 ∧ o.w1 = 0 ∧
      (sWFlush.dev.core 0).hoard.queue = [] ∧ (sWFlush.dev.core 0).hoard.issuing = none ∧ (sWFlush.dev.core 0).hoard.running = [] :=
  ⟨fetchStarts (by decide +kernel), by decide +kernel, by decide +kernel, by decide +kernel, by decide +kernel, by decide +kernel⟩
theorem witness_wqEntryComplete : sComplete.dev.awake = true ∧ sComplete.dev.coreRuns 0 = true ∧
    (sComplete.dev.core 0).hoard.running.find? (fun e => e.ids.all (fun id => !sComplete.dev.outstanding 0 id)) = some (wqEntry 0x600 [9]) := by
  decide +kernel
theorem witness_hoardWriteBack : let h := (sBack.dev.core 0).hoard; let i := sBack.dev.hoardItem 0
    let size (l : List ResidentCopy) : Nat := l.foldl (fun n r => n + r.size) 0
    let r : ResidentCopy := { frame := 1, at_ := 0, size := 0x500 }
    sBack.dev.awake = true ∧ sBack.dev.coreRuns 0 = true ∧ i.homeBytes ≠ 0 ∧
      i.resBytes - size h.resident + size (h.resident.filter (fun r => h.clean r.frame && Run.mayEvict h .push r)) <
        sBack.dev.fld F.HD_CTRL_wb_ahead 0 * 2 ^ 21 ∧
      h.resident.find? (fun r => !h.pinned r.frame && !h.clean r.frame) = some r ∧ h.frame r.frame = some frame1 ∧
      done (Run.writeBackFrame (sBack.dev.hoardUnit 0) frame1 r (found sBack)) = true := by decide +kernel
theorem witness_hoardPrefetch : let h := (sAhead.dev.core 0).hoard; let f := { frame1 with home := true }
    sAhead.dev.awake = true ∧ sAhead.dev.coreRuns 0 = true ∧ (sAhead.dev.hoardItem 0).homeBytes ≠ 0 ∧ sAhead.dev.isSet F.HD_CTRL_pf_en 0 = true ∧
      h.turned.findSome? (fun k => (h.stack k).find? (fun f => (h.copy f.id).isNone && decide (f.id ≤ h.pushNo))) = some f ∧
      f.size ≤ sAhead.dev.fld F.HD_CTRL_pf_window 0 * 2 ^ 21 ∧
      okVal (Run.copyIn (sAhead.dev.hoardUnit 0) .prefetch f (found sAhead)) = some true := by decide +kernel
theorem witness_wBubbleIssue : let h := (sBubble.dev.core 0).hoard; let u := sBubble.dev.hoardUnit 0 (wqEntry 0x600 []).by_
    let r := Run.wqNext u F.WQ_BUBBLE_CNT_entries (found sBubble)
    sBubble.dev.awake = true ∧ sBubble.dev.coreRuns 0 = true ∧ h.stopped = none ∧ h.issuing = none ∧ h.queue = [wqEntry 0x600 []] ∧
      (found sBubble).passPending 0 = false ∧ sBubble.dev.isSet F.WQ_CTRL_drain_en 0 = true ∧
      sBubble.dev.tasks 0 (sBubble.dev.fld F.WQ_CFG_task 0) = [] ∧ done r = true ∧ done (Run.wqIssue u r.2) = true := by decide +kernel

theorem witness_collectiveControl : ∀ x ∈ [(sRemap, 0x7A, 0), (sFill, 0x79, 5), (sGradwait, 0x78, 0)],
    let o := { word x.2.1 0 with w1 := x.2.2, task := 8 }; let d := fetchTaken x.1 o
    FetchRuns x.1 {} 0 .start x.2.1 (fun _ => true) o d ∧ ColWord o ∧ bits o.w0 31 16 ≤ x.1.dev.fld F.COL_PLAN_plans 0 o.ctx ∧
      Run.otherCollectives d (d.unitOf 0 o 0x80) o = false ∧ (x.1.dev.ctx o.ctx).slotWaits = [] ∧ (x.1.dev.job o.ctx).planCount = 0 ∧
      x.1.dev.isSet F.COL_BKT_armed 0 o.ctx = false := by
  intro x hx
  refine ⟨fetchStarts ?_, ?_⟩
  · revert hx x; decide +kernel
  · unfold ColWord; revert hx x; decide +kernel

/-- A job runs in context 1; a barrier of group 0 waits there, its time has come, and bucket 0 has fired. -/
def colOp : Op := { w0 := 0x76, w1 := 0, id := 3, ctx := 1, work := [1, 1, 1, 0] }
def colCtx (st : CtxState) (aborted : Bool) : Ctx :=
  { st := st, aborted := aborted, job := some { mask := 1, planCount := 1 }, buckets := [(0, { fired := true })], stepRecord := A 0x1000 }
def colDev (st : CtxState) (aborted : Bool) : Dev :=
  { cores := [(0, { ctx := some 1, held := [colOp] })], ctxs := [(1, colCtx st aborted), (0, colCtx .running false)], now := 5 }
def sCol (st : CtxState) (aborted : Bool) : State :=
  withDev (put [(0x3000, [0, A 0x3100 + 2 ^ 48, 0, 0]), (0x3100, [A 0x400, 4, 0, 0]), (0x1000, [0, 0, 0, A 0x2000]), (0x400, [0x3F800000])])
    { dev := (colDev st aborted).setFld F.COL_PLAN_addr 0 0 (A 0x3000) }
theorem witness_collectiveMessage : (sCol .running false).dev.awake = true ∧ (sCol .running false).dev.pins.tripped = false ∧
    ((sCol .running false).dev.ctx 1).aborted = false ∧ ((sCol .running false).dev.ctx 1).job ≠ none ∧
    ((sCol .running false).dev.ctx 1).st = .running ∧ ((sCol .running false).dev.ctx 1).inbox = [] ∧
    ((sCol .loaded true).dev.ctx 1).aborted = true := by decide +kernel
theorem witness_barrierRelease : (sCol .running false).dev.waitingBarrier 1 0 0 = some (0, colOp) ∧ 4 < (sCol .running false).dev.now ∧
    colOp.work[2]? = some (0 + 1) ∧ 0 ≤ (sCol .running false).dev.now ∧ (sCol .running false).dev.now < 2 ^ 64 := by decide +kernel
theorem witness_abortNotice : ∃ u cur, (sCol .running false).dev.collectiveUnit 1 0 0 0 = some (u, cur) ∧ u.ctx = 1 ∧
    (sCol .running false).dev.awaits 1 0 0 0 7 = true :=
  ⟨(sCol .running false).dev.unitOf 0 colOp 0x81, 0, by decide +kernel, by decide +kernel, by decide +kernel⟩
theorem witness_bucketComplete : ((sCol .running false).dev.ctx 0).buckets.find? (fun k => k.1 = 0 ∧ k.2.fired ∧ ¬ k.2.done) =
      some (0, { fired := true }) ∧ ((sCol .running false).dev.ctx 0).st = .running ∧
    done (Run.bucketWork { engine := 0x80, core := 0, ctx := (0 : Fin 16).val } 0 (found (sCol .running false) {})) = true := by decide +kernel

theorem test_hdPop : ((after (.hdPop 0 .start {}) sPop).core 0).hoard.stack 1 = [] := by decide +kernel
theorem test_hdTurn : ((after (.hdTurn 0 .start {}) sTurn).core 0).hoard.turned = [1] := by decide +kernel
theorem test_barrierRelease : ((after (.barrierRelease 1 0 0 none) (sCol .running false)).core 0).held = [] := by decide +kernel
theorem test_abortNotice : ((after (.abortNotice 1 0 0 0 7) (sCol .running false)).ctx 1).st = .faulted := by decide +kernel
theorem test_collectiveMessage_aborted : (after (.collectiveMessage 1 { src := 7, group := 0, stream := 0, seq := 2, opcode := 0x71 })
    (sCol .loaded true)).out = [.rhanak ((sCol .loaded true).dev.portTo 7) "abort" [7, 1, 0, 0, 2]] := by decide +kernel

/-! ### The fabric links and the mailbox unit -/

def flit0 : List Nat := List.replicate 36 1
/-- Link 0 is up and one flit has been sent on it; the receiver still expects it. -/
def sLink (l : Links) (st : Nat := 2) : State :=
  { withDev (fun d => d.setFld F.FAB_LINK_STATUS_state 0 0 st) State.reset with links := l }
def dirOne (resend : Option Nat) : FabDir := { next := 2, buffer := [(0, flit0), (1, flit0)], resend := resend }

/-- A new flit that is expected, one that fails, one that fails past the limit, one that is not expected. -/
theorem witness_flitReceive : ∀ x ∈ [(({} : FabDir), ([] : List (Nat × Nat)), 0, true), ({}, [(35, 32)], 0, true),
      ({ fails := 63 }, [(0, 31)], 0, true), (dirOne (some 1), [], 1, false)],
    let s := sLink [(0, x.1)]
    s.dev.awake = true ∧ s.dev.linkUp 0 = true ∧ (dirOf s 0 false).send flit0 ≠ none ∧
      ((dirOf s 0 false).send flit0).map Prod.fst = some x.2.2.1 ∧ failedWords flit0 x.2.1 = x.2.1.length ∧
      (x.2.2.1 == (dirOf s 0 false).expect) = x.2.2.2 := by decide +kernel
theorem witness_flitReceive_limit : max 1 ((sLink []).dev.fld F.FAB_CTRL_replay_limit) < 63 + 1 := by decide +kernel
theorem witness_flitReceive_none : (sLink [] 0).dev.linkUp 0 = false ∧
    ({ next := 2, buffer := [(1, flit0)], resend := some 0 } : FabDir).send flit0 = none := by decide +kernel
theorem witness_fabricNak : (sLink [(0, dirOne none)]).dev.linkUp 0 = true ∧ ∃ x ∈ (dirOf (sLink [(0, dirOne none)]) 0 false).buffer, x.1 = 1 :=
  ⟨by decide +kernel, (1, flit0), by decide +kernel, rfl⟩
theorem witness_fabricAck : let s := sLink [(0, { dirOne none with expect := 1 })]; s.dev.linkUp 0 = true ∧ 0 < (dirOf s 0 false).expect := by
  decide +kernel
theorem witness_fabricTraining : (sLink [] 1).dev.awake = true ∧ (sLink [] 1).dev.fld F.FAB_LINK_STATUS_state 0 0 = 1 ∧
    ∀ x ∈ Dev.trainBefore 0, 2 ≤ ((sLink [] 1).dev.setFld F.FAB_LINK_STATUS_state 0 x 2).fld F.FAB_LINK_STATUS_state 0 x := by decide +kernel
def sTrain : State := withDev (fun d => (Dev.trainBefore 0).foldl (fun d x => d.setFld F.FAB_LINK_STATUS_state 0 x 2) d) (sLink [] 0)
theorem witness_fabricTraining_after : sTrain.dev.fld F.FAB_LINK_STATUS_state 0 0 = 0 ∧
    ∀ x ∈ Dev.trainBefore 0, 2 ≤ sTrain.dev.fld F.FAB_LINK_STATUS_state 0 x := by decide +kernel
theorem witness_stepKeepsLinks : DirConsistent {} ∧ ∃ t, step { sLink [] with pending := [.fabricTraining 0] } = .next t := by
  refine ⟨by unfold DirConsistent; decide, ?_⟩
  obtain ⟨t, h⟩ := of_answers (i := .fabricTraining 0) (s := sLink []) (by decide +kernel)
  exact ⟨t, h⟩
theorem witness_linksConsistent : LinksConsistent State.reset := by
  intro k
  exact (show DirConsistent {} by unfold DirConsistent; decide)

theorem test_flitReceive : (after (.flitReceive 0 false flit0 []) (sLink [])).out = [.fabric 0 0 "ack" 0] ∧
    (after (.flitReceive 0 false flit0 [(3, 7)]) (sLink [])).out = [.fabric 0 0 "nak" 0] := by decide +kernel
/-- Two inverted wires of one word pass its parity bit (01_package_and_fabric.md R30). -/
theorem test_parity : wordFails 5 [0, 32] = false ∧ wordFails 5 [0] = true := by decide +kernel
theorem test_fabricTraining : (after (.fabricTraining 0) sTrain).linkUp 0 = true := by decide +kernel
theorem test_fabricTrainTimeout : (after (.fabricTrainTimeout 0) (sLink [] 1)).fld F.FAB_LINK_STATUS_state 0 0 = 3 := by decide +kernel

/-- A message of a code with a body. -/
def mail (code len : Nat) : List Byte := leBytes 2 code ++ leBytes 4 7 ++ leBytes 2 len ++ List.replicate (8 + len) 0xA5#8
/-- Channel 8 goes from the board controller to the one with identity 0x40; `n` messages wait on it. -/
def sMail (n : Nat) (receiver : Nat := 0x40) : State :=
  withDev (fun d => d.setRing 8 { msgs := List.replicate n (mail 0x1234 0) }) (bindCh 8 0x20 receiver State.reset)

theorem witness_mailboxArrival : ∀ len ∈ [0, 240], bodyLength (mail 0x1234 len) = len ∧ Accepts (found (sMail 15)) 0x20 8 ∧
    ((sMail 15).dev.ring 8).msgs.length < 16 ∧ Waits (found (sMail 15)) 8 (((sMail 15).dev.ring 8).msgs ++ [mail 0x1234 len]) := by
  unfold Accepts
  intro len hl
  exact ⟨by revert hl len; decide +kernel, by decide +kernel, by decide +kernel, .inl (by decide +kernel)⟩
theorem witness_mailboxArrival_dropped : 240 < bodyLength (mail 0x1234 241) ∧ ¬ Accepts (found (sMail 0)) 0x21 8 := by
  unfold Accepts; decide +kernel
theorem witness_fullChannel : Accepts (sMail 16).dev 0x20 8 ∧ ((sMail 16).dev.ring 8).msgs.length = 16 ∧
    Waits (sMail 16).dev 8 (((sMail 16).dev.ringPut 8 (mail 0x1234 0)).ring 8).msgs := by
  unfold Accepts
  exact ⟨by decide +kernel, by decide +kernel, .inl (by decide +kernel)⟩
def sBell : Dev := ((sMail 0 2).dev.setFld F.MBX_DB_bits 0 2 (2 ^ 31)).setFld F.MBX_DB_MASK_mask 0 2 (2 ^ 31)
theorem witness_doorbells : (sBell.binding 8).receiver = 2 ∧ (∀ q ∈ sBell.boot.quotes, q.1 ≠ 8) ∧
    bit (sBell.rd .MBX_DB 0 2) 31 = true ∧ bit (sBell.rd .MBX_DB_MASK 0 2) 31 = true := by decide +kernel
theorem witness_mbxCmdTake : ((sMail 2).dev.ring 8).msgs = mail 0x1234 0 :: [mail 0x1234 0] ∧ (∀ q ∈ (sMail 2).dev.boot.quotes, q.1 ≠ 8) ∧
    ((sMail 2).dev.ring 8).collision = false ∧ ((sMail 0).dev.ring 8).msgs = [] ∧
    ((withDev (fun d => d.setRing 8 { d.ring 8 with collision := true }) (sMail 2)).dev.ring 8).collision = true := by decide +kernel
def sSend : State := withDev (fun d => ((d.setFld F.MBX_BIND_sender 0 1 2).setFld F.MBX_BIND_receiver 0 1 0x20)) State.reset
theorem witness_mbxCmdPost : Accepts (found sSend) 2 1 ∧
    bodyLength (wordBytes ((List.range 32).map (fun i => sSend.dev.rd .MBX_SEND 0 (32 * 2 + i)))) ≤ 240 := by unfold Accepts; decide +kernel

/-- Offsets that name a plain register, no register, and the action registers. -/
theorem witness_registerWrite : Reg.ofKey (Reg.PWR_CAP.key 0 0 / 8 * 8) = some (.PWR_CAP, 0, 0) ∧ Reg.PWR_CAP ∉ actionRegs ∧
    Reg.ofKey (Reg.MBX_BIND.key 0 7) = some (.MBX_BIND, 0, 7) ∧ Reg.ofKey 0xFFFFFFF8 = none ∧
    Reg.ofKey (Reg.RST_CP_KICK.key 0 0) = some (.RST_CP_KICK, 0, 0) ∧ Reg.ofKey (Reg.MBX_DB_SET.key 0 3) = some (.MBX_DB_SET, 0, 3) ∧
    (Reg.ofKey (Reg.MBX_CMD.key 0 0)).map Prod.fst = some .MBX_CMD ∧ (Reg.ofKey (Reg.CTX_CMD.key 0 0)).map Prod.fst = some .CTX_CMD ∧
    (Reg.ofKey (Reg.PWR_FREQ.key 0 0)).map Prod.fst = some .PWR_FREQ ∧ (Reg.ofKey (Reg.DA_RETIRE.key 7 0)).map Prod.fst = some .DA_RETIRE := by
  decide +kernel
theorem witness_registerCommands : State.reset.dev.isSet F.DA_RETIRE_retired 7 = false ∧
    (State.reset.dev.setFld F.DA_RETIRE_retired 7 0 1).isSet F.DA_RETIRE_retired 7 = true ∧
    (State.reset.dev.setPfld F.RHK_PORT_STATUS_state 23 2).portUp 23 = true ∧ State.reset.dev.portUp 23 = false ∧
    (State.reset.dev.setPfld F.RHK_PORT_CTRL_enable 23 1).pfld F.RHK_PORT_CTRL_enable 23 ≠ 0 := by decide +kernel

theorem test_mailboxArrival_full : (((after (.mailboxArrival 0x20 8 .processor (mail 0x77 0)) (sMail 16)).ring 8).msgs.length = 16) ∧
    ((after (.mailboxArrival 0x20 8 .processor (mail 0x77 0)) (sMail 16)).ring 8).overwrites = 1 := by decide +kernel
theorem test_mailboxArrival_overlong : ((after (.mailboxArrival 0x20 8 .processor (mail 0x77 241)) (sMail 0)).ring 8).msgs = [] := by decide +kernel
theorem test_retireCmd : (after (.retireCmd 3) State.reset).fld F.DA_RETIRE_reason 3 = 2 := by decide +kernel
/-- A write of 1 to a W1C bit clears it, and one to a read-only bit does not (00_scope.md R13). -/
theorem test_registerWrite_w1c : (after (.registerWrite 0 (BitVec.ofNat 32 (Reg.MBX_ERR_STATUS.key 0 0)) 0xFFFFFFFFFFFFFFFF)
    (withDev (fun d => d.setFld F.MBX_ERR_STATUS_overlong 0 0 1) State.reset)).isSet F.MBX_ERR_STATUS_overlong = false := by decide +kernel
theorem test_mbxDbSet : (after (.mbxDbSet 2 5) State.reset).rd .MBX_DB 0 2 = 5 := by decide +kernel

/-! ### Prois commands -/

/-- The message of a command. -/
def cmdBytes (code arg0 ctx : Nat) (body : List Byte) : List Byte :=
  ({ code := code, context := ctx, length := body.length, tag := 7, arg0 := arg0, body := body } : Msg).toBytes

/-- Prois runs, and a message stands on channel 0, which carries management commands of the board controller. -/
def proisDev : Dev := ({ mem := { modules := ddrMods, ddrUp := true }, boot := { runs := .prois, screened := true } } : Dev).setFld F.MBX_BIND_privilege 0 0 3
def sCmd (code arg0 ctx : Nat) (body : List Byte := []) (f : Dev → Dev := id) : State :=
  { dev := f (proisDev.setRing 0 { msgs := [cmdBytes code arg0 ctx body] }) }

/-- The device once the command is taken from its ring, and the command. -/
def afterTake (s : State) : Dev := ((found s).ringTake 0).2
def headMsg (s : State) : Msg := Msg.ofBytes ((((found s).ringTake 0).1).getD [])

/-- The command is taken up and accepted. -/
def accOk (code : Nat) (s : State) : Bool :=
  s.dev.awake && ((found s).headCommand 0 code).isSome && ((found s).ringTake 0).1.isSome &&
    ((afterTake s).refusal ((found s).whoOn 0) (headMsg s)).isNone

theorem accepted_of {code : Nat} {s : State} (h : accOk code s = true) : Accepted s 0 code (headMsg s) (afterTake s) := by
  simp only [accOk, Bool.and_eq_true, Option.isSome_iff_ne_none, Option.isNone_iff_eq_none] at h
  obtain ⟨⟨⟨h1, h2⟩, h3⟩, h4⟩ := h
  obtain ⟨bs, hb⟩ := Option.ne_none_iff_exists'.1 h3
  exact ⟨⟨h1, h2, bs, Prod.ext hb rfl, by simp [headMsg, hb]⟩, h4⟩

/-- States in which a command is accepted, each with the further condition of a clause. -/
def Meets (code : Nat) (l : List (State × (Msg → Dev → Bool))) : Prop :=
  ∀ x ∈ l, Accepted x.1 0 code (headMsg x.1) (afterTake x.1) ∧ x.2 (headMsg x.1) (afterTake x.1) = true

theorem meets_of {code : Nat} {l : List (State × (Msg → Dev → Bool))}
    (h : l.all (fun x => accOk code x.1 && x.2 (headMsg x.1) (afterTake x.1)) = true) : Meets code l := by
  intro x hx
  have := List.all_eq_true.1 h x hx
  rw [Bool.and_eq_true] at this
  exact ⟨accepted_of this.1, this.2⟩

/-- No further condition. -/
def any2 : Msg → Dev → Bool := fun _ _ => true
def zeros (n : Nat) : List Byte := List.replicate n 0#8
/-- Function f is stopped. -/
def stop (f : Nat) (d : Dev) : Dev := d.setStopped f true
def sect1 : Section :=
  { va := 0x10000, kind := 0, core := 0, leaf := 3, init := false, size := 0x4000, imgOff := 0, initBytes := 0, pa := A 0 }
def job1 : Job :=
  { mask := 1, owner := 0x20, sections := [sect1], ptBase := 0x200000, ptPages := 8,
    coreItems := [{ core := 0, base := 0x10000, bytes := 0x4000, qtable := 0x11000, entry := 0x10008, pa := A 0 }],
    channels := [{ role := 1, core := 0, peer := 0x40, va := 0, channel := 9 }] }
/-- Context 1 in a state. -/
def inCtx (st : CtxState) (d : Dev) : Dev := d.setCtx 1 { st := st, job := some job1 }
/-- A staging window of 2 MiB. -/
def window (d : Dev) : Dev := d.onEth (fun e => { e with windows := [(0x20, 0x100000, 0x200000)] })

theorem witness_refusalOrder_head : (found (sCmd 1 0 0)).headCommand 0 2 = none := by decide +kernel
/-- A refused code, a foreign context, and a length, a context and a reserved byte that are not allowed. -/
theorem witness_refusalOrder : ∀ x ∈ [(sCmd 0x08 0 0 [] (fun d => { d with boot := { d.boot with runs := .rom } }), 0x08),
      (sCmd 0x41 0 0 [] (fun d => d.setFld F.MBX_BIND_privilege 0 0 1), 0x41),
      (sCmd 0x05 0 1 [] (fun d => (inCtx .loaded d).setFld F.MBX_BIND_privilege 0 0 2 |>.setFld F.MBX_BIND_sender 0 0 0x41), 0x05),
      (sCmd 0x41 0 0 [0], 0x41), (sCmd 0x41 0 1, 0x41), (sCmd 0x42 1 16, 0x42), (sCmd 0x45 0 0 (zeros 3 ++ [1] ++ zeros 2), 0x45)],
    x.1.dev.awake = true ∧ (found x.1).headCommand 0 x.2 = some (headMsg x.1) ∧ ((found x.1).ringTake 0).1.isSome = true ∧
      ((afterTake x.1).refusal ((found x.1).whoOn 0) (headMsg x.1)).isSome = true := by decide +kernel

theorem witness_getInfo : Meets 0x01 [(sCmd 1 0 0, any2)] := meets_of (by decide +kernel)
theorem witness_getStatus : Meets 0x02 [(sCmd 2 0 0, fun _ d => (List.range 4).all (fun k => (d.runsOn k).all (fun n => decide (n < 16))))] :=
  meets_of (by decide +kernel)
theorem witness_getCounters : Meets 0x03 [(sCmd 3 0xFF 0, fun m _ => (windowCounters m.arg0).isEmpty),
    (sCmd 3 Reg.DA_PASS_CNT.row.window 0, fun m _ => !(windowCounters m.arg0).isEmpty)] := meets_of (by decide +kernel)
theorem witness_getTelemetry : Meets 0x04 ((List.range 6).map (fun n => (sCmd 4 n 0, fun m _ => m.arg0 == n))) := meets_of (by decide +kernel)
theorem witness_getFaultRecord : Meets 0x05 [(sCmd 5 0 15, any2)] := meets_of (by decide +kernel)
theorem witness_getFlags : Meets 0x06 [(sCmd 6 (2 ^ 16) 1, fun m _ => decide (2 ^ 16 ≤ m.arg0)), (sCmd 6 (2 ^ 16 - 1) 1, fun m _ => decide (m.arg0 < 2 ^ 16))] :=
  meets_of (by decide +kernel)
theorem witness_ackAlert : Meets 0x08 [(sCmd 8 64 0, fun m _ => decide (64 ≤ m.arg0)), (sCmd 8 63 0, fun m _ => decide (m.arg0 < 64))] :=
  meets_of (by decide +kernel)
theorem witness_setEventMask : Meets 0x09 [(sCmd 9 (2 ^ 11) 0, fun m _ => decide (2 ^ 11 ≤ m.arg0)), (sCmd 9 (2 ^ 11 - 1) 0, fun m _ => decide (m.arg0 < 2 ^ 11))] :=
  meets_of (by decide +kernel)
theorem witness_getQuote : Meets 0x60 [(sCmd 0x60 0 0 (zeros 32), fun _ d => (d.ring 1).msgs.isEmpty && d.boot.quotes.isEmpty)] := meets_of (by decide +kernel)

/-- A smallest job image: one page of code, one page with an empty queue table, one event channel. -/
def image : List Byte :=
  wordBytes [0x4A01 + 2 * 2 ^ 16, 240, 64, 128, 112, 0, 0, 0,
    0x10000 + 3 * 2 ^ 52, 0x1000, 0, 0, 0x11000 + 2 ^ 57, 0x1000, 0, 0,
    1 + 48 * 2 ^ 16, 1 + 2 ^ 16, 0x10000, 0, 0, 0,
    2 + 40 * 2 ^ 16, 0, 0x10000, 0x2000, 0x11000,
    5 + 24 * 2 ^ 16, 1 + 0x40 * 2 ^ 16, 0x10800]
def loadBody (n event : Nat) : List Byte := leBytes 8 0x100000 ++ leBytes 8 n ++ leBytes 1 event
def loads (m : Msg) (d : Dev) : Option Nat :=
  let r := d.imageRead (field m.body 0 8) (field m.body 8 8)
  match r.2.loadImage m.context 0x20 (field m.body 16 1) r.1 with | .ok _ => none | .error e => some e
def atStage (d : Dev) : Dev := (window d).pokeRange 0x100000 image
theorem witness_loadJob : Meets 0x20 [(sCmd 0x20 0 1 (loadBody 240 0) (fun d => { d with boot := { d.boot with screened := false } }), fun _ d => !d.boot.screened),
    (sCmd 0x20 0 1 (loadBody 240 0), fun m d => d.boot.screened && !d.inWindow { identity := 0x20, privilege := 3, reply := some 1 } (field m.body 0 8) 240),
    (sCmd 0x20 0 1 (loadBody 240 1) atStage, fun m d => d.boot.screened && decide (loads m d = some 3)),
    (sCmd 0x20 0 1 (loadBody 240 0) atStage, fun m d => d.boot.screened && decide (loads m d = none))] := meets_of (by decide +kernel)
theorem witness_unloadJob : Meets 0x21 ((sCmd 0x21 0 1 [] (inCtx .running), fun _ d => decide ((d.ctx 1).st ∉ [CtxState.loaded, .faulted, .preempted])) ::
    [CtxState.loaded, .faulted, .preempted].map (fun st => (sCmd 0x21 0 1 [] (inCtx st), fun _ d => (d.ctx 1).st == st))) := meets_of (by decide +kernel)
theorem witness_startContext : Meets 0x22 [(sCmd 0x22 0 1, fun _ d => decide ((d.ctx 1).st ≠ .loaded)),
    (sCmd 0x22 0 1 [] (fun d => stop 0 (inCtx .loaded d)), fun _ d => d.isStopped 0),
    (sCmd 0x22 0 1 [] (fun d => ((inCtx .loaded d).setCtx 2 { st := .running }).onCore 0 (fun k => { k with ctx := some 2 })), fun _ d => d.coreBusy 1)] := meets_of (by decide +kernel)
theorem witness_preempt : Meets 0x23 [(sCmd 0x23 0 1 [] (inCtx .loaded), fun _ d => decide ((d.ctx 1).st ≠ .running)), (sCmd 0x23 0 0, fun m _ => m.context == 0),
    (sCmd 0x23 0 1 [] (inCtx .running), fun m d => (d.ctx 1).st == .running && m.context != 0)] := meets_of (by decide +kernel)
theorem witness_resumeContext : Meets 0x24 [(sCmd 0x24 0 1 [] (inCtx .loaded), fun _ d => decide ((d.ctx 1).st ≠ .preempted)),
    (sCmd 0x24 0 1 [] (fun d => stop 0 (inCtx .preempted d)), fun _ d => (d.ctx 1).st == .preempted && d.isStopped 0)] := meets_of (by decide +kernel)
theorem witness_killContext : Meets 0x25 [(sCmd 0x25 0 1, fun _ d => (d.ctx 1).st == .free), (sCmd 0x25 0 0, fun m _ => m.context == 0),
    (sCmd 0x25 0 1 [] (inCtx .loaded), fun m d => decide ((d.ctx 1).st ≠ .free) && m.context != 0)] := meets_of (by decide +kernel)

/-- Context 1 with an empty root table in the firmware's area; its queue table is the page at virtual address 0x11000. -/
def rooted (st : CtxState) (d : Dev) : Dev :=
  ((((inCtx st d).setFld F.CTX_PT_ROOT_valid 0 1 1).setFld F.CTX_PT_ROOT_root 0 1 0x200).onJob 1 (fun j => { j with ptUsed := [0] }))
/-- The page of the queue table mapped through tables at 0x201000, 0x202000 and 0x203000. -/
def paged (st : CtxState) (d : Dev) : Dev :=
  ((((rooted st d).setEntry 0x200000 (0x201000 + 1)).setEntry 0x201000 (0x202000 + 1)).setEntry 0x202000 (0x203000 + 1)).setEntry (0x203000 + 8 * 0x11)
    (A 0x1000 + 0x5)
theorem witness_startContext_ok : Meets 0x22 [(sCmd 0x22 0 1 [] (fun d => (paged .loaded d).setCtx 1 { (paged .loaded d).ctx 1 with st := .loaded }),
    fun _ d => (d.ctx 1).st == .loaded && !d.isStopped 0 && !d.coreBusy 1 && (d.switchAll 1 (d.coresOf 1)).1)] := meets_of (by decide +kernel)
theorem witness_resumeContext_ok : Meets 0x24 [(sCmd 0x24 0 1 [] (paged .preempted),
    fun _ d => (d.ctx 1).st == .preempted && !d.isStopped 0 && !d.coreBusy 1 && (d.switchAll 1 (d.coresOf 1)).1)] := meets_of (by decide +kernel)

/-- The conditions of MAP_PAGES on a running or a loaded context: what is wrong, too early, outside, unmapped or mapped. -/
def mapBody (va pa count l leaf : Nat) : List Byte := leBytes 8 va ++ leBytes 8 pa ++ leBytes 4 count ++ leBytes 1 l ++ leBytes 1 leaf
def mapJudged (m : Msg) (d : Dev) : Nat × Bool :=
  let n := m.context; let b := m.body; let va := field b 0 8; let pa := field b 8 8; let count := field b 16 4; let l := field b 20 1
  let size := 2 ^ (12 + 9 * l)
  if 3 ≤ l ∨ 32 ≤ field b 21 1 ∨ n = 0 ∨ (d.ctx n).job = none ∨ (d.ctx n).aborted = true ∨ va % size ≠ 0 ∨ pa % size ≠ 0 ∨
    2 ^ 48 < va + count * size then (0, true)
  else if (d.ctx n).st = .running ∧ (List.range count).any (fun i => d.changesPresent n (va + i * size) l) then (1, true)
  else if (List.range count).any (fun i => !d.insideJob n (pa + i * size) size) then (2, true)
  else (3, ((List.range count).foldl (fun (x : Option Dev) i =>
        x.bind (fun d => d.mapPage n (va + i * size) l (pa + i * size) (field b 21 1))) (some d)).isSome)
theorem witness_mapPages : Meets 0x26 [(sCmd 0x26 0 1 (mapBody 0x10000 (A 0) 1 3 3) (paged .loaded), fun m d => mapJudged m d == (0, true)),
    (sCmd 0x26 0 1 (mapBody 0x11000 (A 0) 1 0 3) (paged .running), fun m d => mapJudged m d == (1, true)),
    (sCmd 0x26 0 1 (mapBody 0x10000 (A 0x4000) 1 0 3) (paged .loaded), fun m d => mapJudged m d == (2, true)),
    (sCmd 0x26 0 1 (mapBody (2 ^ 47) (A 0) 1 0 3) (fun d => (paged .loaded d).onJob 1 (fun j => { j with ptPages := 1 })), fun m d => mapJudged m d == (3, false)),
    (sCmd 0x26 0 1 (mapBody 0x10000 (A 0) 4 0 31) (paged .loaded), fun m d => mapJudged m d == (3, true))] := meets_of (by decide +kernel)
theorem witness_setContextLimits : Meets 0x27 [(sCmd 0x27 2 1 (zeros 4), fun m _ => m.arg0 == 2), (sCmd 0x27 1 1 (zeros 4), fun m _ => m.arg0 == 1),
    (sCmd 0x27 0 1 (zeros 4), fun m _ => m.arg0 == 0)] := meets_of (by decide +kernel)
theorem witness_setAudit : Meets 0x28 [(sCmd 0x28 0 1 (zeros 16), fun _ d => !d.isStopped 0),
    (sCmd 0x28 0 1 (zeros 16) (stop 0), fun _ d => d.isStopped 0 && decide ((d.ctx 1).job = none)),
    (sCmd 0x28 0 1 (zeros 16) (fun d => stop 0 (inCtx .loaded d)), fun _ d => d.isStopped 0 && decide ((d.ctx 1).job ≠ none))] := meets_of (by decide +kernel)

theorem witness_stopFunction : Meets 0x10 [(sCmd 0x10 8 0 [0], fun m _ => decide (8 ≤ m.arg0)), (sCmd 0x10 7 0 [2], fun m _ => field m.body 0 1 == 2),
    (sCmd 0x10 7 0 [1] (stop 7), fun m d => d.isStopped m.arg0), (sCmd 0x10 7 0 [0], fun m d => !d.isStopped m.arg0),
    (sCmd 0x10 1 0 [0], fun m d => !d.isStopped m.arg0), (sCmd 0x10 0 0 [0], fun _ d => !d.isStopped 0 && d.runningContexts.isEmpty),
    (sCmd 0x10 0 0 [0] (inCtx .running), fun _ d => !d.isStopped 0 && decide (d.runningContexts = [1])),
    (sCmd 0x10 0 0 [1] (inCtx .running), fun m d => !d.isStopped 0 && decide (d.runningContexts = [1]) && field m.body 0 1 == 1)] :=
  meets_of (by decide +kernel)
theorem witness_startFunction : Meets 0x11 [(sCmd 0x11 8 0, any2), (sCmd 0x11 7 0, fun m d => !d.isStopped m.arg0), (sCmd 0x11 7 0 [] (stop 7), fun m d => d.isStopped m.arg0),
    (sCmd 0x11 6 0 [] (stop 6), fun m d => d.isStopped m.arg0)] := meets_of (by decide +kernel)
theorem witness_resetDevice : Meets 0x12 [(sCmd 0x12 2 0 [0], any2), (sCmd 0x12 1 0 [2], any2), (sCmd 0x12 1 0 [1], any2),
    (sCmd 0x12 0 0 [0], fun _ d => d.reset == none && d.boot.computeDue == none)] := meets_of (by decide +kernel)
theorem witness_setCacheSplit : Meets 0x30 [(sCmd 0x30 9 0, any2), (sCmd 0x30 8 0, fun _ d => !d.isStopped 0),
    (sCmd 0x30 8 0 [] (fun d => stop 0 (d.setCtx 1 { st := .loaded, job := some { job1 with sections := [{ sect1 with kind := 1, pa := sharedBase + 2 ^ 30 - 4096, size := 4096 }] } })),
      fun m d => d.isStopped 0 && d.splitTaken m.arg0),
    (sCmd 0x30 8 0 [] (stop 0), fun m d => d.isStopped 0 && !d.splitTaken m.arg0)] := meets_of (by decide +kernel)
theorem witness_setPowerCap : Meets 0x31 [(sCmd 0x31 799 0, any2), (sCmd 0x31 3201 0, any2), (sCmd 0x31 801 0, any2),
    (sCmd 0x31 800 0, fun m _ => m.arg0 % 10 == 0), (sCmd 0x31 3200 0, fun m _ => m.arg0 % 10 == 0)] := meets_of (by decide +kernel)

/-- A table of routes in the staging window, and a poisoned one. -/
def routeBody (bank count first : Nat) : List Byte := [BitVec.ofNat 8 bank, 0] ++ leBytes 2 count ++ leBytes 2 first ++ [0, 0] ++ leBytes 8 0x100000
def poisonedStage (d : Dev) : Dev := (atStage d).onMem (fun m => { m with poison := [(0x100000, true)] })
def board : Who := { identity := 0x20, privilege := 3, reply := some 1 }
theorem witness_setRoutes : Meets 0x40 [(sCmd 0x40 0 0 (routeBody 2 1 0) atStage, any2), (sCmd 0x40 0 0 (routeBody 1 2 65535) atStage, any2),
    (sCmd 0x40 0 0 (routeBody 1 1 65535), fun _ d => !d.inWindow board 0x100000 4),
    (sCmd 0x40 0 0 (routeBody 1 1 65535) poisonedStage, fun _ d => d.inWindow board 0x100000 4 && (d.stagingRead 0x100000 4).1.isNone),
    (sCmd 0x40 0 0 (routeBody 1 1 65535) atStage, fun _ d => d.inWindow board 0x100000 4 && (d.stagingRead 0x100000 4).1.isSome)] := meets_of (by decide +kernel)
theorem witness_swapRouteBank : Meets 0x41 [(sCmd 0x41 2 0, any2), (sCmd 0x41 1 0, any2)] := meets_of (by decide +kernel)
theorem witness_setRouteMode : Meets 0x42 [(sCmd 0x42 2 0, any2), (sCmd 0x42 1 0, any2)] := meets_of (by decide +kernel)
theorem witness_setPort : Meets 0x43 [(sCmd 0x43 24 0 [0, 0, 0], any2), (sCmd 0x43 23 0 [8, 0, 0], any2), (sCmd 0x43 23 0 [7, 1, 1], fun _ d => !d.isStopped 6),
    (sCmd 0x43 23 0 [7, 1, 1] (stop 6), fun _ d => d.isStopped 6)] := meets_of (by decide +kernel)

/-- Port 23 is a primary port of a ring and stands by. -/
def standby (d : Dev) : Dev := (d.setPfld F.RHK_PORT_STATUS_state 23 3).setPfld F.RHK_PORT_CTRL_role 23 3
theorem witness_returnPort : Meets 0x44 [(sCmd 0x44 24 0, any2), (sCmd 0x44 23 0, fun m d => !d.mayReturn m.arg0),
    (sCmd 0x44 23 0 [] standby, fun m d => d.mayReturn m.arg0)] := meets_of (by decide +kernel)
def linkStops (d : Dev) : Dev := (List.range 6).foldl (fun d n => stop (n + 1) d) d
theorem witness_setLinkParams : Meets 0x45 [(sCmd 0x45 0 0 [2, 0, 0, 0, 0, 0], any2), (sCmd 0x45 0 0 [1, 1, 5, 0, 7, 0] (stop 1), fun _ d => !d.isStopped 6),
    (sCmd 0x45 0 0 [1, 1, 5, 0, 7, 0] linkStops, fun _ d => (List.range 6).all (fun n => d.isStopped (n + 1)))] := meets_of (by decide +kernel)
theorem witness_bindChannel : Meets 0x48 [(sCmd 0x48 7 0 (zeros 6), any2), (sCmd 0x48 64 0 (zeros 6), any2), (sCmd 0x48 63 0 [0, 0, 63, 4, 31, 1], any2),
    (sCmd 0x48 9 0 [0x40, 0, 63, 3, 31, 1] (inCtx .loaded), fun m d => d.channelHeld m.arg0),
    (sCmd 0x48 63 0 [0x40, 0, 63, 3, 31, 1], fun m d => !d.channelHeld m.arg0)] := meets_of (by decide +kernel)
theorem witness_setEthConfig : Meets 0x50 [(sCmd 0x50 0 0 (zeros 6 ++ [32, 0] ++ zeros 40), any2), (sCmd 0x50 0 0 (zeros 48), fun _ d => !d.isStopped 7),
    (sCmd 0x50 0 0 (zeros 48) (stop 7), fun _ d => d.isStopped 7)] := meets_of (by decide +kernel)
/-- The body of BIND_HOST: queue pair, operation, identity 0x40, path MTU 5, timeout 31, no channel, a window. -/
def bindBody (q op at_ size : Nat) : List Byte :=
  leBytes 2 q ++ [BitVec.ofNat 8 op, 0x40] ++ zeros 16 ++ [5, 0, 31, 0] ++ zeros 28 ++ [0xFF, 0, 0, 0] ++ leBytes 8 at_ ++ leBytes 8 size
def bound (d : Dev) : Dev := (d.setQp 3 { state := 1, identity := 0x41 }).onEth (fun e => { e with windows := [(0x40, 0x400000, 0x200000)] })
theorem witness_bindHost : Meets 0x51 [(sCmd 0x51 0 0 (bindBody 1024 0 0 0), fun m _ => !Dev.bindFields m.body),
    (sCmd 0x51 0 0 (bindBody 3 1 0 0) bound, fun m d => Dev.bindFields m.body && (d.qp 3).state == 1 && !d.isStopped 7),
    (sCmd 0x51 0 0 (bindBody 3 0 0 0) (fun d => stop 7 (bound d)), fun m d => Dev.bindFields m.body && d.isStopped 7),
    (sCmd 0x51 0 0 (bindBody 4 1 0x600000 0x200000) bound, fun m d => Dev.bindFields m.body && (d.qp 4).state == 0 && d.windowOf 0x40 == some (0x400000, 0x200000)),
    (sCmd 0x51 0 0 (bindBody 4 1 0x600001 0x200000), fun m d => Dev.bindFields m.body && (d.windowOf 0x40).isNone),
    (sCmd 0x51 0 0 (bindBody 4 1 0x400000 0x200000) bound, fun m d => Dev.bindFields m.body && d.windowOf 0x40 == some (0x400000, 0x200000)),
    (sCmd 0x51 0 0 (bindBody 1023 1 0x600000 0x200000), fun m d => Dev.bindFields m.body && (d.windowOf 0x40).isNone && !d.taken 0x600000 0x200000)] :=
  meets_of (by decide +kernel)
theorem witness_runScreen : Meets 0x32 [(sCmd 0x32 2 0 (zeros 4), any2), (sCmd 0x32 1 0 (zeros 4), fun _ d => !d.isStopped 0),
    (sCmd 0x32 0 0 (zeros 4) (fun d => { d with screen := some { kind := 0, startedAt := 0, deadline := 1 } }), fun _ d => d.screen.isSome),
    (sCmd 0x32 0 0 (zeros 4), fun _ d => d.screen.isNone), (sCmd 0x32 1 0 (zeros 4) (stop 0), fun _ d => d.isStopped 0 && d.screen.isNone)] := meets_of (by decide +kernel)
def stageBody (n : Nat) : List Byte := leBytes 8 0x100000 ++ leBytes 8 n
theorem witness_loadTestPack : Meets 0x33 [(sCmd 0x33 0 0 (stageBody 64), fun _ d => !d.inWindow board 0x100000 64),
    (sCmd 0x33 0 0 (stageBody 64) poisonedStage, fun _ d => d.inWindow board 0x100000 64 && (d.stagingRead 0x100000 64).1.isNone),
    (sCmd 0x33 0 0 (stageBody 64) atStage, fun _ d => d.inWindow board 0x100000 64 &&
      (match (d.stagingRead 0x100000 64).1 with | some bs => !d.packValid bs (zeros 32) | none => false))] := meets_of (by decide +kernel)
def imageBody (slot : Nat) : List Byte := [BitVec.ofNat 8 slot] ++ zeros 7 ++ stageBody 64 ++ [0]
theorem witness_updateImage : Meets 0x61 [(sCmd 0x61 0 0 (imageBody 2) atStage, any2), (sCmd 0x61 0 0 (imageBody 0) atStage, fun _ d => d.fld F.SEC_STATUS_slot == 0),
    (sCmd 0x61 0 0 (imageBody 1) poisonedStage, fun _ d => d.inWindow board 0x100000 64 && (d.stagingRead 0x100000 64).1.isNone),
    (sCmd 0x61 0 0 (imageBody 1) atStage, fun _ d => d.inWindow board 0x100000 64 &&
      (match d.stagingRead 0x100000 64 with | (some bs, x) => !Dev.imageValid bs x.tailInUse.floor | _ => false))] := meets_of (by decide +kernel)
theorem witness_updateConfig : Meets 0x62 [(sCmd 0x62 0 0 (stageBody 64), fun _ d => !d.inWindow board 0x100000 64),
    (sCmd 0x62 0 0 (stageBody 64) poisonedStage, fun _ d => d.inWindow board 0x100000 64 && (d.stagingRead 0x100000 64).1.isNone),
    (sCmd 0x62 0 0 (stageBody 64) atStage, fun _ d => d.inWindow board 0x100000 64 &&
      (match d.stagingRead 0x100000 64 with | (some bs, x) => !x.updateAllowed bs | _ => false))] := meets_of (by decide +kernel)

theorem test_getInfo : ((after (.getInfo 0) (sCmd 1 0 0)).ring 1).msgs.map (fun m => (field m 0 2, field m 2 1, field m 6 2, field m 16 2)) =
    [(0x0001, 0, 23, 0x0640)] := by decide +kernel
theorem test_setEventMask : Sp.get (fun _ => 0) (after (.setEventMask 0) (sCmd 9 5 0)).eventMask 1 = 5 := by decide +kernel
theorem test_swapRouteBank : (after (.swapRouteBank 0) (sCmd 0x41 1 0)).fld F.RHK_ROUTE_BANK_bank = 1 := by decide +kernel
theorem test_killContext : ((after (.killContext 0) (sCmd 0x25 0 1 [] (inCtx .loaded))).ctx 1).st = .faulted := by decide +kernel
theorem test_preempt : ((after (.preemptContext 0) (sCmd 0x23 0 1 [] (inCtx .running))).ctx 1).st = .preempted := by decide +kernel
theorem test_bindChannel : ((after (.bindChannel 0) (sCmd 0x48 63 0 [0x40, 0, 63, 3, 31, 1])).binding 63).reply = 63 := by decide +kernel
theorem test_setPowerCap : (after (.setPowerCap 0) (sCmd 0x31 800 0)).capWatts = 800 := by decide +kernel

/-! ### Rhanak -/

/-- Port 5 in a state, enabled or not, with a role and a port's own state. -/
def sPort (st enable role : Nat) (x : RhkPort := {}) (now : Nat := 0) : State :=
  withDev (fun d => { (((d.setPfld F.RHK_PORT_STATUS_state 5 st).setPfld F.RHK_PORT_CTRL_enable 5 enable).setPfld F.RHK_PORT_CTRL_role 5 role).setPort 5 x
    with now := now }) State.reset

theorem witness_portTraining : (sPort 1 1 3).dev.isSet F.SMB_STRAP_test_en = false ∧ (sPort 1 1 3).dev.pfld F.RHK_PORT_CTRL_enable 5 ≠ 0 ∧
    (sPort 1 1 3).dev.pfld F.RHK_PORT_STATUS_state 5 = 1 ∧ laneWidth 15 false = 3 ∧ laneWidth 12 true = 2 ∧ laneWidth 7 false = 0 ∧
    (sPort 1 0 3).dev.pfld F.RHK_PORT_CTRL_enable 5 = 0 ∧ (sPort 1 1 3).dev.pfld F.RHK_PORT_CTRL_role 5 = 3 ∧
    ((sPort 1 1 3).dev.setPfld F.RHK_PORT_CTRL_ring_use 5 0).pfld F.RHK_PORT_CTRL_ring_use 5 = 0 ∧ (sPort 1 1 1).dev.pfld F.RHK_PORT_CTRL_role 5 = 1 := by
  decide +kernel
theorem witness_trainingRetry : let d := (sPort 0 1 1 { failedAt := some 7 } 100000007).dev
    d.pfld F.RHK_PORT_STATUS_state 5 = 0 ∧ d.pfld F.RHK_PORT_CTRL_enable 5 ≠ 0 ∧ (d.port 5).failedAt = some 7 ∧ 7 + 100000000 ≤ d.now := by decide +kernel
theorem witness_portDown : let d := (sPort 2 1 2 { goodAt := 1 } (1 + 250 * 255)).dev
    d.portUp 5 = true ∧ (d.port 5).goodAt + 250 * max 1 (d.fld F.RHK_CTRL_down_time (5 / 4)) ≤ d.now ∧ (sPort 0 1 2).dev.portUp 5 = false ∧
      (d.setFld F.RHK_CTRL_fo_en (5 / 4) 0 1).isSet F.RHK_CTRL_fo_en (5 / 4) = true := by decide +kernel
def sWaits (now : Nat) : Dev := { rhk := { waiting := [{ tag := 4, dest := 9, master := 0x10, ctx := 0, addr := 0, sentAt := 0 }] }, now := now }
theorem witness_e2eTimeout : (sWaits 0).rhk.waiting.find? (fun w => w.tag = 3) = none ∧
    (sWaits 100000000).rhk.waiting.find? (fun w => w.tag = 4) = some { tag := 4, dest := 9, master := 0x10, ctx := 0, addr := 0, sentAt := 0 } ∧
    0 + 1000 * max 1 ((sWaits 100000000).fld F.RHK_CTRL_e2e_timeout 0) ≤ (sWaits 100000000).now := by decide +kernel

/-- A flit of a type with a sequence, 242 bytes. -/
def flitOf (type seq : Nat) : List Byte := leBytes 2 (type + 16 * seq) ++ zeros 240
theorem witness_linkFlit : ∀ x ∈ [(0, 0), (1, 0), (5, 0), (6, 0), (15, 0), (1, 4095)],
    (flitOf x.1 x.2).length = 242 ∧ leNat ((flitOf x.1 x.2).take 2) % 16 = x.1 ∧ leNat ((flitOf x.1 x.2).take 2) / 16 = x.2 ∧
      (sPort 2 1 1).dev.portUp 5 = true ∧ ((sPort 2 1 1).dev.port 5).rxSeq = 0 := by decide +kernel
def sSent : State := sPort 2 1 1 { sent := [(3, 1, []), (4, 1, [])], nakSeq := some 4, naks := 7 }
theorem witness_linkNak : sSent.dev.portUp 5 = true ∧ (∃ f ∈ (sSent.dev.port 5).sent, f.1 = 4) ∧ (∀ f ∈ (sSent.dev.port 5).sent, f.1 ≠ 5) ∧
    (if (sSent.dev.port 5).nakSeq = some 4 then (sSent.dev.port 5).naks + 1 else 1) = 8 ∧
    (if (sSent.dev.port 5).nakSeq = some 3 then (sSent.dev.port 5).naks + 1 else 1) = 1 := by decide +kernel
def pkt0 : Packet := { addr := 9 * 2 ^ 48, kind := 0, tag := 5 }
theorem witness_forwardAck : Covered 0 (2 ^ 24 - 1) { seq := 2 ^ 24 - 1, pkt := pkt0, owed := some (1, 2) } := by unfold Covered; decide +kernel

/-- Port 5 has received a packet; route entry 9 names egress port 1, which is up. -/
def sArrived (p : Packet) (role : Nat) (valid : Nat := 2 ^ 31) : State :=
  withDev (fun d => ((((((d.setPfld F.RHK_PORT_STATUS_state 1 2).setPfld F.RHK_PORT_CTRL_role 1 2).setPfld F.RHK_PORT_CTRL_ring_use 1 1).setFld
    F.RHK_CTRL_route_en 0 0 1).setPfld F.RHK_PORT_STATUS_nb_valid 1 1).setPfld F.RHK_PORT_STATUS_nb_id 1 9).wr .RHK_ROUTE 0 9 (valid + 1 * 2 ^ 8))
    (sPort 2 1 role { arrived := [p] })
theorem witness_packetArrival : let d := (found (sArrived pkt0 1)); (d.port 5).arrived = [pkt0] ∧ d.reroutedHere 5 = false ∧
    pkt0.malformed = false ∧ pkt0.rerouted = false ∧ d.route (some 5) pkt0.dest = .port 1 ∧ 0 < pkt0.ttl ∧
    ({ pkt0 with ttl := 0 } : Packet).dest = 9 ∧ ({ pkt0 with kind := 7 } : Packet).malformed = true ∧
    (found (sArrived pkt0 1 0)).route (some 5) pkt0.dest = .answer 4 := by decide +kernel
theorem witness_reroutedPacket : let d := (found (sArrived { pkt0 with rerouted := true } 4)); d.reroutedHere 5 = true ∧
    (d.skipDir 5).bind d.primaryOf = some 1 ∧ d.pfld F.RHK_PORT_STATUS_nb_valid 1 = 1 ∧ pkt0.dest = d.pfld F.RHK_PORT_STATUS_nb_id 1 ∧
    d.portUp 1 = true ∧ (d.setPfld F.RHK_PORT_STATUS_state 1 0).portUp 1 = false := by decide +kernel

def announce0 : Announce := { root := 3, hops := 1, locked := false }
theorem witness_syncFlit : let d := (sPort 2 1 1 { syncSent := some 800 } 101).dev
    d.portUp 5 = true ∧ (d.port 5).syncSent = some 800 ∧ ((8 * d.now + (4 : Fin 8).val : Nat) : Int) = (816 : Int) - 8 + 4 ∧
      (812 : Int) = (800 : Int) + 8 + 4 ∧ (sPort 0 1 1).dev.portUp 5 = false := by decide +kernel
def sRoot : Dev := ({ rhk := { firstUp := some 3 }, now := 10000003 } : Dev).setFld F.RHK_SYNC_root_en 0 0 1
theorem witness_rootTimeout : (sRoot.rhk.firstUp = some 3 ∧ 3 + 10000000 ≤ sRoot.now) ∧ sRoot.isSet F.RHK_SYNC_root_en = true ∧
    sRoot.rhk.lockedOnce = false ∧ (∀ p < 24, (sRoot.port p).announce = none) ∧
    (sRoot.setFld F.SMB_STRAP_fwd 0 0 2).isSet F.RHK_SYNC_root_en = true ∧ ({} : Dev).rhk.firstUp = none := by decide +kernel
theorem witness_timeHoldEnd : ({} : Dev).isSet F.TB_STATUS_held = false ∧ heldTime.dev.isSet F.TB_STATUS_held = true := by decide +kernel

theorem test_portTraining : (after (.portTraining 5 15 9 true 3) (sPort 1 1 1)).pfld F.RHK_PORT_STATUS_state 5 = 2 ∧
    (after (.portTraining 5 15 9 true 3) (sPort 1 1 1)).pfld F.RHK_PORT_STATUS_nb_id 5 = 9 := by decide +kernel
theorem test_leavingNotice : (after (.leavingNotice 5) (sPort 2 1 1)).portUp 5 = false := by decide +kernel
/-- The delay and the offset of four stamps: 8 and 4 eighths of a nanosecond. -/
theorem test_syncFlit : ((after (.syncFlit 5 announce0 816 812 4) (sPort 2 1 1 { syncSent := some 800 } 101)).port 5).delay = 4 := by decide +kernel
theorem test_timeHoldEnd : (after .timeHoldEnd heldTime).isSet F.TB_STATUS_locked = true := by decide +kernel

/-! ### Ethernet -/

/-- Queue pair 3 of identity 0x41 runs; its staging window is 4 MiB on. -/
def qp3 : QPair := { state := 1, identity := 0x41, canWrite := true, canRead := true, canSend := true, rkey := 5, mtu := 5, recvPsn := 7, timeout := 1 }
def sQp (x : QPair := qp3) (f : Dev → Dev := id) : State :=
  { dev := f (({ mem := { modules := ddrMods, ddrUp := true }, eth := { up := true, lanes := 0xFF, windows := [(0x41, (0x400000, 0x200000))] } } : Dev).setQp 3 x) }
def pktW (n : Nat) : Rdma := { psn := 7, key := 2 ^ 24 + 5, va := 0x404000, len := n, data := List.replicate n 1#8 }

theorem witness_qp_stopped : (sQp { qp3 with state := 0 }).dev.qpRuns 3 = false := by decide +kernel
theorem witness_qp_ahead : (sQp).dev.qpRuns 3 = true ∧ 0 < ahead (found (sQp)) 3 8 ∧ ahead (found (sQp)) 3 (7 + 2 ^ 23 - 1) < 2 ^ 23 ∧
    ahead (found (sQp)) 3 7 = 0 := by unfold ahead; decide +kernel
theorem witness_qp_window : InWindow (found (sQp)) 3 (pktW 64) true ∧ InWindow (found (sQp)) 3 { pktW 64 with va := 0x5FFFC0 } true ∧
    InWindow (found (sQp)) 3 { pktW 64 with va := 0x400000 } false := by
  unfold InWindow
  exact ⟨⟨by decide +kernel, by decide +kernel, by decide +kernel, 0x400000, 0x200000, by decide +kernel, by decide +kernel, by decide +kernel,
    by decide +kernel⟩, ⟨by decide +kernel, by decide +kernel, by decide +kernel, 0x400000, 0x200000, by decide +kernel, by decide +kernel,
    by decide +kernel, by decide +kernel⟩, ⟨by decide +kernel, by decide +kernel, by decide +kernel, 0x400000, 0x200000, by decide +kernel,
    by decide +kernel, by decide +kernel, by decide +kernel⟩⟩
theorem witness_qp_serves : ((found (sQp)).serveWrite ((found (sQp)).hostReq 3) 0x404000 (Dev.clean (pktW 64).data) false).1 = 0 ∧
    ((found (sQp)).serveRead ((found (sQp)).hostReq 3) 0x400000 64 false).1.1 = 0 ∧ bits (pktW 0).key 23 0 ≠ 6 := by decide +kernel
def sendBytes (n : Nat) : List Byte := leBytes 2 1 ++ zeros 4 ++ leBytes 2 n ++ zeros (8 + n)
theorem witness_rdmaSend : ∀ n ∈ [0, 240], qp3.canSend = true ∧ 16 ≤ (sendBytes n).length ∧ (sendBytes n).length ≤ 256 ∧
    (sendBytes n).length = 16 + bodyLength (sendBytes n) ∧ ((sQp).dev.setFld F.MBX_CTRL_host_en 0 0 1).isSet F.MBX_CTRL_host_en = true := by decide +kernel
theorem witness_ackCoalesce : (sQp { qp3 with owed := 8 }).dev.qpRuns 3 = true ∧ 8 ≤ ((sQp { qp3 with owed := 8 }).dev.qp 3).owed ∧
    0 < ((sQp { qp3 with owed := 1, owedAt := 2 }).dev.qp 3).owed ∧
    ((sQp { qp3 with owed := 1, owedAt := 2 } (fun d => { d with now := 4002 })).dev.qp 3).owedAt + 4000 ≤ 4002 := by decide +kernel
def sHost : State := withDev (fun d => d.setRing 8 { msgs := [sendBytes 0] }) (bindCh 8 0x10 0x41 (sQp))
theorem witness_hostMessageSend : HostReady (found sHost) 8 3 ∧ ((found sHost).ringTake 8).1 = some (sendBytes 0) := by
  unfold HostReady; decide +kernel
theorem witness_hostMessageSend_none : ∀ k, ¬ HostReady (found (sQp)) 8 k := by
  intro k h
  have : ((found (sQp)).binding 8).valid = false := by decide +kernel
  rw [h.1] at this
  cases this
def sent0 : Sent := { channel := 8, psn := 1, bytes := sendBytes 0, tries := 0, at_ := 0 }
theorem witness_sendRetry : ∀ n ∈ [0, 1], (sQp { qp3 with sent := [sent0], retries := n }).dev.qpRuns 3 = true ∧
    ((sQp { qp3 with sent := [sent0], retries := n }).dev.qp 3).sent.find? (fun y => y.channel = 8) = some sent0 ∧ 0 + 4096 * 2 ^ qp3.timeout ≤ 8192 := by
  decide +kernel

def frame0 (p : Proto) : Frame := { bytes := 64, src := zeros 6, proto := p }
def sEth : State := sQp qp3 (fun d => (((d.onEth (fun e => { e with config := { e.config with ipv4 := [10, 0, 0, 1], mac := [2, 0, 0, 0, 0, 1] } })).setFld
  F.ETH_CTRL_ipv4_en 0 0 1).setFld F.ETH_CTRL_lldp_en 0 0 1).setFld F.ETH_CC_cc_en 0 0 1)
theorem witness_ethFrame : sEth.dev.eth.up = true ∧ Passes (found sEth) (frame0 .other) ∧ ¬ Passes (found sEth) { frame0 .other with bytes := 9217 } ∧
    State.reset.dev.eth.up = false ∧ sEth.dev.ownAddress [10, 0, 0, 1] = true ∧ sEth.dev.eth.echoAt = [] := by unfold Passes; decide +kernel
def sV6 : Dev := sEth.dev.setFld F.ETH_CTRL_ipv6_en 0 0 1
theorem witness_ethNeighbour : ∃ t, t.length = 16 ∧ sV6.ownAddress t = true := ⟨Dev.linkLocal sV6.eth.config.mac, by decide +kernel, by decide +kernel⟩
theorem witness_cnp : (found sEth).qpRuns 3 = true ∧ (found sEth).isSet F.ETH_CC_cc_en = true ∧
    ((sQp { qp3 with rate := 62 }).dev.qp 3).rate < 63 ∧ ((sQp { qp3 with rate := 62 }).dev.qp 3).rateAt +
      1000 * (sQp).dev.fld F.ETH_CC_recovery ≤ 1000 * 65535 := by decide +kernel
theorem witness_lldp : sEth.dev.eth.up = true ∧ sEth.dev.isSet F.ETH_CTRL_lldp_en = true ∧ sEth.dev.eth.lldpAt = none := by decide +kernel
/-- A datagram with a command's message, addressed to the management port. -/
def gram (kind : Nat) : List Byte := leBytes 2 0x7E01 ++ [BitVec.ofNat 8 kind, 0] ++ leBytes 4 9 ++ cmdBytes 1 0 0 []
def sMgmt : State := withDev (fun d => { d with boot := { d.boot with runs := .prois } }) (withDev (fun d => d.setFld F.ETH_CTRL_mgmt_en 0 0 1) sEth)
theorem witness_management : ∀ k < 3, sMgmt.dev.eth.up = true ∧ sMgmt.dev.boot.runs ≠ .none ∧ sMgmt.dev.isSet F.ETH_CTRL_mgmt_en = true ∧
    field (gram k) 0 2 = 0x7E01 ∧ field (gram k) 2 1 = k ∧ 24 ≤ (gram k).length ∧ (gram k).length = 24 + bodyLength ((gram k).drop 8) ∧
    (sMgmt.dev.eth.mgmtAt.filter (fun t => sMgmt.dev.now < t + 1000000000)).length < 1000 := by decide +kernel

theorem test_rdmaWrite : (after (.rdmaWrite 3 (pktW 8)) (sQp)).cell 0x404007 = 1 ∧ ((after (.rdmaWrite 3 (pktW 8)) (sQp)).qp 3).recvPsn = 8 := by decide +kernel
theorem test_ackCoalesce : (after (.ackCoalesce 3) (sQp { qp3 with owed := 8 })).out = [.ethernet "ACK" 3 [6, 0, 0]] := by decide +kernel
theorem test_hostMessageSend : (after (.hostMessageSend 8) sHost).out = [.ethernet "SEND" 3 (leBytes 3 0 ++ sendBytes 0)] := by decide +kernel
theorem test_arp : (after (.ethFrameReceive (frame0 (.arp [10, 0, 0, 1]))) sEth).out =
    [.ethernet "ARP reply" 0 (zeros 6 ++ [2, 0, 0, 0, 0, 1] ++ [10, 0, 0, 1])] := by decide +kernel
theorem test_cnp : ((after (.cnpReceive 3) sEth).qp 3).rate = 31 := by decide +kernel

/-! ### Power, temperature, screens and resets -/

def proisState (f : Dev → Dev) : State := { dev := f { boot := { runs := .prois, screened := true } } }
/-- A sensor has read 25 C, so that the leakage is known. -/
def warmState (f : Dev → Dev) : State := proisState (fun d => f (d.wr .TEL_SENSOR 0 0 (2 ^ 16 + 400)))
theorem witness_powerWindow_over : let s := warmState id; let d := found s; let w : Window := { cores := [(2 ^ 40, 2 ^ 40, 2 ^ 40)] }
    d.boot.runs = .prois ∧ d.power.changedIn ≠ some (d.now / 4000 - 1) ∧ ((d.capWatts : Nat) : Rat) < (d.estimate w).1.1 := by decide +kernel
theorem witness_powerWindow_under : let d := found (warmState id); let hyst : Rat := (d.fld F.PWR_LOOP_CFG_hyst : Nat)
    (d.estimate {}).1.1 < ((d.capWatts : Nat) : Rat) - hyst ∧ (d.estimate {}).1.2 < ((d.fld F.PWR_LOOP_CFG_icc_max : Nat) : Rat) - hyst / (3 / 4) ∧
      (found (warmState (fun d => { d with power := { d.power with changedIn := some 0 }, now := 4000 }))).power.changedIn = some (4000 / 4000 - 1) := by
  decide +kernel
def sLoop : State := proisState (fun d => { (d.setFld F.PWR_CTRL_wd_en 0 0 1).setArray 7 { groups := 1 } with now := 100000 })
theorem witness_loopWatchdog : sLoop.dev.isSet F.PWR_CTRL_wd_en = true ∧ (∃ a < 8, 0 < (sLoop.dev.array a).groups) ∧
    sLoop.dev.power.freqAt + 100000 ≤ sLoop.dev.now ∧ sLoop.dev.power.forced = false ∧
    (sLoop.dev.setFld F.PWR_CTRL_wd_en 0 0 0).isSet F.PWR_CTRL_wd_en = false := by decide +kernel
theorem witness_droop : 3 ∉ ({} : Dev).power.stretched ∧ 3 ∈ ({ power := { stretched := [3] } } : Dev).power.stretched := by decide +kernel
/-- Sensor 97 reads 115 C for the second time, sensor 0 fails. -/
def readings (n : Nat) : List (Option Int) := [none] ++ List.replicate (n - 2) (some 400) ++ [some 1840]
theorem witness_thermal : (readings 98).length = 98 ∧ (readings 32).length = 32 ∧ (readings 98)[97]? = some (some 1840) ∧ (readings 98)[0]? = some none ∧
    (16 * 115 : Int) ≤ 1840 ∧ 97 ∈ ({ power := { trip := [97] } } : Dev).power.trip := by decide +kernel
theorem witness_thermtrip : ({} : Dev).power.tripDue = false ∧ ({ power := { tripDue := true } } : Dev).power.tripDue = true := by decide +kernel
def sAuto : State := proisState (fun d => { d.setFld F.SCR_CTRL_auto_hours 0 0 1 with now := 3600000000000 })
theorem witness_autoScreen : sAuto.dev.boot.runs = .prois ∧ sAuto.dev.boot.screened = true ∧ sAuto.dev.reset = none ∧
    sAuto.dev.fld F.SCR_CTRL_auto_hours ≠ 0 ∧ sAuto.dev.boot.screenedAt + sAuto.dev.fld F.SCR_CTRL_auto_hours * 3600000000000 ≤ sAuto.dev.now ∧
    sAuto.dev.screen = none ∧ State.reset.dev.boot.screened = false := by decide +kernel
def screen0 : Screen := { kind := 0, startedAt := 0, deadline := 5 }
def sScreen (now : Nat) : State := proisState (fun d => { d with screen := some screen0, now := now })
theorem witness_screenDeadline : (sScreen 5).dev.screen = some screen0 ∧ screen0.deadline ≤ (sScreen 5).dev.now ∧ screen0.aborted = false ∧
    (sScreen 4).dev.now < screen0.deadline := by decide +kernel
theorem witness_powerOnScreen : (proisState (fun d => { d with boot := { d.boot with screened := false } })).dev.boot.screened = false ∧
    State.reset.dev.boot.runs ≠ .prois := by decide +kernel

theorem witness_progressWatchdog : let s := withDev (fun d => d.setFld F.RST_CTRL_wd_en 0 0 1) sYield
    s.dev.watchdogHeld 0 = false ∧ s.dev.isSet F.RST_CTRL_wd_en = true ∧ 2 ^ min 30 (max 20 (s.dev.fld F.RST_WD_CFG_wd_exp)) ≤ 2 ^ 30 ∧
      (s.dev.ctx (s.dev.coreCtx 0)).st = .running ∧ State.reset.dev.watchdogHeld 0 = true := by decide +kernel
def sStop : State := proisState (fun d => ((inCtx .faulted d).onCore 3 (fun k => { k with ctx := some 1 })).setFld F.RST_CTRL_auto_cr 0 0 1)
theorem witness_stopDeadline : (sStop.dev.ctx 1).st = .faulted ∧ (sStop.dev.ctx 1).aborted = false ∧ (∃ c < 4, (sStop.dev.core c).ctx = some 1) ∧
    sStop.dev.reset = none ∧ sStop.dev.isSet F.RST_CTRL_auto_cr = true ∧ sStop.dev.boot.computeDue = none := by decide +kernel
def sDue : State := proisState (fun d => { d with boot := { d.boot with computeDue := some (3, some 1) } })
theorem witness_computeReset : sDue.dev.reset = none ∧ sDue.dev.resetCause = some (3, some 1) ∧ sDue.dev.boot.runs = .prois ∧
    State.reset.dev.resetCause = none := by decide +kernel
def sHusk (drained : Bool) (now : Nat) : State := proisState (fun d => { (inCtx .running d) with reset := some { cause := 3, t0 := 1, guilty := some 1, drained := drained }, now := now })
theorem witness_drainTimeout : (sHusk false 20001).dev.reset = some { cause := 3, t0 := 1, guilty := some 1, drained := false } ∧
    1 + 20000 ≤ (sHusk false 20001).dev.now ∧ (sHusk false 20000).dev.now < 1 + 20000 := by decide +kernel
theorem witness_computeRecovery : (sHusk true 20001).dev.reset = some { cause := 3, t0 := 1, guilty := some 1, drained := true } ∧
    ((sHusk true 20001).dev.ctx 1).st ≠ .free ∧ ((sHusk true 20001).dev.ctx 1).st ≠ .loading ∧ (sHusk false 0).dev.reset.isSome = true := by decide +kernel
def sChip (kind : Nat) (keep : Bool) : State := proisState (fun d => { d with boot := { d.boot with due := some (kind, keep) } })
theorem witness_chipReset : (sChip 1 true).dev.boot.due = some (1, true) ∧ (sChip 2 false).dev.boot.due = some (2, false) ∧ State.reset.dev.boot.due = none := by
  decide +kernel
def sKick (now : Nat) : State := proisState (fun d => { d.setFld F.RST_CTRL_cp_wd_en 0 0 1 with now := now })
theorem witness_firmwareWatchdog : (sKick 0).dev.boot.runs ≠ .none ∧ (sKick 0).dev.isSet F.RST_CTRL_cp_wd_en = true ∧
    (sKick 100000000000).dev.boot.kickAt + 1000000 * max 1 ((sKick 100000000000).dev.fld F.RST_WD_CFG_cp_wd_ms) ≤ (sKick 100000000000).dev.now := by
  decide +kernel

theorem test_thermalSample : (after (.thermalSample (readings 98)) (proisState (fun d => { d with power := { d.power with trip := [97] } }))).power.tripDue = true := by
  decide +kernel
theorem test_droopEvent : (after (.droopEvent 3) State.reset).fld F.PWR_DROOP_CNT_events = 1 := by decide +kernel
theorem test_computeReset : (after (.computeReset []) sDue).boot.computeDue = none := by decide +kernel
theorem test_computeRecovery : ((after (.computeRecovery []) (sHusk true 20001)).ctx 1).st = .faulted := by decide +kernel
theorem test_progressWatchdog : ((after (.progressWatchdog 0 (2 ^ 30)) (withDev (fun d => d.setFld F.RST_CTRL_wd_en 0 0 1) sYield)).ctx 0).st = .faulted := by
  decide +kernel
theorem test_firmwareWatchdog : (after .firmwareWatchdog (sKick 100000000000)).boot.due = some (2, false) := by decide +kernel

/-! ### Pins, JTAG and SMBus -/

def sPins (f : Pins → Pins) (g : Dev → Dev := id) : State := { dev := g { pins := f {}, now := 2000000 } }
theorem witness_resetPins : (sPins id).dev.pins.resetLow = false ∧ (sPins id).dev.pins.power = true ∧
    (sPins (fun p => { p with resetLow := true })).dev.pins.resetLow = true ∧ (sPins (fun p => { p with power := false })).dev.pins.power = false := by
  decide +kernel
theorem witness_scan : (sPins (fun p => { p with resetLow := true, tap := 1 })).dev.pins.resetLow = true ∧
    (sPins (fun p => { p with resetLow := true, tap := 1 })).dev.pins.tap = 1 ∧ (sPins (fun p => { p with tap := 2 })).dev.pins.tap = 2 := by decide +kernel
theorem witness_smbAcks : ∀ pec ∈ [some true, none, some false], (sPins id).dev.awake = true ∧ (sPins id).dev.smbus.readyAt ≤ (sPins id).dev.now ∧
    (pec = some false ∨ (pec = none ∧ (sPins id).dev.isSet F.SMB_CTRL_pec_req = true) ∨ pec ≠ some false) ∧
    ¬ State.reset.dev.smbus.readyAt ≤ State.reset.dev.now := by decide +kernel
def sSmb (h : List Byte) (msgs : List (List Byte)) : State := sPins id (fun d => (({ d with smbus := { d.smbus with partial_ := some h, window := 0x43 } } : Dev).setRing 1
  { msgs := msgs }).setFld F.SMB_CTRL_mbx_en 0 0 1)
theorem witness_smbMessages : (sSmb (zeros 128) [mail 1 0]).dev.smbus.partial_ = some (zeros 128) ∧ (zeros 128).length = 128 ∧
    ((found (sSmb [] [mail 1 0])).ringTake 1).1 = some (mail 1 0) ∧ ((found (sSmb [] [])).ring 1).msgs = [] ∧
    (sSmb [] []).dev.smbus.window ∈ [0x41, 0x42, 0x43] ∧ (sPins id).dev.smbus.window ∉ [0x41, 0x42, 0x43] ∧
    (sSmb [] []).dev.isSet F.SMB_CTRL_mbx_en = true := by decide +kernel
/-- Lengths of a message at the bounds of each case of R664. -/
theorem witness_smbLengths : (sendBytes 240).length = 256 ∧ bodyLength (sendBytes 240) = 240 ∧ bodyLength (sendBytes 241) = 241 ∧
    16 + bodyLength (sendBytes 0) < (sendBytes 0 ++ [0]).length ∧ ((sendBytes 120).take 128).length < 16 + bodyLength ((sendBytes 120).take 128) ∧
    ((sendBytes 0).take 7).length < 8 := by decide +kernel
theorem witness_smbAra : ((sPins id).dev.setFld F.SMB_CTRL_ara_en 0 0 1 |>.setFld F.INT_ALERT_force 0 0 1).isSet F.SMB_CTRL_ara_en = true ∧
    ((sPins id).dev.setFld F.SMB_CTRL_ara_en 0 0 1 |>.setFld F.INT_ALERT_force 0 0 1).alert = true ∧ (sPins id).dev.alert = false := by decide +kernel
theorem witness_dbgToken : State.reset.dev.boot.runs = .none ∧ (proisState id).dev.boot.runs ≠ .none := by decide +kernel

theorem test_resetNAssert : (after .resetNAssert (sPins id)).pins.resetLow = true := by decide +kernel
theorem test_supplyLoss : (after (.supplyLoss 2) (sPins id)).awake = false := by decide +kernel
/-- The code of a TAP instruction that the locked state does not admit gives BYPASS (20_pins_power_rails_and_sequencing.md R667). -/
theorem test_scan_locked : (after (.boundaryScanInstruction .extest []) (sPins id)).pins.ir = .bypass := by decide +kernel
theorem test_idcode : (after (.boundaryScanInstruction .idcode []) (sPins id)).out = [.jtag [0xAB, 0x05, 0x64, 0xB0]] := by decide +kernel
theorem test_smbMsgTake_empty : (after .smbMsgTake (sSmb [] [])).out = [.smbus (zeros 16)] := by decide +kernel
theorem test_smbRegRead_denied : (after .smbRegRead (sPins id)).out = [.smbus (List.replicate 8 0xFF)] := by decide +kernel
theorem test_smbAra : (after .smbAra (sPins id (fun d => (d.setFld F.SMB_CTRL_ara_en 0 0 1).setFld F.INT_ALERT_force 0 0 1))).out = [.smbus [0x58]] := by
  decide +kernel

/-! ### Well-formedness -/

/-- A term that each check refuses, beside one that it takes. -/
theorem test_wf_sequencer : (Instr.alu 0 (wAlu 0)).wellFormed = true ∧ ∀ w ∈ [(⟨32, 0, 0, 0, 0⟩ : SeqWord), ⟨0, 32, 0, 0, 0⟩, ⟨0, 0, 32, 0, 0⟩, ⟨0, 0, 0, 64, 0⟩],
    ∀ i ∈ [Instr.alu 0 w, .alui 0 w, .lih 0 w, .ld 0 w, .st 0 w, .br 0 w, .jal 0 w, .jalr 0 w, .issue 0 w, .csrr 0 w, .csrc 0 w, .halt 0 w],
      i.wellFormed = false := by decide +kernel
theorem test_wf_scrub : (Instr.scrub (.die 31)).wellFormed = true ∧ (Instr.scrub (.die 32)).wellFormed = false ∧
    (Instr.scrub (.half 4 false)).wellFormed = false ∧ (Instr.scrub (.array 8)).wellFormed = false := by decide
theorem test_wf_flit : (Instr.flitReceive 0 false flit0 []).wellFormed = true ∧ (Instr.flitReceive 0 false (flit0.drop 1) []).wellFormed = false ∧
    (Instr.flitReceive 0 false (2 ^ 32 :: flit0.drop 1) []).wellFormed = false := by decide +kernel
theorem test_wf_linkFlit : (Instr.linkFlitReceive 0 (zeros 242) [] {}).wellFormed = true ∧ (Instr.linkFlitReceive 0 (zeros 241) [] {}).wellFormed = false := by
  decide +kernel
theorem test_wf_mail : (Instr.mailboxArrival 0 0 .core (zeros 16)).wellFormed = true ∧ (Instr.mailboxArrival 0 0 .core (zeros 15)).wellFormed = false ∧
    (Instr.mailboxArrival 0 0 .core (zeros 257)).wellFormed = false := by decide +kernel
theorem test_wf_sensors : (Instr.thermalSample (readings 98)).wellFormed = true ∧ (Instr.thermalSample (readings 97)).wellFormed = false ∧
    (Instr.ddrSensorRead (readings 32)).wellFormed = true ∧ (Instr.ddrSensorRead (readings 33)).wellFormed = false := by decide +kernel
theorem test_wf_smbus : (Instr.smbMsgStart (zeros 128) none).wellFormed = true ∧ (Instr.smbMsgStart [] none).wellFormed = false ∧
    (Instr.smbMsgStart (zeros 129) none).wellFormed = false ∧ (Instr.smbMsgAppend [] none).wellFormed = false ∧
    (Instr.smbMsgAppend (zeros 129) none).wellFormed = false := by decide +kernel
theorem test_wf_scan : (Instr.boundaryScanInstruction .extest []).wellFormed = true ∧ (Instr.boundaryScanInstruction .debug []).wellFormed = false := by decide

/-! ### The queue and numbers -/

/-- The queue is first in, first out. -/
theorem test_step_order : (match step { State.reset with pending := [.mbxDbSet 0 1, .mbxDbSet 0 2] } with
    | .next t => (t.pending, t.dev.rd .MBX_DB 0 0) | _ => ([], 0)) = ([.mbxDbSet 0 2], 1) := by decide +kernel
/-- GATHER of row 1 writes 2.0, SCATTER_ADD adds 2.0 to 2.0 and VE_MAP adds 1 + 1 and 2 + 2. -/
theorem test_gather : byteAfter (.gather 0 .start {}) sGather 0x483 = 0x40 ∧ byteAfter (.gather 0 .start {}) sGather 0x482 = 0 := by decide +kernel
theorem test_scatterAdd : byteAfter (.scatterAdd 0 .start {}) sScatterAdd 0x486 = 0x80 ∧ byteAfter (.scatterAdd 0 .start {}) sScatterAdd 0x487 = 0x40 := by
  decide +kernel
theorem test_topK : byteAfter (.topK 0 .start {}) sTopK 0x480 = 1 := by decide +kernel
theorem test_segMerge : byteAfter (.segMerge 0 .start {}) sSegMerge 0x482 = 0x40 ∧ byteAfter (.segMerge 0 .start {}) sSegMerge 0x483 = 0x40 := by decide +kernel
theorem test_veMap : byteAfter (.veMap 0 .start {}) sVeMap 0x483 = 0x40 ∧ byteAfter (.veMap 0 .start {}) sVeMap 0x486 = 0x80 := by decide +kernel
/-- 1.5 in BF16 is 1.5 in FP32 (02_number_formats_and_accumulation.md). -/
theorem test_bf16 : fp32Code (Fmt.bf16.decode 0x3FC0) = 0x3FC00000 := by decide +kernel

end Sys2Proof.Tests
end

section
/-!
PROOF. The mailbox unit (14_control_mailboxes_and_interrupts.md R506, R510, R515, R516): a field of a register bit by bit, a
message put on a channel as two steps (the ring, then the doorbell), and the statements about full channels and doorbells.
-/

namespace Sys2Proof.Machine

/-! ### Bits of a field -/

/-- A bit of a field is the bit of the number at the field's place. -/
theorem bit_bits (n hi lo i : Nat) : bit (bits n hi lo) i = (decide (i < hi + 1 - lo) && bit n (lo + i)) := by
  simp [bits, bit, Nat.testBit_mod_two_pow, Nat.testBit_shiftRight]

/-- A number with a field replaced, in its three parts: above the field, the field, below it. -/
theorem putBits_eq_parts {hi lo : Nat} (h : lo ≤ hi) (n v : Nat) :
    putBits n hi lo v = 2 ^ lo * (2 ^ (hi + 1 - lo) * (n / 2 ^ (hi + 1)) + v % 2 ^ (hi + 1 - lo)) + n % 2 ^ lo := by
  have hdiv : n / 2 ^ (hi + 1) = n / 2 ^ lo / 2 ^ (hi + 1 - lo) := by
    rw [Nat.div_div_eq_div_mul, ← Nat.pow_add]; congr 2; omega
  rw [putBits, bits_eq_mod, hdiv]
  have hn := Nat.div_add_mod n (2 ^ lo)
  have hq := Nat.div_add_mod (n / 2 ^ lo) (2 ^ (hi + 1 - lo))
  generalize n % 2 ^ lo = r at *
  generalize n / 2 ^ lo = q at *
  generalize q / 2 ^ (hi + 1 - lo) = a at *
  generalize q % 2 ^ (hi + 1 - lo) = b at *
  subst hq hn
  rw [Nat.mul_add, Nat.mul_add, Nat.mul_comm b, Nat.mul_comm (v % _)]
  omega

/-- Replacing a field replaces its bits and leaves every other bit. -/
theorem bit_putBits {hi lo : Nat} (h : lo ≤ hi) (n v i : Nat) :
    bit (putBits n hi lo v) i = if lo ≤ i ∧ i ≤ hi then bit v (i - lo) else bit n i := by
  have hmod : n % 2 ^ lo < 2 ^ lo := Nat.mod_lt _ (Nat.two_pow_pos _)
  have hv : v % 2 ^ (hi + 1 - lo) < 2 ^ (hi + 1 - lo) := Nat.mod_lt _ (Nat.two_pow_pos _)
  rw [bit, putBits_eq_parts h, Nat.testBit_two_pow_mul_add _ hmod]
  by_cases hlo : i < lo
  · simp [hlo, bit, Nat.testBit_mod_two_pow]
  · rw [if_neg hlo, Nat.testBit_two_pow_mul_add _ hv]
    by_cases hhi : i ≤ hi
    · have hin : i - lo < hi + 1 - lo := by omega
      simp [hin, hhi, Nat.le_of_not_lt hlo, bit, Nat.testBit_mod_two_pow]
    · have hout : ¬ i - lo < hi + 1 - lo := by omega
      have hplace : hi + 1 + (i - lo - (hi + 1 - lo)) = i := by omega
      simp [hout, hhi, bit, Nat.testBit_div_two_pow, Nat.add_comm _ (hi + 1), hplace]

namespace Dev

/-! ### A field of a register -/

theorem setFld_eq_wr (d : Dev) (x : Field) (w j v : Nat) :
    d.setFld x w j v = d.wr x.reg w j (putBits (d.rd x.reg w j) x.hi x.lo v) := rfl

theorem raise_eq_setFld (d : Dev) (x : Field) (w j : Nat) : d.raise x w j = d.setFld x w j 1 := rfl

theorem fld_eq_bits (d : Dev) (x : Field) (w j : Nat) : d.fld x w j = bits (d.rd x.reg w j) x.hi x.lo := rfl

theorem isSet_eq_fld (d : Dev) (x : Field) (w j : Nat) : d.isSet x w j = (d.fld x w j != 0) := rfl

@[simp] theorem rd_setRing (d : Dev) (c : Nat) (x : Ring) (r : Reg) (w j : Nat) : (d.setRing c x).rd r w j = d.rd r w j := rfl

@[simp] theorem ring_setFld (d : Dev) (x : Field) (w j v k : Nat) : (d.setFld x w j v).ring k = d.ring k := rfl

@[simp] theorem rd_begun (d : Dev) (env : Env) (r : Reg) (w j : Nat) : (d.begun env).rd r w j = d.rd r w j := rfl

theorem isSet_eq_of_rd {d e : Dev} {x : Field} {w j : Nat} (h : e.rd x.reg w j = d.rd x.reg w j) :
    e.isSet x w j = d.isSet x w j := by
  rw [isSet_eq_fld, isSet_eq_fld, fld_eq_bits, fld_eq_bits, h]

/-- A register has no bit above bit 63. -/
theorem bit_rd_of_le (d : Dev) (r : Reg) (w j : Nat) {i : Nat} (h : 64 ≤ i) : bit (d.rd r w j) i = false :=
  Nat.testBit_lt_two_pow (Nat.lt_of_lt_of_le (d.regs.rd r w j).isLt (Nat.pow_le_pow_right (by decide) h))

/-- A register after one of its fields is set. -/
theorem bit_rd_setFld (d : Dev) {x : Field} (h : x.lo ≤ x.hi) (h64 : x.hi < 64) (w j v i : Nat) :
    bit ((d.setFld x w j v).rd x.reg w j) i = if x.lo ≤ i ∧ i ≤ x.hi then bit v (i - x.lo) else bit (d.rd x.reg w j) i := by
  rw [setFld_eq_wr, rd_wr, ← bit_putBits h, bit, Nat.testBit_mod_two_pow, ← bit]
  by_cases hi : i < 64
  · simp [hi]
  · have hrow : ¬ i ≤ x.hi := by omega
    simp [hi, bit_putBits h, hrow, bit_rd_of_le d _ _ _ (Nat.le_of_not_lt hi)]

/-- A bit of a field set in its register. -/
theorem bit_fld (d : Dev) (x : Field) (w j i : Nat) :
    bit (d.fld x w j) i = (decide (i < x.hi + 1 - x.lo) && bit (d.rd x.reg w j) (x.lo + i)) := bit_bits ..

/-- A status bit reads as set once it is raised. -/
theorem isSet_raise (d : Dev) {x : Field} (h : x.lo ≤ x.hi) (h64 : x.hi < 64) (w j : Nat) : (d.raise x w j).isSet x w j = true := by
  have hbit : bit ((d.raise x w j).fld x w j) 0 = true := by
    rw [bit_fld, raise_eq_setFld, bit_rd_setFld d h h64]
    simp [h, bit]
  rw [isSet_eq_fld, bne_iff_ne]
  intro h0
  simp [h0, bit] at hbit

/-- Setting a field leaves a register at another address. -/
theorem rd_setFld_other (d : Dev) (x : Field) {r : Reg} {w j w' j' : Nat} (v : Nat) (h : r.key w' j' ≠ x.reg.key w j) :
    (d.setFld x w j v).rd r w' j' = d.rd r w' j' := rd_wr_other d _ h

theorem rd_raise_other (d : Dev) (x : Field) {r : Reg} {w j w' j' : Nat} (h : r.key w' j' ≠ x.reg.key w j) :
    (d.raise x w j).rd r w' j' = d.rd r w' j' := rd_wr_other d _ h

end Dev

/-! ### Addresses of the mailbox unit's registers -/

theorem key_mbxDb (p : Nat) : Reg.MBX_DB.key 0 p = 0x40000500 + 8 * p := rfl

theorem key_mbxBind (c : Nat) : Reg.MBX_BIND.key 0 c = 0x40000100 + 8 * c := rfl

theorem key_mbxColl : Reg.MBX_COLL.key 0 0 = 0x40000010 := rfl

theorem key_mbxErrStatus : Reg.MBX_ERR_STATUS.key 0 0 = 0x40000018 := rfl

theorem key_intLeafEn (b : Nat) : Reg.INT_LEAF_EN.key 0 b = 0x41000300 + 8 * b := rfl

theorem key_intFw : Reg.INT_FW.key 0 0 = 0x41000020 := rfl

namespace Dev

/-! ### A message put on a channel -/

/-- A binding is what its register holds. -/
theorem binding_eq_of_rd {d e : Dev} {c : Nat} (h : e.rd .MBX_BIND 0 c = d.rd .MBX_BIND 0 c) : e.binding c = d.binding c := by
  simp only [binding, isSet_eq_fld, fld_eq_bits, F.MBX_BIND_valid, F.MBX_BIND_owner, F.MBX_BIND_privilege, F.MBX_BIND_db_bit,
    F.MBX_BIND_reply, F.MBX_BIND_receiver, F.MBX_BIND_sender, h]

/-- A full ring after an overwrite: the oldest message is gone, and the collision is marked (R510). -/
def overwritten (r : Ring) (bs : List Byte) : Ring :=
  { r with msgs := r.msgs.drop 1 ++ [bs], head := (r.head + 1) % 16, overwrites := satAdd 32 r.overwrites 1, collision := true }

/-- The ring's part of a message put on a channel (R510). -/
def ringStore (d : Dev) (c : Nat) (bs : List Byte) : Dev :=
  let r := d.ring c
  if r.msgs.length < 16 then d.setRing c { r with msgs := r.msgs ++ [bs] }
  else
    ((d.setRing c (overwritten r bs)).setFld F.MBX_COLL_coll 0 0 (d.fld F.MBX_COLL_coll ||| 2 ^ c)).raise
      F.MBX_ERR_STATUS_collision

/-- The doorbell's part of a message put on a channel (R515). -/
def ringBell (d : Dev) (c : Nat) : Dev :=
  let b := d.binding c
  if b.receiver < 4 then d.setFld F.MBX_DB_bits 0 b.receiver (d.fld F.MBX_DB_bits 0 b.receiver ||| 2 ^ b.dbBit) else d

theorem ringPut_eq (d : Dev) (c : Nat) (bs : List Byte) : d.ringPut c bs = (d.ringStore c bs).ringBell c := rfl

/-! The ring's part changes the channel's ring, MBX_COLL and MBX_ERR_STATUS, and nothing else. -/

theorem rd_ringStore_other (d : Dev) (c : Nat) (bs : List Byte) {r : Reg} {w j : Nat}
    (hcoll : r.key w j ≠ Reg.MBX_COLL.key 0 0) (herr : r.key w j ≠ Reg.MBX_ERR_STATUS.key 0 0) :
    (d.ringStore c bs).rd r w j = d.rd r w j := by
  unfold ringStore
  dsimp only
  split
  · rfl
  · rw [rd_raise_other _ F.MBX_ERR_STATUS_collision herr, rd_setFld_other _ F.MBX_COLL_coll _ hcoll, rd_setRing]

theorem rd_mbxDb_ringStore (d : Dev) (c : Nat) (bs : List Byte) (p : Nat) :
    (d.ringStore c bs).rd .MBX_DB 0 p = d.rd .MBX_DB 0 p :=
  rd_ringStore_other d c bs (by rw [key_mbxDb, key_mbxColl]; omega) (by rw [key_mbxDb, key_mbxErrStatus]; omega)

@[simp] theorem binding_ringStore (d : Dev) (c : Nat) (bs : List Byte) (k : Nat) : (d.ringStore c bs).binding k = d.binding k :=
  binding_eq_of_rd (rd_ringStore_other d c bs (by rw [key_mbxBind, key_mbxColl]; omega) (by rw [key_mbxBind, key_mbxErrStatus]; omega))

theorem ring_ringStore_other (d : Dev) {c k : Nat} (bs : List Byte) (h : k ≠ c) : (d.ringStore c bs).ring k = d.ring k := by
  unfold ringStore
  dsimp only
  split <;> exact ring_setRing_other d _ h

theorem ringStore_out (d : Dev) (c : Nat) (bs : List Byte) : (d.ringStore c bs).out = d.out := by
  unfold ringStore
  dsimp only
  split <;> rfl

theorem ringStore_boot (d : Dev) (c : Nat) (bs : List Byte) : (d.ringStore c bs).boot = d.boot := by
  unfold ringStore
  dsimp only
  split <;> rfl

/-! The doorbell's part changes a doorbell register, and nothing else. -/

theorem rd_ringBell_other (d : Dev) (c : Nat) {r : Reg} {w j : Nat} (h : ∀ p < 4, r.key w j ≠ Reg.MBX_DB.key 0 p) :
    (d.ringBell c).rd r w j = d.rd r w j := by
  unfold ringBell
  dsimp only
  split
  case isTrue hp => exact rd_setFld_other d F.MBX_DB_bits _ (h _ hp)
  case isFalse => rfl

@[simp] theorem ringBell_rings (d : Dev) (c : Nat) : (d.ringBell c).rings = d.rings := by
  unfold ringBell
  dsimp only
  split <;> rfl

@[simp] theorem ring_ringBell (d : Dev) (c k : Nat) : (d.ringBell c).ring k = d.ring k := by rw [ring, ringBell_rings]; rfl

@[simp] theorem ringBell_out (d : Dev) (c : Nat) : (d.ringBell c).out = d.out := by
  unfold ringBell
  dsimp only
  split <;> rfl

@[simp] theorem ringBell_boot (d : Dev) (c : Nat) : (d.ringBell c).boot = d.boot := by
  unfold ringBell
  dsimp only
  split <;> rfl

theorem binding_ringBell (d : Dev) (c : Nat) {k : Nat} (h : k < 64) : (d.ringBell c).binding k = d.binding k :=
  binding_eq_of_rd (rd_ringBell_other d c (fun p _ => by rw [key_mbxBind, key_mbxDb]; omega))

/-- Bits ORed into doorbell register p: they are set there, and each other bit of the four registers stays. -/
theorem bit_mbxDb_or (d : Dev) (p v : Nat) {q i : Nat} (hi : i < 32) :
    bit ((d.setFld F.MBX_DB_bits 0 p (d.fld F.MBX_DB_bits 0 p ||| v)).rd .MBX_DB 0 q) i =
      (bit (d.rd .MBX_DB 0 q) i || (decide (p = q) && bit v i)) := by
  by_cases hq : p = q
  · subst hq
    have hset := bit_rd_setFld d (x := F.MBX_DB_bits) (by decide) (by decide) 0 p (d.fld F.MBX_DB_bits 0 p ||| v) i
    have hold : bit (d.fld F.MBX_DB_bits 0 p) i = bit (d.rd .MBX_DB 0 p) i := by
      simp [bit_fld, F.MBX_DB_bits, hi]
    refine hset.trans ?_
    have hle : i ≤ 31 := by omega
    rw [← hold]
    simp [F.MBX_DB_bits, bit, hle]
  · rw [rd_setFld_other d F.MBX_DB_bits _ (by
      show Reg.MBX_DB.key 0 q ≠ Reg.MBX_DB.key 0 p
      rw [key_mbxDb, key_mbxDb]; omega)]
    simp [hq]

theorem bit_mbxDb_ringBell (d : Dev) (c : Nat) {p i : Nat} (hp : p < 4) (hi : i < 32) :
    bit ((d.ringBell c).rd .MBX_DB 0 p) i =
      (bit (d.rd .MBX_DB 0 p) i || (decide ((d.binding c).receiver = p) && decide ((d.binding c).dbBit = i))) := by
  unfold ringBell
  dsimp only
  split
  case isTrue => rw [bit_mbxDb_or d _ _ hi, bit, bit, Nat.testBit_two_pow]
  case isFalse h =>
    have hne : (d.binding c).receiver ≠ p := by omega
    simp [hne]

/-- A message put on a channel whose ring is full (R510). -/
theorem ringStore_of_full {d : Dev} {c : Nat} (bs : List Byte) (h : (d.ring c).msgs.length = 16) :
    d.ringStore c bs = ((d.setRing c (overwritten (d.ring c) bs)).setFld
      F.MBX_COLL_coll 0 0 (d.fld F.MBX_COLL_coll ||| 2 ^ c)).raise F.MBX_ERR_STATUS_collision := by
  simp [ringStore, h]

/-- MBX_COLL after an overwrite: the channel's bit is set, and every other bit stays. -/
theorem bit_mbxColl_ringStore_of_full {d : Dev} {c : Nat} (bs : List Byte) (hc : c < 64)
    (h : (d.ring c).msgs.length = 16) (k : Nat) :
    bit ((d.ringStore c bs).rd .MBX_COLL) k = (decide (k = c) || bit (d.rd .MBX_COLL) k) := by
  have hset := bit_rd_setFld (d.setRing c (overwritten (d.ring c) bs)) (x := F.MBX_COLL_coll)
    (by decide) (by decide) 0 0 (d.fld F.MBX_COLL_coll ||| 2 ^ c) k
  rw [ringStore_of_full bs h, rd_raise_other _ F.MBX_ERR_STATUS_collision (by decide)]
  refine hset.trans ?_
  by_cases hk : k ≤ 63
  · have hold : bit (d.fld F.MBX_COLL_coll) k = bit (d.rd .MBX_COLL) k := by simp [bit_fld, F.MBX_COLL_coll]; omega
    rw [← hold]
    simp [F.MBX_COLL_coll, bit, hk, Nat.testBit_two_pow, eq_comm, Bool.or_comm]
  · have hne : k ≠ c := by omega
    simp [F.MBX_COLL_coll, hk, hne]

/-! Both parts together. -/

theorem ring_ringPut (d : Dev) (c : Nat) (bs : List Byte) (k : Nat) : (d.ringPut c bs).ring k = (d.ringStore c bs).ring k := by
  rw [ringPut_eq, ring_ringBell]

theorem ring_ringPut_of_full {d : Dev} {c : Nat} (bs : List Byte) (h : (d.ring c).msgs.length = 16) :
    (d.ringPut c bs).ring c = overwritten (d.ring c) bs := by
  rw [ring_ringPut, ringStore_of_full bs h, raise_eq_setFld, ring_setFld, ring_setFld, ring_setRing]

theorem ring_ringPut_other (d : Dev) {c k : Nat} (bs : List Byte) (h : k ≠ c) : (d.ringPut c bs).ring k = d.ring k := by
  rw [ring_ringPut, ring_ringStore_other d bs h]

theorem bit_mbxColl_ringPut_of_full {d : Dev} {c : Nat} (bs : List Byte) (hc : c < 64)
    (h : (d.ring c).msgs.length = 16) (k : Nat) :
    bit ((d.ringPut c bs).rd .MBX_COLL) k = (decide (k = c) || bit (d.rd .MBX_COLL) k) := by
  rw [ringPut_eq, rd_ringBell_other _ _ (fun p _ => by rw [key_mbxDb, key_mbxColl]; omega), bit_mbxColl_ringStore_of_full bs hc h]

theorem isSet_collision_ringPut_of_full {d : Dev} {c : Nat} (bs : List Byte) (h : (d.ring c).msgs.length = 16) :
    (d.ringPut c bs).isSet F.MBX_ERR_STATUS_collision = true := by
  have hbell : (d.ringPut c bs).rd .MBX_ERR_STATUS = (d.ringStore c bs).rd .MBX_ERR_STATUS :=
    rd_ringBell_other _ c (fun p _ => by rw [key_mbxDb, key_mbxErrStatus]; omega)
  rw [isSet_eq_of_rd (x := F.MBX_ERR_STATUS_collision) hbell, ringStore_of_full bs h]
  exact isSet_raise _ (by decide) (by decide) 0 0

theorem ringPut_out (d : Dev) (c : Nat) (bs : List Byte) : (d.ringPut c bs).out = d.out := by
  rw [ringPut_eq, ringBell_out, ringStore_out]

theorem ringPut_boot (d : Dev) (c : Nat) (bs : List Byte) : (d.ringPut c bs).boot = d.boot := by
  rw [ringPut_eq, ringBell_boot, ringStore_boot]

theorem binding_ringPut (d : Dev) (c : Nat) (bs : List Byte) {k : Nat} (h : k < 64) : (d.ringPut c bs).binding k = d.binding k := by
  rw [ringPut_eq, binding_ringBell _ _ h, binding_ringStore]

/-! ### A take -/

/-- No quote that waits for the channel: nothing is put there. -/
theorem feed_of_no_quote {d : Dev} {c : Nat} (h : ∀ q ∈ d.boot.quotes, q.1 ≠ c) : d.feed c = d := by
  have hfind : d.boot.quotes.find? (fun q => q.1 = c) = none := by simpa using h
  rw [feed, hfind]

/-- A take changes no doorbell register; at most it clears board_msg in INT_FW. -/
theorem rd_mbxDb_ringTake (d : Dev) (c : Nat) {p : Nat} (hp : Reg.MBX_DB.key 0 p ≠ Reg.INT_FW.key 0 0)
    (hq : ∀ q ∈ d.boot.quotes, q.1 ≠ c) : (d.ringTake c).2.rd .MBX_DB 0 p = d.rd .MBX_DB 0 p := by
  unfold ringTake
  dsimp only
  split
  case h_1 => rfl
  case h_2 _ m ms _ =>
    by_cases hlast : c = 1 ∧ ms = []
    · rw [if_pos hlast, feed_of_no_quote (by exact hq), rd_setFld_other _ F.INT_FW_board_msg _ hp, rd_setRing]
    · rw [if_neg hlast, feed_of_no_quote (by exact hq), rd_setRing]

/-! ### A register write of a doorbell register -/

/-- A software write of a register other than a binding stores what the access codes leave. -/
theorem plainWrite_eq_wr (d : Dev) {r : Reg} (h : r ≠ .MBX_BIND) (w j v : Nat) :
    d.plainWrite r w j v = d.wr r w j (RegFile.written r (d.regs.locked r w) (d.rd r w j) (v % 2 ^ 64)) := by
  simp [plainWrite, RegFile.swWrite, h, wr, rd]

/-- A W1C field keeps the bits that are not written as 1. -/
theorem bit_writtenField_w1c (locked : Bool) (old v hi lo reset i : Nat) :
    bit (RegFile.writtenField locked old v ⟨hi, lo, .w1c, reset⟩) i = (bit (bits old hi lo) i && !bit (bits v hi lo) i) := by
  have hlt : bits v hi lo < 2 ^ (hi + 1 - lo) := by rw [bits_eq_mod]; exact Nat.mod_lt _ (Nat.two_pow_pos _)
  simp only [RegFile.writtenField, bit, Nat.testBit_and, Nat.sub_sub, Nat.add_comm 1, Nat.testBit_two_pow_sub_succ hlt]
  have hold := bit_bits old hi lo i
  simp only [bit] at hold
  rw [hold]
  cases decide (i < hi + 1 - lo) <;> simp

theorem bit_mbxDb_plainWrite (d : Dev) (p v : Nat) {i : Nat} (hi : i < 32) :
    bit ((d.plainWrite .MBX_DB 0 p v).rd .MBX_DB 0 p) i = (bit (d.rd .MBX_DB 0 p) i && !bit v i) := by
  have h64 : i < 64 := by omega
  rw [plainWrite_eq_wr d (by decide), rd_wr, bit, Nat.testBit_mod_two_pow, ← bit]
  show (decide (i < 64) && bit (putBits 0 31 0 (RegFile.writtenField _ _ _ ⟨31, 0, .w1c, 0⟩)) i) = _
  have hle : i ≤ 31 := by omega
  rw [bit_putBits (by decide), if_pos ⟨Nat.zero_le _, hle⟩, Nat.sub_zero, bit_writtenField_w1c, bit_bits, bit_bits]
  have hv : bit (v % 2 ^ 64) i = bit v i := by rw [bit, Nat.testBit_mod_two_pow, decide_eq_true h64, Bool.true_and, ← bit]
  rw [Nat.zero_add, hv]
  simp [hi, h64]

/-! ### Interrupts -/

theorem interrupted_of_doorbell (d : Dev) {p i : Nat} (hi : i < 32) (hdb : bit (d.rd .MBX_DB 0 p) i = true)
    (hmask : bit (d.rd .MBX_DB_MASK 0 p) i = true) : d.interrupted p = true := by
  have h1 : bit (d.fld F.MBX_DB_bits 0 p) i = true := by simpa [bit_fld, F.MBX_DB_bits, hi] using hdb
  have h2 : bit (d.fld F.MBX_DB_MASK_mask 0 p) i = true := by simpa [bit_fld, F.MBX_DB_MASK_mask, hi] using hmask
  have hne : d.fld F.MBX_DB_bits 0 p &&& d.fld F.MBX_DB_MASK_mask 0 p ≠ 0 := fun h0 => by
    have hand : bit (d.fld F.MBX_DB_bits 0 p &&& d.fld F.MBX_DB_MASK_mask 0 p) i = true := by
      rw [bit, Nat.testBit_and, ← bit, ← bit, h1, h2]; rfl
    simp [h0, bit] at hand
  simp [interrupted, hne]

/-! ### MBX_DB_SET -/

/-- The registers that the leaf words are made of (R525). -/
def leafRegs : List Reg :=
  [.FAB_ERR_STATUS, .COL_ERR_STATUS, .CTX_ERR_STATUS, .DA_ERR_STATUS, .DA_SP_ERR, .FD_ERR_STATUS, .WLK_ERR_STATUS,
   .HD_ERR_STATUS, .WQ_ERR_STATUS, .UPD_ERR_STATUS, .VE_ERR_STATUS, .GME_ERR_STATUS, .CMEM_ERR_STATUS, .SHM_ERR_STATUS,
   .DDR_ERR_STATUS, .RHK_ERR_STATUS, .MBX_ERR_STATUS, .PWR_ERR_STATUS, .TEL_ERR_STATUS, .ETH_ERR_STATUS, .SEC_ERR_STATUS,
   .RST_ERR_STATUS, .SCR_ERR_STATUS, .SMB_ERR_STATUS, .INT_FW]

theorem leafWord_congr {d e : Dev} (h : ∀ r ∈ leafRegs, ∀ w, e.rd r w = d.rd r w) (b : Nat) :
    e.leafWord b = d.leafWord b := by
  simp only [leafRegs, List.forall_mem_cons] at h
  simp only [leafWord, h]

theorem leafRegs_offset : ∀ r ∈ leafRegs, r.row.offset < 0x500 ∨ 0x520 ≤ r.row.offset ∧ r.row.offset < 2 ^ 24 := by decide

/-- Setting doorbell bits leaves the leaf words and INT_SUM (R525). -/
theorem intSum_setMbxDb (d : Dev) {p : Nat} (hp : p < 4) (v : Nat) : (d.setFld F.MBX_DB_bits 0 p v).intSum = d.intSum := by
  have hleaf : ∀ r ∈ leafRegs, ∀ w, (d.setFld F.MBX_DB_bits 0 p v).rd r w = d.rd r w := fun r hr w => by
    have hoffset := leafRegs_offset r hr
    refine rd_setFld_other d F.MBX_DB_bits v (?_ : r.key w 0 ≠ Reg.MBX_DB.key 0 p)
    rw [key_mbxDb, Reg.key]
    omega
  have hen : ∀ b, (d.setFld F.MBX_DB_bits 0 p v).rd .INT_LEAF_EN 0 b = d.rd .INT_LEAF_EN 0 b := fun b => by
    refine rd_setFld_other d F.MBX_DB_bits v (?_ : Reg.INT_LEAF_EN.key 0 b ≠ Reg.MBX_DB.key 0 p)
    rw [key_mbxDb, key_intLeafEn]
    omega
  simp only [intSum, leafWord_congr hleaf, hen]

/-- INT_SUM reads nothing of a command's output and surroundings. -/
theorem intSum_begun (d : Dev) (env : Env) : (d.begun env).intSum = d.intSum := rfl

/-- A command whose effect leaves every summary bit raises no ALERT event. -/
theorem settle_of_intSum_eq {before after : Dev} (h : after.intSum = before.intSum) :
    settle before after = { after with env := {} } := by
  have hrisen : settle.bitsAndNot (before.intSum &&& after.rd .INT_ALERT_EN) before.intSum = false := by
    simp only [settle.bitsAndNot, List.any_eq_false, bit, Nat.testBit_and]
    intro i _
    cases before.intSum.testBit i <;> simp
  simp [settle, h, hrisen]

theorem dbSet_eq (d : Dev) (p v : Nat) : d.dbSet p v = d.setFld F.MBX_DB_bits 0 p (d.fld F.MBX_DB_bits 0 p ||| v % 2 ^ 32) := rfl

/-- MBX_DB_SET sets doorbell bits and raises no event. -/
theorem settle_dbSet (d : Dev) {p : Nat} (hp : p < 4) (v : Nat) :
    settle d ((d.begun {}).dbSet p v) = { (d.begun {}).dbSet p v with env := {} } :=
  settle_of_intSum_eq (by rw [dbSet_eq, intSum_setMbxDb _ hp, intSum_begun])

end Dev

theorem exec_mbxDbSet (p : Fin 4) (v : BitVec 32) {s : State} (h : s.dev.awake = true) :
    exec (.mbxDbSet p v) s = .next { s with dev := { (s.dev.begun {}).dbSet p v.toNat with env := {} } } := by
  show s.apply (fun d => d.dbSet p v.toNat) {} = _
  rw [State.apply_next, Dev.command_awake _ _ _ h, Dev.settle_dbSet _ p.isLt]

/-! ### An arrival -/

open Sys2Proof.Claims

/-- A message that the binding accepts is put on the channel, whatever the channel holds (R506, R510). -/
theorem Dev.mbxArrive_of_accepts {d : Dev} {sender c : Nat} (port : MbxPort) {bs : List Byte} (hlen : bodyLength bs ≤ 240)
    (h : Accepts d sender c) :
    d.mbxArrive sender c port bs = (true, Dev.answerUnlisted 16 c (d.ringPut c (bs.take (16 + bodyLength bs)))) := by
  obtain ⟨hvalid, hsender, hcore⟩ := h
  have hshort : ¬ 240 < field bs 6 2 := Nat.not_lt.mpr hlen
  simpa [Dev.mbxArrive, hshort, hvalid, hsender, bodyLength] using hcore

/-- A channel whose oldest message waits is not answered (R503). -/
theorem Dev.answerUnlisted_of_waits (n : Nat) {d : Dev} {c : Nat} (h : Waits d c (d.ring c).msgs) : Dev.answerUnlisted n c d = d := by
  cases n with
  | zero => rfl
  | succ n =>
    unfold Dev.answerUnlisted
    dsimp only
    split
    case h_1 => rfl
    case h_2 m ms hm =>
      have hstays : d.boot.runs = .none ∨ 4 ≤ (d.binding c).receiver ∨ (d.binding c).valid = false ∨
          (cmdInfo (Msg.ofBytes m).code).isSome := by
        rcases h with hreceiver | hruns | hlisted
        · exact .inr (.inl hreceiver)
        · exact .inl hruns
        · exact .inr (.inr (.inr (Option.isSome_iff_ne_none.mpr (hlisted m (by rw [hm]; rfl)))))
      rw [if_pos hstays]

/-- What waits on a channel depends on its binding and on what Prois does, which a message put there leaves. -/
theorem waits_ringPut {d : Dev} {c : Nat} (hc : c < 64) (bs : List Byte) {msgs : List (List Byte)} (h : Waits d c msgs) :
    Waits (d.ringPut c bs) c msgs := by
  rw [Waits, Dev.binding_ringPut d c bs hc, Dev.ringPut_boot]
  exact h

end Sys2Proof.Machine

namespace Sys2Proof.Proofs

open Sys2Proof.Machine Sys2Proof.Claims

/-- Settles O44: the ring's part of the message's arrival discards the oldest message and marks the overwrite, and the doorbell's
part touches none of what the statement reads. -/
theorem fullChannelOverwrites : Obligations.FullChannelOverwrites := by
  intro d sender c port bs hlen haccepts hfull
  dsimp only
  have hring := Dev.ring_ringPut_of_full (bs.take (16 + bodyLength bs)) hfull
  have hcoll := Dev.bit_mbxColl_ringPut_of_full (bs.take (16 + bodyLength bs)) c.isLt hfull
  refine ⟨Dev.mbxArrive_of_accepts port hlen haccepts, ?_, ?_, ?_, fun k hk => ?_, ?_, fun k hk => ?_, ?_, fun hwaits => ?_⟩
  · rw [hring]; rfl
  · rw [hring]; rfl
  · rw [hcoll]; simp
  · rw [hcoll]; simp [hk]
  · exact Dev.isSet_collision_ringPut_of_full _ hfull
  · exact Dev.ring_ringPut_other d _ hk
  · exact Dev.ringPut_out d c _
  · exact Dev.answerUnlisted_of_waits 16 (waits_ringPut c.isLt _ hwaits)

/-! ### Doorbells

What R515 and R516 say of the four control processors holds: the three theorems here, `Dev.bit_mbxDb_plainWrite` for the W1C write
and `Dev.interrupted_of_doorbell`. -/

/-- A message put on a channel sets the binding's doorbell bit and no other. -/
theorem ringPut_sets_doorbell (d : Dev) (c : Fin 64) (bs : List Byte) {p i : Nat} (hp : p < 4) (hi : i < 32) :
    bit ((d.ringPut c bs).rd .MBX_DB 0 p) i =
      (bit (d.rd .MBX_DB 0 p) i || (decide ((d.binding c).receiver = p) && decide ((d.binding c).dbBit = i))) := by
  rw [Dev.ringPut_eq, Dev.bit_mbxDb_ringBell _ _ hp hi, Dev.rd_mbxDb_ringStore, Dev.binding_ringStore]

/-- MBX_DB_SET sets each bit written as 1 and leaves the rest. -/
theorem mbxDbSet_sets_bits (s : State) (p : Fin 4) (v : BitVec 32) (h : s.dev.awake = true) :
    ∃ t, exec (.mbxDbSet p v) s = .next t ∧ t.dev.rings = s.dev.rings ∧
      ∀ i < 32, bit (t.dev.rd .MBX_DB 0 p) i = (bit (s.dev.rd .MBX_DB 0 p) i || v.getLsbD i) := by
  refine ⟨_, exec_mbxDbSet p v h, rfl, fun i hi => ?_⟩
  refine (Dev.bit_mbxDb_or (s.dev.begun {}) p (v.toNat % 2 ^ 32) hi).trans ?_
  have hv : bit (v.toNat % 2 ^ 32) i = v.getLsbD i := by rw [Nat.mod_eq_of_lt v.isLt]; rfl
  rw [hv, Dev.rd_begun, decide_eq_true rfl, Bool.true_and]

/-- A control processor's doorbell bits stay when a message is taken. -/
theorem ringTake_keeps_doorbells (d : Dev) (c : Fin 64) (p : Fin 4) (h : ∀ q ∈ d.boot.quotes, q.1 ≠ c.val) :
    (d.ringTake c).2.rd .MBX_DB 0 p = d.rd .MBX_DB 0 p :=
  Dev.rd_mbxDb_ringTake d c (by rw [key_mbxDb, key_intFw]; omega) h

/-! The statement's third clause does not bound its `p`, so that MBX_DB(p) names any register at or above 0x40000500. -/

/-- The number at which MBX_DB, read past its four registers, is INT_FW. -/
def pastDoorbells : Nat := 2 ^ 21 - 156

theorem key_pastDoorbells : Reg.MBX_DB.key 0 pastDoorbells = Reg.INT_FW.key 0 0 := by decide

/-- The device after reset with one message that Prois has put for the board controller, which raises board_msg. -/
def boardMail : Dev := Dev.proisPut {} 1 Dev.emptyMarker

/-- Taking the one message clears board_msg. -/
theorem boardMail_take : boardMail.boot.quotes = [] ∧ boardMail.rd .MBX_DB 0 pastDoorbells = 2 ^ 5 ∧
    (boardMail.ringTake 1).2.rd .MBX_DB 0 pastDoorbells = 0 := by decide +kernel

/-- Refutes O45: its third clause claims of every number `p` that a take leaves the register at MBX_DB(p), and at `pastDoorbells`
that is INT_FW, whose board_msg the take of the last message on channel 1 clears (log entry 72). For the four control processors the
clause holds (`ringTake_keeps_doorbells`). -/
theorem not_doorbells : ¬ Obligations.Doorbells := by
  rintro ⟨-, -, htake, -, -⟩
  obtain ⟨hquotes, hbefore, hafter⟩ := boardMail_take
  have hkept := htake boardMail 1 pastDoorbells (by simp [hquotes])
  rw [hbefore] at hkept
  exact absurd (hafter.symm.trans hkept) (by decide)

end Sys2Proof.Proofs
end

section
/-!
PROOFS. The fabric links: what each operation of a direction keeps, and that every step keeps the links consistent
(01_package_and_fabric.md R31-R33).
-/

namespace Sys2Proof.Machine

/-! ### Consistent directions -/

/-- A direction is consistent when its replay buffer holds the flits from some number on, up to the next new one. -/
theorem dirConsistent_iff (f : FabDir) : DirConsistent f ↔
    f.buffer.length ≤ 256 ∧ ∃ lo, lo + f.buffer.length = f.next ∧ f.buffer.map Prod.fst = List.range' lo f.buffer.length ∧
      lo ≤ f.expect ∧ f.expect ≤ f.next ∧ ∀ k, f.resend = some k → lo ≤ k ∧ k < f.next := by
  have hrange : ∀ lo, (List.range f.buffer.length).map (fun i => lo + i) = List.range' lo f.buffer.length := fun lo => by
    rw [List.range_eq_range', List.map_add_range', Nat.add_zero]
  unfold DirConsistent
  rw [hrange]
  constructor
  · rintro ⟨hroom, hle, hbuf, hlo, hhi, hresend⟩
    exact ⟨hroom, _, Nat.sub_add_cancel hle, hbuf, hlo, hhi, hresend⟩
  · rintro ⟨hroom, lo, hnext, hbuf, hlo, hhi, hresend⟩
    obtain rfl : lo = f.next - f.buffer.length := by omega
    exact ⟨hroom, by omega, hbuf, hlo, hhi, hresend⟩

theorem dirConsistent_default : DirConsistent {} := by simp [DirConsistent]

/-- The numbers of a run above a bound. -/
theorem filter_lt_range' (seq : Nat) : ∀ n lo, (List.range' lo n).filter (fun x => decide (seq < x)) =
    List.range' (max lo (seq + 1)) (lo + n - max lo (seq + 1))
  | 0, lo => by
    have hnone : lo + 0 - max lo (seq + 1) = 0 := by omega
    rw [hnone]; rfl
  | n + 1, lo => by
    rw [List.range'_succ, List.filter_cons, filter_lt_range' seq n (lo + 1)]
    by_cases h : seq < lo
    · have hmax : max lo (seq + 1) = lo := by omega
      have hmax' : max (lo + 1) (seq + 1) = lo + 1 := by omega
      have hlen : lo + (n + 1) - lo = n + 1 := by omega
      have hlen' : lo + 1 + n - (lo + 1) = n := by omega
      simp only [h, decide_true, if_true, hmax, hmax', hlen, hlen', List.range'_succ]
    · have hmax : max (lo + 1) (seq + 1) = max lo (seq + 1) := by omega
      have hlen : lo + 1 + n - max lo (seq + 1) = lo + (n + 1) - max lo (seq + 1) := by omega
      simp only [h, decide_false, Bool.false_eq_true, if_false, hmax, hlen]

namespace FabDir

/-- What the sender puts on the wires carries a number below the next new one, and leaves the direction consistent. -/
theorem send_consistent {f g : FabDir} {words ws : List Nat} {seq : Nat} (h : DirConsistent f) (hs : f.send words = some (seq, ws, g)) :
    DirConsistent g ∧ seq < g.next := by
  rw [dirConsistent_iff] at h ⊢
  obtain ⟨hroom, lo, hnext, hbuf, hlo, hhi, hresend⟩ := h
  cases hk : f.resend with
  | some k =>
    simp only [send, hk] at hs
    split at hs
    · simp only [Option.some.injEq, Prod.mk.injEq] at hs
      obtain ⟨rfl, -, rfl⟩ := hs
      obtain ⟨hk1, hk2⟩ := hresend k hk
      refine ⟨⟨hroom, lo, hnext, hbuf, hlo, hhi, fun j hj => ?_⟩, hk2⟩
      by_cases hlast : k + 1 < f.next
      · simp only [hlast, if_true, Option.some.injEq] at hj; dsimp only; omega
      · simp [hlast] at hj
    · exact absurd hs (by simp)
  | none =>
    simp only [send, hk, replayDepth] at hs
    split at hs
    · simp only [Option.some.injEq, Prod.mk.injEq] at hs
      obtain ⟨rfl, -, rfl⟩ := hs
      refine ⟨⟨by simp; omega, lo, by simp; omega, ?_, hlo, by simp; omega, by simp⟩, by simp⟩
      simp only [List.map_append, hbuf, List.map_cons, List.map_nil, List.length_append, List.length_cons, List.length_nil, ← hnext,
        List.range'_concat, Nat.one_mul]
    · exact absurd hs (by simp)

theorem accept_consistent {f : FabDir} (h : DirConsistent f) (he : f.expect < f.next) : DirConsistent f.accept := by
  rw [dirConsistent_iff] at h ⊢
  obtain ⟨hroom, lo, hnext, hbuf, hlo, -, hresend⟩ := h
  exact ⟨hroom, lo, hnext, hbuf, Nat.le_succ_of_le hlo, he, hresend⟩

theorem reject_consistent {f : FabDir} (h : DirConsistent f) (now : Nat) : DirConsistent (f.reject now) := h

/-- An acknowledgement releases the flits up to its number; what stays is a run that starts at the next one. -/
theorem acked_consistent {f : FabDir} (h : DirConsistent f) (seq : Nat) : DirConsistent (f.acked seq) := by
  unfold acked
  split
  · rename_i hseq
    rw [dirConsistent_iff] at h ⊢
    obtain ⟨hroom, lo, hnext, hbuf, hlo, hhi, hresend⟩ := h
    have hnums : (f.buffer.filter (fun x => decide (seq < x.1))).map Prod.fst =
        List.range' (max lo (seq + 1)) (f.next - max lo (seq + 1)) := by
      rw [← hnext, ← filter_lt_range', ← hbuf, List.filter_map]; rfl
    have hlen : (f.buffer.filter (fun x => decide (seq < x.1))).length = f.next - max lo (seq + 1) := by
      rw [← List.length_map (f := Prod.fst), hnums, List.length_range']
    refine ⟨?_, max lo (seq + 1), ?_, ?_, ?_, hhi, fun k hk => ?_⟩
    · simp only [hlen]; omega
    · simp only [hlen]; omega
    · simp only [hlen]; exact hnums
    · dsimp only; omega
    · obtain ⟨j, hj, hk⟩ := Option.bind_eq_some_iff.mp hk
      have hbound := hresend j hj
      dsimp only
      split at hk
      · simp only [Option.some.injEq] at hk; omega
      · split at hk
        · simp only [Option.some.injEq] at hk; omega
        · exact absurd hk (by simp)
  · exact h

/-- A resend starts at a flit that the buffer holds. -/
theorem resendFrom_consistent {f : FabDir} (h : DirConsistent f) {seq : Nat} (hs : f.buffer.any (fun x => x.1 = seq) = true) :
    DirConsistent (f.resendFrom seq) := by
  rw [dirConsistent_iff] at h ⊢
  obtain ⟨hroom, lo, hnext, hbuf, hlo, hhi, -⟩ := h
  refine ⟨hroom, lo, hnext, hbuf, hlo, hhi, fun k hk => ?_⟩
  obtain rfl : seq = k := by simpa [resendFrom] using hk
  obtain ⟨x, hx, hxk⟩ := List.any_eq_true.mp hs
  have hmem : x.1 ∈ List.range' lo f.buffer.length := hbuf ▸ List.mem_map_of_mem hx
  simp only [List.mem_range'_1] at hmem
  simp only [decide_eq_true_eq] at hxk
  show lo ≤ seq ∧ seq < f.next
  omega

end FabDir

/-! ### Consistent links -/

/-- Every direction of every fabric link in a table of them is consistent. -/
def Links.Consistent (l : Links) : Prop := ∀ k, DirConsistent (Sp.get (fun _ => {}) l k)

namespace Fabric

theorem nil_consistent : Links.Consistent [] := fun _ => dirConsistent_default

theorem setDir_consistent {l : Links} (h : l.Consistent) (b : Nat) (back : Bool) {f : FabDir} (hf : DirConsistent f) :
    Links.Consistent (setDir l b back f) := fun k => by
  rw [setDir, Sp.get_set]
  split
  · exact hf
  · exact h k

theorem clear_consistent {l : Links} (h : l.Consistent) (b : Nat) : Links.Consistent (clear l b) :=
  setDir_consistent (setDir_consistent h b false dirConsistent_default) b true dirConsistent_default

theorem clearCompute_consistent {l : Links} (h : l.Consistent) : Links.Consistent (clearCompute l) :=
  List.foldlRecOn (motive := Links.Consistent) _ _ h (fun l h b _ => by
    split
    · exact clear_consistent h b
    · exact h)

theorem flitReceive_consistent (d : Dev) {l : Links} (h : l.Consistent) (b : Nat) (back : Bool) (words : List Nat)
    (errs : List (Nat × Nat)) : Links.Consistent (flitReceive d l b back words errs).2 := by
  unfold flitReceive
  split
  · exact h
  · split
    · exact h
    · rename_i seq ws f hs
      obtain ⟨hf, hseq⟩ := FabDir.send_consistent (h _) hs
      dsimp only
      split
      · exact setDir_consistent h b back hf
      · rename_i he
        split
        · exact setDir_consistent h b back (FabDir.accept_consistent hf (by omega))
        · split <;> exact setDir_consistent h b back (FabDir.reject_consistent hf _)

theorem nak_consistent (d : Dev) {l : Links} (h : l.Consistent) (b : Nat) (back : Bool) (seq : Nat) :
    Links.Consistent (nak d l b back seq).2 := by
  unfold nak
  dsimp only
  split
  · rename_i hc
    exact setDir_consistent h b back (FabDir.resendFrom_consistent (h _) (Bool.and_eq_true_iff.mp hc).2)
  · exact h

theorem ack_consistent (d : Dev) {l : Links} (h : l.Consistent) (b : Nat) (back : Bool) (seq : Nat) :
    Links.Consistent (ack d l b back seq).2 := by
  unfold ack
  split
  · exact setDir_consistent h b back (FabDir.acked_consistent (h _) seq)
  · exact h

theorem training_consistent (d : Dev) {l : Links} (h : l.Consistent) (b : Nat) : Links.Consistent (training d l b).2 := by
  unfold training
  split
  · exact clear_consistent h b
  · exact h

end Fabric

namespace Dev

open Fabric

theorem computeRecovery_consistent (d : Dev) {l : Links} (h : l.Consistent) (failed : List Nat) :
    Links.Consistent (d.computeRecovery l failed).2 := by
  unfold computeRecovery
  split
  · exact h
  · split
    · dsimp only
      exact clearCompute_consistent h
    · exact h

theorem chipReset_consistent (d : Dev) {l : Links} (h : l.Consistent) (ms : List Module) : Links.Consistent (d.chipReset l ms).2 := by
  unfold chipReset
  split
  · exact h
  · exact nil_consistent

theorem resetAssert_consistent (d : Dev) {l : Links} (h : l.Consistent) : Links.Consistent (d.resetAssert l).2 := by
  unfold resetAssert
  split
  · exact h
  · split
    · exact h
    · dsimp only
      exact nil_consistent

theorem resetRelease_consistent (d : Dev) {l : Links} (h : l.Consistent) (fwd smba : Nat) (testEn : Bool) (ms : List Module) :
    Links.Consistent (d.resetRelease l fwd smba testEn ms).2 := by
  unfold resetRelease
  rw [apply_ite Prod.snd]
  split
  · exact nil_consistent
  · exact h

end Dev

namespace State

/-- A command on the device alone leaves the links. -/
theorem links_of_apply {s t : State} {f : Dev → Dev} {env : Env} (h : s.apply f env = .next t) : t.links = s.links := by
  obtain rfl := Host.Outcome.next.inj h; rfl

/-- A command on the links leaves what its effect makes of them, or, while the device does not run, what they were. -/
theorem consistent_of_applyLinks {s t : State} {f : Dev → Links → Dev × Links} (h : s.applyLinks f = .next t)
    (hl : s.links.Consistent) (hf : ∀ d, Links.Consistent (f d s.links).2) : t.links.Consistent := by
  unfold applyLinks at h
  split at h <;> obtain rfl := Host.Outcome.next.inj h
  · exact hf _
  · exact hl

theorem consistent_of_applyPins {s t : State} {f : Dev → Links → Dev × Links} (h : s.applyPins f = .next t)
    (hf : ∀ d, Links.Consistent (f d s.links).2) : t.links.Consistent := by
  obtain rfl := Host.Outcome.next.inj h; exact hf _

end State

/-- Every command keeps the links consistent: the five families of commands that reach them do, and the rest leave them. -/
theorem exec_keeps_links {i : Instr} {s t : State} (hl : s.links.Consistent) (h : exec i s = .next t) : t.links.Consistent := by
  unfold exec at h
  cases i with
  | flitReceive b back words errs => exact State.consistent_of_applyLinks h hl (fun d => Fabric.flitReceive_consistent d hl b back words errs)
  | fabricNak b back seq => exact State.consistent_of_applyLinks h hl (fun d => Fabric.nak_consistent d hl b back seq)
  | fabricAck b back seq => exact State.consistent_of_applyLinks h hl (fun d => Fabric.ack_consistent d hl b back seq)
  | fabricTraining b => exact State.consistent_of_applyLinks h hl (fun d => Fabric.training_consistent d hl b)
  | computeRecovery failed => exact State.consistent_of_applyLinks h hl (fun d => d.computeRecovery_consistent hl failed)
  | chipReset ms =>
    exact State.consistent_of_applyLinks h hl (fun d => d.chipReset_consistent hl ms)
  | resetNAssert => exact State.consistent_of_applyPins h (fun d => d.resetAssert_consistent hl)
  | resetNRelease fwd smba testEn ms =>
    exact State.consistent_of_applyPins h (fun d => d.resetRelease_consistent hl fwd.toNat smba.toNat testEn ms)
  | supplyLoss rail => exact State.consistent_of_applyPins h (fun _ => Fabric.nil_consistent)
  | powerUp | tapReset | prochotAssert | prochotRelease | thermtrip => exact State.consistent_of_applyPins h (fun _ => hl)
  | boundaryScanInstruction tap cells => exact State.consistent_of_applyPins h (fun _ => hl)
  | thermalSample rs => exact State.consistent_of_applyPins h (fun _ => hl)
  | _ => exact State.links_of_apply h ▸ hl

end Sys2Proof.Machine

namespace Sys2Proof.Proofs

open Sys2Proof.Machine

/-- Settles O41: a step on an empty queue leaves the links, and one that runs a command keeps them consistent. -/
theorem stepKeepsLinks : Obligations.StepKeepsLinks := by
  intro s t hl h
  unfold step at h
  split at h
  · obtain rfl := Host.Outcome.next.inj h; exact hl
  · rename_i c rest _
    exact exec_keeps_links (s := { s with pending := rest }) hl h

end Sys2Proof.Proofs
end

section
/-!
PROOFS. What follows every command's effect: an event on the mailbox channels and what it leaves unchanged
(14_control_mailboxes_and_interrupts.md R524).
-/

namespace Sys2Proof.Machine

open Sys2Proof.Claims

/-- The device `e` is `d` but for messages on its channels: rings, event numbers and the registers that R510, R515 and R527 name. -/
def MailOnly (d e : Dev) : Prop :=
  e = { d with regs := e.regs, rings := e.rings, eventSeq := e.eventSeq } ∧
    ∀ (r : Reg) (w j : Nat), r.key w j ∉ mailKeys → e.rd r w j = d.rd r w j

namespace MailOnly

theorem refl (d : Dev) : MailOnly d d := ⟨rfl, fun _ _ _ _ => rfl⟩

theorem trans {a b c : Dev} (h : MailOnly a b) (k : MailOnly b c) : MailOnly a c := by
  obtain ⟨hab, hrd⟩ := h
  obtain ⟨hbc, hrd'⟩ := k
  refine ⟨?_, fun r w j hr => (hrd' r w j hr).trans (hrd r w j hr)⟩
  rw [hbc, hab]

theorem foldl {β : Type} {f : Dev → β → Dev} (h : ∀ d x, MailOnly d (f d x)) : ∀ (l : List β) (d : Dev), MailOnly d (l.foldl f d)
  | [], d => refl d
  | x :: l, d => trans (h d x) (foldl h l (f d x))

theorem setRing (d : Dev) (c : Nat) (x : Ring) : MailOnly d (d.setRing c x) := ⟨rfl, fun _ _ _ _ => rfl⟩

theorem setFld (d : Dev) (x : Field) (w j v : Nat) (h : x.reg.key w j ∈ mailKeys) : MailOnly d (d.setFld x w j v) :=
  ⟨rfl, fun _ _ _ hr => Dev.rd_setFld_other d x v (fun he => hr (by rw [he]; exact h))⟩

end MailOnly

namespace Dev

theorem mailOnly_ringPut (d : Dev) (c : Nat) (bs : List Byte) : MailOnly d (d.ringPut c bs) := by
  rw [ringPut_eq]
  refine MailOnly.trans (?_ : MailOnly d (d.ringStore c bs)) ?_
  · unfold ringStore
    dsimp only
    split
    · exact .setRing d c _
    · exact .trans (.trans (.setRing d c _) (.setFld _ F.MBX_COLL_coll 0 0 _ (by decide)))
        (.setFld _ F.MBX_ERR_STATUS_collision 0 0 1 (by decide))
  · unfold ringBell
    dsimp only
    split
    · rename_i hp
      refine .setFld _ F.MBX_DB_bits 0 _ _ ?_
      exact List.mem_append_right _ (List.mem_map.mpr ⟨_, List.mem_range.mpr hp, rfl⟩)
    · exact .refl _

theorem mailOnly_proisPut (d : Dev) (c : Nat) (bs : List Byte) : MailOnly d (d.proisPut c bs) := by
  have h := mailOnly_ringPut d c bs
  unfold proisPut
  dsimp only
  split
  · exact h.trans (.setFld _ F.INT_FW_board_msg 0 0 1 (by decide))
  · exact h

theorem mailOnly_proisSend (d : Dev) (c : Nat) (m : Msg) (body : List Byte) : MailOnly d (d.proisSend c m body) :=
  .foldl (fun d _ => mailOnly_proisPut d c _) _ d

theorem mailOnly_eventOn (d : Dev) (c code context : Nat) (body : List Byte) : MailOnly d (d.eventOn c code context body) :=
  .trans (b := (d.nextEvent c).2) ⟨rfl, fun _ _ _ _ => rfl⟩ (mailOnly_proisSend _ c _ body)

theorem mailOnly_contextEvent (d : Dev) (n code : Nat) (body : List Byte) : MailOnly d (d.contextEvent n code body) := by
  unfold contextEvent
  split
  · exact .refl d
  · exact mailOnly_eventOn d _ code n body

theorem mailOnly_deviceEvent (d : Dev) (code : Nat) (body : List Byte) : MailOnly d (d.deviceEvent code body) :=
  .foldl (fun d c => by
    split
    · exact mailOnly_eventOn d c code 0 body
    · exact .refl d) _ d

/-- The end of a command raises an event or does nothing; its surroundings are gone. -/
theorem settle_mailOnly (before d : Dev) : MailOnly { d with env := {} } (settle before d) := by
  have hev : MailOnly d (if settle.bitsAndNot (d.intSum &&& d.rd .INT_ALERT_EN) before.intSum then
      d.deviceEvent 0x800B (leBytes 8 d.intSum) else d) := by
    split
    · exact mailOnly_deviceEvent d _ _
    · exact .refl d
  obtain ⟨heq, hrd⟩ := hev
  refine ⟨?_, fun r w j hr => hrd r w j hr⟩
  unfold settle
  dsimp only
  generalize he : (if settle.bitsAndNot (d.intSum &&& d.rd .INT_ALERT_EN) before.intSum then
      d.deviceEvent 0x800B (leBytes 8 d.intSum) else d) = e at heq ⊢
  rw [heq]

/-- A register outside R510, R515 and R527 reads after the end of a command what the effect left in it. -/
theorem rd_settle (before d : Dev) {r : Reg} {w j : Nat} (h : r.key w j ∉ mailKeys) : (settle before d).rd r w j = d.rd r w j :=
  (settle_mailOnly before d).2 r w j h

/-- Everything that the end of a command leaves of what the effect made. -/
theorem settle_eq (before d : Dev) : settle before d =
    { d with env := {}, regs := (settle before d).regs, rings := (settle before d).rings, eventSeq := (settle before d).eventSeq } :=
  (settle_mailOnly before d).1

@[simp] theorem settle_mem (b d : Dev) : (settle b d).mem = d.mem := by rw [settle_eq]
@[simp] theorem settle_rhk (b d : Dev) : (settle b d).rhk = d.rhk := by rw [settle_eq]
@[simp] theorem settle_arrays (b d : Dev) : (settle b d).arrays = d.arrays := by rw [settle_eq]
@[simp] theorem settle_cores (b d : Dev) : (settle b d).cores = d.cores := by rw [settle_eq]
@[simp] theorem settle_ctxs (b d : Dev) : (settle b d).ctxs = d.ctxs := by rw [settle_eq]
@[simp] theorem settle_eventMask (b d : Dev) : (settle b d).eventMask = d.eventMask := by rw [settle_eq]
@[simp] theorem settle_now (b d : Dev) : (settle b d).now = d.now := by rw [settle_eq]
@[simp] theorem settle_fresh (b d : Dev) : (settle b d).fresh = d.fresh := by rw [settle_eq]
@[simp] theorem settle_recSeq (b d : Dev) : (settle b d).recSeq = d.recSeq := by rw [settle_eq]
@[simp] theorem settle_pendingRecs (b d : Dev) : (settle b d).pendingRecs = d.pendingRecs := by rw [settle_eq]
@[simp] theorem settle_reset (b d : Dev) : (settle b d).reset = d.reset := by rw [settle_eq]
@[simp] theorem settle_health (b d : Dev) : (settle b d).health = d.health := by rw [settle_eq]
@[simp] theorem settle_stops (b d : Dev) : (settle b d).stops = d.stops := by rw [settle_eq]
@[simp] theorem settle_totals (b d : Dev) : (settle b d).totals = d.totals := by rw [settle_eq]
@[simp] theorem settle_eth (b d : Dev) : (settle b d).eth = d.eth := by rw [settle_eq]
@[simp] theorem settle_power (b d : Dev) : (settle b d).power = d.power := by rw [settle_eq]
@[simp] theorem settle_screen (b d : Dev) : (settle b d).screen = d.screen := by rw [settle_eq]
@[simp] theorem settle_boot (b d : Dev) : (settle b d).boot = d.boot := by rw [settle_eq]
@[simp] theorem settle_flash (b d : Dev) : (settle b d).flash = d.flash := by rw [settle_eq]
@[simp] theorem settle_pins (b d : Dev) : (settle b d).pins = d.pins := by rw [settle_eq]
@[simp] theorem settle_smbus (b d : Dev) : (settle b d).smbus = d.smbus := by rw [settle_eq]
@[simp] theorem settle_out (b d : Dev) : (settle b d).out = d.out := by rw [settle_eq]
@[simp] theorem settle_env (b d : Dev) : (settle b d).env = {} := by rw [settle_eq]

@[simp] theorem core_settle (b d : Dev) (c : Nat) : (settle b d).core c = d.core c := by rw [core, settle_cores]; rfl
@[simp] theorem array_settle (b d : Dev) (a : Nat) : (settle b d).array a = d.array a := by rw [array, settle_arrays]; rfl
@[simp] theorem ctx_settle (b d : Dev) (n : Nat) : (settle b d).ctx n = d.ctx n := by rw [ctx, settle_ctxs]; rfl
@[simp] theorem port_settle (b d : Dev) (p : Nat) : (settle b d).port p = d.port p := by rw [port, settle_rhk]; rfl
@[simp] theorem cell_settle (b d : Dev) (a : Nat) : (settle b d).cell a = d.cell a := by rw [cell, settle_mem]; rfl
@[simp] theorem slot_settle (b d : Dev) (k : Nat) : (settle b d).slot k = d.slot k := by rw [slot, settle_mem]; rfl

/-- No enabled summary bit has risen: the end of the command raises no event. -/
theorem settle_of_not_risen {before d : Dev}
    (h : ∀ i < 64, bit d.intSum i = true → bit (d.rd .INT_ALERT_EN) i = true → bit before.intSum i = true) :
    settle before d = { d with env := {} } := by
  have hrisen : settle.bitsAndNot (d.intSum &&& d.rd .INT_ALERT_EN) before.intSum = false := by
    simp only [settle.bitsAndNot, List.any_eq_false, List.mem_range, Bool.and_eq_true, Bool.not_eq_true', bit, Nat.testBit_and,
      not_and, Bool.not_eq_false, and_imp]
    exact h
  simp [settle, hrisen]

end Dev

end Sys2Proof.Machine

namespace Sys2Proof.Proofs

open Sys2Proof.Machine

/-- Settles O4: a command's end is at most an event, which changes messages and the registers of the mailbox unit. -/
theorem settleFrame : Obligations.SettleFrame := by
  intro before d
  exact ⟨by simp, fun r w j hr => Dev.rd_settle before d hr, Dev.settle_of_not_risen⟩

end Sys2Proof.Proofs
end

section
/-!
PROOFS. The step, the tick, the state at reset and a device that does not run.
-/

namespace Sys2Proof.Machine

open Sys2Proof.Claims

namespace State

/-- A command's effect on the device while it runs. -/
theorem apply_awake {s : State} (h : s.dev.awake = true) (f : Dev → Dev) (env : Env) :
    s.apply f env = .next (left s (f (found s env))) := by
  rw [apply_next, Dev.command_awake _ _ _ h]; rfl

/-- A device that does not run takes no command: what it put out and its surroundings are gone. -/
theorem apply_asleep {s : State} (h : s.dev.awake = false) (f : Dev → Dev) (env : Env) :
    s.apply f env = .next { s with dev := { s.dev with out := [], env := {} } } := by
  rw [apply_next, Dev.command, h]; rfl

/-- A command of a compute island whose clock THERMTRIP_N has not stopped. -/
theorem applyCompute_awake {s : State} (h : s.dev.awake = true) (ht : s.dev.pins.tripped = false) (f : Dev → Dev) (env : Env) :
    s.applyCompute f env = .next (left s (f (found s env))) := by
  rw [applyCompute, apply_awake h]
  have htripped : (found s env).pins.tripped = false := ht
  rw [htripped]; rfl

theorem applyLinks_awake {s : State} (h : s.dev.awake = true) (f : Dev → Links → Dev × Links) :
    s.applyLinks f = .next { left s (f (found s) s.links).1 with links := (f (found s) s.links).2 } := by
  rw [applyLinks, if_pos h]; rfl

theorem applyLinks_goes (s : State) (f : Dev → Links → Dev × Links) : ∃ t, s.applyLinks f = .next t := by
  unfold applyLinks
  split <;> exact ⟨_, rfl⟩

end State

/-- Every command ends in a next state. -/
theorem exec_goes (i : Instr) (s : State) : ∃ t, exec i s = .next t := by
  unfold exec
  cases i with
  | flitReceive | fabricNak | fabricAck | fabricTraining | computeRecovery | chipReset => exact State.applyLinks_goes s _
  | _ => exact ⟨_, rfl⟩

/-- Every field of a binding register that holds 0 is 0. -/
theorem Dev.binding_of_rd_zero {d : Dev} {c : Nat} (h : d.rd .MBX_BIND 0 c = 0) : d.binding c =
    { valid := false, owner := 0, privilege := 0, dbBit := 0, reply := 0, receiver := 0, sender := 0 } := by
  simp only [Dev.binding, Dev.isSet_eq_fld, Dev.fld_eq_bits, F.MBX_BIND_valid, F.MBX_BIND_owner, F.MBX_BIND_privilege, F.MBX_BIND_db_bit,
    F.MBX_BIND_reply, F.MBX_BIND_receiver, F.MBX_BIND_sender, h]
  decide

/-- A register that nothing has written reads its value after reset. -/
theorem rd_reset (r : Reg) (w j : Nat) : State.reset.dev.rd r w j = r.resetNat j % 2 ^ 64 := BitVec.toNat_ofNat _ _

end Sys2Proof.Machine

namespace Sys2Proof.Proofs

open Sys2Proof.Machine Sys2Proof.Claims

/-- Settles O1: the step's own equation, and every command's effect has a next state. -/
theorem stepRunsFront : Obligations.StepRunsFront := fun c rest s => ⟨rfl, exec_goes c { s with pending := rest }⟩

/-- Settles O2: on an empty queue a step is the tick. -/
theorem emptyQueueTicks : Obligations.EmptyQueueTicks := by
  intro s hs
  refine ⟨tick s, by simp [step, hs], hs, rfl, ?_, ?_, ?_⟩ <;> simp only [tick, Dev.tick]
  · split <;> rfl
  · rintro ⟨hawake, hheld⟩
    simp [hawake, hheld]
  · rintro (hasleep | hheld)
    · simp [hasleep]
    · simp [hheld]

/-- Settles O3: every table of the state after reset is empty, so each entry reads its default. -/
theorem resetLeaves : Obligations.ResetLeaves := by
  refine ⟨rfl, rfl, rfl, fun n => ?_, fun _ => rfl, fun c => ?_, rd_reset⟩
  · show (ctxDefault n).st = _
    unfold ctxDefault
    split <;> rfl
  · by_cases h0 : c = 0
    · subst h0; decide
    · by_cases h1 : c = 1
      · subst h1; decide
      · rw [if_neg h0, if_neg h1]
        refine Dev.binding_of_rd_zero ?_
        rw [rd_reset]
        have hc0 : (c : Nat) ≠ 0 := fun h => h0 (Fin.ext h)
        have hc1 : (c : Nat) ≠ 1 := fun h => h1 (Fin.ext h)
        simp [Reg.resetNat, hc0, hc1]

/-- Settles O5: each of the eight commands is an effect that `State.apply` keeps from a device that does not run. -/
theorem asleepTakesNothing : Obligations.AsleepTakesNothing := by
  rintro s hasleep i (⟨c, w, rfl⟩ | ⟨q, p, rfl⟩ | ⟨m, k, v, rfl⟩ | ⟨c, rfl⟩ | ⟨rq, a, bs, k, rfl⟩ | ⟨b, k, ws, es, rfl⟩ | ⟨w, rfl⟩ | ⟨bs, p, rfl⟩) <;>
    unfold exec
  case inr.inr.inr.inr.inr.inl =>
    show s.applyLinks _ = _
    rw [State.applyLinks, hasleep]; rfl
  all_goals exact State.apply_asleep hasleep _ _

/-- Settles O42: memory and the links are empty at reset. -/
theorem resetIsSafe : Obligations.ResetIsSafe := ⟨rfl, Fabric.nil_consistent⟩

end Sys2Proof.Proofs
end

section
/-!
PROOFS. Work of the control die, the links and the Ethernet port: what it leaves of the compute side and of memory.
-/

namespace Sys2Proof.Machine

open Sys2Proof.Claims

/-- The device `e` is `d` but for registers, links, messages, the Ethernet port, power, boot, the health log, free values and output:
memory, arrays, cores, contexts, pins, the time base and the rest stay. -/
def ControlOnly (d e : Dev) : Prop :=
  e = { d with regs := e.regs, rhk := e.rhk, rings := e.rings, eventSeq := e.eventSeq, eth := e.eth, power := e.power, boot := e.boot,
               health := e.health, fresh := e.fresh, out := e.out }

namespace ControlOnly

variable {d e : Dev}

theorem refl (d : Dev) : ControlOnly d d := rfl

theorem trans {f : Dev} (h : ControlOnly d e) (k : ControlOnly e f) : ControlOnly d f := by
  unfold ControlOnly at h k ⊢
  rw [k, h]

/-- The last change first: what it starts from is then known. -/
theorem after {f : Dev} (k : ControlOnly e f) (h : ControlOnly d e) : ControlOnly d f := trans h k

theorem foldl {β : Type} {f : Dev → β → Dev} (h : ∀ d x, ControlOnly d (f d x)) : ∀ (l : List β) (d : Dev), ControlOnly d (l.foldl f d)
  | [], d => refl d
  | x :: l, d => trans (h d x) (foldl h l (f d x))

theorem ite {c : Prop} [Decidable c] {x y : Dev} (h : ControlOnly d x) (k : ControlOnly d y) : ControlOnly d (if c then x else y) := by
  split
  · exact h
  · exact k

theorem ofMail (h : MailOnly d e) : ControlOnly d e := by
  obtain ⟨h, -⟩ := h
  unfold ControlOnly
  rw [h]

theorem mem (h : ControlOnly d e) : e.mem = d.mem := by rw [h]
theorem cores (h : ControlOnly d e) : e.cores = d.cores := by rw [h]
theorem arrays (h : ControlOnly d e) : e.arrays = d.arrays := by rw [h]
theorem ctxs (h : ControlOnly d e) : e.ctxs = d.ctxs := by rw [h]
theorem pins (h : ControlOnly d e) : e.pins = d.pins := by rw [h]
theorem now (h : ControlOnly d e) : e.now = d.now := by rw [h]
theorem reset (h : ControlOnly d e) : e.reset = d.reset := by rw [h]

theorem memOk (h : ControlOnly d e) (hd : d.MemOk) : e.MemOk := Dev.memOk_of_cells (by rw [h.mem]) hd

/-! ### Single updates -/

theorem setFld (d : Dev) (x : Field) (w j v : Nat) : ControlOnly d (d.setFld x w j v) := rfl
theorem raise (d : Dev) (x : Field) (w j : Nat) : ControlOnly d (d.raise x w j) := rfl
theorem bump (d : Dev) (x : Field) (w j k : Nat) : ControlOnly d (d.bump x w j k) := rfl
theorem wr (d : Dev) (r : Reg) (w j v : Nat) : ControlOnly d (d.wr r w j v) := rfl
theorem emit (d : Dev) (o : Out) : ControlOnly d (d.emit o) := rfl
theorem setPort (d : Dev) (p : Nat) (x : RhkPort) : ControlOnly d (d.setPort p x) := rfl
theorem onPort (d : Dev) (p : Nat) (f : RhkPort → RhkPort) : ControlOnly d (d.onPort p f) := rfl
theorem setRing (d : Dev) (c : Nat) (x : Ring) : ControlOnly d (d.setRing c x) := rfl
theorem setRhk (d : Dev) (x : Rhk) : ControlOnly d { d with rhk := x } := rfl
theorem setPower (d : Dev) (x : Power) : ControlOnly d { d with power := x } := rfl
theorem setHealth (d : Dev) (x : Health) : ControlOnly d { d with health := x } := rfl
theorem setBoot (d : Dev) (x : Boot) : ControlOnly d { d with boot := x } := rfl

end ControlOnly

namespace Dev

theorem raiseIf_control (d : Dev) (c : Bool) (x : Field) (w j : Nat) : ControlOnly d (d.raiseIf c x w j) := .ite (.raise d x w j) (.refl d)

/-! ### Messages -/

theorem deviceEvent_control (d : Dev) (code : Nat) (body : List Byte) : ControlOnly d (d.deviceEvent code body) :=
  .ofMail (mailOnly_deviceEvent d code body)

theorem ringPut_control (d : Dev) (c : Nat) (bs : List Byte) : ControlOnly d (d.ringPut c bs) := .ofMail (mailOnly_ringPut d c bs)

theorem proisPut_control (d : Dev) (c : Nat) (bs : List Byte) : ControlOnly d (d.proisPut c bs) := .ofMail (mailOnly_proisPut d c bs)

theorem respond_control (d : Dev) (reply : Nat) (m : Msg) (st : Nat) (body : List Byte) : ControlOnly d (d.respond reply m st body) :=
  .ofMail (mailOnly_proisSend d reply _ body)

theorem feed_control (d : Dev) (c : Nat) : ControlOnly d (d.feed c) := by
  unfold feed
  split
  · split
    · exact .after (proisPut_control _ c _) rfl
    · exact .refl d
  · exact .refl d

theorem ringTake_control (d : Dev) (c : Nat) : ControlOnly d (d.ringTake c).2 := by
  unfold ringTake
  dsimp only
  split
  · exact .refl d
  · refine .after (feed_control _ c) (.after (.ite (.setFld _ F.INT_FW_board_msg 0 0 0) (.refl _)) (.setRing d c _))

theorem answerUnlisted_control (n c : Nat) : ∀ d : Dev, ControlOnly d (answerUnlisted n c d) := by
  induction n with
  | zero => exact .refl
  | succ n ih =>
    intro d
    unfold answerUnlisted
    dsimp only
    split
    · exact .refl d
    · split
      · exact .refl d
      · exact .after (ih _) (.after (respond_control _ _ _ _ _) (ringTake_control d c))

theorem mbxDrop_control (d : Dev) (x : Field) (sender c : Nat) (port : MbxPort) : ControlOnly d (d.mbxDrop x sender c port) :=
  .after (.raise _ x 0 0) (.ite (.wr d .MBX_ERR_INFO 0 0 _) (.refl d))

theorem mbxArrive_control (d : Dev) (sender c : Nat) (port : MbxPort) (bs : List Byte) : ControlOnly d (d.mbxArrive sender c port bs).2 := by
  unfold mbxArrive
  dsimp only
  split
  · exact mbxDrop_control d _ _ _ _
  · split
    · exact mbxDrop_control d _ _ _ _
    · exact .after (answerUnlisted_control _ _ _) (ringPut_control d c _)

theorem mbxPost_control (d : Dev) (p c : Nat) : ControlOnly d (d.mbxPost p c) :=
  .after (.ite (.setFld _ F.INT_FW_board_msg 0 0 1) (.refl _)) (mbxArrive_control d p c .processor _)

theorem mbxTake_control (d : Dev) (p c : Nat) : ControlOnly d (d.mbxTake p c) :=
  .after (.foldl (fun d _ => .wr d .MBX_RECV 0 _ _) _ _) (ringTake_control d c)

/-! ### Rhanak -/

theorem rhkCapture_control (d : Dev) (die dest src port ctx code : Nat) : ControlOnly d (d.rhkCapture die dest src port ctx code) :=
  .ite (.wr d .RHK_ERR_INFO die 0 _) (.refl d)

theorem rhkError_control (d : Dev) (x : Field) (entry : Option Nat) (p : Packet) (code : Nat) : ControlOnly d (d.rhkError x entry p code) :=
  .after (.raise _ x _ 0) (rhkCapture_control d _ _ _ _ _ _)

theorem sendFlit_control (d : Dev) (p type : Nat) (payload : List Byte) : ControlOnly d (d.sendFlit p type payload) := rfl

theorem transmit_control (d : Dev) (p : Nat) (pkt : Packet) (owed : Option (Nat × Nat)) : ControlOnly d (d.transmit p pkt owed) :=
  .after (.foldl (fun d b => sendFlit_control d p 1 b) _ _) (.after (.bump _ F.RHK_PORT_TX_BYTES_bytes _ _ _) (.setPort d p _))

theorem give_control (d : Dev) (p : Nat) (pkt : Packet) (owed : Option (Nat × Nat)) : ControlOnly d (d.give p pkt owed) :=
  .ite (transmit_control d p pkt owed) (.setPort d p _)

theorem leave_control (d : Dev) (entry : Option Nat) (p : Nat) (pkt : Packet) (owed : Option (Nat × Nat)) :
    ControlOnly d (d.leave entry p pkt owed).2 := by
  unfold leave
  split
  · exact rhkError_control d _ _ _ _
  · exact give_control d p _ owed

theorem answerPacket_control (d : Dev) (entry : Option Nat) (req : Packet) (code : Nat) (poison : Bool) (data : List Byte) :
    ControlOnly d (d.answerPacket entry req code poison data) := by
  unfold answerPacket
  dsimp only
  split
  · exact .ite (leave_control d _ _ _ _) (.refl d)
  · split
    · exact leave_control d _ _ _ _
    · exact .refl d

theorem refuse_control (d : Dev) (entry : Option Nat) (req : Packet) (code : Nat) : ControlOnly d (d.refuse entry req code) :=
  answerPacket_control d entry req code false _

theorem failPacket_control (d : Dev) (p : Nat) (h : Held) : ControlOnly d (d.failPacket p h) := by
  have he := rhkError_control d F.RHK_ERR_STATUS_no_route (some p) h.pkt 6
  unfold failPacket
  dsimp only
  split
  · exact give_control d _ _ _
  · split
    · split
      · split
        · exact he
        · exact .after (.emit _ _) (.after (.setRhk _ _) he)
      · exact .after (refuse_control _ none h.pkt 6) he
    · exact .refl d

theorem failOver_control (d : Dev) (p : Nat) : ControlOnly d (d.failOver p) := by
  have hgive : ∀ (d : Dev) (w : Packet × Option (Nat × Nat)), ControlOnly d (match d.route none w.1.dest with
      | .port q => d.give q w.1 w.2
      | _ => d) := fun d w => by
    split
    · exact give_control d _ _ _
    · exact .refl d
  unfold failOver
  dsimp only
  split
  · exact .refl d
  · refine .after (.foldl hgive _ _) (.after (.foldl (fun d h => failPacket_control d p h) _ _) ?_)
    refine .after (.onPort _ p _) (.after (.bump _ F.RHK_PORT_FO_CNT_failovers _ _ 1) (.after (.raise _ _ _ 0) ?_))
    exact .after (rhkCapture_control _ _ _ _ _ _ _) (.ite (.setFld d F.RHK_PORT_CTRL_ring_use _ _ 0) (.refl d))

theorem portDown_control (d : Dev) (p : Nat) : ControlOnly d (d.portDown p) := by
  refine .after (deviceEvent_control _ _ _) (.after (failOver_control _ p) (.after (.onPort _ p _) ?_))
  exact .after (.raise _ _ _ 0) (.after (.setFld _ _ _ _ 0) (.setFld d _ _ _ _))

theorem retrain_control (d : Dev) (p : Nat) : ControlOnly d (d.retrain p) := .ite (portDown_control d p) (.ite (.refl d) rfl)

theorem portEnable_control (d : Dev) (p : Nat) (was : Bool) : ControlOnly d (d.portEnable p was) :=
  .ite (.ite (portDown_control d p) (.setFld d F.RHK_PORT_STATUS_state _ _ 4)) (.ite rfl (.refl d))

theorem request_control (d : Dev) (master ctx addr kind len : Nat) (data : List Byte) (poison : Bool) :
    ControlOnly d (d.request master ctx addr kind len data poison) :=
  .foldl (fun d i => by
    dsimp only
    split
    · exact .after (leave_control _ none _ _ none) rfl
    · exact .after (.emit _ _) (rhkError_control d _ none _ _)
    · exact .refl d) _ d

/-! ### Power -/

theorem throttleEvent_control (d : Dev) (r : Nat) (e : Episode) : ControlOnly d (d.throttleEvent r e) := by
  unfold throttleEvent
  dsimp only
  split
  · exact .refl d
  · exact .after (deviceEvent_control _ _ _) rfl

theorem reasonLeaf_control (d : Dev) (r : Nat) : ControlOnly d (d.reasonLeaf r) := by
  unfold reasonLeaf
  split <;> rfl

theorem syncReasons_control (d : Dev) : ControlOnly d d.syncReasons := by
  refine .after (.foldl (fun d (a : Nat × Episode) => throttleEvent_control d a.1 a.2) _ _) (.after (.foldl (fun d (a : Nat × Episode) => ?_) _ _) ?_)
  · exact .after (reasonLeaf_control _ a.1) (.bump d F.PWR_THR_CNT_episodes 0 _ 1)
  · exact .after (.setPower _ _) (.foldl (fun d (_ : Nat × Episode) => .bump d F.PWR_THR_NS_ns 0 _ _) _ d)

theorem writeFreq_control (d : Dev) (step duty : Nat) : ControlOnly d (d.writeFreq step duty) :=
  .after (syncReasons_control _) (.after (.setPower _ _) (.wr d .PWR_FREQ 0 0 _))

/-! ### The rest of the control die -/

theorem retire_control (d : Dev) (a reason : Nat) : ControlOnly d (d.retire a reason) :=
  .ite (.refl d) (.after (deviceEvent_control _ _ _) rfl)

theorem clearRecord_control (d : Dev) (n : Nat) : ControlOnly d (d.clearRecord n) := .foldl (fun d _ => .wr d .CTX_FREC 0 _ 0) _ d

theorem keepRecord_control (d : Dev) (n : Nat) (bs : List Byte) : ControlOnly d (d.keepRecord n bs) :=
  .foldl (fun d _ => .wr d .CTX_FREC 0 _ _) _ d

theorem portCtrlWrite_control (d : Dev) (p v : Nat) : ControlOnly d (d.portCtrlWrite p v) :=
  .after (.ite (retrain_control _ p) (.refl _)) (.after (portEnable_control _ p _) rfl)

theorem fabCapture_control (d : Dev) (addr master link ctx code : Nat) : ControlOnly d (d.fabCapture addr master link ctx code) := .ite rfl (.refl d)

theorem fabError_control (d : Dev) (rq : Req) (addr code : Nat) (link : Option Nat) : ControlOnly d (d.fabError rq addr code link) :=
  .after (.ite (.raise _ _ _ _) (.ite (.raise _ _ _ _) (.ite (.raise _ _ _ _) (.refl _)))) (.ite (fabCapture_control d _ _ _ _ _) (.refl d))

theorem noteCode_control (d : Dev) (rq : Req) (pa code : Nat) (link : Option Nat) : ControlOnly d (d.noteCode rq pa code link) :=
  .ite (.bump d _ _ _ _) (fabError_control d rq _ code link)

theorem blocked_control (d : Dev) (dest ctx : Nat) : ControlOnly d (d.blocked dest ctx).2 := by
  unfold blocked
  split
  · exact rhkError_control d _ _ _ _
  · exact .refl d

/-! ### Ethernet -/

theorem setQp_control (d : Dev) (q : Nat) (x : QPair) : ControlOnly d (d.setQp q x) := rfl

theorem onQp_control (d : Dev) (q : Nat) (f : QPair → QPair) : ControlOnly d (d.onQp q f) := setQp_control d q _

theorem ethSend_control (d : Dev) (kind : String) (peer bytes : Nat) (body : List Byte) : ControlOnly d (d.ethSend kind peer bytes body) :=
  .after (.emit _ _) (.bump d F.ETH_TX_BYTES_bytes 0 0 bytes)

theorem sendAck_control (d : Dev) (q : Nat) : ControlOnly d (d.sendAck q) := .after (ethSend_control _ _ _ _ _) (setQp_control d q _)

theorem ethCapture_control (d : Dev) (q psn code : Nat) : ControlOnly d (d.ethCapture q psn code) := .ite (.refl d) (.wr d .ETH_ERR_INFO 0 0 _)

theorem qpFail_control (d : Dev) (q psn code : Nat) : ControlOnly d (d.qpFail q psn code) :=
  .after (onQp_control _ q _) (.after (.raise _ _ 0 0) (ethCapture_control d q psn code))

theorem packetDone_control (d : Dev) (q span : Nat) (dup owes : Bool) : ControlOnly d (d.packetDone q span dup owes) :=
  .ite (sendAck_control d q) (onQp_control d q _)

end Dev

end Sys2Proof.Machine
end

section
/-!
PROOFS. Commands that read and write memory keep its canonical form: the requests, the sequencers' narrow view and its faults, the
queue pairs, and register space behind them.
-/

namespace Sys2Proof.Machine

open Sys2Proof.Claims

namespace Dev

/-! ### Fault records -/

theorem memOk_ite {c : Prop} [Decidable c] {d e : Dev} (h : d.MemOk) (k : e.MemOk) : Dev.MemOk (if c then d else e) := by
  split
  · exact h
  · exact k

theorem wr_memOk (d : Dev) (r : Reg) (w j v : Nat) (h : d.MemOk) : (d.wr r w j v).MemOk := memOk_of_cells (by rw [wr_mem]) h

theorem onMem_memOk (d : Dev) (f : MemSys → MemSys) (h : d.MemOk) (hf : ∀ m, (f m).cells = m.cells) : (d.onMem f).MemOk :=
  memOk_of_cells (hf d.mem) h

theorem ringWrite_memOk (d : Dev) (bs : List Byte) (h : d.MemOk) : (d.ringWrite bs).MemOk :=
  (ControlOnly.setFld _ F.CTX_RING_PTR_tail 0 0 _).memOk (pokeRange_memOk d _ bs h)

theorem postRecord_memOk (d : Dev) (bs : List Byte) (h : d.MemOk) : (d.postRecord bs).MemOk := by
  unfold postRecord
  split
  · exact h
  · exact ringWrite_memOk d bs h

theorem drainRecords_memOk : ∀ (n : Nat) (d : Dev), d.MemOk → (drainRecords n d).MemOk
  | 0, _, h => h
  | n + 1, d, h => by
    unfold drainRecords
    split
    · exact h
    · split
      · exact h
      · exact drainRecords_memOk n _ (ringWrite_memOk _ _ h)

theorem contextEvent_memOk (d : Dev) (n code : Nat) (body : List Byte) (h : d.MemOk) : (d.contextEvent n code body).MemOk :=
  (ControlOnly.ofMail (mailOnly_contextEvent d n code body)).memOk h

theorem setCtx_memOk (d : Dev) (n : Nat) (x : Ctx) (h : d.MemOk) : (d.setCtx n x).MemOk := memOk_of_cells rfl h

theorem onCore_memOk (d : Dev) (c : Nat) (f : Core → Core) (h : d.MemOk) : (d.onCore c f).MemOk := memOk_of_cells rfl h

theorem formRecord_memOk (d : Dev) (f : FaultInfo) (kind : Nat) (h : d.MemOk) : (d.formRecord f kind).2.MemOk := memOk_of_cells rfl h

theorem fatal_memOk (d : Dev) (f : FaultInfo) (h : d.MemOk) : (d.fatal f).MemOk := by
  have hpost := postRecord_memOk _ (d.formRecord f 0).1 <| (raiseIf_control _ (f.cause == 0x0B) F.CTX_ERR_STATUS_poison 0 0).memOk <|
    raise_memOk _ F.CTX_ERR_STATUS_fatal 0 0 <| bump_memOk _ F.CTX_FAULT_CNT_fatal 0 f.ctx 1 <| formRecord_memOk d f 0 h
  unfold fatal
  dsimp only
  split
  · exact hpost
  · refine contextEvent_memOk _ _ _ _ (foldl_keeps (fun d c h => ?_) _ _ (setCtx_memOk _ _ _ ((keepRecord_control _ f.ctx _).memOk hpost)))
    split
    · exact onCore_memOk _ _ _ h
    · exact h

theorem pageFault_memOk (d : Dev) (f : FaultInfo) (h : d.MemOk) : (d.pageFault f).MemOk := by
  have hpost := postRecord_memOk _ (d.formRecord f 1).1 <| raise_memOk _ F.CTX_ERR_STATUS_page_fault 0 0 <|
    bump_memOk _ F.CTX_FAULT_CNT_page 0 f.ctx 1 <| formRecord_memOk d f 1 h
  unfold pageFault
  split
  · exact fatal_memOk d f h
  · exact contextEvent_memOk _ _ _ _ (setCtx_memOk _ _ _ hpost)

theorem stopped_memOk (d : Dev) (u : UnitId) (cursor : Nat) (s : Stop) (h : d.MemOk) : (d.stopped u cursor s).MemOk := by
  unfold stopped
  split
  · exact h
  · exact pageFault_memOk d _ h
  · exact fatal_memOk d _ h

theorem seqStop_memOk (d : Dev) (c : Nat) (u : UnitId) (s : Stop) (h : d.MemOk) : (d.seqStop c u s).MemOk := by
  cases s with
  | page va device => exact stopped_memOk _ u 0 (.page va device) (onCore_memOk d c _ h)
  | wait => exact stopped_memOk d u 0 .wait h
  | fatal cause va pa detail engine => exact stopped_memOk d u 0 (.fatal cause va pa detail engine) h

/-! ### Translation -/

theorem readEntry_memOk (d : Dev) (rq : Req) (a : Nat) (h : d.MemOk) : (d.readEntry rq a).2.MemOk := by
  unfold readEntry
  dsimp only
  split
  · exact touchCodeword_memOk d rq false _ h
  · exact h

theorem walkFrom_memOk (rq : Req) (va : Nat) (need : Need) : ∀ (n table : Nat) (d : Dev), d.MemOk → (walkFrom rq va need n table d).2.MemOk
  | 0, _, _, h => h
  | n + 1, table, d, h => by
    have hr := readEntry_memOk d rq (table + 8 * (bits va (12 + 9 * n + 8) (12 + 9 * n))) h
    unfold walkFrom
    dsimp only
    split
    · exact hr
    · split
      · exact hr
      · split
        · exact hr
        · split
          · split <;> exact hr
          · exact walkFrom_memOk rq va need n _ _ hr

theorem walk_memOk (d : Dev) (rq : Req) (va : Nat) (need : Need) (h : d.MemOk) : (d.walk rq va need).2.MemOk := by
  unfold walk
  split
  · exact h
  · split
    · exact h
    · exact walkFrom_memOk rq va need _ _ _ h

end Dev

/-! ### Work in the monad of units -/

namespace Run

/-- Work that keeps memory's canonical form, whether it ends or stops. -/
def KeepsMem {α : Type} (x : Run α) : Prop := ∀ d : Dev, d.MemOk → (x d).2.MemOk

namespace KeepsMem

variable {α β : Type}

theorem pure (a : α) : KeepsMem (Pure.pure a : Run α) := fun _ h => h

theorem stop (s : Stop) : KeepsMem (Run.stop s : Run α) := fun _ h => h

theorem dev : KeepsMem Run.dev := fun _ h => h

theorem upd {f : Dev → Dev} (hf : ∀ d : Dev, d.MemOk → (f d).MemOk) : KeepsMem (Run.upd f) := hf

theorem lift {f : Dev → α × Dev} (hf : ∀ d : Dev, d.MemOk → (f d).2.MemOk) : KeepsMem (Run.lift f) := hf

theorem bind {x : Run α} {g : α → Run β} (hx : KeepsMem x) (hg : ∀ a, KeepsMem (g a)) : KeepsMem (x >>= g) := fun d h => by
  have hd := hx d h
  rw [bind_apply]
  split
  · rename_i a e he
    rw [he] at hd
    exact hg a e hd
  · rename_i s e he
    rw [he] at hd
    exact hd

theorem ite {c : Prop} [Decidable c] {x y : Run α} (hx : KeepsMem x) (hy : KeepsMem y) : KeepsMem (if c then x else y) := by
  split
  · exact hx
  · exact hy

end KeepsMem

theorem address_keepsMem (a : Int) : KeepsMem (address a) := .ite (.stop _) (.pure _)

theorem translate_keepsMem (rq : Req) (va : Nat) (need : Need) : KeepsMem (translate rq va need) :=
  .bind (.lift fun d h => d.walk_memOk rq va need h) fun w => by
    split
    · exact .pure _
    · exact .stop _
    · exact .bind .dev fun _ => .stop _
    · exact .stop _

theorem narrow_keepsMem (u : UnitId) (va : Int) (len : Nat) (need : Need) : KeepsMem (narrow u va len need) :=
  .bind (address_keepsMem va) fun _ => .ite (.stop _) <|
    .bind (translate_keepsMem _ _ need) fun _ => .bind .dev fun _ => .ite (.pure _) (.stop _)

theorem solid_keepsMem (va pa : Nat) (bs : List PByte) : KeepsMem (solid va pa bs) := .ite (.stop _) (.pure _)

theorem narrowRead_keepsMem (u : UnitId) (va : Int) (len : Nat) (need : Need) : KeepsMem (narrowRead u va len need) :=
  .bind (narrow_keepsMem u va len need) fun pa => .bind (.lift fun d h => d.readMem_memOk u.req pa len h) fun _ =>
    .bind (solid_keepsMem _ _ _) fun _ => .pure _

theorem fetchWord_keepsMem (u : UnitId) : KeepsMem (fetchWord u) := .bind .dev fun _ => narrowRead_keepsMem u _ 8 _

theorem setSreg_keepsMem (f : Dev → Dev) (hf : ∀ d, (f d).mem = d.mem) : KeepsMem (upd f) :=
  .upd fun d h => Dev.memOk_of_cells (by rw [hf]) h

theorem seqLd_keepsMem (u : UnitId) (i : SeqWord) : KeepsMem (seqLd u i) :=
  .bind .dev fun _ => .bind (narrowRead_keepsMem u _ _ _) fun _ =>
    .bind (setSreg_keepsMem _ fun d => by unfold Dev.setSreg; split <;> rfl) fun _ => .upd fun _ h => h

theorem seqSt_keepsMem (u : UnitId) (i : SeqWord) : KeepsMem (seqSt u i) :=
  .bind .dev fun _ => .bind (narrow_keepsMem u _ _ _) fun _ =>
    .bind (.upd fun d h => d.writeMem_memOk u.req _ _ h) fun _ => .upd fun _ h => h

end Run

namespace Dev

/-- An instruction whose effect keeps the canonical form keeps it, with its fetch and its faults. -/
theorem runSeq_memOk (d : Dev) (c op : Nat) (i : SeqWord) {effect : UnitId → SeqWord → Run Unit} (he : ∀ u i, Run.KeepsMem (effect u i))
    (h : d.MemOk) : (d.runSeq c op i effect).MemOk := by
  unfold runSeq
  split
  · exact h
  · have hfetch := Run.fetchWord_keepsMem (d.seqUnit c 0) d h
    split
    · exact seqStop_memOk d c _ _ h
    · rename_i w d1 hw
      rw [hw] at hfetch
      dsimp only
      split
      · exact seqStop_memOk d c _ _ h
      · split
        · exact h
        · have hrun := he (d.seqUnit c (bits w 7 0)) i d1 hfetch
          split
          · rename_i d2 h2
            rw [h2] at hrun
            exact hrun
          · exact seqStop_memOk d c _ _ h

/-! ### Register space -/

theorem setRegs_control (d : Dev) (x : RegFile) : ControlOnly d { d with regs := x } := rfl

theorem plainWrite_control (d : Dev) (r : Reg) (w j v : Nat) : ControlOnly d (d.plainWrite r w j v) :=
  setRegs_control d _

theorem routeWrite_control (d : Dev) (i v : Nat) : ControlOnly d (d.routeWrite i v) :=
  setRegs_control d _

theorem cpKick_control (d : Dev) : ControlOnly d d.cpKick := rfl

theorem regWrite_memOk (d : Dev) (m : Nat) (r : Reg) (w j v : Nat) (h : d.MemOk) : (d.regWrite m r w j v).MemOk := by
  unfold regWrite
  split
  · exact (ControlOnly.ite (retire_control d w 2) (.refl d)).memOk h
  · exact (ControlOnly.ite (clearRecord_control d _) (.refl d)).memOk h
  · exact drainRecords_memOk _ _ ((plainWrite_control d _ w j v).memOk h)
  · exact (portCtrlWrite_control d _ v).memOk h
  · exact (ControlOnly.ite (.after (routeWrite_control _ _ _) (routeWrite_control d j v)) (.refl d)).memOk h
  · exact (ControlOnly.ite (.setFld d F.RHK_ROUTE_BANK_bank 0 0 _) (.refl d)).memOk h
  · exact (ControlOnly.ite (mbxPost_control d m _) (.ite (mbxTake_control d m _) (.refl d))).memOk h
  · exact (ControlOnly.setFld d F.MBX_DB_bits 0 j _).memOk h
  · exact (cpKick_control d).memOk h
  · exact (writeFreq_control d _ _).memOk h
  · exact (ControlOnly.after (syncReasons_control _) (plainWrite_control d _ w j v)).memOk h

theorem keyWrite_memOk (d : Dev) (m k v : Nat) (h : d.MemOk) : (d.keyWrite m k v).MemOk := by
  unfold keyWrite
  split
  · rename_i r w j _
    exact regWrite_memOk d m r w j v h
  · exact h

/-- What every write of one register keeps, a write of a range of register space keeps. -/
theorem regsWrite_keeps {P : Dev → Prop} {m : Nat} (hk : ∀ (d : Dev) (k v : Nat), P d → P (d.keyWrite m k v)) (d : Dev) (pa : Nat)
    (bs : List Byte) (h : P d) : P (d.regsWrite m pa bs) :=
  foldl_keeps (fun d _ h => hk d _ _ h) _ d h

theorem regsWrite_memOk (d : Dev) (m pa : Nat) (bs : List Byte) (h : d.MemOk) : (d.regsWrite m pa bs).MemOk :=
  regsWrite_keeps (P := MemOk) (fun d k v h => keyWrite_memOk d m k v h) d pa bs h

/-! ### Requests -/

theorem serveRead_memOk (d : Dev) (rq : Req) (pa len : Nat) (k : Bool) (h : d.MemOk) : (d.serveRead rq pa len k).2.MemOk := by
  unfold serveRead
  split
  · exact readMem_memOk d rq pa len h
  · exact (noteCode_control d rq pa _ _).memOk h

theorem serveWrite_memOk (d : Dev) (rq : Req) (pa : Nat) (bs : List PByte) (k : Bool) (h : d.MemOk) : (d.serveWrite rq pa bs k).2.MemOk := by
  unfold serveWrite
  split
  · exact writeMem_memOk d rq pa bs h
  · exact (noteCode_control d rq pa _ _).memOk h

theorem memoryRead_memOk (d : Dev) (rq : Req) (addr len : Nat) (k : Bool) (h : d.MemOk) : (d.memoryRead rq addr len k).MemOk := by
  unfold memoryRead
  dsimp only
  split
  · split
    · split
      · exact h
      · exact (fabError_control d rq _ _ _).memOk h
    · split
      · exact h
      · exact serveRead_memOk d rq _ len k h
  · exact (request_control d _ _ _ _ _ _ _).memOk h

theorem memoryWrite_memOk (d : Dev) (rq : Req) (addr : Nat) (bs : List PByte) (k : Bool) (h : d.MemOk) : (d.memoryWrite rq addr bs k).MemOk := by
  unfold memoryWrite
  dsimp only
  split
  · split
    · split
      · exact regsWrite_memOk d _ _ _ h
      · exact (fabError_control d rq _ _ _).memOk h
    · split
      · exact h
      · exact serveWrite_memOk d rq _ bs k h
  · exact (request_control d _ _ _ _ _ _ _).memOk h

theorem scrub_memOk (d : Dev) (b : ScrubBlock) (h : d.MemOk) : (d.scrub b).MemOk := by
  have hf : ∀ (x : Sram) (l : List Nat), (l.foldl (fun d w => d.touchWord x {} true w) d).MemOk :=
    fun x l => foldl_keeps (fun d w h => touchWord_memOk d x {} true w h) l d h
  have hid : ∀ l : List Nat, (l.foldl (fun d _ => d) d).MemOk := fun l => foldl_keeps (fun d _ h => h) l d h
  unfold scrub
  cases b with
  | die n =>
    dsimp only
    exact memOk_ite h (wr_memOk _ _ _ _ _ (onMem_memOk _ _ (hf (.shm (n / 8)) _) fun _ => rfl))
  | half c u =>
    dsimp only
    exact memOk_ite h (wr_memOk _ _ _ _ _ (onMem_memOk _ _ (hf (.cmem c) _) fun _ => rfl))
  | array a => exact memOk_ite h (onMem_memOk _ _ (hid _) fun _ => rfl)
  | control => exact memOk_ite h (onMem_memOk _ _ (hid _) fun _ => rfl)

theorem patrol_memOk (d : Dev) (n : Nat) (h : d.MemOk) : (d.patrol n).MemOk := by
  unfold patrol
  dsimp only
  split
  · exact h
  · exact touchCodeword_memOk _ _ _ _ h

theorem outsidePages_memOk (d : Dev) (rq : Req) (va len : Nat) (need : Need) (h : d.MemOk) : (d.outsidePages rq va len need).2.MemOk := by
  unfold outsidePages
  split
  · exact h
  · refine List.foldlRecOn (motive := fun acc : Option (List (Nat × Nat × Bool)) × Dev => Dev.MemOk acc.2) _ _ h fun acc hacc p _ => ?_
    split
    · exact hacc
    · have hw := walk_memOk acc.2 rq p.1 need hacc
      dsimp only
      split <;> exact hw

theorem outsideRead_memOk (d : Dev) (rq : Req) (va len : Nat) (need : Need) (k : Bool) (h : d.MemOk) :
    (d.outsideRead rq va len need k).2.MemOk := by
  have hp := outsidePages_memOk d rq va len need h
  unfold outsideRead
  split
  · rename_i e he
    rw [he] at hp
    exact (fabError_control e rq _ 5 none).memOk hp
  · rename_i ps e he
    rw [he] at hp
    refine List.foldlRecOn (motive := fun acc : (Nat × List PByte) × Dev => Dev.MemOk acc.2) _ _ hp fun acc hacc p _ => ?_
    dsimp only
    split
    · exact hacc
    · exact serveRead_memOk acc.2 rq _ _ k hacc

theorem outsideWrite_memOk (d : Dev) (rq : Req) (va : Nat) (bs : List PByte) (need : Need) (k : Bool) (h : d.MemOk) :
    (d.outsideWrite rq va bs need k).2.MemOk := by
  have hp := outsidePages_memOk d rq va bs.length { need with write := true } h
  unfold outsideWrite
  split
  · rename_i e he
    rw [he] at hp
    exact (fabError_control e rq _ 5 none).memOk hp
  · rename_i ps e he
    rw [he] at hp
    dsimp only
    refine List.foldlRecOn (motive := fun acc : (Nat × Dev) × List PByte => Dev.MemOk acc.1.2) _ _ hp fun acc hacc p _ => ?_
    split
    · exact hacc
    · exact serveWrite_memOk acc.1.2 rq _ _ k hacc

/-! ### Queue pairs -/

theorem qpStatus_memOk (d : Dev) (q psn code : Nat) (h : d.MemOk) : (d.qpStatus q psn code).MemOk := by
  unfold qpStatus
  split
  · exact h
  · exact pokeRange_memOk d _ _ h

theorem sendNak_memOk (d : Dev) (q psn code : Nat) (k : Nak) (h : d.MemOk) : (d.sendNak q psn code k).MemOk := by
  have hs := (ethCapture_control _ q psn code).memOk (qpStatus_memOk d q psn code h)
  have hsent : ∀ (e : Dev), e.MemOk → (match k with
      | .rnr | .sequence => e.onQp q (fun x => { x with asked := true })
      | _ => e.qpFail q psn code).MemOk := fun e he => by
    split
    · exact he
    · exact he
    · exact (qpFail_control e q psn code).memOk he
  refine hsent _ ((ethSend_control _ _ q _ _).memOk ?_)
  exact (ControlOnly.ite (.bump _ F.ETH_NAK_CNT_rnr 0 0 1) (.bump _ F.ETH_NAK_CNT_nak 0 0 1)).memOk hs

theorem outOfTurn_memOk (d : Dev) (q : Nat) (h : d.MemOk) : (d.outOfTurn q).MemOk := by
  unfold outOfTurn
  split
  · exact h
  · exact sendNak_memOk d q _ 7 .sequence h

theorem writePacket_memOk (d : Dev) (q : Nat) (p : Rdma) (h : d.MemOk) : (d.writePacket q p).2.MemOk := by
  have hput : ∀ (dup : Bool) (r : Nat × Dev), r.2.MemOk → Dev.MemOk (match nakOf r.1 with
      | none => (true, r.2.packetDone q 1 dup true)
      | some k => (false, r.2.sendNak q p.psn (if r.1 = 7 then 6 else r.1) k)).2 := fun dup r hr => by
    split
    · exact (packetDone_control r.2 q 1 _ true).memOk hr
    · exact sendNak_memOk r.2 q _ _ _ hr
  unfold writePacket
  split
  · exact h
  · split
    · exact outOfTurn_memOk d q h
    · split
      · exact sendNak_memOk d q _ _ _ h
      · dsimp only
        split
        · exact sendNak_memOk d q _ _ _ h
        · exact hput _ _ (serveWrite_memOk d _ _ _ _ h)
        · exact hput _ _ (outsideWrite_memOk d _ _ _ _ _ h)

theorem rdmaRead_memOk (d : Dev) (q : Nat) (p : Rdma) (served : Nat) (h : d.MemOk) : (d.rdmaRead q p served).MemOk := by
  have hgive : ∀ (pl : Place) (r : (Nat × List PByte) × Dev), r.2.MemOk → Dev.MemOk (match nakOf r.1.1 with
      | none =>
        let n := r.2.readPackets q p.len
        let d := r.2.ethSend "READ response" q (n * r.2.roceBytes q 4 + p.len) (r.1.2.map PByte.val)
        if pl = .duplicate then d else d.packetDone q n false false
      | some k =>
        let code := if r.1.1 = 7 then 6 else r.1.1
        let d := if code = 3 then (r.2.ethCapture q p.psn code).raise F.ETH_ERR_STATUS_poison_read else r.2
        d.sendNak q p.psn code k) := fun pl r hr => by
    split
    · exact (ControlOnly.ite (.refl _) (packetDone_control _ q _ _ _)).memOk ((ethSend_control r.2 _ q _ _).memOk hr)
    · exact sendNak_memOk _ q _ _ _ (memOk_ite (raise_memOk _ _ _ _ ((ethCapture_control r.2 q _ _).memOk hr)) hr)
  unfold rdmaRead
  split
  · exact h
  · split
    · exact outOfTurn_memOk d q h
    · split
      · exact sendNak_memOk d q _ _ _ h
      · dsimp only
        split
        · exact sendNak_memOk d q _ _ _ h
        · exact hgive _ _ (serveRead_memOk d _ _ _ _ h)
        · exact hgive _ _ (outsideRead_memOk d _ _ _ _ _ h)

/-- A command's effect that keeps the canonical form keeps it through the command's end. -/
theorem command_memOk (d : Dev) (env : Env) {f : Dev → Dev} (hf : ∀ e : Dev, e.MemOk → (f e).MemOk) (h : d.MemOk) : (d.command env f).MemOk := by
  unfold command
  split
  · have hb : (d.begun env).MemOk := memOk_of_cells rfl h
    exact memOk_of_cells (congrArg (·.cells) (settle_mem _ _)) (hf _ hb)
  · exact h

end Dev

theorem State.memOk_of_apply {s t : State} {f : Dev → Dev} {env : Env} (h : s.apply f env = .next t)
    (hf : ∀ e : Dev, e.MemOk → (f e).MemOk) (hs : s.dev.MemOk) : t.dev.MemOk := by
  obtain rfl := Host.Outcome.next.inj h
  exact s.dev.command_memOk env hf hs

/-- The same while the clock of the compute islands may stand. -/
theorem State.memOk_of_applyCompute {s t : State} {f : Dev → Dev} {env : Env} (h : s.applyCompute f env = .next t)
    (hf : ∀ e : Dev, e.MemOk → (f e).MemOk) (hs : s.dev.MemOk) : t.dev.MemOk :=
  State.memOk_of_apply h (fun e he => by split; exacts [he, hf e he]) hs

end Sys2Proof.Machine

namespace Sys2Proof.Proofs

open Sys2Proof.Machine Sys2Proof.Claims

/-- Settles O15: each of the eight commands is an effect that keeps the canonical form, and the end of a command leaves memory. -/
theorem memoryStaysCanonical : Obligations.MemoryStaysCanonical := by
  rintro s t i hs (⟨rq, a, n, k, rfl⟩ | ⟨rq, a, bs, k, rfl⟩ | ⟨b, rfl⟩ | ⟨n, rfl⟩ | ⟨c, w, rfl⟩ | ⟨c, w, rfl⟩ | ⟨q, p, rfl⟩ | ⟨q, p, n, rfl⟩) h <;>
    unfold exec at h
  · exact State.memOk_of_apply h (fun d => d.memoryRead_memOk rq _ n k) hs
  · exact State.memOk_of_apply h (fun d => d.memoryWrite_memOk rq _ bs k) hs
  · exact State.memOk_of_apply h (fun d => d.scrub_memOk b) hs
  · exact State.memOk_of_apply h (fun d => d.patrol_memOk n) hs
  · exact State.memOk_of_applyCompute h (fun d => d.runSeq_memOk c 8 w Run.seqLd_keepsMem) hs
  · exact State.memOk_of_applyCompute h (fun d => d.runSeq_memOk c 9 w Run.seqSt_keepsMem) hs
  · exact State.memOk_of_apply h (fun d => d.writePacket_memOk q p) hs
  · exact State.memOk_of_apply h (fun d => d.rdmaRead_memOk q p n) hs

end Sys2Proof.Proofs
end

section
/-!
PROOFS. What the reads and writes of memory leave: everything but memory, registers and free values.
-/

namespace Sys2Proof.Machine

open Sys2Proof.Claims

/-- The device `e` is `d` but for memory, registers and free values. -/
def MemOnly (d e : Dev) : Prop := e = { d with mem := e.mem, regs := e.regs, fresh := e.fresh }

namespace MemOnly

variable {d e : Dev}

theorem refl (d : Dev) : MemOnly d d := rfl

/-- The last change first: what it starts from is then known. -/
theorem after {f : Dev} (k : MemOnly e f) (h : MemOnly d e) : MemOnly d f := by
  unfold MemOnly at h k ⊢
  rw [k, h]

theorem foldl {β : Type} {f : Dev → β → Dev} (h : ∀ d x, MemOnly d (f d x)) : ∀ (l : List β) (d : Dev), MemOnly d (l.foldl f d)
  | [], d => refl d
  | x :: l, d => after (foldl h l (f d x)) (h d x)

theorem ite {c : Prop} [Decidable c] {x y : Dev} (h : MemOnly d x) (k : MemOnly d y) : MemOnly d (if c then x else y) := by
  split
  · exact h
  · exact k

theorem cores (h : MemOnly d e) : e.cores = d.cores := by rw [h]
theorem arrays (h : MemOnly d e) : e.arrays = d.arrays := by rw [h]
theorem ctxs (h : MemOnly d e) : e.ctxs = d.ctxs := by rw [h]
theorem out (h : MemOnly d e) : e.out = d.out := by rw [h]
theorem env (h : MemOnly d e) : e.env = d.env := by rw [h]
theorem reset (h : MemOnly d e) : e.reset = d.reset := by rw [h]
theorem pins (h : MemOnly d e) : e.pins = d.pins := by rw [h]
theorem now (h : MemOnly d e) : e.now = d.now := by rw [h]

theorem onMem (d : Dev) (f : MemSys → MemSys) : MemOnly d (d.onMem f) := rfl
theorem wr (d : Dev) (r : Reg) (w j v : Nat) : MemOnly d (d.wr r w j v) := rfl
theorem setFld (d : Dev) (x : Field) (w j v : Nat) : MemOnly d (d.setFld x w j v) := rfl
theorem raise (d : Dev) (x : Field) (w j : Nat) : MemOnly d (d.raise x w j) := rfl
theorem bump (d : Dev) (x : Field) (w j k : Nat) : MemOnly d (d.bump x w j k) := rfl
theorem draw (d : Dev) (w : Nat) : MemOnly d (d.draw w).2 := rfl

end MemOnly

namespace Dev

theorem setCell_memOnly (d : Dev) (a : Nat) (b : Byte) : MemOnly d (d.setCell a b) := rfl

theorem setPoison_memOnly (d : Dev) (a : Nat) (p : Bool) : MemOnly d (d.setPoison a p) := rfl

theorem setFlips_memOnly (d : Dev) (a : Nat) (l : List Nat) : MemOnly d (d.setFlips a l) := rfl

theorem setSymErrs_memOnly (d : Dev) (a : Nat) (l : List (Nat × Nat)) : MemOnly d (d.setSymErrs a l) := rfl

theorem setSlice_memOnly (d : Dev) (k : Nat) (l : List CacheLine) : MemOnly d (d.setSlice k l) := rfl

theorem setPoison64_memOnly (d : Dev) (a : Nat) (p : Bool) : MemOnly d (d.setPoison64 a p) :=
  .foldl (fun d w => setPoison_memOnly d w p) _ d

theorem flipBit_memOnly (d : Dev) (w i : Nat) : MemOnly d (d.flipBit w i) := by
  unfold flipBit
  exact .ite (setCell_memOnly d _ _) (.refl d)

theorem countCe_memOnly (d : Dev) (b : Sram) : MemOnly d (d.countCe b) := by
  cases b
  · exact .after (.raise _ F.CMEM_ERR_STATUS_ce _ 0) (.bump d F.CMEM_CE_CNT_words _ 0 1)
  · exact .after (.raise _ F.SHM_ERR_STATUS_ce _ 0) (.bump d F.SHM_CE_CNT_words _ 0 1)

theorem captureSram_memOnly (d : Dev) (b : Sram) (rq : Req) (s : Bool) (a : Nat) : MemOnly d (d.captureSram b rq s a) := by
  cases b <;> exact .ite (.wr d _ _ 0 _) (.refl d)

theorem countUe_memOnly (d : Dev) (b : Sram) (rq : Req) (s : Bool) (a : Nat) : MemOnly d (d.countUe b rq s a) := by
  have hcap := captureSram_memOnly d b rq s a
  cases b with
  | cmem c => exact .after (.raise _ F.CMEM_ERR_STATUS_ue c 0) (.after (.bump _ F.CMEM_UE_CNT_words c 0 1) hcap)
  | shm c => exact .after (.raise _ F.SHM_ERR_STATUS_ue c 0) (.after (.bump _ F.SHM_UE_CNT_words c 0 1) hcap)

theorem touchWord_memOnly (d : Dev) (b : Sram) (rq : Req) (s : Bool) (w : Nat) : MemOnly d (d.touchWord b rq s w) := by
  have h0 := setFlips_memOnly d w []
  have hue : MemOnly d (((d.setFlips w []).countUe b rq s w).setPoison w true) :=
    .after (setPoison_memOnly _ w true) (.after (countUe_memOnly _ b rq s w) h0)
  have hflip : ∀ l : List Nat, MemOnly d ((l.foldl (fun d i => d.flipBit w i) (d.setFlips w [])).setPoison w false) :=
    fun l => .after (setPoison_memOnly _ w false) (.after (.foldl (fun d i => flipBit_memOnly d w i) l _) h0)
  unfold touchWord
  dsimp only
  refine .ite (.refl d) (.ite (.after (countCe_memOnly _ b) h0) (.ite (.after (setPoison_memOnly _ w true) h0)
    (.ite hue (.ite (hflip _) (.ite hue ?_)))))
  split
  · exact hue
  · exact .after (countCe_memOnly _ b) (hflip _)

theorem captureDdr_memOnly (d : Dev) (rq : Req) (p : Bool) (cw : Nat) : MemOnly d (d.captureDdr rq p cw) := by
  unfold captureDdr
  exact .ite (.refl d) (.wr d _ _ 0 _)

theorem eraseDevice_memOnly (d : Dev) (cw v : Nat) : MemOnly d (d.eraseDevice cw v) := by
  have hraise := MemOnly.raise d F.DDR_ERR_STATUS_device_erased (ddrChannel cw / 4) 0
  unfold eraseDevice
  exact .ite (.refl d) (.ite (.after (.raise _ _ _ _) (.after (.setFld _ _ _ _ _) hraise))
    (.after (.raise _ _ _ _) (.after (.setFld _ _ _ _ _) hraise)))

theorem noteCorrections_memOnly (d : Dev) (cw : Nat) (l : List (Nat × Nat)) : MemOnly d (d.noteCorrections cw l) := by
  unfold noteCorrections
  dsimp only
  split
  · exact .onMem d _
  · exact .after (eraseDevice_memOnly _ cw _) (.onMem d _)

theorem touchCodeword_memOnly (d : Dev) (rq : Req) (p : Bool) (cw : Nat) : MemOnly d (d.touchCodeword rq p cw) := by
  unfold touchCodeword
  dsimp only
  refine .after (e := d.onMem _) (.ite (.refl _) ?_) (.onMem d _)
  generalize d.onMem _ = e
  split
  · exact setSymErrs_memOnly e cw []
  · exact .after (setPoison64_memOnly _ cw true) (setSymErrs_memOnly e cw [])
  · refine .after (noteCorrections_memOnly _ cw _) (.after (.raise _ _ _ _) (.after (.bump _ _ _ _ _) ?_))
    refine .after (.foldl (fun d x => ?_) _ _) (.after (setPoison64_memOnly _ cw false) (setSymErrs_memOnly e cw []))
    exact .ite (setCell_memOnly d _ _) (.refl d)
  · exact .after (setPoison64_memOnly _ cw true) (.after (setSymErrs_memOnly _ cw []) (.after (.raise _ _ _ _)
      (.after (.bump _ _ _ _ _) (captureDdr_memOnly e rq p cw))))

theorem writeBack_memOnly (d : Dev) (k line : Nat) : MemOnly d (d.writeBack k line) := by
  unfold writeBack
  dsimp only
  refine .after (.bump _ _ _ _ _) (.after (.foldl (fun d cw => ?_) _ _) (.foldl (fun d w => touchWord_memOnly d _ _ _ w) _ d))
  exact .ite (.after (setPoison64_memOnly _ cw true) (.after (.raise _ _ _ _) (.after (captureDdr_memOnly _ _ _ cw) (setSymErrs_memOnly d cw []))))
    (setSymErrs_memOnly d cw [])

theorem flushSlice_memOnly (d : Dev) (k : Nat) : MemOnly d (d.flushSlice k) :=
  .after (setSlice_memOnly _ k []) (.foldl (fun d _ => .ite (writeBack_memOnly d k _) (.refl d)) _ d)

theorem flushCache_memOnly (d : Dev) : MemOnly d d.flushCache := .foldl (fun d k => flushSlice_memOnly d k) _ d

theorem tagCheck_memOnly (d : Dev) (k line : Nat) : MemOnly d (d.tagCheck k line) := by
  unfold tagCheck
  dsimp only
  refine .foldl (fun d e => ?_) _ d
  generalize hd1 : d.onMem _ = d1
  have h1 : MemOnly d d1 := by rw [← hd1]; exact .onMem d _
  have h2 : MemOnly d (d1.raise F.SHM_ERR_STATUS_tag_fatal k 0) := .after (.raise d1 _ k 0) h1
  refine .ite (.after (.raise d1 _ _ _) h1) ?_
  split
  · exact h2
  · refine .after (e := d1.raise F.SHM_ERR_STATUS_tag_fatal k 0) ?_ h2
    refine .after (.ite (.foldl (fun d i => ?_) _ _) (.refl _)) (setSlice_memOnly _ k _)
    exact .after (setCell_memOnly _ _ _) (.draw d 8)

theorem fillLine_memOnly (d : Dev) (rq : Req) (k line : Nat) : MemOnly d (d.fillLine rq k line) := by
  have ht : MemOnly d ((granules 64 line 256).foldl (fun d cw => d.touchCodeword rq false cw) d) :=
    .foldl (fun d cw => touchCodeword_memOnly d rq false cw) _ d
  unfold fillLine
  dsimp only
  split
  · exact .after (setSlice_memOnly _ k _) ht
  · split
    · exact ht
    · exact .after (setSlice_memOnly _ k _) (.after (.ite (writeBack_memOnly _ k _) (.refl _)) ht)

theorem cacheAccess_memOnly (d : Dev) (rq : Req) (line : Nat) (w : Bool) : MemOnly d (d.cacheAccess rq line w).2 := by
  have ht := tagCheck_memOnly d (cacheHome line) line
  unfold cacheAccess
  dsimp only
  split
  · exact .refl d
  · split
    · exact .after (setSlice_memOnly _ _ _) (.after (.bump _ _ _ _ _) ht)
    · split
      · exact .after (.bump _ _ _ _ _) ht
      · exact .after (setSlice_memOnly _ _ _) (.after (fillLine_memOnly _ rq _ line) (.after (.bump _ _ _ _ _) ht))

/-- A read of memory. -/
theorem readMem_memOnly (d : Dev) (rq : Req) (a len : Nat) : MemOnly d (d.readMem rq a len).2 := by
  unfold readMem
  split
  · exact .foldl (fun d w => touchWord_memOnly d _ rq false w) _ d
  · exact .foldl (fun d w => touchWord_memOnly d _ rq false w) _ d
  · refine .foldl (fun d line => ?_) _ d
    dsimp only
    exact .after (.ite (.foldl (fun d w => touchWord_memOnly d _ rq false w) _ _)
      (.foldl (fun d cw => touchCodeword_memOnly d rq false cw) _ _)) (cacheAccess_memOnly d rq line false)
  · exact .refl d

theorem writeGranule_memOnly (d : Dev) (size g a : Nat) (bs : List PByte) (t : Dev → Nat → Dev) (ht : ∀ d w, MemOnly d (t d w)) :
    MemOnly d (d.writeGranule size g a bs t) := by
  unfold writeGranule
  dsimp only
  exact .after (.foldl (fun d w => setPoison_memOnly d w _) _ _) (.after (.foldl (fun d x => setCell_memOnly d _ _) _ _)
    (.ite (.ite (setFlips_memOnly d g []) (setSymErrs_memOnly d g [])) (ht d g)))

/-- A write of memory. -/
theorem writeMem_memOnly (d : Dev) (rq : Req) (a : Nat) (bs : List PByte) : MemOnly d (d.writeMem rq a bs) := by
  have hw : ∀ (b : Sram) (d : Dev) (w : Nat), MemOnly d (d.touchWord b rq false w) := fun b d w => touchWord_memOnly d b rq false w
  unfold writeMem
  dsimp only
  split
  · exact .foldl (fun d g => writeGranule_memOnly d _ g a bs _ (hw _)) _ d
  · rename_i c _
    have hf := MemOnly.foldl (fun d g => writeGranule_memOnly d 8 g a bs _ (hw (.shm c))) (granules 8 a bs.length) d
    exact .ite (.after (.raise _ _ _ _) (.after (captureSram_memOnly _ _ rq false _) hf)) hf
  · refine .foldl (fun d line => ?_) _ d
    refine .after (.ite (.foldl (fun d g => writeGranule_memOnly d _ g _ _ _ (hw _)) _ _) (.after (.foldl (fun d g => ?_) _ _)
      (.foldl (fun d g => writeGranule_memOnly d _ g _ _ _ (fun d w => touchCodeword_memOnly d rq false w)) _ _)))
      (cacheAccess_memOnly d rq line true)
    exact .ite (.after (.raise _ _ _ _) (captureDdr_memOnly d rq false g)) (.refl d)
  · exact .refl d

/-! ### Translation and the narrow view -/

theorem readEntry_memOnly (d : Dev) (rq : Req) (a : Nat) : MemOnly d (d.readEntry rq a).2 := by
  unfold readEntry
  dsimp only
  split
  · exact touchCodeword_memOnly d rq false _
  · exact .refl d

theorem walkFrom_memOnly (rq : Req) (va : Nat) (need : Need) : ∀ (n table : Nat) (d : Dev), MemOnly d (walkFrom rq va need n table d).2
  | 0, _, d => .refl d
  | n + 1, table, d => by
    have hr := readEntry_memOnly d rq (table + 8 * (bits va (12 + 9 * n + 8) (12 + 9 * n)))
    unfold walkFrom
    dsimp only
    split
    · exact hr
    · split
      · exact hr
      · split
        · exact hr
        · split
          · split <;> exact hr
          · exact .after (walkFrom_memOnly rq va need n _ _) hr

theorem walk_memOnly (d : Dev) (rq : Req) (va : Nat) (need : Need) : MemOnly d (d.walk rq va need).2 := by
  unfold walk
  split
  · exact .refl d
  · split
    · exact .refl d
    · exact walkFrom_memOnly rq va need _ _ d

end Dev

namespace Run

/-- Work that changes memory, registers and free values alone, whether it ends or stops. -/
def MemWork {α : Type} (x : Run α) : Prop := ∀ d : Dev, MemOnly d (x d).2

namespace MemWork

variable {α β : Type}

theorem pure (a : α) : MemWork (Pure.pure a : Run α) := fun d => .refl d

theorem stop (s : Stop) : MemWork (Run.stop s : Run α) := fun d => .refl d

theorem dev : MemWork Run.dev := fun d => .refl d

theorem lift {f : Dev → α × Dev} (hf : ∀ d : Dev, MemOnly d (f d).2) : MemWork (Run.lift f) := hf

theorem upd {f : Dev → Dev} (hf : ∀ d : Dev, MemOnly d (f d)) : MemWork (Run.upd f) := hf

theorem bind {x : Run α} {g : α → Run β} (hx : MemWork x) (hg : ∀ a, MemWork (g a)) : MemWork (x >>= g) := fun d => by
  have hd := hx d
  rw [bind_apply]
  split
  · rename_i a e he
    rw [he] at hd
    exact .after (hg a e) hd
  · rename_i s e he
    rw [he] at hd
    exact hd

theorem ite {c : Prop} [Decidable c] {x y : Run α} (hx : MemWork x) (hy : MemWork y) : MemWork (if c then x else y) := by
  split
  · exact hx
  · exact hy

end MemWork

theorem address_memWork (a : Int) : MemWork (address a) := .ite (.stop _) (.pure _)

theorem translate_memWork (rq : Req) (va : Nat) (need : Need) : MemWork (translate rq va need) :=
  .bind (.lift fun d => d.walk_memOnly rq va need) fun w => by
    split
    · exact .pure _
    · exact .stop _
    · exact .bind .dev fun _ => .stop _
    · exact .stop _

theorem narrow_memWork (u : UnitId) (va : Int) (len : Nat) (need : Need) : MemWork (narrow u va len need) :=
  .bind (address_memWork va) fun _ => .ite (.stop _) <|
    .bind (translate_memWork _ _ need) fun _ => .bind .dev fun _ => .ite (.pure _) (.stop _)

theorem solid_memWork (va pa : Nat) (bs : List PByte) : MemWork (solid va pa bs) := .ite (.stop _) (.pure _)

theorem narrowRead_memWork (u : UnitId) (va : Int) (len : Nat) (need : Need) : MemWork (narrowRead u va len need) :=
  .bind (narrow_memWork u va len need) fun pa => .bind (.lift fun d => d.readMem_memOnly u.req pa len) fun _ =>
    .bind (solid_memWork _ _ _) fun _ => .pure _

end Run

end Sys2Proof.Machine
end

section
/-!
PROOFS. The instructions of the sequencers: what each answers when it stands at the program counter, and what it leaves unchanged.
-/

namespace Sys2Proof.Machine

open Sys2Proof.Claims

/-! ### An instruction at the program counter -/

theorem tripped_of_seqAt {s : State} {c : Fin 4} {op : Nat} {w : SeqWord} {d : Dev} (h : SeqAt s c op w d) (env : Env) :
    (s.dev.begun env).pins.tripped = false := by
  obtain ⟨-, hruns, -⟩ := h
  unfold Dev.coreRuns at hruns
  split at hruns
  · simp only [Bool.and_eq_true, Bool.not_eq_true'] at hruns
    exact hruns.2
  · exact absurd hruns (by simp)

/-- An instruction at the program counter of a running core ends as its effect on the fetched device does. -/
theorem applyCompute_of_seqAt {s : State} {c : Fin 4} {op : Nat} {w : SeqWord} {d : Dev} (h : SeqAt s c op w d) (ho : op < 256)
    (effect : UnitId → SeqWord → Run Unit) :
    s.applyCompute (fun d => d.runSeq c op w effect) = .next (left s (match effect ((found s).seqUnit c op) w d with
      | (.ok (), x) => x
      | (.error r, _) => (found s).seqStop c ((found s).seqUnit c op) r)) := by
  have htripped := tripped_of_seqAt h {}
  obtain ⟨hawake, hruns, hlive, hstopped, hwf, hdef, hfetch⟩ := h
  have hrun := runSeq_fetched (d := found s) (effect := effect) hruns hlive hstopped hwf hdef ho hfetch
  rw [State.applyCompute_awake hawake htripped]
  exact congrArg (fun x => Host.Outcome.next (left s x)) hrun

theorem goes_of_seqAt {s : State} {c : Fin 4} {op : Nat} {w : SeqWord} {d : Dev} (h : SeqAt s c op w d) (ho : op < 256)
    {effect : UnitId → SeqWord → Run Unit} {e : Dev} (he : effect ((found s).seqUnit c op) w d = (.ok (), e)) :
    s.applyCompute (fun d => d.runSeq c op w effect) = .next (left s e) := by
  rw [applyCompute_of_seqAt h ho, he]

/-- The fault of a jump to a misaligned target. -/
def jumpFault (s : State) (c : Fin 4) (op target : Nat) : FaultInfo :=
  { cause := 0x04, ctx := s.dev.coreCtx c, engine := 0x10 + c, master := 0x10 + c, opcode := op, opId := (s.dev.core c).opId
    pc := s.dev.pc c, vaddr := target % 2 ^ 48 }

theorem seqStop_misaligned (s : State) (c : Fin 4) (op target : Nat) :
    (found s).seqStop c ((found s).seqUnit c op) (.fatal 0x04 (target % 2 ^ 48) 0 0 none) = (found s).fatal (jumpFault s c op target) := rfl

theorem faults_of_seqAt {s : State} {c : Fin 4} {op : Nat} {w : SeqWord} {d : Dev} (h : SeqAt s c op w d) (ho : op < 256)
    {effect : UnitId → SeqWord → Run Unit} {n : Nat} {e : Dev}
    (he : effect ((found s).seqUnit c op) w d = (.error (.fatal 0x04 (n % 2 ^ 48) 0 0 none), e)) :
    s.applyCompute (fun d => d.runSeq c op w effect) = .next (left s ((found s).fatal (jumpFault s c op n))) := by
  rw [applyCompute_of_seqAt h ho, he, ← seqStop_misaligned]

/-! ### The operations -/

theorem aluOp_value (f : Nat) (a b : W64) (hf : f ≤ 10) : AluValue f a b (aluOp f a b) := by
  refine ⟨?_, ?_, ?_, ?_, ?_, ?_, ?_, ?_, ?_, ?_, ?_⟩ <;> rintro rfl
  · exact BitVec.toNat_add a b
  · have hb := b.isLt
    have hsub : aluOp 1 a b = a - b := rfl
    rw [hsub, BitVec.toNat_sub]
    congr 1
    omega
  · exact fun i _ => BitVec.getLsbD_and
  · exact fun i _ => BitVec.getLsbD_or
  · exact fun i _ => BitVec.getLsbD_xor
  · exact (BitVec.toNat_shiftLeft).trans (by rw [Nat.shiftLeft_eq])
  · exact (BitVec.toNat_ushiftRight a _).trans (Nat.shiftRight_eq_div_pow _ _)
  · exact (BitVec.toInt_sshiftRight).trans (by rw [Int.shiftRight_eq_div_pow]; norm_cast)
  · exact BitVec.toNat_mul a b
  · show (if a.slt b then (1 : W64) else 0).toNat = _
    rw [BitVec.slt_eq_decide]
    by_cases h : a.toInt < b.toInt <;> simp [h]
  · show (if a.ult b then (1 : W64) else 0).toNat = _
    rw [BitVec.ult_eq_decide]
    by_cases h : a.toNat < b.toNat <;> simp [h]

theorem branchTaken_iff {f : Nat} (hf : f ≤ 5) (a b : W64) : branchTaken f a b = true ↔ BranchHolds f a b := by
  interval_cases f <;> simp [branchTaken, BranchHolds, BitVec.slt_eq_decide, BitVec.ult_eq_decide]

/-- The upper half of LIH's result is the immediate and the lower half is the register's. -/
theorem toNat_lih (imm : BitVec 32) (v : W64) : (imm ++ v.setWidth 32 : W64).toNat = imm.toNat * 2 ^ 32 + v.toNat % 2 ^ 32 := by
  rw [BitVec.toNat_append, Nat.shiftLeft_eq, BitVec.toNat_setWidth, ← Nat.shiftLeft_eq]
  exact (Nat.shiftLeft_add_eq_or_of_lt (Nat.mod_lt _ (by decide)) _).symm

/-- The value that LD writes: the bytes read, sign-extended when f[2] is 1. -/
theorem loaded_value {f : Nat} (hf : f < 8) (v : Nat) :
    (if bit f 2 then BitVec.ofInt 64 (sx (8 * 2 ^ (f % 4)) v) else BitVec.ofNat 64 v) =
      if f < 4 then BitVec.ofNat 64 v else (BitVec.ofNat (8 * 2 ^ (f % 4)) v).signExtend 64 := by
  have hsx : ∀ n, (BitVec.ofNat (n + 1) v).toInt = sx (n + 1) v := fun n => by
    rw [BitVec.toInt_eq_toNat_cond, BitVec.toNat_ofNat, sx]
    have hp : 2 ^ (n + 1) = 2 * 2 ^ n := by rw [Nat.pow_succ]; omega
    simp only [Nat.add_sub_cancel]
    congr 1
    exact propext (by omega)
  have hext : ∀ n, BitVec.ofInt 64 (sx (n + 1) v) = (BitVec.ofNat (n + 1) v).signExtend 64 := fun n => by
    rw [BitVec.signExtend, hsx]
  interval_cases f
  · rfl
  · rfl
  · rfl
  · rfl
  · exact hext 7
  · exact hext 15
  · exact hext 31
  · exact hext 63

namespace Flags

theorem toNat_lt (f : Flags) : f.toNat < 64 := by
  obtain ⟨a, b, c, d, e, g⟩ := f
  revert a b c d e g
  decide

theorem bit_toNat (f : Flags) : ∀ i < 6, bit f.toNat i =
    [f.invalid, f.overflow, f.accOverflow, f.anchorViolation, f.anchorMismatch, f.nonfiniteBlock].getD i false := by
  obtain ⟨a, b, c, d, e, g⟩ := f
  revert a b c d e g
  decide

/-- CSRC's flags: each of those of the word that the mask does not name. -/
theorem bit_clear (n : Nat) (v : W64) {i : Nat} (hi : i < 6) :
    bit ((ofNat n).clear v.toNat).toNat i = (bit n i && !v.getLsbD i) := by
  rw [bit_toNat _ i hi]
  interval_cases i <;> rfl

end Flags

/-! ### The effects -/

namespace Run

/-- A jump to a multiple of 8, the target given modulo 2^64. -/
theorem jumpTo_ok {c n : Nat} {t : W64} (ht : t.toNat = n % 2 ^ 64) (h : n % 8 = 0) (d : Dev) : jumpTo c t d = (.ok (), d.setPc c n) := by
  have halign : ¬ t.toNat % 8 ≠ 0 := by omega
  have hpc : d.setPc c t.toNat = d.setPc c n := by rw [ht, Dev.setPc, Nat.mod_mod]; rfl
  rw [jumpTo, if_neg halign, ← hpc]
  rfl

theorem jumpTo_misaligned {c n : Nat} {t : W64} (ht : t.toNat = n % 2 ^ 64) (h : n % 8 ≠ 0) (d : Dev) :
    jumpTo c t d = (.error (.fatal 0x04 (n % 2 ^ 48) 0 0 none), d) := by
  have halign : t.toNat % 8 ≠ 0 := by omega
  have hva : t.toNat % 2 ^ 48 = n % 2 ^ 48 := by omega
  rw [jumpTo, if_pos halign, hva]
  rfl

theorem seqBr_not_taken {u : UnitId} {i : SeqWord} {d : Dev} (h : branchTaken i.f (d.sreg u.core i.a) (d.sreg u.core i.b) = false) :
    seqBr u i d = (.ok (), d.setPc u.core (d.pc u.core + 8)) := by
  rw [seqBr, dev_bind, h]; rfl

theorem seqBr_taken {u : UnitId} {i : SeqWord} {d : Dev} (h : branchTaken i.f (d.sreg u.core i.a) (d.sreg u.core i.b) = true) :
    seqBr u i d = jumpTo u.core (BitVec.ofNat 64 (d.pc u.core) + i.simm) d := by
  rw [seqBr, dev_bind, h]; rfl

/-- A jump and then its link register: the stop of a misaligned target comes first. -/
theorem jump_link_ok {c n k : Nat} {t : W64} (ht : t.toNat = n % 2 ^ 64) (h : n % 8 = 0) (v : W64) (d : Dev) :
    (jumpTo c t >>= fun _ => upd fun d => d.setSreg c k v) d = (.ok (), (d.setPc c n).setSreg c k v) := by
  rw [bind_apply, jumpTo_ok ht h]; rfl

theorem jump_link_misaligned {c n k : Nat} {t : W64} (ht : t.toNat = n % 2 ^ 64) (h : n % 8 ≠ 0) (v : W64) (d : Dev) :
    (jumpTo c t >>= fun _ => upd fun d => d.setSreg c k v) d = (.error (.fatal 0x04 (n % 2 ^ 48) 0 0 none), d) := by
  rw [bind_apply, jumpTo_misaligned ht h]

theorem toNat_pc_add (n : Nat) (x : W64) : (BitVec.ofNat 64 n + x).toNat = (n + x.toNat) % 2 ^ 64 := by
  rw [BitVec.toNat_add, BitVec.toNat_ofNat, Nat.mod_add_mod]

theorem ofNat_add_eight (n : Nat) : BitVec.ofNat 64 n + 8 = BitVec.ofNat 64 (n + 8) := (BitVec.ofNat_add n 8).symm

theorem seqJal_eq (u : UnitId) (i : SeqWord) (d : Dev) : seqJal u i d =
    (jumpTo u.core (BitVec.ofNat 64 (d.pc u.core) + i.simm) >>= fun _ =>
      upd fun e => e.setSreg u.core i.d (BitVec.ofNat 64 (d.pc u.core + 8))) d := by
  rw [← ofNat_add_eight]; rfl

theorem seqJalr_eq (u : UnitId) (i : SeqWord) (d : Dev) : seqJalr u i d =
    (jumpTo u.core (d.sreg u.core i.a + i.simm) >>= fun _ =>
      upd fun e => e.setSreg u.core i.d (BitVec.ofNat 64 (d.pc u.core + 8))) d := by
  rw [← ofNat_add_eight]; rfl

theorem seqCsrr_ok {u : UnitId} {i : SeqWord} {d e : Dev} {v : W64} (h : csr u i.imm.toNat d = (.ok v, e)) :
    seqCsrr u i d = (.ok (), (e.setSreg u.core i.d v).setPc u.core (e.pc u.core + 8)) := by
  rw [seqCsrr, bind_apply, h]
  simp only [upd_bind, nextPc_eq, Dev.setSreg_pc]

theorem seqLd_ok {u : UnitId} {i : SeqWord} {d e : Dev} {v : Nat} (h : narrowRead u (seqAddress d u.core i) (2 ^ (i.f % 4)) {} d = (.ok v, e)) :
    seqLd u i d = (.ok (), (e.setSreg u.core i.d (if bit i.f 2 then BitVec.ofInt 64 (sx (8 * 2 ^ (i.f % 4)) v) else BitVec.ofNat 64 v)).setPc
      u.core (e.pc u.core + 8)) := by
  rw [seqLd, dev_bind]
  dsimp only
  rw [bind_apply, h]
  simp only [upd_bind, nextPc_eq, Dev.setSreg_pc]

theorem seqSt_ok {u : UnitId} {i : SeqWord} {d e : Dev} {pa : Nat}
    (h : narrow u (seqAddress d u.core i) (2 ^ (i.f % 4)) { write := true } d = (.ok pa, e)) :
    seqSt u i d = (.ok (), (e.writeMem u.req pa (Dev.clean (leBytes (2 ^ (i.f % 4)) (d.sreg u.core i.b).toNat))).setPc u.core
      ((e.writeMem u.req pa (Dev.clean (leBytes (2 ^ (i.f % 4)) (d.sreg u.core i.b).toNat))).pc u.core + 8)) := by
  have hsreg : e.sreg u.core i.b = d.sreg u.core i.b := by
    have hmem := narrow_memWork u (seqAddress d u.core i) (2 ^ (i.f % 4)) { write := true } d
    rw [h] at hmem
    rw [Dev.sreg, Dev.core, hmem.cores]; rfl
  rw [seqSt, dev_bind, bind_apply, h]
  simp only [upd_bind, nextPc_eq, hsreg]

/-- A legal operation word sent to a list with room stands at its end. -/
theorem sendOp_ok {u : UnitId} {list : Nat} {o : Op} {d : Dev} (hl : opListed o.opcode = true) (hd : ¬ (o.opcode = 0x18 ∧ list = 8))
    (h8 : list = 8 → (d.core u.core).waiting.length < 32) (h : list ≠ 8 → (d.tasks u.core list).length < 32) :
    sendOp u list o d = (.ok (), if list = 8 then d.onCore u.core (fun k => { k with waiting := k.waiting ++ [o] })
      else d.setTasks u.core list (d.tasks u.core list ++ [o])) := by
  have hroom : (if list = 8 then decide (32 ≤ (d.core u.core).waiting.length) else decide (32 ≤ (d.tasks u.core list).length)) = false := by
    split
    · simpa using h8 ‹_›
    · simpa using h ‹_›
  rw [sendOp, dev_bind, hroom, bind_apply]
  simp only [waitIf, Bool.false_eq_true, if_false, hl, hd, Bool.not_true, or_self]
  by_cases hlist : list = 8
  · simp only [hlist, if_true]; rfl
  · simp only [hlist, if_false]; rfl

/-- The operation that an ISSUE of 16 read bytes sends. -/
def issuedOp (u : UnitId) (i : SeqWord) (bs : List PByte) (d : Dev) : Op :=
  { w0 := leNat ((bs.map PByte.val).take 8), w1 := leNat ((bs.map PByte.val).drop 8), id := ((d.core u.core).opId + 1) % 2 ^ 48
    pc := d.pc u.core, ctx := u.ctx, task := i.f }

/-- An ISSUE whose word is read, may go where it is sent and finds room there. -/
theorem seqIssue_ok {u : UnitId} {i : SeqWord} {d d1 d2 : Dev} {pa : Nat} {bs : List PByte}
    (hnarrow : narrow u (seqAddress d u.core i) 16 {} d = (.ok pa, d1)) (hread : d1.readMem u.req pa 16 = (bs, d2))
    (hpoison : bs.any PByte.poison = false) (hroute : routable (issuedOp u i bs d2).opcode i.f = true)
    (hlisted : opListed (issuedOp u i bs d2).opcode = true) (hdrain : ¬ ((issuedOp u i bs d2).opcode = 0x18 ∧ i.f = 8))
    (h8 : i.f = 8 → (d2.core u.core).waiting.length < 32) (hlt : i.f ≠ 8 → (d2.tasks u.core i.f).length < 32) :
    seqIssue u i d = (.ok (),
      let o := issuedOp u i bs d2
      let d3 := if i.f = 8 then d2.onCore u.core (fun k => { k with waiting := k.waiting ++ [o] })
        else d2.setTasks u.core i.f (d2.tasks u.core i.f ++ [o])
      let d4 := d3.onCore u.core (fun k => { k with opId := o.id })
      d4.setPc u.core (d4.pc u.core + 8)) := by
  have hsend : sendOp u i.f { w0 := leNat ((bs.map PByte.val).take 8), w1 := leNat ((bs.map PByte.val).drop 8)
                              id := ((d2.core u.core).opId + 1) % 2 ^ 48, pc := d2.pc u.core, ctx := u.ctx, task := i.f } d2 = _ :=
    sendOp_ok (o := issuedOp u i bs d2) hlisted hdrain h8 hlt
  have hlift : lift (fun d => d.readMem u.req pa 16) d1 = (.ok bs, d2) := by
    show (Except.ok (d1.readMem u.req pa 16).1, (d1.readMem u.req pa 16).2) = _
    rw [hread]
  have hsolid : solid (seqAddress d u.core i).toNat pa bs d2 = (.ok (bs.map PByte.val), d2) := by
    rw [solid, hpoison]; rfl
  have hroute' : routable (leNat ((bs.map PByte.val).take 8) % 256) i.f = true := hroute
  rw [seqIssue, dev_bind]
  dsimp only
  rw [bind_apply, hnarrow]
  dsimp only
  rw [bind_apply, hlift]
  dsimp only
  rw [bind_apply, hsolid]
  dsimp only
  rw [hroute']
  simp only [Bool.not_true, Bool.false_eq_true, if_false]
  rw [dev_bind, bind_apply, hsend]
  rfl

end Run

/-! ### What an instruction on registers leaves -/

/-- The device `e` is `d` but for core c, whose registers are the same except, unless `keep`, register k. -/
structure CoreOnly (c k : Nat) (keep : Bool) (d e : Dev) : Prop where
  sregs : ∀ j, j ≠ k ∨ keep = true → e.sreg c j = d.sreg c j
  others : ∀ n, n ≠ c → e.core n = d.core n
  rest : e = { d with cores := e.cores }

namespace CoreOnly

theorem setPc (c k : Nat) (d : Dev) (n : Nat) : CoreOnly c k true d (d.setPc c n) :=
  ⟨fun j _ => Dev.setPc_sreg d c n c j, fun _ hm => Dev.core_setCore_other d _ hm, rfl⟩

theorem setSreg (c k : Nat) (d : Dev) (v : W64) : CoreOnly c k false d (d.setSreg c k v) := by
  refine ⟨fun j hj => ?_, fun n hn => ?_, ?_⟩
  · rw [Dev.setSreg_sreg, if_neg (by simp_all)]
  · unfold Dev.setSreg
    split
    · rfl
    · exact Dev.core_setCore_other d _ hn
  · unfold Dev.setSreg
    split <;> rfl

theorem trans {c k : Nat} {keep : Bool} {d e f : Dev} (h : CoreOnly c k false d e) (g : CoreOnly c k keep e f) : CoreOnly c k false d f := by
  refine ⟨fun j hj => ?_, fun n hn => (g.others n hn).trans (h.others n hn), ?_⟩
  · have hjk : j ≠ k := by simpa using hj
    exact (g.sregs j (.inl hjk)).trans (h.sregs j hj)
  · rw [g.rest, h.rest]

theorem weaken {c k : Nat} {d e : Dev} (h : CoreOnly c k true d e) : CoreOnly c k false d e :=
  ⟨fun j _ => h.sregs j (.inr rfl), h.others, h.rest⟩

end CoreOnly

/-- The end of a command adds only mail to what an instruction changed. -/
theorem kept_of_coreOnly (s : State) {c k : Nat} {keep : Bool} {d e : Dev} (h : CoreOnly c k keep d e) :
    (∀ j, j ≠ k ∨ keep = true → (left s e).dev.sreg c j = d.sreg c j) ∧ (∀ n, n ≠ c → (left s e).dev.core n = d.core n) ∧
      (left s e).dev.ctxs = d.ctxs ∧ (left s e).dev.arrays = d.arrays ∧ (∀ a, (left s e).dev.cell a = d.cell a) ∧
      ∀ (r : Reg) (v j : Nat), r.key v j ∉ mailKeys → (left s e).dev.rd r v j = d.rd r v j := by
  refine ⟨fun j hj => ?_, fun n hn => ?_, ?_, ?_, fun a => ?_, fun r v j hr => ?_⟩
  · exact (by simp [left, Dev.sreg] : (left s e).dev.sreg c j = e.sreg c j).trans (h.sregs j hj)
  · exact (Dev.core_settle s.dev e n).trans (h.others n hn)
  · exact (Dev.settle_ctxs s.dev e).trans (by rw [h.rest])
  · exact (Dev.settle_arrays s.dev e).trans (by rw [h.rest])
  · exact (Dev.cell_settle s.dev e a).trans (by rw [h.rest]; rfl)
  · exact (Dev.rd_settle s.dev e hr).trans (by rw [h.rest]; rfl)

end Sys2Proof.Machine

namespace Sys2Proof.Proofs

open Sys2Proof.Machine Sys2Proof.Claims

/-- Settles O6: the effect of each is its ALU operation, whose value each f gives in arithmetic. -/
theorem sequencerArithmetic : Obligations.SequencerArithmetic := by
  intro s c w d
  refine ⟨fun h => ?_, fun h => ?_, fun h => ?_⟩
  · obtain ⟨-, -, -, -, -, hdef, -⟩ := id h
    exact ⟨_, aluOp_value w.f _ _ (by simpa [seqDefined] using hdef), goes_of_seqAt h (by decide) (Run.seqAlu_eq _ w d)⟩
  · obtain ⟨-, -, -, -, -, hdef, -⟩ := id h
    exact ⟨_, aluOp_value w.f _ _ (by simpa [seqDefined] using hdef), goes_of_seqAt h (by decide) (Run.seqAlui_eq _ w d)⟩
  · exact ⟨_, toNat_lih _ _, goes_of_seqAt h (by decide) (Run.seqLih_eq _ w d)⟩

/-- Settles O7: the narrow view's answer goes through LD's extension, and its address takes ST's bytes. -/
theorem sequencerMemory : Obligations.SequencerMemory := by
  intro s c w d e
  refine ⟨fun v h hread => ?_, fun pa h hread => ?_⟩
  · obtain ⟨-, -, -, -, -, hdef, -⟩ := id h
    have hgoes := goes_of_seqAt h (by decide) (Run.seqLd_ok (u := (found s).seqUnit c 0x08) hread)
    rw [loaded_value (by simpa [seqDefined] using hdef) v] at hgoes
    exact hgoes
  · obtain ⟨-, -, -, -, -, hdef, -⟩ := id h
    have hf : w.f % 4 = w.f := Nat.mod_eq_of_lt (by simpa [seqDefined] using hdef)
    rw [← hf] at hread ⊢
    exact goes_of_seqAt h (by decide) (Run.seqSt_ok hread)

/-- Settles O8: a jump to a multiple of 8 moves the pc, and another one stops before it has an effect. -/
theorem sequencerJumps : Obligations.SequencerJumps := by
  intro s c w d
  refine ⟨fun h htaken => ?_, fun h htaken => ?_, fun h => ?_, fun h => ?_⟩
  · obtain ⟨-, -, -, -, -, hdef, -⟩ := id h
    have hbr := Run.seqBr_taken (u := (found s).seqUnit c 0x10) ((branchTaken_iff (by simpa [seqDefined] using hdef) _ _).mpr htaken)
    exact ⟨fun hal => goes_of_seqAt h (by decide) (hbr.trans (Run.jumpTo_ok (Run.toNat_pc_add _ _) hal d)),
      fun hal => faults_of_seqAt h (by decide) (hbr.trans (Run.jumpTo_misaligned (Run.toNat_pc_add _ _) hal d))⟩
  · obtain ⟨-, -, -, -, -, hdef, -⟩ := id h
    have hnot := mt (branchTaken_iff (by simpa [seqDefined] using hdef) _ _).mp htaken
    exact goes_of_seqAt h (by decide) (Run.seqBr_not_taken (u := (found s).seqUnit c 0x10) (Bool.eq_false_iff.mpr hnot))
  · have hjal := Run.seqJal_eq ((found s).seqUnit c 0x11) w d
    exact ⟨fun hal => goes_of_seqAt h (by decide) (hjal.trans (Run.jump_link_ok (Run.toNat_pc_add _ _) hal _ d)),
      fun hal => faults_of_seqAt h (by decide) (hjal.trans (Run.jump_link_misaligned (Run.toNat_pc_add _ _) hal _ d))⟩
  · have hjalr := Run.seqJalr_eq ((found s).seqUnit c 0x12) w d
    exact ⟨fun hal => goes_of_seqAt h (by decide) (hjalr.trans (Run.jump_link_ok (BitVec.toNat_add _ _) hal _ d)),
      fun hal => faults_of_seqAt h (by decide) (hjalr.trans (Run.jump_link_misaligned (BitVec.toNat_add _ _) hal _ d))⟩

/-- Settles O9: each CSR's value is written to d, CSRC keeps the flags that its mask leaves, and HALT ends the program. -/
theorem sequencerControl : Obligations.SequencerControl := by
  intro s c w d
  refine ⟨fun h => ?_, fun h => ?_, fun h => goes_of_seqAt h (by decide) rfl⟩
  · have hcsr : ∀ (n : Nat) (v : W64) (e : Dev), w.imm.toNat = n → Run.csr ((found s).seqUnit c 0x19) n d = (.ok v, e) →
        exec (.csrr c w) s = .next (left s ((e.setSreg c w.d v).setPc c (e.pc c + 8))) := fun n v e hn hv =>
      goes_of_seqAt h (by decide) (Run.seqCsrr_ok (by rw [hn]; exact hv))
    refine ⟨fun hi => ?_, fun hi => ?_, fun hi => ⟨(d.draw 64).1, ?_⟩, fun hi => ?_, fun hi => ?_, fun hi => ?_, fun hi => ?_⟩
    · exact hcsr 0 _ _ (by rw [hi]; rfl) rfl
    · exact hcsr 1 _ _ (by rw [hi]; rfl) rfl
    · exact hcsr 2 _ _ (by rw [hi]; rfl) rfl
    · exact hcsr 3 _ _ (by rw [hi]; rfl) rfl
    · exact hcsr 4 _ _ (by rw [hi]; rfl) rfl
    · exact hcsr 5 _ _ (by rw [hi]; rfl) rfl
    · exact hcsr 6 _ _ (by rw [hi]; rfl) rfl
  · exact ⟨_, fun i hi => Flags.bit_clear _ _ hi, Flags.toNat_lt _, goes_of_seqAt h (by decide) rfl⟩

/-- Settles O10: the word, read without poison, passes the checks of its route and its list and is sent. -/
theorem issueSendsTheWord : Obligations.IssueSendsTheWord := by
  intro s c w d d1 d2 pa bs
  dsimp only
  intro h hnarrow hread hpoison hroute hlisted hdrain h8 hlt
  obtain ⟨-, -, -, -, -, hdef, -⟩ := id h
  have hf : w.f ≤ 8 := by simpa [seqDefined] using hdef
  refine goes_of_seqAt h (by decide) (Run.seqIssue_ok hnarrow hread hpoison hroute hlisted hdrain h8 fun hne => hlt (by omega))

/-- Settles O12: each of them sets registers of its core and its pc alone. -/
theorem sequencerRegisterFrame : Obligations.SequencerRegisterFrame := by
  intro s t c w d
  have hkept : ∀ {keep : Bool} {e : Dev} {i : Instr}, exec i s = .next (left s e) → CoreOnly c w.d keep d e → exec i s = .next t →
      (∀ j, j ≠ w.d ∨ keep = true → t.dev.sreg c j = d.sreg c j) ∧ (∀ k, k ≠ c.val → t.dev.core k = d.core k) ∧
      t.dev.ctxs = d.ctxs ∧ t.dev.arrays = d.arrays ∧ (∀ a, t.dev.cell a = d.cell a) ∧
      (∀ (r : Reg) (v j : Nat), r.key v j ∉ mailKeys → t.dev.rd r v j = d.rd r v j) := fun he hc ht => by
    obtain rfl := Host.Outcome.next.inj (he.symm.trans ht)
    exact kept_of_coreOnly s hc
  have hset : ∀ (v : W64) (n : Nat), CoreOnly c w.d false d ((d.setSreg c w.d v).setPc c n) := fun v n =>
    .trans (.setSreg c w.d d v) (.setPc c w.d _ n)
  have hlink : ∀ (v : W64) (n : Nat), CoreOnly c w.d false d ((d.setPc c n).setSreg c w.d v) := fun v n =>
    .trans (.weaken (.setPc c w.d d n)) (.setSreg c w.d _ v)
  obtain ⟨hbr, hnot, hjal, hjalr⟩ := sequencerJumps s c w d
  obtain ⟨halu, halui, hlih⟩ := sequencerArithmetic s c w d
  obtain ⟨hcsrr, -, -⟩ := sequencerControl s c w d
  refine ⟨fun h ht => ?_, fun h ht => ?_, fun h ht => ?_, fun h hal ht => ?_, fun h hal ht => ?_, fun h hal ht => ?_, fun h h6 h2 ht => ?_⟩
  · obtain ⟨v, -, he⟩ := halu h
    exact hkept he (hset v _) ht
  · obtain ⟨v, -, he⟩ := halui h
    exact hkept he (hset v _) ht
  · obtain ⟨v, -, he⟩ := hlih h
    exact hkept he (hset v _) ht
  · by_cases htaken : BranchHolds w.f (d.sreg c w.a) (d.sreg c w.b)
    · exact hkept ((hbr h htaken).1 hal) (.setPc c w.d d _) ht
    · exact hkept (hnot h htaken) (.setPc c w.d d _) ht
  · exact hkept ((hjal h).1 hal) (hlink _ _) ht
  · exact hkept ((hjalr h).1 hal) (hlink _ _) ht
  · obtain ⟨h0, h1, -, h3, h4, h5, h6'⟩ := hcsrr h
    have hof : ∀ n < 2 ^ 32, w.imm.toNat = n → w.imm = BitVec.ofNat 32 n := fun n hn hw =>
      BitVec.eq_of_toNat_eq (by rw [hw, BitVec.toNat_ofNat, Nat.mod_eq_of_lt hn])
    generalize hn : w.imm.toNat = n at h6
    interval_cases n
    · exact hkept (h0 (hof 0 (by decide) hn)) (hset _ _) ht
    · exact hkept (h1 (hof 1 (by decide) hn)) (hset _ _) ht
    · exact absurd (hof 2 (by decide) hn) h2
    · exact hkept (h3 (hof 3 (by decide) hn)) (hset _ _) ht
    · exact hkept (h4 (hof 4 (by decide) hn)) (hset _ _) ht
    · exact hkept (h5 (hof 5 (by decide) hn)) (hset _ _) ht
    · exact hkept (h6' (hof 6 (by decide) hn)) (hset _ _) ht

end Sys2Proof.Proofs
end

section
/-!
PROOFS. Reads and writes of memory in which no word, codeword or tag is in error: what a read answers, what a write stores, and what both
leave (06_memory_hierarchy.md R198, R225).
-/

namespace Sys2Proof.Machine

open Sys2Proof.Claims

namespace Dev

/-- No SRAM word, no codeword and no tag of the device is in error. -/
structure Clean (d : Dev) : Prop where
  flips : d.mem.flips = []
  symErrs : d.mem.symErrs = []
  tagErrs : d.mem.tagErrs = []

/-- From a clean device `d` to a clean device `e` with the bytes of `d` and at least its poison. -/
structure Quiet (d e : Dev) : Prop where
  clean : e.Clean
  cell : ∀ a, e.cell a = d.cell a
  poison : ∀ a, d.poisoned a = true → e.poisoned a = true

namespace Quiet

variable {d e : Dev}

theorem refl (h : d.Clean) : Quiet d d := ⟨h, fun _ => rfl, fun _ h => h⟩

theorem trans {f : Dev} (h : Quiet d e) (k : Quiet e f) : Quiet d f :=
  ⟨k.clean, fun a => (k.cell a).trans (h.cell a), fun a hp => k.poison a (h.poison a hp)⟩

theorem foldl {β : Type} {f : Dev → β → Dev} (h : ∀ d x, Clean d → Quiet d (f d x)) : ∀ (l : List β) {d : Dev}, Clean d → Quiet d (l.foldl f d)
  | [], _, hd => refl hd
  | x :: l, d, hd => trans (h d x hd) (foldl h l (h d x hd).clean)

/-- A change of registers, of slices or of bookkeeping. -/
theorem of_mem (h : d.Clean) (hc : e.mem.cells = d.mem.cells) (hp : e.mem.poison = d.mem.poison) (hf : e.mem.flips = d.mem.flips)
    (hs : e.mem.symErrs = d.mem.symErrs) (ht : e.mem.tagErrs = d.mem.tagErrs) : Quiet d e := by
  refine ⟨⟨hf.trans h.flips, hs.trans h.symErrs, ht.trans h.tagErrs⟩, fun a => ?_, fun a => ?_⟩
  · rw [Dev.cell, hc]; rfl
  · rw [poisoned, poisoned, hp]; exact id

theorem bump (h : d.Clean) (x : Field) (w j k : Nat) : Quiet d (d.bump x w j k) := of_mem h rfl rfl rfl rfl rfl

theorem raise (h : d.Clean) (x : Field) (w j : Nat) : Quiet d (d.raise x w j) := of_mem h rfl rfl rfl rfl rfl

theorem setSlice (h : d.Clean) (k : Nat) (l : List CacheLine) : Quiet d (d.setSlice k l) := of_mem h rfl rfl rfl rfl rfl

end Quiet

/-! ### Granules -/

/-- The granules of a range cover it. -/
theorem exists_granule {g a n x : Nat} (hg : 0 < g) (hx : a ≤ x) (hn : x < a + n) : ∃ m ∈ granules g a n, m ≤ x ∧ x < m + g := by
  have hlo : a / g ≤ x / g := Nat.div_le_div_right hx
  have hhi : x / g ≤ (a + n - 1) / g := Nat.div_le_div_right (by omega)
  have hdiv := Nat.div_add_mod x g
  have hmod := Nat.mod_lt x hg
  refine ⟨x / g * g, ?_, Nat.div_mul_le_self x g, ?_⟩
  · rw [granules, if_neg (by omega), List.mem_map]
    refine ⟨x / g - a / g, List.mem_range.mpr (by omega), ?_⟩
    congr 1
    omega
  · have hc : g * (x / g) = x / g * g := Nat.mul_comm _ _
    omega

/-- A granule of a range meets it. -/
theorem granule_meets {g a n m : Nat} (hg : 0 < g) (hm : m ∈ granules g a n) : a < m + g ∧ m < a + n := by
  unfold granules at hm
  split at hm
  · simp at hm
  · rename_i hn
    obtain ⟨i, hi, rfl⟩ := List.mem_map.mp hm
    have hi' := List.mem_range.mp hi
    have h0 : a / g ≤ (a + n - 1) / g := Nat.div_le_div_right (by omega)
    have h1 := Nat.lt_div_mul_add (a := a) hg
    have h2 : (a / g + i) * g ≤ (a + n - 1) / g * g := Nat.mul_le_mul_right g (by omega)
    have h3 := Nat.div_mul_le_self (a + n - 1) g
    have h4 : (a / g + i) * g = a / g * g + i * g := Nat.add_mul _ _ _
    omega

/-! ### Single steps of a clean device -/

theorem poisoned_setPoison (d : Dev) (w a : Nat) (p : Bool) : (d.setPoison w p).poisoned a = if a / 8 * 8 = w / 8 * 8 then p else d.poisoned a :=
  Sp.get_set (fun _ => false) d.mem.poison (w / 8 * 8) (a / 8 * 8) p

theorem quiet_setPoison {d : Dev} (h : d.Clean) (w : Nat) : Quiet d (d.setPoison w true) := by
  refine ⟨⟨h.flips, h.symErrs, h.tagErrs⟩, fun _ => rfl, fun a ha => ?_⟩
  rw [poisoned_setPoison]
  split
  · rfl
  · exact ha

theorem quiet_setPoison64 {d : Dev} (h : d.Clean) (a : Nat) : Quiet d (d.setPoison64 a true) :=
  .foldl (fun _ w h => quiet_setPoison h w) _ h

theorem touchWord_clean {d : Dev} (h : d.Clean) (b : Sram) (rq : Req) (s : Bool) (w : Nat) : d.touchWord b rq s w = d := by
  have hw : d.flipsAt w = [] := by rw [flipsAt, h.flips]; rfl
  unfold touchWord
  rw [hw]
  exact if_pos rfl

theorem foldl_touchWord_clean {d : Dev} (h : d.Clean) (b : Sram) (rq : Req) (s : Bool) :
    ∀ l : List Nat, l.foldl (fun d w => d.touchWord b rq s w) d = d
  | [] => rfl
  | w :: l => by rw [List.foldl_cons, touchWord_clean h]; exact foldl_touchWord_clean h b rq s l

/-- A codeword without errors is read as it stands, and the read is counted. -/
theorem touchCodeword_clean {d : Dev} (h : d.Clean) (rq : Req) (p : Bool) (cw : Nat) :
    ∃ l, d.touchCodeword rq p cw = d.onMem (fun m => { m with subchannels := l }) := by
  let k := 2 * ddrChannel cw + ddrSub cw
  let sc := Sp.get (fun _ => ({} : Subchannel)) d.mem.subchannels k
  refine ⟨Sp.set (fun _ => {}) d.mem.subchannels k { sc with reads := sc.reads + 1 }, ?_⟩
  unfold touchCodeword
  have hs : ∀ (f : MemSys → MemSys), (f d.mem).symErrs = [] → (d.onMem f).symErrsAt cw = [] := fun f hf => by
    show Sp.get (fun _ => []) (f d.mem).symErrs cw = []
    rw [hf]; rfl
  dsimp only
  rw [hs _ h.symErrs]
  exact if_pos rfl

theorem quiet_touchCodeword {d : Dev} (h : d.Clean) (rq : Req) (p : Bool) (cw : Nat) : Quiet d (d.touchCodeword rq p cw) := by
  obtain ⟨l, hl⟩ := touchCodeword_clean h rq p cw
  rw [hl]
  exact .of_mem h rfl rfl rfl rfl rfl

theorem setSymErrs_nil {d : Dev} (h : d.Clean) (cw : Nat) : d.setSymErrs cw [] = d := by
  have hs : Sp.set (fun _ => []) d.mem.symErrs cw [] = d.mem.symErrs := by rw [h.symErrs]; rfl
  unfold setSymErrs onMem
  dsimp only
  rw [hs]

theorem setFlips_nil {d : Dev} (h : d.Clean) (w : Nat) : d.setFlips w [] = d := by
  have hs : Sp.set (fun _ => []) d.mem.flips w [] = d.mem.flips := by rw [h.flips]; rfl
  unfold setFlips onMem
  dsimp only
  rw [hs]

theorem quiet_captureDdr {d : Dev} (h : d.Clean) (rq : Req) (p : Bool) (cw : Nat) : Quiet d (d.captureDdr rq p cw) := by
  have hm := captureDdr_mem d rq p cw
  exact .of_mem h (by rw [hm]) (by rw [hm]) (by rw [hm]) (by rw [hm]) (by rw [hm])

theorem quiet_captureSram {d : Dev} (h : d.Clean) (b : Sram) (rq : Req) (s : Bool) (a : Nat) : Quiet d (d.captureSram b rq s a) := by
  have hm : (d.captureSram b rq s a).mem = d.mem := by
    cases b <;> unfold captureSram <;> simp only [apply_ite Dev.mem, wr_mem, ite_self]
  exact .of_mem h (by rw [hm]) (by rw [hm]) (by rw [hm]) (by rw [hm]) (by rw [hm])

/-! ### The cache -/

/-- One codeword of a dirty line written back: a poisoned word poisons it (R218). -/
def writeBackCodeword (d : Dev) (cw : Nat) : Dev :=
  let d := d.setSymErrs cw []
  if (granules 8 cw 64).any (fun w => d.poisoned w) then
    ((d.captureDdr {} false cw).raise F.DDR_ERR_STATUS_poison_written (ddrChannel cw / 4)).setPoison64 cw true
  else d

theorem quiet_writeBackCodeword {d : Dev} (h : d.Clean) (cw : Nat) : Quiet d (d.writeBackCodeword cw) := by
  unfold writeBackCodeword
  rw [setSymErrs_nil h]
  dsimp only
  split
  · have hc := quiet_captureDdr h {} false cw
    have hr := Quiet.raise hc.clean F.DDR_ERR_STATUS_poison_written (ddrChannel cw / 4) 0
    exact .trans hc (.trans hr (quiet_setPoison64 hr.clean cw))
  · exact .refl h

theorem writeBack_eq {d : Dev} (h : d.Clean) (k line : Nat) :
    d.writeBack k line = ((granules 64 line 256).foldl writeBackCodeword d).bump F.SHM_CACHE_WB_CNT_lines k 0 1 := by
  unfold writeBack
  rw [foldl_touchWord_clean h]
  rfl

theorem quiet_writeBack {d : Dev} (h : d.Clean) (k line : Nat) : Quiet d (d.writeBack k line) := by
  have hfold : Quiet d ((granules 64 line 256).foldl writeBackCodeword d) := .foldl (fun d cw h => quiet_writeBackCodeword h cw) _ h
  rw [writeBack_eq h]
  exact .trans hfold (.bump hfold.clean _ _ _ _)

theorem tagCheck_clean {d : Dev} (h : d.Clean) (k line : Nat) : d.tagCheck k line = d := by
  unfold tagCheck
  rw [h.tagErrs]
  rfl

theorem quiet_fillLine {d : Dev} (h : d.Clean) (rq : Req) (k line : Nat) : Quiet d (d.fillLine rq k line) := by
  have ht : Quiet d ((granules 64 line 256).foldl (fun d cw => d.touchCodeword rq false cw) d) :=
    .foldl (fun d cw h => quiet_touchCodeword h rq false cw) _ h
  unfold fillLine
  dsimp only
  split
  · exact .trans ht (.setSlice ht.clean _ _)
  · split
    · exact ht
    · split
      · have hw := quiet_writeBack ht.clean k (CacheLine.line ‹CacheLine›)
        exact .trans ht (.trans hw (.setSlice hw.clean _ _))
      · exact .trans ht (.setSlice ht.clean _ _)

theorem quiet_cacheAccess {d : Dev} (h : d.Clean) (rq : Req) (line : Nat) (w : Bool) : Quiet d (d.cacheAccess rq line w).2 := by
  unfold cacheAccess
  dsimp only
  rw [tagCheck_clean h]
  split
  · exact .refl h
  · split
    · have hb := Quiet.bump h F.SHM_CACHE_HIT_CNT_lines (cacheHome line) 0 1
      exact .trans hb (.setSlice hb.clean _ _)
    · have hb := Quiet.bump h F.SHM_CACHE_MISS_CNT_lines (cacheHome line) 0 1
      split
      · exact hb
      · have hf := quiet_fillLine hb.clean rq (cacheHome line) line
        exact .trans hb (.trans hf (.setSlice hf.clean _ _))

/-! ### Reads -/

/-- The read of a range's part of one line of DDR5. -/
def readLine (rq : Req) (a len : Nat) (d : Dev) (line : Nat) : Dev :=
  let lo := max a line
  let n := min (a + len) (line + 256) - lo
  let (hit, d) := d.cacheAccess rq line false
  if hit then (granules 8 lo n).foldl (fun d w => d.touchWord (.shm (cacheHome line)) rq false w) d
  else (granules 64 lo n).foldl (fun d cw => d.touchCodeword rq false cw) d

/-- The read of a line leaves a clean device as its lookup did, but for what it counts. -/
theorem quiet_lookup_readLine {d : Dev} (h : d.Clean) (rq : Req) (a len line : Nat) :
    Quiet (d.cacheAccess rq line false).2 (readLine rq a len d line) := by
  have hc := quiet_cacheAccess h rq line false
  unfold readLine
  dsimp only
  split
  · rw [foldl_touchWord_clean hc.clean]; exact .refl hc.clean
  · exact .foldl (fun d cw h => quiet_touchCodeword h rq false cw) _ hc.clean

theorem quiet_readLine {d : Dev} (h : d.Clean) (rq : Req) (a len line : Nat) : Quiet d (readLine rq a len d line) :=
  .trans (quiet_cacheAccess h rq line false) (quiet_lookup_readLine h rq a len line)

theorem readMem_sram {d : Dev} (h : d.Clean) (rq : Req) {a : Nat} (len : Nat) {c : Nat} (ha : d.home a = .coreMem c ∨ d.home a = .shared c) :
    d.readMem rq a len = (d.peekRange a len, d) := by
  rcases ha with ha | ha <;> unfold readMem <;> rw [ha] <;> dsimp only <;> rw [foldl_touchWord_clean h]

theorem readMem_ddr_eq {d : Dev} (rq : Req) {a : Nat} (len : Nat) (ha : d.home a = .ddr) : d.readMem rq a len =
    let e := (granules 256 a len).foldl (readLine rq a len) d
    (e.peekRange a len, e) := by
  unfold readMem
  rw [ha]
  rfl

theorem readMem_ddr {d : Dev} (h : d.Clean) (rq : Req) {a : Nat} (len : Nat) (ha : d.home a = .ddr) :
    Quiet d (d.readMem rq a len).2 ∧ (d.readMem rq a len).1 = (d.readMem rq a len).2.peekRange a len := by
  rw [readMem_ddr_eq rq len ha]
  exact ⟨.foldl (fun d line h => quiet_readLine h rq a len line) _ h, rfl⟩

theorem peekRange_val (d : Dev) (a len : Nat) : (d.peekRange a len).map PByte.val = (List.range len).map (fun i => d.cell (a + i)) := by
  unfold peekRange
  rw [List.map_map]
  rfl

/-! ### Writes -/

/-- The byte at a place of a byte string, 0 past its end. -/
def byteAt (bs : List PByte) (i : Nat) : Byte := (bs[i]?.getD { val := 0 }).val

theorem byteAt_part (bs : List PByte) {i k n : Nat} (h : i < n) : byteAt ((bs.drop k).take n) i = byteAt bs (k + i) := by
  rw [byteAt, byteAt, List.getElem?_take, if_pos h, List.getElem?_drop]

/-- The bytes `bs` of a range that starts at `a` stand at the addresses of `S`, and every other byte is that of `d`; both are clean. -/
structure Stored (a : Nat) (bs : List PByte) (S : Nat → Prop) (d e : Dev) : Prop where
  clean : e.Clean
  inside : ∀ x, S x → e.cell x = byteAt bs (x - a)
  outside : ∀ x, ¬ S x → e.cell x = d.cell x

namespace Stored

variable {a : Nat} {bs : List PByte} {S T : Nat → Prop} {d e f : Dev}

theorem trans (h : Stored a bs S d e) (k : Stored a bs T e f) : Stored a bs (fun x => S x ∨ T x) d f := by
  refine ⟨k.clean, fun x hx => ?_, fun x hx => ?_⟩
  · by_cases ht : T x
    · exact k.inside x ht
    · exact (k.outside x ht).trans (h.inside x (hx.resolve_right ht))
  · exact (k.outside x fun ht => hx (.inr ht)).trans (h.outside x fun hs => hx (.inl hs))

theorem afterQuiet (h : Stored a bs S e f) (k : Quiet d e) : Stored a bs S d f :=
  ⟨h.clean, h.inside, fun x hx => (h.outside x hx).trans (k.cell x)⟩

theorem thenQuiet (h : Stored a bs S d e) (k : Quiet e f) : Stored a bs S d f :=
  ⟨k.clean, fun x hx => (k.cell x).trans (h.inside x hx), fun x hx => (k.cell x).trans (h.outside x hx)⟩

theorem congr (h : Stored a bs S d e) (hS : ∀ x, S x ↔ T x) : Stored a bs T d e :=
  ⟨h.clean, fun x hx => h.inside x ((hS x).mpr hx), fun x hx => h.outside x fun hs => hx ((hS x).mp hs)⟩

theorem foldl {β : Type} {f : Dev → β → Dev} {S : β → Nat → Prop} : ∀ (l : List β) (d : Dev),
    (∀ d g, g ∈ l → Clean d → Stored a bs (S g) d (f d g)) → Clean d → Stored a bs (fun x => ∃ g ∈ l, S g x) d (l.foldl f d)
  | [], d, _, hd => ⟨hd, fun _ ⟨_, hg, _⟩ => absurd hg (by simp), fun _ _ => rfl⟩
  | g :: l, d, h, hd => by
    have hg := h d g (by simp) hd
    refine (trans hg (foldl l (f d g) (fun d x hx => h d x (by simp [hx])) hg.clean)).congr fun x => ?_
    simp

/-- Bytes of a part of the range are bytes of the range. -/
theorem ofPart {lo n : Nat} (hlo : a ≤ lo) (h : Stored lo ((bs.drop (lo - a)).take n) S d e) (hS : ∀ x, S x → lo ≤ x ∧ x < lo + n) :
    Stored a bs S d e := by
  refine ⟨h.clean, fun x hx => ?_, h.outside⟩
  obtain ⟨hl, hr⟩ := hS x hx
  rw [h.inside x hx, byteAt_part bs (by omega)]
  congr 1
  omega

end Stored

/-- Bytes stored one after the other. -/
theorem stored_setCells (lo : Nat) : ∀ (bs : List PByte) (k : Nat) {d : Dev}, d.Clean →
    Stored (lo + k) bs (fun x => lo + k ≤ x ∧ x < lo + k + bs.length) d ((bs.zipIdx k).foldl (fun d x => d.setCell (lo + x.2) x.1.val) d)
  | [], k, d, h => ⟨h, fun x hx => absurd hx (by simp), fun _ _ => rfl⟩
  | b :: bs, k, d, h => by
    have hset : (d.setCell (lo + k) b.val).Clean := ⟨h.flips, h.symErrs, h.tagErrs⟩
    have ih := stored_setCells lo bs (k + 1) hset
    rw [List.zipIdx_cons, List.foldl_cons]
    refine ⟨ih.clean, fun x hx => ?_, fun x hx => ?_⟩
    · by_cases hxk : x = lo + k
      · subst hxk
        rw [ih.outside _ (by omega), cell_setCell]
        simp [byteAt]
      · have hlen : (b :: bs).length = bs.length + 1 := rfl
        rw [ih.inside x (by omega)]
        have hidx : x - (lo + k) = x - (lo + (k + 1)) + 1 := by omega
        rw [hidx, byteAt, byteAt, List.getElem?_cons_succ]
    · have hlen : (b :: bs).length = bs.length + 1 := rfl
      rw [ih.outside x (by omega)]
      exact cell_setCell_other d _ (by omega)

/-- A poison mark changes no byte of a clean device. -/
theorem stored_poison {a : Nat} {bs : List PByte} {S : Nat → Prop} {d e : Dev} (p : Bool) (h : Stored a bs S d e) :
    ∀ l : List Nat, Stored a bs S d (l.foldl (fun d w => d.setPoison w p) e) := fun l => by
  have hk : ∀ (l : List Nat) (e : Dev), Stored a bs S d e → Stored a bs S d (l.foldl (fun d w => d.setPoison w p) e) := fun l => by
    induction l with
    | nil => exact fun _ h => h
    | cons w l ih => exact fun e h => ih (e.setPoison w p) ⟨⟨h.clean.flips, h.clean.symErrs, h.clean.tagErrs⟩, h.inside, h.outside⟩
  exact hk l e h

/-- One granule of a range. -/
def InGranule (a len size g x : Nat) : Prop := max a g ≤ x ∧ x < min (a + len) (g + size)

theorem stored_writeGranule {d : Dev} (h : d.Clean) {size g a : Nat} {bs : List PByte} (hg : a < g + size ∧ g < a + bs.length)
    {touch : Dev → Nat → Dev} (ht : ∀ d w, Clean d → Quiet d (touch d w)) :
    Stored a bs (InGranule a bs.length size g) d (d.writeGranule size g a bs touch) := by
  unfold writeGranule
  dsimp only
  refine stored_poison _ ?_ _
  have hq : Quiet d (if max a g = g ∧ min (a + bs.length) (g + size) = g + size then (if size = 8 then d.setFlips g [] else d.setSymErrs g [])
      else touch d g) := by
    rw [setFlips_nil h, setSymErrs_nil h, ite_self]
    split
    · exact .refl h
    · exact ht d g h
  have hlen : ((bs.drop (max a g - a)).take (min (a + bs.length) (g + size) - max a g)).length = min (a + bs.length) (g + size) - max a g := by
    rw [List.length_take, List.length_drop]
    omega
  have hst := (stored_setCells (max a g) ((bs.drop (max a g - a)).take (min (a + bs.length) (g + size) - max a g)) 0 hq.clean).afterQuiet hq
  rw [Nat.add_zero, hlen] at hst
  refine (Stored.ofPart (a := a) (by omega) hst fun x hx => hx).congr fun x => ?_
  unfold InGranule
  omega

/-- The granules of a range, each written. -/
theorem stored_writeGranules {d : Dev} (h : d.Clean) {size a : Nat} (hs : 0 < size) (bs : List PByte)
    {touch : Dev → Nat → Dev} (ht : ∀ d w, Clean d → Quiet d (touch d w)) :
    Stored a bs (fun x => a ≤ x ∧ x < a + bs.length) d
      ((granules size a bs.length).foldl (fun d g => d.writeGranule size g a bs touch) d) := by
  refine (Stored.foldl _ d (fun d g hg h => stored_writeGranule h (granule_meets hs hg) ht) h).congr fun x => ⟨?_, ?_⟩
  · rintro ⟨g, hg, hx⟩
    unfold InGranule at hx
    omega
  · rintro ⟨hl, hr⟩
    obtain ⟨m, hm, hml, hmr⟩ := exists_granule hs hl hr
    refine ⟨m, hm, ?_⟩
    unfold InGranule
    omega

/-- A write of memory stores its bytes (R198). -/
theorem stored_writeMem {d : Dev} (h : d.Clean) (rq : Req) {a : Nat} (bs : List PByte)
    (hm : (∃ c, d.home a = .coreMem c) ∨ (∃ c, d.home a = .shared c) ∨ d.home a = .ddr) :
    Stored a bs (fun x => a ≤ x ∧ x < a + bs.length) d (d.writeMem rq a bs) := by
  have hw : ∀ (b : Sram) (d : Dev) (w : Nat), Clean d → Quiet d (d.touchWord b rq false w) := fun b d w h => by
    rw [touchWord_clean h]; exact .refl h
  unfold writeMem
  dsimp only
  rcases hm with ⟨c, ha⟩ | ⟨c, ha⟩ | ha <;> rw [ha] <;> dsimp only
  · exact stored_writeGranules h (by decide) bs (hw _)
  · have hst := stored_writeGranules h (a := a) (size := 8) (by decide) bs (hw (.shm c))
    split
    · have hq := quiet_captureSram hst.clean (.shm c) rq false (a / 8 * 8)
      exact hst.thenQuiet (hq.trans (.raise hq.clean _ _ _))
    · exact hst
  · refine (Stored.foldl (S := fun line x => max a line ≤ x ∧ x < min (a + bs.length) (line + 256)) _ d (fun d line hl h => ?_) h).congr
      fun x => ⟨?_, ?_⟩
    · obtain ⟨hmeet, hmeet'⟩ := granule_meets (by decide : 0 < 256) hl
      have hc := quiet_cacheAccess h rq line true
      have hlen : ((bs.drop (max a line - a)).take (min (a + bs.length) (line + 256) - max a line)).length =
          min (a + bs.length) (line + 256) - max a line := by
        rw [List.length_take, List.length_drop]
        omega
      have hpart : ∀ {e : Dev}, Stored (max a line) ((bs.drop (max a line - a)).take (min (a + bs.length) (line + 256) - max a line))
          (fun x => max a line ≤ x ∧ x < max a line + (min (a + bs.length) (line + 256) - max a line)) (d.cacheAccess rq line true).2 e →
          Stored a bs (fun x => max a line ≤ x ∧ x < min (a + bs.length) (line + 256)) d e := fun he =>
        ((he.ofPart (by omega) fun x hx => hx).afterQuiet hc).congr fun x => by omega
      split
      · have hst := stored_writeGranules hc.clean (a := max a line) (size := 8) (by decide)
          ((bs.drop (max a line - a)).take (min (a + bs.length) (line + 256) - max a line)) (hw (.shm (cacheHome line)))
        rw [hlen] at hst
        exact hpart hst
      · have hst := stored_writeGranules hc.clean (a := max a line) (size := 64) (by decide)
          ((bs.drop (max a line - a)).take (min (a + bs.length) (line + 256) - max a line))
          (fun d cw h => quiet_touchCodeword h rq false cw)
        rw [hlen] at hst
        refine hpart (hst.thenQuiet (.foldl (fun d g h => ?_) _ hst.clean))
        split
        · have hcap := quiet_captureDdr h rq false g
          exact hcap.trans (.raise hcap.clean _ _ _)
        · exact .refl h
    · rintro ⟨g, hg, hx⟩
      omega
    · rintro ⟨hl, hr⟩
      obtain ⟨m, hm, hml, hmr⟩ := exists_granule (by decide : 0 < 256) hl hr
      exact ⟨m, hm, by omega, by omega⟩

end Dev

end Sys2Proof.Machine

namespace Sys2Proof.Proofs

open Sys2Proof.Machine Sys2Proof.Claims

/-- Settles O13: a clean SRAM word is read as it stands, and what a read of DDR5 moves through the cache keeps every byte. -/
theorem readKeepsBytes : Obligations.ReadKeepsBytes := by
  intro d rq a len hf hs ht
  have h : d.Clean := ⟨hf, hs, ht⟩
  refine ⟨fun c ha => Dev.readMem_sram h rq len ha, fun ha => ?_⟩
  obtain ⟨hq, hbytes⟩ := Dev.readMem_ddr h rq len ha
  refine ⟨?_, hq.cell⟩
  rw [hbytes, Dev.peekRange_val]
  exact List.map_congr_left fun i _ => hq.cell (a + i)

/-- Settles O14: each granule of the range takes its part of the bytes, and the granules cover the range. -/
theorem writeStoresBytes : Obligations.WriteStoresBytes := by
  intro d rq a bs hf hs ht hm x
  have hst := Dev.stored_writeMem ⟨hf, hs, ht⟩ rq bs hm
  split
  · exact hst.inside x ‹_›
  · exact hst.outside x ‹_›

end Sys2Proof.Proofs
end

section
/-!
PROOFS. MEMORY_READ and MEMORY_WRITE at an address of this device: the bytes that a write stores, and a read that a line written back
in its course poisons (06_memory_hierarchy.md R198, R218).
-/

namespace Sys2Proof.Machine

open Sys2Proof.Claims

namespace Dev

theorem serveWrite_ok {d : Dev} {rq : Req} {pa : Nat} {bs : List PByte} {k : Bool} (hc : d.requestCode rq pa bs.length k = (0, none)) :
    d.serveWrite rq pa bs k = (0, d.writeMem rq pa bs) := by
  rw [serveWrite, hc]
  rfl

/-- A read in the range of DDR5 that its target takes: what the flits carry, with the code of their poison. -/
theorem serveRead_ddr {d : Dev} {rq : Req} {pa len : Nat} {k : Bool} (hc : d.requestCode rq pa len k = (0, none))
    (hd : pa < 0x80000000000) : d.serveRead rq pa len k =
      let r := d.readMem rq pa len
      ((if (transit pa r.1).any PByte.poison then 3 else 0, transit pa r.1), r.2) := by
  have hhome : (d.readMem rq pa len).2.home pa = .ddr ∨ (d.readMem rq pa len).2.home pa = .none := by
    unfold home
    rw [if_pos hd]
    split
    · exact .inl rfl
    · exact .inr rfl
  unfold serveRead
  rw [hc]
  rcases hhome with hh | hh <;> dsimp only <;> rw [hh] <;> rfl

theorem memoryWrite_here {d : Dev} {rq : Req} {addr : Nat} {bs : List PByte} {k : Bool} (hr : d.route none (bits addr 63 48) = .here)
    (hreg : ¬ (regBase ≤ bits addr 47 0 ∧ bits addr 47 0 < regBase + 2 ^ 32)) (ht : d.pins.tripped = false)
    (hc : d.requestCode rq (bits addr 47 0) bs.length k = (0, none)) :
    d.memoryWrite rq addr bs k = (d.writeMem rq (bits addr 47 0) bs).emit (.response rq.master 0 []) := by
  unfold memoryWrite
  dsimp only
  rw [hr]
  dsimp only
  rw [if_neg hreg, ht, Bool.false_and, if_neg Bool.false_ne_true, serveWrite_ok hc]

theorem memoryRead_here {d : Dev} {rq : Req} {addr len : Nat} {k : Bool} (hr : d.route none (bits addr 63 48) = .here)
    (hreg : ¬ (regBase ≤ bits addr 47 0 ∧ bits addr 47 0 < regBase + 2 ^ 32)) (ht : d.pins.tripped = false)
    (hc : d.requestCode rq (bits addr 47 0) len k = (0, none)) (hd : bits addr 47 0 < 0x80000000000) :
    d.memoryRead rq addr len k =
      let r := d.readMem rq (bits addr 47 0) len
      r.2.emit (.response rq.master (if (transit (bits addr 47 0) r.1).any PByte.poison then 3 else 0) (transit (bits addr 47 0) r.1)) := by
  unfold memoryRead
  dsimp only
  rw [hr]
  dsimp only
  rw [if_neg hreg, ht, Bool.false_and, if_neg Bool.false_ne_true, serveRead_ddr hc hd]

/-- A range that some target takes is core memory, shared memory or DDR5. -/
theorem home_of_requestCode {d : Dev} {rq : Req} {pa len : Nat} {k : Bool} (h : d.requestCode rq pa len k = (0, none)) :
    (∃ c, d.home pa = .coreMem c) ∨ (∃ c, d.home pa = .shared c) ∨ d.home pa = .ddr := by
  cases hh : d.home pa with
  | ddr => exact .inr (.inr rfl)
  | shared c => exact .inr (.inl ⟨c, rfl⟩)
  | coreMem c => exact .inl ⟨c, rfl⟩
  | regs =>
    have ha : d.accessCode rq pa = (5, none) := by rw [accessCode, hh]
    rw [requestCode, ha] at h
    exact absurd h (by simp)
  | none =>
    have ha : d.accessCode rq pa = (4, none) := by rw [accessCode, hh]
    rw [requestCode, ha] at h
    exact absurd h (by simp)

/-- Poison of a byte is in what the flits carry. -/
theorem any_transit {a : Nat} {bs : List PByte} (h : bs.any PByte.poison = true) : (transit a bs).any PByte.poison = true := by
  obtain ⟨b, hb, hp⟩ := List.any_eq_true.mp h
  obtain ⟨i, hi, rfl⟩ := List.mem_iff_getElem.mp hb
  have hm : (bs[i], i) ∈ bs.zipIdx := List.mem_zipIdx_iff_getElem?.mpr (List.getElem?_eq_getElem hi)
  refine List.any_eq_true.mpr ⟨_, List.mem_map_of_mem hm, ?_⟩
  exact List.any_eq_true.mpr ⟨_, hm, by simp [hp]⟩

/-! ### A line written back in the course of a read -/

/-- The first codeword of a line is poisoned when it is written back with a poisoned word. -/
theorem writeBack_poisons {d : Dev} (h : d.Clean) (k : Nat) {w : Nat} (hw : w ∈ granules 8 256 64) (hp : d.poisoned w = true) :
    (d.writeBack k 256).poisoned 256 = true := by
  have hany : (granules 8 256 64).any (fun w => d.poisoned w) = true := List.any_eq_true.mpr ⟨w, hw, hp⟩
  have hcap := quiet_captureDdr h {} false 256
  have hr := Quiet.raise hcap.clean F.DDR_ERR_STATUS_poison_written (ddrChannel 256 / 4) 0
  have hmark : ∀ {e : Dev}, e.Clean → (e.setPoison64 256 true).poisoned 256 = true := fun {e} he => by
    have hq : Quiet (e.setPoison 256 true) (e.setPoison64 256 true) :=
      .foldl (fun d w h => quiet_setPoison h w) [264, 272, 280, 288, 296, 304, 312] (quiet_setPoison he 256).clean
    exact hq.poison 256 (by rw [poisoned_setPoison, if_pos rfl])
  have hrest : Quiet (d.writeBackCodeword 256) ([320, 384, 448].foldl writeBackCodeword (d.writeBackCodeword 256)) :=
    .foldl (fun d cw h => quiet_writeBackCodeword h cw) _ (quiet_writeBackCodeword h 256).clean
  have hfirst : (d.writeBackCodeword 256).poisoned 256 = true := by
    unfold writeBackCodeword
    rw [setSymErrs_nil h, if_pos hany]
    exact hmark hr.clean
  rw [writeBack_eq h]
  exact (Quiet.bump hrest.clean F.SHM_CACHE_WB_CNT_lines k 0 1).poison 256 (hrest.poison 256 hfirst)

/-- Reads of clean codewords touch no slice. -/
theorem slice_foldl_touchCodeword (rq : Req) (k : Nat) : ∀ (l : List Nat) {d : Dev}, d.Clean →
    (l.foldl (fun d cw => d.touchCodeword rq false cw) d).slice k = d.slice k
  | [], _, _ => rfl
  | cw :: l, d, h => by
    obtain ⟨x, hx⟩ := touchCodeword_clean h rq false cw
    have hq := quiet_touchCodeword h rq false cw
    rw [List.foldl_cons, slice_foldl_touchCodeword rq k l hq.clean, hx]
    rfl

/-- A full set of a slice whose least recently used way holds line 256, dirty. -/
def fullSet (set : Nat) : List CacheLine :=
  (List.range 15).map (fun w => { line := 2 ^ 20 * (w + 1), set, way := w, dirty := false }) ++ [{ line := 256, set, way := 15, dirty := true }]

theorem freeWay_fullSet (set : Nat) : freeWay (fullSet set) set = none := by
  refine List.find?_eq_none.mpr fun w hw => ?_
  have hlt := List.mem_range.mp hw
  simp only [fullSet, List.any_append, List.any_map, List.any_cons, List.any_nil, Bool.or_false, Bool.not_eq_true', Bool.not_eq_false,
    Bool.or_eq_true, List.any_eq_true, Function.comp, Bool.and_eq_true, beq_iff_eq, true_and, beq_self_eq_true]
  by_cases h : w = 15
  · exact .inr h.symm
  · exact .inl ⟨w, List.mem_range.mpr (by omega), rfl⟩

theorem victim_fullSet (set : Nat) : (fullSet set).reverse.find? (fun x => x.set = set) =
    some { line := 256, set, way := 15, dirty := true } := by
  rw [fullSet, List.reverse_append]
  simp

/-- A line filled into the full set writes line 256 back, whose poisoned word poisons its codeword. -/
theorem fillLine_poisons {d : Dev} (h : d.Clean) (rq : Req) (k line : Nat) (hs : d.slice k = fullSet (Config.cacheSet d.split line)) {w : Nat}
    (hw : w ∈ granules 8 256 64) (hp : d.poisoned w = true) : (d.fillLine rq k line).poisoned 256 = true := by
  have hq : Quiet d ((granules 64 line 256).foldl (fun d cw => d.touchCodeword rq false cw) d) :=
    .foldl (fun d cw h => quiet_touchCodeword h rq false cw) _ h
  unfold fillLine
  dsimp only
  rw [slice_foldl_touchCodeword rq k _ h, hs, freeWay_fullSet, victim_fullSet]
  dsimp only
  rw [if_pos rfl]
  exact (Quiet.setSlice (quiet_writeBack hq.clean k 256).clean k _).poison 256 (writeBack_poisons hq.clean k hw (hq.poison w hp))

theorem split_bump_miss (d : Dev) : (d.bump F.SHM_CACHE_MISS_CNT_lines 0 0 1).split = d.split := by
  have hrd : (d.bump F.SHM_CACHE_MISS_CNT_lines 0 0 1).rd .SHM_CACHE_CFG 0 0 = d.rd .SHM_CACHE_CFG 0 0 :=
    rd_setFld_other (w := 0) (j := 0) d F.SHM_CACHE_MISS_CNT_lines _ (by decide)
  unfold split
  rw [fld_eq_bits, fld_eq_bits]
  exact congrArg (fun n => min 8 (bits n _ _)) hrd

/-- A miss on line 0 fills it. -/
theorem cacheAccess_poisons {d : Dev} (h : d.Clean) (hsplit : d.split ≠ 0) (hs : d.slice 0 = fullSet (Config.cacheSet d.split 0))
    {w : Nat} (hw : w ∈ granules 8 256 64) (hp : d.poisoned w = true) : (d.cacheAccess {} 0 false).2.poisoned 256 = true := by
  have hb := Quiet.bump h F.SHM_CACHE_MISS_CNT_lines 0 0 1
  have hf := fillLine_poisons hb.clean {} 0 0 (by rw [split_bump_miss]; exact hs) hw (hb.poison w hp)
  have hhome : cacheHome 0 = 0 := rfl
  have hmiss : (d.slice 0).find? (fun x => x.line = 0) = none := by
    rw [hs, List.find?_eq_none]
    intro x hx
    obtain hx | hx := List.mem_append.mp hx
    · obtain ⟨w, -, rfl⟩ := List.mem_map.mp hx
      simp
    · simp_all
  unfold cacheAccess
  rw [if_neg hsplit]
  dsimp only
  rw [hhome, tagCheck_clean h, hmiss]
  dsimp only
  rw [if_neg Bool.false_ne_true]
  exact (Quiet.setSlice (quiet_fillLine hb.clean {} 0 0).clean 0 _).poison 256 hf

/-- A read that begins in line 0 pushes line 256 out before it comes to it. -/
theorem readMem_poisons {d : Dev} (h : d.Clean) (hsplit : d.split ≠ 0) (hs : d.slice 0 = fullSet (Config.cacheSet d.split 0))
    {w : Nat} (hw : w ∈ granules 8 256 64) (hp : d.poisoned w = true) (hd : d.home 248 = .ddr) :
    (d.readMem {} 248 16).1.any PByte.poison = true := by
  have hlookup := quiet_lookup_readLine h {} 248 16 0
  have hnext := quiet_readLine hlookup.clean {} 248 16 256
  have hfirst := cacheAccess_poisons h hsplit hs hw hp
  rw [readMem_ddr_eq {} 16 hd]
  refine List.any_eq_true.mpr ⟨_, List.mem_map_of_mem (List.mem_range.mpr (by decide : 8 < 16)), ?_⟩
  exact hnext.poison 256 (hlookup.poison 256 hfirst)

end Dev

end Sys2Proof.Machine

namespace Sys2Proof.Proofs

open Sys2Proof.Machine Sys2Proof.Claims

/-- Settles O17: the request reaches memory's own write, and the command's end leaves memory and the answer. -/
theorem memoryWriteStores : Obligations.MemoryWriteStores := by
  intro s rq addr bs k
  dsimp only
  intro ha ht hr hreg hc hf hs htag
  have hw := Dev.memoryWrite_here (d := found s) (bs := bs) hr hreg ht hc
  have hst := Dev.stored_writeMem (d := found s) ⟨hf, hs, htag⟩ rq bs (Dev.home_of_requestCode hc)
  have hout := (Dev.writeMem_memOnly (found s) rq (bits addr.toNat 47 0) bs).out
  refine ⟨_, State.apply_awake ha _ _, ?_, fun x => ?_, rfl, rfl⟩
  · show (Dev.settle s.dev ((found s).memoryWrite rq addr.toNat bs k)).out = _
    rw [Dev.settle_out, hw]
    show ((found s).writeMem rq (bits addr.toNat 47 0) bs).out ++ [_] = _
    rw [hout]
    rfl
  · show (Dev.settle s.dev ((found s).memoryWrite rq addr.toNat bs k)).cell x = _
    rw [Dev.cell_settle, hw]
    split
    · exact hst.inside x ‹_›
    · exact hst.outside x ‹_›

/-- DDR5 with 8 GiB modules and a cache in which line 256, dirty with a poisoned word at 264, is the one that line 0 pushes out. -/
def lineOfPoison : State :=
  { dev := ({ mem := { modules := (List.range 32).map (fun n => { channel := n, capacity := 8, ranks := 1, rate := 6400, supported := true
                                                                  serial := n, trains := true })
                       ddrUp := true, poison := [(264, true)], cache := [(0, Dev.fullSet (Config.cacheSet 1 0))] } } : Dev).setFld
      F.SHM_CACHE_CFG_steps 0 0 1 }

/-- Refutes O16: the bytes 248 to 263 are not poisoned, but the fill of line 0 writes line 256 back, whose codeword a poisoned word outside
the range poisons whole (R218). -/
theorem not_memoryReadAnswers : ¬ Obligations.MemoryReadAnswers := by
  intro h
  have hcode : (found lineOfPoison).requestCode {} 248 16 false = (0, none) := by decide +kernel
  have hroute : (found lineOfPoison).route none (bits (BitVec.toNat (248 : BitVec 64)) 63 48) = .here := by decide +kernel
  obtain ⟨t, ht, hout, -⟩ := h lineOfPoison {} 248 16 false rfl rfl hroute (by decide) hcode rfl rfl rfl (by decide +kernel)
  have hpoison := Dev.readMem_poisons (d := found lineOfPoison) (w := 264) ⟨rfl, rfl, rfl⟩ (by decide +kernel) rfl (by decide) rfl
    (by decide +kernel)
  have hanswer := (State.apply_awake (s := lineOfPoison) rfl (fun d => d.memoryRead {} 248 16 false) {}).symm.trans ht
  obtain rfl := Host.Outcome.next.inj hanswer
  have hread := Dev.memoryRead_here (addr := 248) hroute (by decide) rfl hcode (by decide)
  rw [left, Dev.settle_out, hread] at hout
  have hlow : bits 248 47 0 = 248 := rfl
  dsimp only [Dev.emit] at hout
  rw [hlow, (Dev.readMem_memOnly (found lineOfPoison) {} 248 16).out, Dev.any_transit hpoison] at hout
  simp [found, Dev.begun] at hout

end Sys2Proof.Proofs
end

section
/-!
PROOFS. What the fields of registers read as after a store, and runs of stores.
-/

namespace Sys2Proof.Machine

namespace Dev

theorem lt_of_bits {n k : Nat} (h : ∀ i, k ≤ i → bit n i = false) : n < 2 ^ k := Nat.lt_pow_two_of_testBit n h

theorem fld_lt (d : Dev) (x : Field) (w j : Nat) : d.fld x w j < 2 ^ (x.hi + 1 - x.lo) :=
  lt_of_bits fun i hi => by rw [bit_fld]; simp; omega

/-- A field reads as what was stored in it. -/
theorem fld_setFld (d : Dev) {x : Field} (h : x.lo ≤ x.hi) (h64 : x.hi < 64) (w j v : Nat) :
    (d.setFld x w j v).fld x w j = v % 2 ^ (x.hi + 1 - x.lo) := by
  refine Nat.eq_of_testBit_eq fun i => ?_
  rw [← bit, bit_fld, bit_rd_setFld d h h64, Nat.testBit_mod_two_pow]
  by_cases hi : i < x.hi + 1 - x.lo
  · rw [if_pos (by omega), Nat.add_sub_cancel_left]; rfl
  · simp [hi]

/-- Storing a field leaves the fields of a register at another address. -/
theorem fld_setFld_other (d : Dev) {x y : Field} {w j w' j' : Nat} (v : Nat) (h : y.reg.key w' j' ≠ x.reg.key w j) :
    (d.setFld x w j v).fld y w' j' = d.fld y w' j' := by
  rw [fld_eq_bits, fld_eq_bits, rd_setFld_other d x v h]

/-- Storing a field leaves the other fields of its register. -/
theorem fld_setFld_disjoint (d : Dev) {x y : Field} (hr : y.reg = x.reg) (h : x.lo ≤ x.hi) (h64 : x.hi < 64) (w j v : Nat)
    (hd : x.hi < y.lo ∨ y.hi < x.lo) : (d.setFld x w j v).fld y w j = d.fld y w j := by
  refine Nat.eq_of_testBit_eq fun i => ?_
  rw [← bit, ← bit, bit_fld, bit_fld, hr, bit_rd_setFld d h h64]
  by_cases hi : i < y.hi + 1 - y.lo
  · rw [if_neg (by omega)]
  · simp [hi]

theorem bump_eq_setFld (d : Dev) (x : Field) (w j k : Nat) : d.bump x w j k = d.setFld x w j (satAdd (x.hi + 1 - x.lo) (d.fld x w j) k) := rfl

/-- A counter stops at its largest value. -/
theorem fld_bump (d : Dev) {x : Field} (h : x.lo ≤ x.hi) (h64 : x.hi < 64) (w j k : Nat) :
    (d.bump x w j k).fld x w j = satAdd (x.hi + 1 - x.lo) (d.fld x w j) k := by
  rw [bump_eq_setFld, fld_setFld d h h64, satAdd]
  have hp := Nat.two_pow_pos (x.hi + 1 - x.lo)
  exact Nat.mod_eq_of_lt (by omega)

theorem rd_bump_other (d : Dev) (x : Field) {r : Reg} {w j w' j' : Nat} (k : Nat) (h : r.key w' j' ≠ x.reg.key w j) :
    (d.bump x w j k).rd r w' j' = d.rd r w' j' := rd_wr_other d _ h

theorem fld_bump_other (d : Dev) {x y : Field} {w j w' j' : Nat} (k : Nat) (h : y.reg.key w' j' ≠ x.reg.key w j) :
    (d.bump x w j k).fld y w' j' = d.fld y w' j' := fld_setFld_other d _ h

theorem fld_raise_other (d : Dev) {x y : Field} {w j w' j' : Nat} (h : y.reg.key w' j' ≠ x.reg.key w j) :
    (d.raise x w j).fld y w' j' = d.fld y w' j' := fld_setFld_other d _ h

theorem fld_congr {d e : Dev} {x : Field} {w j : Nat} (h : e.rd x.reg w j = d.rd x.reg w j) : e.fld x w j = d.fld x w j := by
  rw [fld_eq_bits, fld_eq_bits, h]

/-- A bit that is set stays set when another bit of its register is raised. -/
theorem isSet_raise_of_isSet (d : Dev) {x y : Field} (hr : y.reg = x.reg) (hx : x.lo = x.hi) (h64 : x.hi < 64) (w j : Nat)
    (h : d.isSet y w j = true) : (d.raise x w j).isSet y w j = true := by
  rw [isSet_eq_fld, bne_iff_ne] at h ⊢
  obtain ⟨i, hi⟩ : ∃ i, bit (d.fld y w j) i = true := by
    by_contra hne
    exact h (Nat.eq_of_testBit_eq fun i => by
      rw [Nat.zero_testBit]
      exact Bool.eq_false_iff.mpr fun hb => hne ⟨i, hb⟩)
  have hbit : bit ((d.raise x w j).fld y w j) i = true := by
    rw [bit_fld] at hi ⊢
    rw [hr] at hi ⊢
    rw [raise_eq_setFld, bit_rd_setFld d (by omega) h64]
    split
    · rw [Bool.and_eq_true] at hi
      have hz : y.lo + i - x.lo = 0 := by omega
      rw [hz, hi.1]; rfl
    · exact hi
  intro h0
  rw [h0] at hbit
  simp [bit] at hbit

/-! ### Addresses -/

/-- The registers that an event may change stand in windows 0x40 and 0x41. -/
theorem not_mail_of_lt {k : Nat} (h : k < 0x40000000) : k ∉ Claims.mailKeys := fun hm => by
  have hall : ∀ x ∈ Claims.mailKeys, 0x40000000 ≤ x := by decide
  exact absurd (hall k hm) (by omega)

/-! ### Runs of stores -/

theorem rd_foldl_wr_other (r : Reg) (w b : Nat) (v : Nat → Nat) {r' : Reg} {w' j' : Nat} (h : ∀ i, r'.key w' j' ≠ r.key w (b + i)) :
    ∀ (l : List Nat) (d : Dev), (l.foldl (fun d i => d.wr r w (b + i) (v i)) d).rd r' w' j' = d.rd r' w' j'
  | [], _ => rfl
  | i :: l, d => by rw [List.foldl_cons, rd_foldl_wr_other r w b v h l, rd_wr_other d _ (h i)]

/-- A register of a run reads as what was stored in it. -/
theorem rd_foldl_wr (r : Reg) (w b : Nat) (v : Nat → Nat) (hs : 0 < r.row.stride) (d : Dev) (n : Nat) : ∀ i < n,
    ((List.range n).foldl (fun d i => d.wr r w (b + i) (v i)) d).rd r w (b + i) = v i % 2 ^ 64 := by
  induction n with
  | zero => intro i hi; omega
  | succ n ih =>
    intro i hi
    rw [List.range_succ, List.foldl_append, List.foldl_cons, List.foldl_nil]
    by_cases hin : i = n
    · rw [hin]; exact rd_wr _ r w _ _
    · have hne : r.key w (b + i) ≠ r.key w (b + n) := fun hk => by
        have := Nat.eq_of_mul_eq_mul_left hs (Nat.add_left_cancel hk)
        omega
      rw [rd_wr_other _ _ hne, ih i (by omega)]

/-! ### Byte strings -/

theorem length_leBytes : ∀ (n v : Nat), (leBytes n v).length = n
  | 0, _ => rfl
  | n + 1, v => by rw [leBytes, List.length_cons, length_leBytes n]

theorem length_wordBytes (l : List Nat) : (wordBytes l).length = 8 * l.length := by
  induction l with
  | nil => rfl
  | cons x l ih =>
    rw [wordBytes, List.flatMap_cons, List.length_append, length_leBytes, ← wordBytes, ih, List.length_cons]
    omega

theorem leNat_lt : ∀ bs : List Byte, leNat bs < 256 ^ bs.length
  | [] => by decide
  | b :: bs => by
    have hb := b.isLt
    have ih := leNat_lt bs
    rw [leNat, List.length_cons, Nat.pow_succ]
    omega

theorem field_lt (bs : List Byte) (off n : Nat) : field bs off n < 256 ^ n :=
  Nat.lt_of_lt_of_le (leNat_lt _) (Nat.pow_le_pow_right (by decide) (by rw [List.length_take]; omega))

/-- What a store outside every request leaves at any address. -/
theorem cell_pokeRange (d : Dev) (a : Nat) (bs : List Byte) (x : Nat) :
    (d.pokeRange a bs).cell x = if a ≤ x ∧ x < a + bs.length then bs[x - a]?.getD 0 else d.cell x := by
  have hk : ∀ (bs : List Byte) (k : Nat) (d : Dev), ((bs.zipIdx k).foldl (fun d x => (d.setCell (a + x.2) x.1).setPoison (a + x.2) false) d).cell x =
      if a + k ≤ x ∧ x < a + k + bs.length then bs[x - (a + k)]?.getD 0 else d.cell x := fun bs => by
    induction bs with
    | nil => intro k d; rw [if_neg (by simp)]; rfl
    | cons b bs ih =>
      intro k d
      rw [List.zipIdx_cons, List.foldl_cons, ih (k + 1), List.length_cons]
      by_cases hx : x = a + k
      · subst hx
        rw [if_neg (by omega), if_pos (by omega), Nat.sub_self]
        exact cell_setCell d (a + k) b
      · by_cases hin : a + (k + 1) ≤ x ∧ x < a + (k + 1) + bs.length
        · have hidx : x - (a + k) = x - (a + (k + 1)) + 1 := by omega
          rw [if_pos hin, if_pos (by omega), hidx, List.getElem?_cons_succ]
        · rw [if_neg hin, if_neg (by omega)]
          exact cell_setCell_other d b hx
  exact hk bs 0 d

theorem pokeRange_frame (d : Dev) (a : Nat) (bs : List Byte) : d.pokeRange a bs = { d with mem := (d.pokeRange a bs).mem } := by
  have hk : ∀ (l : List (Byte × Nat)) (d : Dev), l.foldl (fun d x => (d.setCell (a + x.2) x.1).setPoison (a + x.2) false) d =
      { d with mem := (l.foldl (fun d x => (d.setCell (a + x.2) x.1).setPoison (a + x.2) false) d).mem } := fun l => by
    induction l with
    | nil => exact fun _ => rfl
    | cons x l ih =>
      intro d
      rw [List.foldl_cons, ih]
      rfl
  exact hk _ d

/-! ### Cores changed one after the other -/

/-- Each core of a list without repetition that satisfies a condition is changed, and no other. -/
theorem core_foldl_onCore (p : Core → Prop) [DecidablePred p] (g : Core → Core) : ∀ (l : List Nat) (d : Dev), l.Nodup → ∀ k,
    (l.foldl (fun d c => if p (d.core c) then d.onCore c g else d) d).core k = if k ∈ l ∧ p (d.core k) then g (d.core k) else d.core k
  | [], d, _, k => by simp
  | c :: l, d, h, k => by
    obtain ⟨hc, hl⟩ := List.nodup_cons.mp h
    rw [List.foldl_cons, core_foldl_onCore p g l _ hl]
    by_cases hk : k = c
    · subst hk
      rw [if_neg (fun hx => hc hx.1)]
      by_cases hp : p (d.core k) <;> simp [hp]
    · have hsame : (if p (d.core c) then d.onCore c g else d).core k = d.core k := by
        split
        · exact core_setCore_other d _ hk
        · rfl
      rw [hsame]
      simp [hk]

/-- Changes of cores leave the rest. -/
theorem foldl_onCore_frame (p : Dev → Nat → Prop) [∀ d c, Decidable (p d c)] (g : Core → Core) : ∀ (l : List Nat) (d : Dev),
    l.foldl (fun d c => if p d c then d.onCore c g else d) d =
      { d with cores := (l.foldl (fun d c => if p d c then d.onCore c g else d) d).cores }
  | [], _ => rfl
  | c :: l, d => by
    rw [List.foldl_cons, foldl_onCore_frame p g l]
    split <;> rfl

end Dev

end Sys2Proof.Machine
end

section
/-!
PROOFS. Fatal faults and page faults: the record, its counters, the context's state and its cores
(08_jobs_contexts_and_translation.md R303-R309).
-/

namespace Sys2Proof.Machine

open Sys2Proof.Claims

namespace Dev

/-! ### A record posted -/

/-- The device `e` is `d` but for memory, registers and the records that wait. -/
def RecordOnly (d e : Dev) : Prop := e = { d with mem := e.mem, regs := e.regs, pendingRecs := e.pendingRecs }

theorem RecordOnly.trans {d e f : Dev} (h : RecordOnly d e) (k : RecordOnly e f) : RecordOnly d f := by
  unfold RecordOnly at h k ⊢
  rw [k, h]

theorem RecordOnly.ctxs {d e : Dev} (h : RecordOnly d e) : e.ctxs = d.ctxs := by rw [h]

theorem RecordOnly.cores {d e : Dev} (h : RecordOnly d e) : e.cores = d.cores := by rw [h]

theorem RecordOnly.recSeq {d e : Dev} (h : RecordOnly d e) : e.recSeq = d.recSeq := by rw [h]

theorem ringWrite_recordOnly (d : Dev) (bs : List Byte) : RecordOnly d (d.ringWrite bs) := by
  unfold ringWrite
  dsimp only
  rw [pokeRange_frame]
  rfl

theorem postRecord_recordOnly (d : Dev) (bs : List Byte) : RecordOnly d (d.postRecord bs) := by
  unfold postRecord
  split
  · rfl
  · exact ringWrite_recordOnly d bs

theorem rd_ringWrite (d : Dev) (bs : List Byte) {r : Reg} {w j : Nat} (h : r.key w j ≠ Reg.CTX_RING_PTR.key 0 0) :
    (d.ringWrite bs).rd r w j = d.rd r w j := by
  unfold ringWrite
  dsimp only
  rw [rd_setFld_other _ F.CTX_RING_PTR_tail _ h, pokeRange_frame]
  rfl

/-- A record changes only the ring's pointer and the status that shows a stall. -/
theorem rd_postRecord (d : Dev) (bs : List Byte) {r : Reg} {w j : Nat} (h : r.key w j ≠ Reg.CTX_RING_PTR.key 0 0)
    (h' : r.key w j ≠ Reg.CTX_ERR_STATUS.key 0 0) : (d.postRecord bs).rd r w j = d.rd r w j := by
  unfold postRecord
  split
  · exact rd_raise_other _ F.CTX_ERR_STATUS_ring_stall h'
  · exact rd_ringWrite d bs h

theorem isSet_fatal_postRecord {d : Dev} (bs : List Byte) (h : d.isSet F.CTX_ERR_STATUS_fatal 0 0 = true) :
    (d.postRecord bs).isSet F.CTX_ERR_STATUS_fatal 0 0 = true := by
  unfold postRecord
  split
  · exact isSet_raise_of_isSet (x := F.CTX_ERR_STATUS_ring_stall) (y := F.CTX_ERR_STATUS_fatal) _ rfl rfl (by decide) 0 0 h
  · rw [isSet_eq_of_rd (rd_ringWrite d bs (by decide))]
    exact h

/-- A record goes to the ring's tail while it has space and no record waits. -/
theorem postRecord_ring {d : Dev} (bs : List Byte) (hf : d.ringFull = false) (hp : d.pendingRecs = []) :
    d.postRecord bs = d.ringWrite bs := by
  unfold postRecord
  rw [hf, hp]
  rfl

theorem tail_ringWrite (d : Dev) (bs : List Byte) :
    (d.ringWrite bs).fld F.CTX_RING_PTR_tail 0 0 = (d.fld F.CTX_RING_PTR_tail 0 0 + 1) % 256 := by
  have h := fld_setFld (d.pokeRange (d.fld F.CTX_RING_BASE_base * 2 ^ 14 + 64 * d.fld F.CTX_RING_PTR_tail) bs)
    (x := F.CTX_RING_PTR_tail) (by decide) (by decide) 0 0 ((d.fld F.CTX_RING_PTR_tail + 1) % 256)
  exact h.trans (Nat.mod_mod _ 256)

theorem cell_ringWrite (d : Dev) (bs : List Byte) (i : Nat) (hi : i < bs.length) :
    (d.ringWrite bs).cell (d.fld F.CTX_RING_BASE_base * 2 ^ 14 + 64 * d.fld F.CTX_RING_PTR_tail + i) = bs[i]?.getD 0 := by
  have h := cell_pokeRange d (d.fld F.CTX_RING_BASE_base * 2 ^ 14 + 64 * d.fld F.CTX_RING_PTR_tail) bs
    (d.fld F.CTX_RING_BASE_base * 2 ^ 14 + 64 * d.fld F.CTX_RING_PTR_tail + i)
  rw [if_pos (by omega), Nat.add_sub_cancel_left] at h
  exact h

theorem length_toBytes (f : FaultInfo) (kind time device seq : Nat) : (f.toBytes kind time device seq).length = 64 :=
  length_wordBytes _

/-! ### A record formed, counted and posted -/

/-- What a fatal fault does before the context's state: the record formed, counted and posted (R304, R306). -/
def recordFatal (d : Dev) (f : FaultInfo) : Dev :=
  ((((d.formRecord f 0).2.bump F.CTX_FAULT_CNT_fatal 0 f.ctx 1).raise F.CTX_ERR_STATUS_fatal).raiseIf (f.cause == 0x0B)
    F.CTX_ERR_STATUS_poison).postRecord (d.formRecord f 0).1

theorem recordFatal_recordOnly (d : Dev) (f : FaultInfo) : RecordOnly (d.formRecord f 0).2 (d.recordFatal f) := by
  have hcount : RecordOnly (d.formRecord f 0).2 (((d.formRecord f 0).2.bump F.CTX_FAULT_CNT_fatal 0 f.ctx 1).raise F.CTX_ERR_STATUS_fatal) :=
    rfl
  refine .trans (.trans hcount ?_) (postRecord_recordOnly _ _)
  unfold raiseIf
  split
  · rfl
  · rfl

/-- The cores of a context stopped (R307). -/
def stopCores (d : Dev) (n : Nat) : Dev :=
  (List.range 4).foldl (fun d c => if (d.core c).ctx = some n then d.onCore c (fun k => { k with live := false }) else d) d

theorem fatal_eq (d : Dev) (f : FaultInfo) (h : (d.ctx f.ctx).st ≠ .faulted) (h' : (d.ctx f.ctx).st ≠ .stopping) : d.fatal f =
    ((((d.recordFatal f).keepRecord f.ctx (d.formRecord f 0).1).setCtx f.ctx { d.ctx f.ctx with st := .faulted, pageFaults := [] }).stopCores
      f.ctx).contextEvent f.ctx 0x8003 (d.formRecord f 0).1 := by
  have hctx : (d.recordFatal f).ctx f.ctx = d.ctx f.ctx := by
    rw [ctx, recordFatal_recordOnly]
    rfl
  unfold fatal
  dsimp only
  rw [← recordFatal, hctx]
  rw [if_neg (not_or_intro h h')]
  rfl

/-! ### What a fatal fault leaves -/

theorem rd_keepRecord (d : Dev) (n : Nat) (bs : List Byte) {w : Nat} (hw : w < 8) :
    (d.keepRecord n bs).rd .CTX_FREC 0 (8 * n + w) = field bs (8 * w) 8 := by
  unfold keepRecord
  rw [rd_foldl_wr .CTX_FREC 0 (8 * n) (fun w => field bs (8 * w) 8) (by decide) d 8 w hw]
  exact Nat.mod_eq_of_lt (field_lt _ _ 8)

theorem rd_keepRecord_other (d : Dev) (n : Nat) (bs : List Byte) {r : Reg} {w j : Nat} (h : ∀ i, r.key w j ≠ Reg.CTX_FREC.key 0 (8 * n + i)) :
    (d.keepRecord n bs).rd r w j = d.rd r w j := rd_foldl_wr_other .CTX_FREC 0 (8 * n) (fun w => field bs (8 * w) 8) h _ d

theorem mailOnly_contextEvent_ctx (d : Dev) (n code : Nat) (body : List Byte) (k : Nat) : (d.contextEvent n code body).ctx k = d.ctx k := by
  rw [ctx, (mailOnly_contextEvent d n code body).1]
  rfl

theorem core_stopCores (d : Dev) (n k : Nat) : (d.stopCores n).core k =
    if k ∈ List.range 4 ∧ (d.core k).ctx = some n then { d.core k with live := false } else d.core k :=
  core_foldl_onCore (fun x => x.ctx = some n) (fun k => { k with live := false }) (List.range 4) d (by decide) k

theorem stopCores_frame (d : Dev) (n : Nat) : d.stopCores n = { d with cores := (d.stopCores n).cores } :=
  foldl_onCore_frame (fun d c => (d.core c).ctx = some n) _ _ d

@[simp] theorem rd_stopCores (d : Dev) (n : Nat) (r : Reg) (w j : Nat) : (d.stopCores n).rd r w j = d.rd r w j := by rw [stopCores_frame]; rfl

@[simp] theorem rd_setCtx (d : Dev) (n : Nat) (x : Ctx) (r : Reg) (w j : Nat) : (d.setCtx n x).rd r w j = d.rd r w j := rfl

/-- The registers that the record of a fatal fault leaves: all but its counter, the ring's pointer and the status. -/
theorem rd_recordFatal (d : Dev) (f : FaultInfo) {r : Reg} {w j : Nat} (hp : r.key w j ≠ Reg.CTX_RING_PTR.key 0 0)
    (hs : r.key w j ≠ Reg.CTX_ERR_STATUS.key 0 0) (hc : r.key w j ≠ Reg.CTX_FAULT_CNT.key 0 f.ctx) : (d.recordFatal f).rd r w j = d.rd r w j := by
  have hraise : ∀ (e : Dev) (c : Bool), (e.raiseIf c F.CTX_ERR_STATUS_poison).rd r w j = e.rd r w j := fun e c => by
    unfold raiseIf
    split
    · exact rd_raise_other e F.CTX_ERR_STATUS_poison hs
    · rfl
  unfold recordFatal
  rw [rd_postRecord _ _ hp hs, hraise, rd_raise_other _ F.CTX_ERR_STATUS_fatal hs, rd_bump_other _ F.CTX_FAULT_CNT_fatal 1 hc]
  rfl

theorem isSet_fatal_recordFatal (d : Dev) (f : FaultInfo) : (d.recordFatal f).isSet F.CTX_ERR_STATUS_fatal 0 0 = true := by
  have hraised := isSet_raise ((d.formRecord f 0).2.bump F.CTX_FAULT_CNT_fatal 0 f.ctx 1) (x := F.CTX_ERR_STATUS_fatal) (by decide)
    (by decide) 0 0
  refine isSet_fatal_postRecord _ ?_
  unfold raiseIf
  split
  · exact isSet_raise_of_isSet (x := F.CTX_ERR_STATUS_poison) (y := F.CTX_ERR_STATUS_fatal) _ rfl rfl (by decide) 0 0 hraised
  · exact hraised

/-- The count of fatal records goes up by one to its largest value. -/
theorem count_recordFatal (d : Dev) (f : FaultInfo) (hn : f.ctx < 16) :
    (d.recordFatal f).fld F.CTX_FAULT_CNT_fatal 0 f.ctx = min (d.fld F.CTX_FAULT_CNT_fatal 0 f.ctx + 1) (2 ^ 32 - 1) := by
  have hptr : Reg.CTX_FAULT_CNT.key 0 f.ctx ≠ Reg.CTX_RING_PTR.key 0 0 := by simp only [Reg.key, Reg.row]; omega
  have hsts : Reg.CTX_FAULT_CNT.key 0 f.ctx ≠ Reg.CTX_ERR_STATUS.key 0 0 := by simp only [Reg.key, Reg.row]; omega
  have hraise : ∀ x : Field, x.reg = .CTX_ERR_STATUS → ∀ e : Dev,
      (e.raise x 0 0).fld F.CTX_FAULT_CNT_fatal 0 f.ctx = e.fld F.CTX_FAULT_CNT_fatal 0 f.ctx := fun x hx e =>
    fld_raise_other e (by rw [hx]; exact hsts)
  have hpost : (d.recordFatal f).fld F.CTX_FAULT_CNT_fatal 0 f.ctx = ((d.formRecord f 0).2.bump F.CTX_FAULT_CNT_fatal 0 f.ctx 1).fld
      F.CTX_FAULT_CNT_fatal 0 f.ctx := by
    refine (fld_congr (x := F.CTX_FAULT_CNT_fatal) (rd_postRecord _ _ hptr hsts)).trans ?_
    unfold raiseIf
    split
    · rw [hraise F.CTX_ERR_STATUS_poison rfl, hraise F.CTX_ERR_STATUS_fatal rfl]
    · rw [hraise F.CTX_ERR_STATUS_fatal rfl]
  rw [hpost, fld_bump _ (by decide) (by decide)]
  rfl

/-- While the ring has space and no record waits, the record stands at the ring's tail. -/
theorem ring_recordFatal {d : Dev} (f : FaultInfo) (hf : d.ringFull = false) (hp : d.pendingRecs = []) (hn : f.ctx < 16) :
    (d.recordFatal f).fld F.CTX_RING_PTR_tail = (d.fld F.CTX_RING_PTR_tail + 1) % 256 ∧
      ∀ i < 64, (d.recordFatal f).cell (d.fld F.CTX_RING_BASE_base * 2 ^ 14 + 64 * d.fld F.CTX_RING_PTR_tail + i) =
        (f.toBytes 0 d.now d.deviceId d.recSeq)[i]?.getD 0 := by
  let e := (((d.formRecord f 0).2.bump F.CTX_FAULT_CNT_fatal 0 f.ctx 1).raise F.CTX_ERR_STATUS_fatal).raiseIf (f.cause == 0x0B)
    F.CTX_ERR_STATUS_poison
  have hcnt : Reg.CTX_RING_PTR.key 0 0 ≠ Reg.CTX_FAULT_CNT.key 0 f.ctx ∧ Reg.CTX_RING_BASE.key 0 0 ≠ Reg.CTX_FAULT_CNT.key 0 f.ctx := by
    constructor <;> simp only [Reg.key, Reg.row] <;> omega
  have hrd : ∀ r : Reg, r.key 0 0 ≠ Reg.CTX_ERR_STATUS.key 0 0 → r.key 0 0 ≠ Reg.CTX_FAULT_CNT.key 0 f.ctx → e.rd r 0 0 = d.rd r 0 0 :=
    fun r hs hc => by
      have hb := rd_bump_other (d.formRecord f 0).2 F.CTX_FAULT_CNT_fatal 1 hc
      show (raiseIf _ _ _).rd r 0 0 = _
      unfold raiseIf
      split
      · rw [rd_raise_other _ F.CTX_ERR_STATUS_poison hs, rd_raise_other _ F.CTX_ERR_STATUS_fatal hs, hb]; rfl
      · rw [rd_raise_other _ F.CTX_ERR_STATUS_fatal hs, hb]; rfl
  have hptr := hrd .CTX_RING_PTR (by decide) hcnt.1
  have htail : e.fld F.CTX_RING_PTR_tail 0 0 = d.fld F.CTX_RING_PTR_tail 0 0 := fld_congr hptr
  have hbase : e.fld F.CTX_RING_BASE_base 0 0 = d.fld F.CTX_RING_BASE_base 0 0 := fld_congr (hrd .CTX_RING_BASE (by decide) hcnt.2)
  have hfull : e.ringFull = false := by
    have hhead : e.fld F.CTX_RING_PTR_head 0 0 = d.fld F.CTX_RING_PTR_head 0 0 := fld_congr hptr
    rw [← hf, ringFull, ringFull, htail, hhead]
  have hpend : e.pendingRecs = [] := by
    rw [← hp]
    show (raiseIf _ _ _).pendingRecs = _
    unfold raiseIf
    split <;> rfl
  have hpost : d.recordFatal f = e.ringWrite (d.formRecord f 0).1 := postRecord_ring _ hfull hpend
  rw [hpost]
  refine ⟨?_, fun i hi => ?_⟩
  · rw [tail_ringWrite, htail]
  · have hlen : (d.formRecord f 0).1.length = 64 := length_toBytes f 0 _ _ _
    rw [← htail, ← hbase]
    exact cell_ringWrite e _ i (by omega)

section

variable {d e : Dev} {n : Nat} {x : Ctx} (h : MailOnly ((d.setCtx n x).stopCores n) e)
include h

theorem ctx_of_stopped (k : Nat) : e.ctx k = if k = n then x else d.ctx k := by
  rw [ctx, h.1, stopCores_frame]
  exact Sp.get_set ctxDefault d.ctxs n k x

theorem core_of_stopped (k : Nat) : e.core k = if k ∈ List.range 4 ∧ (d.core k).ctx = some n then { d.core k with live := false } else d.core k := by
  rw [core, h.1]
  exact core_stopCores (d.setCtx n x) n k

theorem mem_of_stopped : e.mem = d.mem := by rw [h.1, stopCores_frame]; rfl

theorem recSeq_of_stopped : e.recSeq = d.recSeq := by rw [h.1, stopCores_frame]; rfl

end

section

variable {d : Dev} {f : FaultInfo} (h : (d.ctx f.ctx).st ≠ .faulted) (h' : (d.ctx f.ctx).st ≠ .stopping)

/-- The device with the record of a fatal fault, before the context's state. -/
def recorded (d : Dev) (f : FaultInfo) : Dev := (d.recordFatal f).keepRecord f.ctx (d.formRecord f 0).1

theorem recorded_ctxs (d : Dev) (f : FaultInfo) : (d.recorded f).ctxs = d.ctxs :=
  ((keepRecord_control _ _ _).ctxs).trans (recordFatal_recordOnly d f).ctxs

theorem recorded_cores (d : Dev) (f : FaultInfo) : (d.recorded f).cores = d.cores :=
  ((keepRecord_control _ _ _).cores).trans (recordFatal_recordOnly d f).cores

theorem recorded_recSeq (d : Dev) (f : FaultInfo) : (d.recorded f).recSeq = (d.recSeq + 1) % 2 ^ 32 := by
  have hkeep : (d.recorded f).recSeq = (d.recordFatal f).recSeq := by
    rw [show d.recorded f = _ from keepRecord_control (d.recordFatal f) f.ctx (d.formRecord f 0).1]
  exact hkeep.trans (recordFatal_recordOnly d f).recSeq

include h h'

/-- All but mail of a fatal fault: the event comes last. -/
theorem fatal_mailOnly : MailOnly (((d.recorded f).setCtx f.ctx { d.ctx f.ctx with st := .faulted, pageFaults := [] }).stopCores f.ctx)
    (d.fatal f) := by
  rw [fatal_eq d f h h']
  exact mailOnly_contextEvent _ _ _ _

theorem ctx_fatal (n : Nat) : (d.fatal f).ctx n = if n = f.ctx then { d.ctx f.ctx with st := .faulted, pageFaults := [] } else d.ctx n := by
  have hctx : (d.recorded f).ctx n = d.ctx n := by rw [ctx, recorded_ctxs]; rfl
  rw [ctx_of_stopped (fatal_mailOnly h h'), hctx]

theorem core_fatal (k : Nat) : (d.fatal f).core k =
    if k ∈ List.range 4 ∧ (d.core k).ctx = some f.ctx then { d.core k with live := false } else d.core k := by
  have hcore : (d.recorded f).core k = d.core k := by rw [core, recorded_cores]; rfl
  rw [core_of_stopped (fatal_mailOnly h h'), hcore]

theorem cell_fatal (a : Nat) : (d.fatal f).cell a = (d.recordFatal f).cell a := by
  have hmem : (d.recorded f).mem = (d.recordFatal f).mem := (keepRecord_control _ _ _).mem
  rw [cell, mem_of_stopped (fatal_mailOnly h h'), hmem]
  rfl

theorem recSeq_fatal : (d.fatal f).recSeq = (d.recSeq + 1) % 2 ^ 32 := by
  rw [recSeq_of_stopped (fatal_mailOnly h h'), recorded_recSeq]

theorem rd_fatal {r : Reg} {w j : Nat} (hm : r.key w j ∉ mailKeys) :
    (d.fatal f).rd r w j = (d.recorded f).rd r w j := by
  rw [(fatal_mailOnly h h').2 r w j hm, rd_stopCores, rd_setCtx]

theorem rd_fatal_other {r : Reg} {w j : Nat} (hm : r.key w j ∉ mailKeys) (hk : ∀ i, r.key w j ≠ Reg.CTX_FREC.key 0 (8 * f.ctx + i)) :
    (d.fatal f).rd r w j = (d.recordFatal f).rd r w j := by
  rw [rd_fatal h h' hm, recorded, rd_keepRecord_other _ _ _ hk]

end

end Dev

end Sys2Proof.Machine

namespace Sys2Proof.Proofs

open Sys2Proof.Machine Sys2Proof.Claims

/-- Settles O21: the record is counted and posted, kept in CTX_FREC, and the context and its cores stop; the event changes mail alone. -/
theorem fatalFaultRecorded : Obligations.FatalFaultRecorded := by
  intro d f hn hfaulted hstopping
  dsimp only
  have hctx := Dev.ctx_fatal hfaulted hstopping
  have hcnt : Reg.CTX_FAULT_CNT.key 0 f.ctx < 0x40000000 := by simp only [Reg.key, Reg.row]; omega
  refine ⟨by rw [hctx, if_pos rfl], by rw [hctx, if_pos rfl], fun n hne => by rw [hctx, if_neg hne], fun c hc hx => ?_, fun c hx => ?_,
    Dev.recSeq_fatal hfaulted hstopping, ?_, ?_, fun w hw => ?_, fun hf hp => ⟨?_, fun i hi => ?_⟩⟩
  · rw [Dev.core_fatal hfaulted hstopping, if_pos ⟨List.mem_range.mpr hc, hx⟩]
  · rw [Dev.core_fatal hfaulted hstopping, if_neg (fun h => hx h.2)]
  · have hrd := Dev.rd_fatal_other hfaulted hstopping (r := .CTX_ERR_STATUS) (w := 0) (j := 0) (by decide) fun i => by
      simp only [Reg.key, Reg.row]; omega
    exact (Dev.isSet_eq_of_rd (x := F.CTX_ERR_STATUS_fatal) hrd).trans (Dev.isSet_fatal_recordFatal d f)
  · have hrd := Dev.rd_fatal_other hfaulted hstopping (r := .CTX_FAULT_CNT) (w := 0) (j := f.ctx) (Dev.not_mail_of_lt hcnt) fun i => by
      simp only [Reg.key, Reg.row]; omega
    exact (Dev.fld_congr (x := F.CTX_FAULT_CNT_fatal) hrd).trans (Dev.count_recordFatal d f hn)
  · have hlow : Reg.CTX_FREC.key 0 (8 * f.ctx + w) < 0x40000000 := by simp only [Reg.key, Reg.row]; omega
    rw [Dev.rd_fatal hfaulted hstopping (Dev.not_mail_of_lt hlow)]
    exact Dev.rd_keepRecord _ f.ctx _ hw
  · have hrd := Dev.rd_fatal_other hfaulted hstopping (r := .CTX_RING_PTR) (w := 0) (j := 0) (by decide) fun i => by
      simp only [Reg.key, Reg.row]; omega
    exact (Dev.fld_congr (x := F.CTX_RING_PTR_tail) hrd).trans (Dev.ring_recordFatal f hf hp hn).1
  · rw [Dev.cell_fatal hfaulted hstopping]
    exact (Dev.ring_recordFatal f hf hp hn).2 i hi

end Sys2Proof.Proofs
end

section
/-!
PROOFS. The end of a context's work and the service of its page faults (08_jobs_contexts_and_translation.md R303, R309).
-/

namespace Sys2Proof.Machine

open Sys2Proof.Claims

namespace Dev

/-- The cores of a list serve no context. -/
def freeCores (d : Dev) (l : List Nat) : Dev := l.foldl (fun d c => d.onCore c (fun k => { k with ctx := none })) d

theorem freeCores_eq (d : Dev) (l : List Nat) :
    d.freeCores l = l.foldl (fun d c => if (fun _ => True) (d.core c) then d.onCore c (fun k => { k with ctx := none }) else d) d := by
  simp only [if_true]
  rfl

theorem freeCores_frame (d : Dev) (l : List Nat) : d.freeCores l = { d with cores := (d.freeCores l).cores } := by
  rw [freeCores_eq]
  exact foldl_onCore_frame (fun _ _ => True) _ l d

theorem core_freeCores (d : Dev) {l : List Nat} (h : l.Nodup) (k : Nat) :
    (d.freeCores l).core k = if k ∈ l then { d.core k with ctx := none } else d.core k := by
  rw [freeCores_eq, core_foldl_onCore (fun _ => True) _ l d h k]
  simp

theorem coresOf_nodup (d : Dev) (n : Nat) : (d.coresOf n).Nodup := List.nodup_range.filter _

theorem contextDone_eq {d : Dev} {n : Nat} (hn : n ≠ 0) (hr : (d.ctx n).st = .running) (hd : ∀ c ∈ d.coresOf n, d.coreDone c = true) :
    d.contextDone n = ((d.freeCores (d.coresOf n)).setCtxState n .loaded).contextEvent n 0x8001 (leBytes 8 d.now) := by
  have hnow : ((d.freeCores (d.coresOf n)).setCtxState n .loaded).now = d.now := by rw [freeCores_frame]; rfl
  unfold contextDone
  rw [if_pos ⟨hr, hn, List.all_eq_true.mpr hd⟩]
  dsimp only
  rw [← hnow]
  rfl

/-! ### Page faults -/

/-- An operation that a served page fault had stopped goes on. -/
def resumeOp (served : Nat → Bool) (o : Op) : Op :=
  match o.stopped with
  | some va => if served va then { o with stopped := none } else o
  | none => o

theorem stopped_resumeOp {served : Nat → Bool} {o : Op} {x : Nat} (h : (resumeOp served o).stopped = some x) : served x = false := by
  unfold resumeOp at h
  split at h
  · rename_i va hva
    split at h
    · exact absurd h (by simp)
    · rename_i hs
      rw [hva] at h
      obtain rfl := Option.some.inj h
      exact Bool.eq_false_iff.mpr hs
  · rename_i hn
    rw [hn] at h
    exact absurd h (by simp)

/-- A core of a context whose page fault is served. -/
def resumeCore (served : Nat → Bool) (k : Core) : Core :=
  { k with
    streams := k.streams.map (resumeOp served), held := k.held.map (resumeOp served)
    seqStopped := k.seqStopped.bind (fun va => if served va then none else some va)
    hoard := { k.hoard with stopped := k.hoard.stopped.bind (fun va => if served va then none else some va) } }

/-- The cores of a context whose page fault is served. -/
def resumeCores (d : Dev) (n : Nat) (served : Nat → Bool) : Dev :=
  (List.range 4).foldl (fun d c => if (d.core c).ctx = some n then d.onCore c (resumeCore served) else d) d

theorem core_resumeCores (d : Dev) (n : Nat) (served : Nat → Bool) (k : Nat) : (d.resumeCores n served).core k =
    if k ∈ List.range 4 ∧ (d.core k).ctx = some n then resumeCore served (d.core k) else d.core k :=
  core_foldl_onCore (fun x => x.ctx = some n) (resumeCore served) (List.range 4) d (by decide) k

theorem resumeCores_frame (d : Dev) (n : Nat) (served : Nat → Bool) :
    d.resumeCores n served = { d with cores := (d.resumeCores n served).cores } :=
  foldl_onCore_frame (fun d c => (d.core c).ctx = some n) _ _ d

theorem resumeUnits_eq (d : Dev) (n : Nat) (served : Nat → Bool) : d.resumeUnits n served =
    (d.resumeCores n served).onCtx n (fun x => { x with
      pageFaults := x.pageFaults.filter (fun f => !served f.vaddr)
      buckets := x.buckets.map (fun (b, k) => (b, { k with stopped := k.stopped.bind (fun va => if served va then none else some va) })) }) :=
  rfl

theorem core_resumeUnits (d : Dev) (n : Nat) (served : Nat → Bool) (k : Nat) :
    (d.resumeUnits n served).core k = (d.resumeCores n served).core k := rfl

theorem mem_resumeUnits (d : Dev) (n : Nat) (served : Nat → Bool) : (d.resumeUnits n served).mem = d.mem := by
  rw [resumeUnits_eq, resumeCores_frame]; rfl

theorem pageFaults_resumeUnits (d : Dev) (n : Nat) (served : Nat → Bool) :
    ((d.resumeUnits n served).ctx n).pageFaults = (d.ctx n).pageFaults.filter (fun f => !served f.vaddr) := by
  rw [resumeUnits_eq, onCtx_eq, ctx_setCtx, resumeCores_frame]
  rfl

end Dev

end Sys2Proof.Machine

namespace Sys2Proof.Proofs

open Sys2Proof.Machine Sys2Proof.Claims

/-- Settles O11: the cores of the job are freed, the context is loaded, and the event follows. -/
theorem contextDoneLoads : Obligations.ContextDoneLoads := by
  intro s n ha hn hr hd
  have hne : n.val ≠ 0 := fun h => hn (Fin.ext h)
  have hcores : ∀ c, (((found s).freeCores ((found s).coresOf n)).setCtxState n .loaded).core c =
      if c ∈ s.dev.coresOf n then { s.dev.core c with ctx := none } else s.dev.core c :=
    Dev.core_freeCores (found s) (Dev.coresOf_nodup (found s) n)
  have hframe := Dev.freeCores_frame (found s) ((found s).coresOf n)
  have hctx : ∀ m, ((found s).freeCores ((found s).coresOf n)).ctx m = s.dev.ctx m := fun m => by rw [hframe]; rfl
  refine ⟨((found s).freeCores ((found s).coresOf n)).setCtxState n .loaded, ?_, ?_, fun m hm => ?_, fun c hc => ?_, fun c hc => ?_, ?_, ?_, ?_⟩
  · have heq := Dev.contextDone_eq (d := found s) hne hr hd
    exact (State.apply_awake ha _ _).trans (by rw [heq]; rfl)
  · rw [Dev.setCtxState, Dev.onCtx_eq, Dev.ctx_setCtx]
  · exact (Dev.ctx_setCtx_other _ _ hm).trans (hctx m)
  · rw [hcores, if_pos hc]
  · rw [hcores, if_neg hc]
  · rw [hframe]; rfl
  · rw [hframe]; rfl
  · rw [hframe]; rfl

/-- Settles O20: a resume frees the units that wait for the page, and a deadline makes the first fault of its address fatal. -/
theorem pageFaultService : Obligations.PageFaultService := by
  refine ⟨fun s n va ha ht hr hp => ?_, fun s n va f ha hr hf => ?_⟩
  · have heq : (found s).pageFaultResume n va.toNat = (found s).resumeUnits n (fun x => x / 4096 = va.toNat / 4096) := if_pos ⟨hr, hp⟩
    have hcore : ∀ c, (Dev.settle s.dev ((found s).pageFaultResume n va.toNat)).core c =
        if c ∈ List.range 4 ∧ (s.dev.core c).ctx = some n.val then Dev.resumeCore (fun x => x / 4096 = va.toNat / 4096) (s.dev.core c)
        else s.dev.core c := fun c => by
      rw [Dev.core_settle, heq, Dev.core_resumeUnits]
      exact Dev.core_resumeCores (found s) n _ c
    refine ⟨_, State.applyCompute_awake ha ht _ _, fun c hc hx o ho x hs => ?_, ?_, fun c hx => ?_, ?_⟩
    · rw [left] at ho
      rw [hcore, if_pos ⟨List.mem_range.mpr hc, hx⟩] at ho
      obtain ho | ho := List.mem_append.mp ho <;> obtain ⟨o', -, rfl⟩ := List.mem_map.mp ho <;>
        exact of_decide_eq_false (Dev.stopped_resumeOp hs)
    · rw [left, Dev.ctx_settle, heq, Dev.pageFaults_resumeUnits]
      simp only [decide_not]
      rfl
    · rw [left, hcore, if_neg (fun h => hx h.2)]
    · rw [left, Dev.settle_mem, heq, Dev.mem_resumeUnits]
      rfl
  · have heq : (found s).faultDeadline n va.toNat = (found s).fatal f := by
      have hfind : ((found s).ctx n).pageFaults.find? (fun f => f.vaddr = va.toNat) = some f := hf
      unfold Dev.faultDeadline
      rw [hfind]
      exact if_pos hr
    exact (State.apply_awake ha _ _).trans (by rw [heq])

end Sys2Proof.Proofs
end

section
/-!
PROOFS. Requests for slots, and the scrub of SRAM and the patrol of DDR5 (06_memory_hierarchy.md R208, R226, R233).
-/

namespace Sys2Proof.Machine

open Sys2Proof.Claims

namespace Dev

/-! ### Slot-state entries -/

theorem slot_setSlot (d : Dev) (k x : Nat) (v : SlotState) : (d.setSlot k v).slot x = if x = k then v else d.slot x :=
  Sp.get_set slotDefault d.mem.slots k x v

/-- A change of each entry of a list without repetition. -/
theorem slot_foldl {g : Dev → Nat → Dev} {u : SlotState → SlotState} (hg : ∀ d k x, (g d k).slot x = if x = k then u (d.slot k) else d.slot x) :
    ∀ (l : List Nat) (d : Dev), l.Nodup → ∀ x, (l.foldl g d).slot x = if x ∈ l then u (d.slot x) else d.slot x
  | [], d, _, x => by simp
  | k :: l, d, h, x => by
    obtain ⟨hk, hl⟩ := List.nodup_cons.mp h
    rw [List.foldl_cons, slot_foldl hg l _ hl, hg]
    by_cases hx : x = k
    · subst hx; simp [hk]
    · simp [hx]

/-- Requests for the entries of a slot, each of which is served. -/
theorem foldl_served {P : Dev → Nat → Prop} {f : Dev → Nat → Nat × Dev} {g : Dev → Nat → Dev} (hf : ∀ d k, P d k → f d k = (0, g d k))
    (hP : ∀ d k x, x ≠ k → P d x → P (g d k) x) : ∀ (l : List Nat) (d : Dev), l.Nodup → (∀ x ∈ l, P d x) →
    l.foldl (fun (acc : Nat × Dev) k => let (r, d) := f acc.2 k; (max acc.1 r, d)) (0, d) = (0, l.foldl g d)
  | [], _, _, _ => rfl
  | k :: l, d, h, hl => by
    obtain ⟨hk, hn⟩ := List.nodup_cons.mp h
    rw [List.foldl_cons, hf d k (hl k (by simp))]
    exact foldl_served hf hP l (g d k) hn fun x hx => hP d k x (fun e => hk (e ▸ hx)) (hl x (by simp [hx]))

theorem keys_nodup (e : QEntry) (c k : Nat) : (e.keys c k).Nodup := by
  unfold QEntry.keys
  dsimp only
  split
  · simp
  · split
    · simp
    · split
      · simp
      · simp

theorem fenced_of_no_reset {d : Dev} (h : d.reset = none) (k : Bool) : d.fenced k = false := by rw [fenced, h]

/-- A fill advance of an entry that is not full. -/
def filled (upTo len : Nat) (poison : Bool) (x : SlotState) : SlotState :=
  { x with fill := min len (max x.fill upTo), full := min len (max x.fill upTo) == len, poison := x.poison || poison, src := none }

theorem serveFill_ok {d : Dev} {rq : Req} {key : Nat} (upTo len : Nat) (poison k : Bool) (hr : d.reset = none) (he : d.env.slotError = false)
    (ho : (d.slot key).owner = rq.ctx) (hf : (d.slot key).full = false) :
    d.serveFill rq key upTo len poison k = (0, d.setSlot key (filled upTo len poison (d.slot key))) := by
  unfold serveFill
  dsimp only
  rw [he, if_neg Bool.false_ne_true, fenced_of_no_reset hr, if_neg Bool.false_ne_true, if_neg (fun h => h ho)]
  unfold fillTo
  dsimp only
  rw [hf, if_neg Bool.false_ne_true]
  rfl

theorem serveDrain_ok {d : Dev} {rq : Req} {key : Nat} (k : Bool) (hr : d.reset = none) (ho : (d.slot key).owner = rq.ctx) :
    d.serveDrain rq key k = (0, d.drainKey key) := by
  unfold serveDrain
  rw [fenced_of_no_reset hr, if_neg Bool.false_ne_true, if_neg (fun h => h ho)]

theorem slot_drainKey (d : Dev) (k x : Nat) : (d.drainKey k).slot x = if x = k then { owner := (d.slot k).owner } else d.slot x := by
  rw [← slot_setSlot d k x { owner := (d.slot k).owner }]
  unfold drainKey
  dsimp only
  split <;> rfl

/-- The device `e` is `d` but for slot-state entries and arrays. -/
def SlotsOnly (d e : Dev) : Prop := e = { d with mem := { d.mem with slots := e.mem.slots }, arrays := e.arrays }

theorem SlotsOnly.foldl {g : Dev → Nat → Dev} (h : ∀ d k, SlotsOnly d (g d k)) : ∀ (l : List Nat) (d : Dev), SlotsOnly d (l.foldl g d)
  | [], _ => rfl
  | k :: l, d => by
    have hl := SlotsOnly.foldl h l (g d k)
    have hk := h d k
    rw [List.foldl_cons]
    unfold SlotsOnly at hl hk ⊢
    rw [hl, hk]

theorem drainKey_slotsOnly (d : Dev) (k : Nat) : SlotsOnly d (d.drainKey k) := by
  unfold drainKey
  dsimp only
  split <;> rfl

/-- FILL_ADVANCE for a slot whose entries are the requester's and not full. -/
theorem fillAdvance_ok {d : Dev} {rq : Req} {c q slot : Nat} (upTo : Nat) (poison k : Bool) {e : QEntry} (hr : d.reset = none)
    (hs : d.env.slotError = false) (hq : d.queue c q = some e) (hk : slot < e.count) (ho : ∀ x ∈ e.keys c slot, (d.slot x).owner = rq.ctx)
    (hf : ∀ x ∈ e.keys c slot, (d.slot x).full = false) :
    d.fillAdvance rq c q slot upTo poison k =
      ((e.keys c slot).foldl (fun d x => d.setSlot x (filled upTo e.slotLen poison (d.slot x))) d).emit (.response rq.master 0 []) := by
  have hfold := foldl_served (P := fun d x => d.reset = none ∧ d.env.slotError = false ∧ (d.slot x).owner = rq.ctx ∧ (d.slot x).full = false)
    (f := fun d x => d.serveFill rq x upTo e.slotLen poison k) (g := fun d x => d.setSlot x (filled upTo e.slotLen poison (d.slot x)))
    (fun d x ⟨hr, he, ho, hf⟩ => serveFill_ok upTo e.slotLen poison k hr he ho hf)
    (fun d y x hne ⟨hr, he, ho, hf⟩ => ⟨hr, he, by rw [slot_setSlot, if_neg hne]; exact ho, by rw [slot_setSlot, if_neg hne]; exact hf⟩)
    (e.keys c slot) d (keys_nodup e c slot) fun x hx => ⟨hr, hs, ho x hx, hf x hx⟩
  unfold fillAdvance
  rw [hq]
  dsimp only
  rw [if_pos hk]
  dsimp only at hfold
  rw [hfold]

/-- DRAIN for a slot whose entries are the requester's. -/
theorem drainRequest_ok {d : Dev} {rq : Req} {c q slot : Nat} (k : Bool) {e : QEntry} (hr : d.reset = none) (hq : d.queue c q = some e)
    (hk : slot < e.count) (ho : ∀ x ∈ e.keys c slot, (d.slot x).owner = rq.ctx) :
    d.drainRequest rq c q slot k = ((e.keys c slot).foldl drainKey d).emit (.response rq.master 0 []) := by
  have hfold := foldl_served (P := fun d x => d.reset = none ∧ (d.slot x).owner = rq.ctx)
    (f := fun d x => d.serveDrain rq x k) (g := drainKey) (fun d x ⟨hr, ho⟩ => serveDrain_ok k hr ho)
    (fun d y x hne ⟨hr, ho⟩ => ⟨by rw [drainKey_slotsOnly]; exact hr, by rw [slot_drainKey, if_neg hne]; exact ho⟩)
    (e.keys c slot) d (keys_nodup e c slot) fun x hx => ⟨hr, ho x hx⟩
  unfold drainRequest
  rw [hq]
  dsimp only
  rw [if_pos hk]
  dsimp only at hfold
  rw [hfold]

/-! ### Scrub and patrol -/

@[simp] theorem flipsAt_setFlips (d : Dev) (w x : Nat) (l : List Nat) : (d.setFlips w l).flipsAt x = if x = w then l else d.flipsAt x :=
  Sp.get_set (fun _ => []) d.mem.flips w x l

/-- The device `e` has the wrong bits and the scrub positions of `d`. -/
def SameFlips (d e : Dev) : Prop := e.mem.flips = d.mem.flips ∧ e.mem.scrubAt = d.mem.scrubAt

namespace SameFlips

variable {d e : Dev}

theorem refl (d : Dev) : SameFlips d d := ⟨rfl, rfl⟩

theorem after {f : Dev} (k : SameFlips e f) (h : SameFlips d e) : SameFlips d f := ⟨k.1.trans h.1, k.2.trans h.2⟩

theorem of_mem (h : e.mem = d.mem) : SameFlips d e := ⟨by rw [h], by rw [h]⟩

theorem foldl {β : Type} {f : Dev → β → Dev} (h : ∀ d x, SameFlips d (f d x)) : ∀ (l : List β) (d : Dev), SameFlips d (l.foldl f d)
  | [], d => refl d
  | x :: l, d => after (foldl h l (f d x)) (h d x)

end SameFlips

theorem sameFlips_flipBit (d : Dev) (w i : Nat) : SameFlips d (d.flipBit w i) := by
  unfold flipBit
  split
  · exact ⟨rfl, rfl⟩
  · exact .refl d

theorem sameFlips_countCe (d : Dev) (b : Sram) : SameFlips d (d.countCe b) := .of_mem (by cases b <;> rfl)

theorem sameFlips_countUe (d : Dev) (b : Sram) (rq : Req) (s : Bool) (a : Nat) : SameFlips d (d.countUe b rq s a) := by
  have hcap : (d.captureSram b rq s a).mem = d.mem := by
    cases b <;> unfold captureSram <;> simp only [apply_ite Dev.mem, wr_mem, ite_self]
  refine .of_mem ?_
  rw [← hcap]
  cases b <;> rfl

/-- The read of a word drops its wrong bits, and those of no other word. -/
theorem touchWord_sameFlips (d : Dev) (b : Sram) (rq : Req) (s : Bool) (w : Nat) (h : d.flipsAt w ≠ []) :
    SameFlips (d.setFlips w []) (d.touchWord b rq s w) := by
  have hp : ∀ (e : Dev) (p : Bool), SameFlips e (e.setPoison w p) := fun _ _ => ⟨rfl, rfl⟩
  have hue : SameFlips (d.setFlips w []) (((d.setFlips w []).countUe b rq s w).setPoison w true) :=
    .after (hp _ true) (sameFlips_countUe _ b rq s w)
  have hflip : ∀ l : List Nat, SameFlips (d.setFlips w []) ((l.foldl (fun d i => d.flipBit w i) (d.setFlips w [])).setPoison w false) :=
    fun l => .after (hp _ false) (.foldl (fun d i => sameFlips_flipBit d w i) l _)
  unfold touchWord
  dsimp only
  rw [if_neg h]
  split
  · exact sameFlips_countCe _ b
  · split
    · exact hp _ true
    · split
      · exact hue
      · split
        · exact hflip _
        · split
          · exact hue
          · split
            · exact hue
            · exact .after (sameFlips_countCe _ b) (hflip _)

theorem flipsAt_touchWord (d : Dev) (b : Sram) (rq : Req) (s : Bool) (w x : Nat) :
    (d.touchWord b rq s w).flipsAt x = if x = w then [] else d.flipsAt x := by
  by_cases h : d.flipsAt w = []
  · rw [show d.touchWord b rq s w = d by unfold touchWord; exact if_pos h]
    split
    · rename_i hx; rw [hx]; exact h
    · rfl
  · rw [flipsAt, (touchWord_sameFlips d b rq s w h).1]
    exact flipsAt_setFlips d w x []

theorem scrubAt_touchWord (d : Dev) (b : Sram) (rq : Req) (s : Bool) (w : Nat) : (d.touchWord b rq s w).mem.scrubAt = d.mem.scrubAt := by
  by_cases h : d.flipsAt w = []
  · rw [show d.touchWord b rq s w = d by unfold touchWord; exact if_pos h]
  · rw [(touchWord_sameFlips d b rq s w h).2]; rfl

/-- The words of a block read for its scrub. -/
def scrubRead (b : ScrubBlock) (d : Dev) (w : Nat) : Dev :=
  match b with
  | .die n => d.touchWord (.shm (n / 8)) {} true w
  | .half c _ => d.touchWord (.cmem c) {} true w
  | _ => d

theorem flipsAt_foldl_touchWord (b : Sram) (rq : Req) (s : Bool) (x : Nat) : ∀ (l : List Nat) (d : Dev),
    (x ∈ l ∨ d.flipsAt x = []) → (l.foldl (fun d w => d.touchWord b rq s w) d).flipsAt x = []
  | [], _, h => h.resolve_left (by simp)
  | w :: l, d, h => by
    rw [List.foldl_cons]
    refine flipsAt_foldl_touchWord b rq s x l _ ?_
    rw [flipsAt_touchWord]
    by_cases hx : x = w
    · exact .inr (if_pos hx)
    · rw [if_neg hx]
      exact h.imp_left fun hm => (List.mem_cons.mp hm).resolve_left hx

theorem scrubAt_foldl_touchWord (b : Sram) (rq : Req) (s : Bool) : ∀ (l : List Nat) (d : Dev),
    (l.foldl (fun d w => d.touchWord b rq s w) d).mem.scrubAt = d.mem.scrubAt
  | [], _ => rfl
  | w :: l, d => by rw [List.foldl_cons, scrubAt_foldl_touchWord b rq s l, scrubAt_touchWord]

theorem foldl_touchWord_of_flips {d : Dev} (h : d.mem.flips = []) (b : Sram) (rq : Req) (s : Bool) :
    ∀ l : List Nat, l.foldl (fun d w => d.touchWord b rq s w) d = d
  | [] => rfl
  | w :: l => by
    have hw : d.flipsAt w = [] := by rw [flipsAt, h]; rfl
    rw [List.foldl_cons, show d.touchWord b rq s w = d by unfold touchWord; exact if_pos hw]
    exact foldl_touchWord_of_flips h b rq s l

/-- What a scrub of a block leaves in memory: the device with the words read, and its position. -/
theorem scrub_mem {d : Dev} {b : ScrubBlock} (hr : d.reset = none) (hd : ∀ n, b = .die n → d.isSet F.SHM_CTRL_scrub_en (n / 8) = true)
    (hh : ∀ c u, b = .half c u → d.isSet F.CMEM_CTRL_scrub_en c = true) :
    ∃ e, (d.scrub b).mem = { e.mem with scrubAt := Sp.set (fun _ => 0) e.mem.scrubAt b.shape.1 (d.scrubbed b + 1) } ∧
      (∀ w ∈ d.scrubWords b (d.scrubbed b % b.shape.2.1), e.flipsAt w = []) ∧ (d.mem.flips = [] → e = d) := by
  have hword : ∀ (x : Sram) (l : List Nat), (∀ w ∈ l, (l.foldl (fun d w => d.touchWord x {} true w) d).flipsAt w = []) ∧
      (d.mem.flips = [] → l.foldl (fun d w => d.touchWord x {} true w) d = d) := fun x l =>
    ⟨fun w hw => flipsAt_foldl_touchWord x {} true w l d (.inl hw), fun hf => foldl_touchWord_of_flips hf x {} true l⟩
  unfold scrub
  cases b with
  | die n =>
    dsimp only
    rw [hd n rfl, hr, if_neg (by simp)]
    exact ⟨_, rfl, hword (.shm (n / 8)) _⟩
  | half c u =>
    dsimp only
    rw [hh c u rfl, hr, if_neg (by simp)]
    exact ⟨_, rfl, hword (.cmem c) _⟩
  | array a =>
    dsimp only
    rw [hr, if_neg (by simp)]
    exact ⟨d, rfl, fun w hw => absurd hw (by simp [scrubWords]), fun _ => rfl⟩
  | control =>
    dsimp only
    rw [hr, if_neg (by simp)]
    exact ⟨d, rfl, fun w hw => absurd hw (by simp [scrubWords]), fun _ => rfl⟩

/-- The device `e` has the wrong symbols and the patrol positions of `d`. -/
def SameSyms (d e : Dev) : Prop := e.mem.symErrs = d.mem.symErrs ∧ e.mem.patrolAt = d.mem.patrolAt

namespace SameSyms

variable {d e : Dev}

theorem refl (d : Dev) : SameSyms d d := ⟨rfl, rfl⟩

theorem after {f : Dev} (k : SameSyms e f) (h : SameSyms d e) : SameSyms d f := ⟨k.1.trans h.1, k.2.trans h.2⟩

theorem of_mem (h : e.mem = d.mem) : SameSyms d e := ⟨by rw [h], by rw [h]⟩

theorem foldl {β : Type} {f : Dev → β → Dev} (h : ∀ d x, SameSyms d (f d x)) : ∀ (l : List β) (d : Dev), SameSyms d (l.foldl f d)
  | [], d => refl d
  | x :: l, d => after (foldl h l (f d x)) (h d x)

end SameSyms

theorem sameSyms_setPoison64 (d : Dev) (a : Nat) (p : Bool) : SameSyms d (d.setPoison64 a p) := .foldl (f := fun d w => d.setPoison w p) (fun _ _ => ⟨rfl, rfl⟩) _ d

theorem sameSyms_noteCorrections (d : Dev) (cw : Nat) (l : List (Nat × Nat)) : SameSyms d (d.noteCorrections cw l) := by
  unfold noteCorrections
  dsimp only
  split
  · exact ⟨rfl, rfl⟩
  · exact .after (.of_mem (eraseDevice_mem _ _ _)) ⟨rfl, rfl⟩

/-- The read of a codeword drops its wrong symbols, and no patrol position. -/
theorem touchCodeword_syms (d : Dev) (rq : Req) (p : Bool) (cw : Nat) :
    (d.touchCodeword rq p cw).symErrsAt cw = [] ∧ (d.touchCodeword rq p cw).mem.patrolAt = d.mem.patrolAt := by
  have hdropped : ∀ e f : Dev, e.mem.patrolAt = d.mem.patrolAt → SameSyms (e.setSymErrs cw []) f →
      f.symErrsAt cw = [] ∧ f.mem.patrolAt = d.mem.patrolAt := fun e f he hf => by
    refine ⟨?_, hf.2.trans he⟩
    rw [symErrsAt, hf.1]
    exact Sp.get_set_same (fun _ => []) e.mem.symErrs cw []
  unfold touchCodeword
  dsimp only
  generalize hd1 : d.onMem _ = d1
  have h1 : d1.mem.patrolAt = d.mem.patrolAt := by rw [← hd1]; rfl
  split
  · exact ⟨‹_›, h1⟩
  · split
    · exact hdropped d1 _ h1 (.refl _)
    · exact hdropped d1 _ h1 (sameSyms_setPoison64 _ cw true)
    · refine hdropped d1 _ h1 (.after (sameSyms_noteCorrections _ cw _) (.after (.of_mem (raise_mem _ _ _ _)) (.after (.of_mem (bump_mem _ _ _ _ _))
        (.after (.foldl (fun d x => ?_) _ _) (sameSyms_setPoison64 _ cw false)))))
      split
      · exact ⟨rfl, rfl⟩
      · exact .refl d
    · refine hdropped _ _ ?_ (sameSyms_setPoison64 _ cw true)
      rw [raise_mem, bump_mem, captureDdr_mem]
      exact h1

theorem cells_touchCodeword {d : Dev} (h : d.mem.symErrs = []) (rq : Req) (p : Bool) (cw : Nat) :
    (d.touchCodeword rq p cw).mem.cells = d.mem.cells := by
  have hnone : ∀ f : MemSys → MemSys, (f d.mem).symErrs = d.mem.symErrs → (d.onMem f).symErrsAt cw = [] := fun f hf => by
    show Sp.get _ (f d.mem).symErrs cw = []
    rw [hf, h]; rfl
  unfold touchCodeword
  dsimp only
  rw [hnone _ rfl, if_pos rfl]
  rfl

/-- The codewords of a channel, and the position of a die's patrol. -/
def patrolPer (d : Dev) : Nat := d.ddrBytes / 32 / 64

def patrolPosition (d : Dev) (n : Nat) : Nat := Sp.get (fun _ => 0) d.mem.patrolAt n

/-- The codeword whose turn it is. -/
def patrolTurn (d : Dev) (n : Nat) : Nat :=
  channelAddress (4 * n + d.patrolPosition n / d.patrolPer % 4) (d.patrolPosition n % d.patrolPer * 64)

/-- The position moved on. -/
def patrolMoved (d : Dev) (n : Nat) : Dev :=
  let next := (d.patrolPosition n + 1) % (4 * d.patrolPer)
  d.onMem (fun m => { m with patrolAt := Sp.set (fun _ => 0) m.patrolAt n next })

theorem patrol_eq {d : Dev} {n : Nat} (hr : d.reset = none) (hs : d.mem.selfRefresh = false) (hh : 0 < d.fld F.DDR_CTRL_patrol_hours n)
    (hp : 0 < d.ddrBytes / 32 / 64) : d.patrol n = (d.patrolMoved n).touchCodeword {} true (d.patrolTurn n) := by
  unfold patrol
  dsimp only
  rw [if_neg]
  · rfl
  · rw [hr, hs]
    simp only [Option.isSome_none, Bool.false_eq_true, or_false]
    omega

end Dev

end Sys2Proof.Machine

namespace Sys2Proof.Proofs

open Sys2Proof.Machine Sys2Proof.Claims

/-- Settles O18: each entry of the slot is served in turn, and no other entry changes. -/
theorem slotRequests : Obligations.SlotRequests := by
  intro s rq c q slot upTo poison k e ha ht hr hq hk ho
  refine ⟨fun hf => ?_, ?_⟩
  · have heq := Dev.fillAdvance_ok (d := found s) upTo poison k hr rfl hq hk ho hf
    have hslot : ∀ x, (Dev.settle s.dev ((found s).fillAdvance rq c q slot upTo poison k)).slot x =
        if x ∈ e.keys c slot then Dev.filled upTo e.slotLen poison (s.dev.slot x) else s.dev.slot x := fun x => by
      rw [Dev.slot_settle, heq]
      exact Dev.slot_foldl (g := fun d x => d.setSlot x (Dev.filled upTo e.slotLen poison (d.slot x))) (fun d k x => Dev.slot_setSlot d k x _)
        _ (found s) (Dev.keys_nodup e c slot) x
    have hframe := Dev.SlotsOnly.foldl (g := fun d x => d.setSlot x (Dev.filled upTo e.slotLen poison (d.slot x))) (fun _ _ => rfl)
      (e.keys c slot) (found s)
    refine ⟨_, State.applyCompute_awake ha ht _ _, ?_, fun x hx => ?_, fun x hx => ?_, ?_⟩
    · rw [left, Dev.settle_out, heq, hframe]; rfl
    · rw [left, hslot, if_pos hx]
      exact ⟨rfl, rfl, rfl, ho x hx⟩
    · rw [left, hslot, if_neg hx]
    · rw [left, Dev.settle_mem, heq, hframe]; rfl
  · have heq := Dev.drainRequest_ok (d := found s) k hr hq hk ho
    have hslot : ∀ x, (Dev.settle s.dev ((found s).drainRequest rq c q slot k)).slot x =
        if x ∈ e.keys c slot then { owner := (s.dev.slot x).owner } else s.dev.slot x := fun x => by
      rw [Dev.slot_settle, heq]
      exact Dev.slot_foldl (g := Dev.drainKey) (u := fun x => { owner := x.owner }) (fun d k x => Dev.slot_drainKey d k x) _ (found s) (Dev.keys_nodup e c slot) x
    have hframe := Dev.SlotsOnly.foldl Dev.drainKey_slotsOnly (e.keys c slot) (found s)
    refine ⟨_, State.applyCompute_awake ha ht _ _, ?_, fun x hx => ?_, fun x hx => ?_, ?_⟩
    · rw [left, Dev.settle_out, heq, hframe]; rfl
    · rw [left, hslot, if_pos hx]
      exact ⟨rfl, rfl, rfl, ho x hx⟩
    · rw [left, hslot, if_neg hx]
    · rw [left, Dev.settle_mem, heq, hframe]; rfl

/-- Settles O19: each word of the line and the codeword whose turn it is are read, which drops their errors, and the position moves on. -/
theorem scrubAndPatrol : Obligations.ScrubAndPatrol := by
  refine ⟨fun s b ha hr hd hh => ?_, fun s n ha hr hs hh hp => ?_⟩
  · obtain ⟨e, hmem, hflips, hsame⟩ := Dev.scrub_mem (d := found s) hr hd hh
    refine ⟨_, State.apply_awake ha _ _, ?_, fun w hw => ?_, fun hf => ?_⟩
    · show Sp.get (fun _ => 0) (Dev.settle s.dev ((found s).scrub b)).mem.scrubAt b.shape.1 = _
      rw [Dev.settle_mem, hmem]
      exact Sp.get_set_same (fun _ => 0) e.mem.scrubAt b.shape.1 ((found s).scrubbed b + 1)
    · show Sp.get (fun _ => []) (Dev.settle s.dev ((found s).scrub b)).mem.flips w = []
      rw [Dev.settle_mem, hmem]
      exact hflips w hw
    · show (Dev.settle s.dev ((found s).scrub b)).mem.cells = _
      rw [Dev.settle_mem, hmem, hsame hf]
      rfl
  · have heq := Dev.patrol_eq (d := found s) hr hs hh hp
    have hsyms := Dev.touchCodeword_syms ((found s).patrolMoved n) {} true ((found s).patrolTurn n)
    rw [← heq] at hsyms
    refine ⟨_, State.apply_awake ha _ _, ?_, ?_, fun hnone => ?_⟩
    · show Sp.get _ (Dev.settle s.dev ((found s).patrol n)).mem.patrolAt n = _
      rw [Dev.settle_mem, hsyms.2]
      exact Sp.get_set_same (fun _ => 0) _ _ _
    · show Sp.get _ (Dev.settle s.dev ((found s).patrol n)).mem.symErrs _ = []
      rw [Dev.settle_mem]
      exact hsyms.1
    · show (Dev.settle s.dev ((found s).patrol n)).mem.cells = _
      rw [Dev.settle_mem, heq, Dev.cells_touchCodeword (d := (found s).patrolMoved n) hnone]
      rfl

end Sys2Proof.Proofs
end

section
/-!
PROOFS. The operations of the units: which one a command runs, and what is left when its work comes to its end.
-/

namespace Sys2Proof.Machine

open Sys2Proof.Claims

/-! ### The operation that a command runs -/

namespace Dev

theorem not_tripped_of_coreRuns {d : Dev} {c : Nat} (h : d.coreRuns c = true) : d.pins.tripped = false := by
  unfold coreRuns at h
  split at h
  · simp only [Bool.and_eq_true, Bool.not_eq_true'] at h
    exact h.2
  · exact absurd h (by simp)

/-- Taking a task from a list: the core runs, the operation stands at the head of the list that is next, and moves to its unit. -/
theorem takeTask_some {d e : Dev} {c code : Nat} {o : Op} (h : d.takeTask c code = some (o, e)) :
    d.coreRuns c = true ∧ o.opcode = code ∧ ∃ t rest, d.nextTask c = some t ∧ d.tasks c t = o :: rest ∧
      e = (d.setTasks c t rest).onCore c (fun k => { k with runTask := t, held := k.held ++ [o] }) := by
  unfold takeTask at h
  split at h
  · exact absurd h (by simp)
  case isFalse hruns =>
    have hr : d.coreRuns c = true := by simpa using hruns
    split at h
    · exact absurd h (by simp)
    case h_2 t ht =>
      split at h
      · exact absurd h (by simp)
      case h_2 x rest hl =>
        split at h
        · exact absurd h (by simp)
        case isFalse hc =>
          obtain ⟨rfl, rfl⟩ := Prod.mk.inj (Option.some.inj h)
          exact ⟨hr, not_not.mp hc, t, rest, ht, hl, rfl⟩

/-- One attempt at a held operation, as what its work answers decides it. -/
theorem attemptHeld_of {d e : Dev} {c engine : Nat} {o : Op} {work : UnitId → Op → Run Unit} {r : Except Stop Unit}
    (h : work (d.unitOf c o engine) o (d.onHeld c o.id (fun x => { x with stalled := false })) = (r, e)) :
    d.attemptHeld c engine o work = e.endHeld c (d.unitOf c o engine) o.id r := by
  simp only [attemptHeld, h]

theorem attemptHeld_ends {d e : Dev} {c engine : Nat} {o : Op} {work : UnitId → Op → Run Unit} (h : Ends work d c engine o e) :
    d.attemptHeld c engine o work = e.dropOp c o.id := attemptHeld_of h

/-- One attempt at a stream, as what its work answers decides it. -/
theorem attemptStream_of {d e : Dev} {c : Nat} {o : Op} {work : UnitId → Op → Run Unit} {r : Except Stop Unit}
    (h : work (d.unitOf c o (0x20 + c)) o (d.onStream c o.id (fun x => { x with stalled := false })) = (r, e)) :
    d.attemptStream c o work = e.endStream c (d.unitOf c o (0x20 + c)) o.id r := by
  simp only [attemptStream, h]

theorem attemptStream_ends {d e : Dev} {c : Nat} {o : Op} {work : UnitId → Op → Run Unit} (h : StreamEnds work d c o e) :
    d.attemptStream c o work = (e.bump F.FD_STREAM_CNT_ops c 0 1).dropOp c o.id := attemptStream_of h

end Dev

end Sys2Proof.Machine

namespace Sys2Proof.Claims

open Sys2Proof.Machine

/-- The core of the operation that a command runs, and its thermal trip: none of the ways to run one holds while it is tripped. -/
theorem ExecStarts.awake {s : State} {env : Env} {c : Fin 4} {code : Nat} {o : Op} {d : Dev} (h : ExecStarts s env c code o d) :
    s.dev.awake = true ∧ s.dev.pins.tripped = false :=
  ⟨h.1, Dev.not_tripped_of_coreRuns (d := found s env) (Dev.takeTask_some h.2).1⟩

theorem ExecStarts.apply {s : State} {env : Env} {c : Fin 4} {code : Nat} {o : Op} {d : Dev} (h : ExecStarts s env c code o d)
    (work : UnitId → Op → Run Unit) :
    s.applyCompute (fun d => d.runExec c code work) env = .next (left s (d.attemptHeld c (Dev.execEngine c o) o work)) := by
  obtain ⟨ha, ht⟩ := h.awake
  rw [State.applyCompute_awake ha ht, Dev.runExec, h.2]

theorem UpdateRuns.apply {s : State} {env : Env} {c : Fin 4} {p : Pick} {code : Nat} {o : Op} {d : Dev}
    (h : UpdateRuns s env c p code o d) (work : UnitId → Op → Run Unit) :
    s.applyCompute (fun d => d.runUpdate c p code work) env = .next (left s (d.attemptHeld c (0x70 + c) o work)) := by
  obtain ⟨rfl, hx⟩ | ⟨rfl, ha, hr, ho, hh, hs, rfl⟩ := h
  · obtain ⟨ha, ht⟩ := hx.awake
    rw [State.applyCompute_awake ha ht]
    simp only [Dev.runUpdate, hx.2]
  · rw [State.applyCompute_awake ha (Dev.not_tripped_of_coreRuns hr)]
    have hheld : (found s env).heldOp c o.id = some o := hh
    have hruns : (found s env).coreRuns c = true := hr
    simp only [Dev.runUpdate, hheld, hruns, ho, hs]
    simp

theorem EngineRuns.apply {s : State} {env : Env} {c : Fin 4} {p : Pick} {code : Nat} {o : Op} {d : Dev}
    (h : EngineRuns s env c p code o d) (work : UnitId → Op → Run Unit) :
    s.applyCompute (fun d => d.runEngine c p code work) env = .next (left s (d.attemptHeld c (Dev.execEngine c o) o work)) := by
  obtain ⟨hfirst, hx⟩ := h
  have hfree : ((d.core c).held.takeWhile (fun x => x.id ≠ o.id)).any (fun x => Dev.sharesEngine x o) = false :=
    List.any_eq_false.mpr fun x hx => by simp [hfirst x hx]
  obtain ⟨rfl, hx⟩ | ⟨rfl, ha, hr, ho, hh, hs, rfl⟩ := hx
  · obtain ⟨ha, ht⟩ := hx.awake
    rw [State.applyCompute_awake ha ht]
    simp only [Dev.runEngine, hx.2, hfree]
    simp
  · rw [State.applyCompute_awake ha (Dev.not_tripped_of_coreRuns hr)]
    have hheld : (found s env).heldOp c o.id = some o := hh
    have hruns : (found s env).coreRuns c = true := hr
    simp only [Dev.runEngine, hheld, hruns, ho, hs, hfree]
    simp

theorem FetchRuns.apply {s : State} {env : Env} {c : Fin 4} {p : Pick} {code : Nat} {free : Dev → Bool} {o : Op} {d : Dev}
    (h : FetchRuns s env c p code free o d) (engine : Nat) (work : UnitId → Op → Run Unit) :
    s.applyCompute (fun d => d.runFetch c p code engine free work) env = .next (left s (d.attemptHeld c engine o work)) := by
  obtain ⟨ha, hr, ho, hx⟩ := h
  rw [State.applyCompute_awake ha (Dev.not_tripped_of_coreRuns hr)]
  have hruns : (found s env).coreRuns c = true := hr
  obtain ⟨rfl, hf, rest, hw, rfl⟩ | ⟨rfl, hh, hs, rfl⟩ := hx
  · have hwait : ((found s env).core c).waiting = o :: rest := hw
    simp only [Dev.runFetch, hruns, hwait, ho, hf]
    simp
  · have hheld : (found s env).heldOp c o.id = some o := hh
    simp only [Dev.runFetch, hruns, hheld, ho, hs]
    simp

theorem StreamRuns.apply {s : State} {env : Env} {c : Fin 4} {p : Pick} {code : Nat} {o : Op} {d : Dev}
    (h : StreamRuns s env c p code o d) (work : UnitId → Op → Run Unit) :
    s.applyCompute (fun d => d.runStream c p code work) env = .next (left s (d.attemptStream c o work)) := by
  obtain ⟨ha, hr, ho, hx⟩ := h
  rw [State.applyCompute_awake ha (Dev.not_tripped_of_coreRuns hr)]
  have hruns : (found s env).coreRuns c = true := hr
  obtain ⟨rfl, hp, hf, o', rest, hw, rfl, rfl⟩ | ⟨rfl, hh, hs, rfl⟩ := hx
  · have hwait : ((found s env).core c).waiting = o' :: rest := hw
    have hplaces : ¬ 32 ≤ (found s env).activePlaces c := Nat.not_le.mpr hp
    have hfetch : ((found s env).core c).held.any (fun o => o.opcode == 0x51) = false :=
      List.any_eq_false.mpr fun x hx => by simpa using hf x hx
    have hcode : o'.opcode = code := ho
    simp only [Dev.runStream, hruns, hwait, hcode, hplaces, hfetch]
    simp
    rfl
  · have hheld : (found s env).streamOp c o.id = some o := hh
    simp only [Dev.runStream, hruns, hheld, ho, hs]
    simp

/-! ### An operation whose work ends -/

section Ends

variable {s : State} {env : Env} {c : Fin 4} {p : Pick} {code : Nat} {o : Op} {d e : Dev} {work : UnitId → Op → Run Unit}

theorem ExecStarts.ends (h : ExecStarts s env c code o d) (he : Ends work d c (Dev.execEngine c o) o e) :
    s.applyCompute (fun d => d.runExec c code work) env = .next (left s (e.dropOp c o.id)) := by
  rw [h.apply, Dev.attemptHeld_ends he]

theorem UpdateRuns.ends (h : UpdateRuns s env c p code o d) (he : Ends work d c (0x70 + c) o e) :
    s.applyCompute (fun d => d.runUpdate c p code work) env = .next (left s (e.dropOp c o.id)) := by
  rw [h.apply, Dev.attemptHeld_ends he]

theorem EngineRuns.ends (h : EngineRuns s env c p code o d) (he : Ends work d c (Dev.execEngine c o) o e) :
    s.applyCompute (fun d => d.runEngine c p code work) env = .next (left s (e.dropOp c o.id)) := by
  rw [h.apply, Dev.attemptHeld_ends he]

theorem FetchRuns.ends {free : Dev → Bool} {engine : Nat} (h : FetchRuns s env c p code free o d) (he : Ends work d c engine o e) :
    s.applyCompute (fun d => d.runFetch c p code engine free work) env = .next (left s (e.dropOp c o.id)) := by
  rw [h.apply, Dev.attemptHeld_ends he]

theorem StreamRuns.ends (h : StreamRuns s env c p code o d) (he : StreamEnds work d c o e) :
    s.applyCompute (fun d => d.runStream c p code work) env =
      .next (left s ((e.bump F.FD_STREAM_CNT_ops c 0 1).dropOp c o.id)) := by
  rw [h.apply, Dev.attemptStream_ends he]

end Ends

end Sys2Proof.Claims

namespace Sys2Proof.Proofs

open Sys2Proof.Machine Sys2Proof.Claims

/-- Settles O22: the execute engine takes the operation, and an attempt whose work ends drops it. -/
theorem executeOperationsEnd : Obligations.ExecuteOperationsEnd := fun _ _ _ _ _ _ =>
  ⟨ExecStarts.ends, ExecStarts.ends, ExecStarts.ends, ExecStarts.ends, ExecStarts.ends, fun _ => ExecStarts.ends, ExecStarts.ends,
    ExecStarts.ends, ExecStarts.ends⟩

/-- Settles O29: an engine's attempt at the operation that it runs drops it when its work ends. -/
theorem engineOperationsEnd : Obligations.EngineOperationsEnd := fun _ _ _ _ _ _ _ =>
  ⟨EngineRuns.ends, EngineRuns.ends, EngineRuns.ends, EngineRuns.ends, EngineRuns.ends, EngineRuns.ends, EngineRuns.ends, EngineRuns.ends,
    EngineRuns.ends, EngineRuns.ends, EngineRuns.ends, EngineRuns.ends, UpdateRuns.ends, UpdateRuns.ends, UpdateRuns.ends⟩

/-- Settles O30: a stream whose work ends is counted and dropped, and an operation of the other units is dropped. -/
theorem fetchOperationsEnd : Obligations.FetchOperationsEnd := fun _ _ _ _ _ _ _ =>
  ⟨StreamRuns.ends, StreamRuns.ends, StreamRuns.ends, StreamRuns.ends, StreamRuns.ends, FetchRuns.ends, FetchRuns.ends, FetchRuns.ends,
    FetchRuns.ends, FetchRuns.ends, FetchRuns.ends, FetchRuns.ends, FetchRuns.ends, FetchRuns.ends, FetchRuns.ends, FetchRuns.ends,
    FetchRuns.ends, FetchRuns.ends, FetchRuns.ends, FetchRuns.ends, FetchRuns.ends, FetchRuns.ends, FetchRuns.ends, FetchRuns.ends,
    FetchRuns.ends, FetchRuns.ends, FetchRuns.ends⟩

/-- Settles O34: what an attempt leaves when its work waits or faults is what `endHeld` and `endStream` say of each stop. -/
theorem operationsStop : Obligations.OperationsStop := by
  intro s c p env o d e
  refine ⟨fun r h hr => ?_, fun r h hr => ?_, fun r h hr => ?_, fun va dv h hr => ?_⟩
  · refine (h.apply _ Run.route).trans ?_
    rw [Dev.attemptHeld_of hr]
    cases r <;> rfl
  · refine (h.apply Run.gather).trans ?_
    rw [Dev.attemptHeld_of hr]
    cases r <;> rfl
  · refine (h.apply Run.daTile).trans ?_
    rw [Dev.attemptHeld_of hr]
    cases r <;> rfl
  · refine (h.apply Run.stLoad).trans ?_
    rw [Dev.attemptStream_of hr]
    rfl

end Sys2Proof.Proofs
end

section
/-!
PROOFS. Work that ends, step by step; counters raised by a list of engines; GME_SYNC and VE_SYNC.
-/

namespace Sys2Proof.Machine

open Sys2Proof.Claims

/-! ### Steps of work that end -/

namespace Run

theorem pure_apply {α : Type} (a : α) (d : Dev) : (pure a : Run α) d = (.ok a, d) := rfl

theorem lift_apply {α : Type} (f : Dev → α × Dev) (d : Dev) : lift f d = (.ok (f d).1, (f d).2) := rfl

theorem upd_apply (f : Dev → Dev) (d : Dev) : upd f d = (.ok (), f d) := rfl

/-- A step that ends hands its answer and its device to the rest. -/
theorem bind_ok {α β : Type} {x : Run α} {g : α → Run β} {d e : Dev} {a : α} (h : x d = (.ok a, e)) : (x >>= g) d = g a e := by
  rw [bind_apply, h]

theorem bind_error {α β : Type} {x : Run α} {g : α → Run β} {d e : Dev} {r : Stop} (h : x d = (.error r, e)) :
    (x >>= g) d = (.error r, e) := by
  rw [bind_apply, h]

theorem lift_bind {α β : Type} (f : Dev → α × Dev) (g : α → Run β) (d : Dev) : (lift f >>= g) d = g (f d).1 (f d).2 := rfl

theorem pure_bind_apply {α β : Type} (a : α) (g : α → Run β) (d : Dev) : ((pure a : Run α) >>= g) d = g a d := rfl

theorem waitIf_false : waitIf false = pure () := rfl

theorem faultIf_false (cause : Nat) : faultIf false cause = pure () := rfl

theorem waitIf_of {b : Bool} (h : b = false) : waitIf b = pure () := by rw [h]; rfl

theorem faultIf_of {b : Bool} (h : b = false) (cause : Nat) : faultIf b cause = pure () := by rw [h]; rfl

end Run

/-! ### The core that holds an operation -/

namespace Dev

theorem core_onCore (d : Dev) (c : Nat) (f : Core → Core) : (d.onCore c f).core c = f (d.core c) := core_setCore d c _

theorem core_onCore_other (d : Dev) {c k : Nat} (f : Core → Core) (h : k ≠ c) : (d.onCore c f).core k = d.core k :=
  core_setCore_other d _ h

/-- What is held apart from the marks that an attempt takes off. -/
theorem any_held_onHeld {p : Op → Bool} (hp : ∀ x, p { x with stalled := false } = p x) (d : Dev) (c id : Nat) :
    ((d.onHeld c id (fun x => { x with stalled := false })).core c).held.any p = (d.core c).held.any p := by
  rw [onHeld, core_onCore, List.any_map]
  refine congrArg (fun q => List.any _ q) (funext fun x => ?_)
  by_cases hx : x.id = id
  · simp only [Function.comp, if_pos hx, hp]
  · simp only [Function.comp, if_neg hx]

end Dev

end Sys2Proof.Machine

namespace Sys2Proof.Claims

open Sys2Proof.Machine

/-- An operation that was dropped is gone. -/
theorem gone_left (s : State) (e : Dev) (c : Fin 4) (o : Op) : Gone (left s (e.dropOp c o.id)) c o := by
  intro x hx
  rw [left, Dev.core_settle, Dev.dropOp, Dev.core_onCore] at hx
  simp only [List.mem_append, List.mem_filter, decide_eq_true_eq] at hx
  exact hx.elim And.right And.right

/-- The device as the work finds it is the one before but for its cores. -/
theorem ExecStarts.frame {s : State} {env : Env} {c : Fin 4} {code : Nat} {o : Op} {d : Dev} (h : ExecStarts s env c code o d) :
    d = { found s env with cores := d.cores } := by
  obtain ⟨-, -, -, -, -, -, rfl⟩ := Dev.takeTask_some h.2
  rfl

theorem EngineRuns.frame {s : State} {env : Env} {c : Fin 4} {p : Pick} {code : Nat} {o : Op} {d : Dev}
    (h : EngineRuns s env c p code o d) : d = { found s env with cores := d.cores } := by
  obtain ⟨-, ⟨-, hx⟩ | ⟨-, -, -, -, -, -, rfl⟩⟩ := h
  · exact hx.frame
  · rfl

theorem FetchRuns.frame {s : State} {env : Env} {c : Fin 4} {p : Pick} {code : Nat} {free : Dev → Bool} {o : Op} {d : Dev}
    (h : FetchRuns s env c p code free o d) : d = { found s env with cores := d.cores } := by
  obtain ⟨-, -, -, ⟨-, -, -, -, rfl⟩ | ⟨-, -, -, rfl⟩⟩ := h <;> rfl

end Sys2Proof.Claims

namespace Sys2Proof.Machine

open Sys2Proof.Claims

/-! ### Counters of engines -/

/-- A counter of every engine of a list raised by one. -/
def Dev.countAll (d : Dev) (f : Field) (c : Nat) (l : List Nat) : Dev := l.foldl (fun d g => d.bump f c g 1) d

theorem Dev.countAll_frame (f : Field) (c : Nat) : ∀ (l : List Nat) (d : Dev),
    d.countAll f c l = { d with regs := (d.countAll f c l).regs }
  | [], _ => rfl
  | g :: l, d => by
    have ih := countAll_frame f c l (d.bump f c g 1)
    rw [countAll, List.foldl_cons]
    exact ih

theorem Dev.fld_countAll {f : Field} {c j : Nat} (hf : f.lo ≤ f.hi) (h64 : f.hi < 64) : ∀ (l : List Nat) (d : Dev), l.Nodup →
    (∀ g ∈ l, g ≠ j → f.reg.key c j ≠ f.reg.key c g) →
    (d.countAll f c l).fld f c j = if j ∈ l then raisedBy d f c j 1 else d.fld f c j
  | [], _, _, _ => rfl
  | g :: l, d, hn, hk => by
    obtain ⟨hg, hn⟩ := List.nodup_cons.mp hn
    have ih := fld_countAll hf h64 l (d.bump f c g 1) hn (fun x hx => hk x (List.mem_cons_of_mem _ hx))
    rw [countAll, List.foldl_cons, ← countAll, ih]
    by_cases hj : j = g
    · subst hj
      rw [if_neg hg, if_pos List.mem_cons_self, fld_bump d hf h64]
      rfl
    · have hother := fld_bump_other d (x := f) (y := f) 1 (hk g List.mem_cons_self (Ne.symm hj))
      rw [raisedBy, raisedBy, hother]
      simp only [List.mem_cons, hj, false_or]

theorem maskBits_nodup (n m : Nat) : (maskBits n m).Nodup := List.nodup_range.filter _

theorem mem_maskBits {n m g : Nat} : g ∈ maskBits n m ↔ g < n ∧ bit m g = true := by
  rw [maskBits, List.mem_filter, List.mem_range]

namespace Run

theorem gmeSync_ok {u : UnitId} {o : Op} {d : Dev} (hm : bits o.w0 15 8 ≠ 0) (hr : bits o.w0 63 30 = 0) (hh : bits o.w1 63 48 = 0)
    (ha : o.w1 % 128 = 0)
    (hfree : ((d.core u.core).held.any (fun x => decide (x.id ≠ o.id) && decide (0x30 ≤ x.opcode) && decide (x.opcode < 0x40)
      && decide (bits x.w0 15 8 &&& bits o.w0 15 8 ≠ 0))) = false) :
    gmeSync u o d = (.ok (), d.countAll F.GME_OP_CNT_ops u.core (maskBits 8 (bits o.w0 15 8))) := by
  have hgood : (bits o.w0 15 8 == 0 || bits o.w0 63 30 != 0 || bits o.w1 63 48 != 0 || o.w1 % 128 != 0) = false := by
    simp [hm, hr, hh, ha]
  rw [gmeSync, gmeBad, hgood, if_neg (by decide), pure_bind, dev_bind, waitIf_of hfree, pure_bind]
  rfl

theorem veSync_ok {u : UnitId} {o : Op} {d : Dev} (hm : bits o.w0 11 8 ≠ 0) (h1 : bits o.w0 15 12 = 0) (h2 : bits o.w0 31 29 = 0)
    (h3 : bits o.w0 63 32 = 0) (h4 : o.w1 = 0)
    (hfree : ((d.core u.core).held.any (fun x => decide (x.id ≠ o.id) && decide (0x90 ≤ x.opcode) && decide (x.opcode < 0xA0)
      && decide (bits x.w0 11 8 &&& bits o.w0 11 8 ≠ 0))) = false) :
    veSync u o d = (.ok (), d.countAll F.VE_OP_CNT_ops u.core (maskBits 4 (bits o.w0 11 8))) := by
  have hgood : (bits o.w0 11 8 == 0 || bits o.w0 15 12 != 0 || bits o.w0 31 29 != 0 || bits o.w0 63 32 != 0 || o.w1 != 0) = false := by
    simp [hm, h1, h2, h3, h4]
  rw [veSync, veBad, hgood, if_neg (by decide), pure_bind, dev_bind, waitIf_of hfree, pure_bind]
  rfl

end Run

/-- What a sync leaves: the counters of its engines are one higher, memory and the arrays are as they were, and it is gone. -/
theorem sync_left {s : State} {env : Env} {c : Fin 4} {o : Op} {d : Dev} (hd : d = { found s env with cores := d.cores }) {f : Field}
    {n m : Nat} (hf : f.lo ≤ f.hi) (h64 : f.hi < 64) (hkey : ∀ g < n, f.reg.key c g < 0x40000000)
    (hinj : ∀ g h, g ≠ h → f.reg.key c h ≠ f.reg.key c g) :
    let t := left s (((d.onHeld c o.id (fun x => { x with stalled := false })).countAll f c (maskBits n m)).dropOp c o.id)
    Gone t c o ∧ t.dev.mem = s.dev.mem ∧ t.dev.arrays = s.dev.arrays ∧
      ∀ g < n, t.dev.fld f c g = if bit m g then raisedBy s.dev f c g 1 else s.dev.fld f c g := by
  generalize hk : d.onHeld c o.id (fun x => { x with stalled := false }) = k
  have hframe : k = { found s env with cores := k.cores } := by
    rw [← hk, hd]; rfl
  have hcount := Dev.countAll_frame f c (maskBits n m) k
  dsimp only
  refine ⟨gone_left _ _ _ _, ?_, ?_, fun g hg => ?_⟩
  · rw [left, Dev.settle_mem]
    show (k.countAll f c _).mem = _
    rw [hcount, hframe]; rfl
  · rw [left, Dev.settle_arrays]
    show (k.countAll f c _).arrays = _
    rw [hcount, hframe]; rfl
  · rw [left, Dev.fld_congr (Dev.rd_settle s.dev _ (Dev.not_mail_of_lt (hkey g hg)))]
    show (k.countAll f c _).fld f c g = _
    rw [Dev.fld_countAll hf h64 _ _ (maskBits_nodup n m) (fun x _ hx => hinj x g hx)]
    have hfld : k.fld f c g = s.dev.fld f c g := by rw [hframe]; rfl
    simp only [mem_maskBits, hg, true_and, raisedBy, hfld]

end Sys2Proof.Machine

namespace Sys2Proof.Proofs

open Sys2Proof.Machine Sys2Proof.Claims

/-- Settles O31: no other operation names an engine of the word, so the sync does not wait, and it counts each of its engines once. -/
theorem syncsEnd : Obligations.SyncsEnd := by
  refine fun s c p env o d => ⟨fun h hm hr hh ha hfree => ?_, fun h hm h1 h2 h3 h4 hfree => ?_⟩
  · have hend : Ends Run.gmeSync d c (Dev.execEngine c o) o _ := Run.gmeSync_ok hm hr hh ha (by
      dsimp only [Dev.unitOf]
      rw [Dev.any_held_onHeld (fun _ => rfl), List.any_eq_false]
      intro x hx
      have := hfree x hx
      simp only [ne_eq, Bool.and_eq_true, decide_eq_true_eq]
      tauto)
    refine ⟨_, h.ends hend, ?_⟩
    refine sync_left h.frame (by decide) (by decide) (fun g hg => ?_) fun g x hx => ?_ <;>
      simp only [F.GME_OP_CNT_ops, Reg.key, Reg.row] <;> omega
  · have hend : Ends Run.veSync d c (Dev.execEngine c o) o _ := Run.veSync_ok hm h1 h2 h3 h4 (by
      dsimp only [Dev.unitOf]
      rw [Dev.any_held_onHeld (fun _ => rfl), List.any_eq_false]
      intro x hx
      have := hfree x hx
      simp only [ne_eq, Bool.and_eq_true, decide_eq_true_eq]
      tauto)
    refine ⟨_, h.ends hend, ?_⟩
    refine sync_left h.frame (by decide) (by decide) (fun g hg => ?_) fun g x hx => ?_ <;>
      simp only [F.VE_OP_CNT_ops, Reg.key, Reg.row] <;> omega

end Sys2Proof.Proofs
end

section
/-!
PROOFS. The order in which TOP_K takes the columns of a row, and the saturating addition of SCATTER_ADD.
-/

namespace Sys2Proof.Machine

open Sys2Proof.Claims

/-! ### Values as numbers -/

namespace Num

/-- The number that a finite value is. -/
def toRat : Num → ℚ
  | .fin n m e => (if n then -(m : ℚ) else m) * 2 ^ e
  | _ => 0

/-- The place of a value among all values: a NaN lowest, then the infinities around the finite values. -/
def rank : Num → ℤ ×ₗ ℚ
  | .nan => toLex (-2, 0)
  | .inf neg => toLex (if neg then -1 else 1, 0)
  | x => toLex (0, x.toRat)

theorem toRat_scaledTo {e0 e : Int} (h : e0 ≤ e) (n : Bool) (m : Nat) : (fin n m e).toRat = (scaledTo e0 (.fin n m e) : ℚ) * 2 ^ e0 := by
  have hpow : (2 : ℚ) ^ e = 2 ^ (e - e0).toNat * 2 ^ e0 := by
    rw [← zpow_natCast, ← zpow_add₀ (by norm_num)]
    congr 1
    omega
  rw [toRat, scaledTo, hpow]
  cases n <;> push_cast <;> simp [mul_assoc]

theorem cmp_fin (a b : Bool) (m n : Nat) (e f : Int) :
    (0 < cmp (.fin a m e) (.fin b n f) ↔ (fin b n f).toRat < (fin a m e).toRat) ∧
      (cmp (.fin a m e) (.fin b n f) = 0 ↔ (fin a m e).toRat = (fin b n f).toRat) := by
  have hp : (0 : ℚ) < 2 ^ min e f := zpow_pos (by norm_num) _
  rw [cmp, toRat_scaledTo (min_le_left e f), toRat_scaledTo (min_le_right e f), Int.sign_pos_iff, Int.sign_eq_zero_iff_zero,
    mul_lt_mul_iff_left₀ hp, mul_left_inj' hp.ne', Int.cast_lt, Int.cast_inj]
  omega

/-- Comparing two values that are no NaN is comparing their places. -/
theorem cmp_rank {x y : Num} (hx : x.isNaN = false) (hy : y.isNaN = false) :
    (0 < cmp x y ↔ y.rank < x.rank) ∧ (cmp x y = 0 ↔ x.rank = y.rank) := by
  cases x with
  | nan => exact absurd hx (by decide)
  | inf a =>
    cases y with
    | nan => exact absurd hy (by decide)
    | inf b => cases a <;> cases b <;> simp [cmp, rank, Prod.Lex.lt_iff]
    | fin b n f => cases a <;> simp [cmp, rank, Prod.Lex.lt_iff]
  | fin a m e =>
    cases y with
    | nan => exact absurd hy (by decide)
    | inf b => cases b <;> simp [cmp, rank, Prod.Lex.lt_iff]
    | fin b n f => simpa [rank, Prod.Lex.lt_iff] using cmp_fin a b m n e f

theorem nan_rank_lt {x : Num} (h : x.isNaN = false) : Num.nan.rank < x.rank := by
  cases x with
  | nan => exact absurd h (by decide)
  | inf a => cases a <;> simp [rank, Prod.Lex.lt_iff]
  | fin a m e => simp [rank, Prod.Lex.lt_iff]

theorem eq_nan {x : Num} (h : x.isNaN = true) : x = .nan := by
  cases x with
  | nan => rfl
  | inf | fin => exact absurd h (by simp [isNaN])

end Num

namespace Run

/-- The order of R167 is that of the values' places from above, and of the columns where two places agree. -/
theorem topBefore_iff (x y : Num × Nat) : topBefore x y = true ↔ y.1.rank < x.1.rank ∨ (x.1.rank = y.1.rank ∧ x.2 < y.2) := by
  unfold topBefore
  by_cases hx : x.1.isNaN = true
  · by_cases hy : y.1.isNaN = true
    · simp [Num.eq_nan hx, Num.eq_nan hy, Num.isNaN]
    · have hlt := Num.nan_rank_lt (Bool.eq_false_iff.mpr hy)
      have hneg : ¬ y.1.rank < Num.nan.rank := lt_asymm hlt
      rw [Num.eq_nan hx] at *
      simp [hx, hy, hneg, hlt.ne]
  · by_cases hy : y.1.isNaN = true
    · have hlt := Num.nan_rank_lt (Bool.eq_false_iff.mpr hx)
      rw [Num.eq_nan hy] at *
      simp [hx, hy, hlt]
    · obtain ⟨hpos, hzero⟩ := Num.cmp_rank (Bool.eq_false_iff.mpr hx) (Bool.eq_false_iff.mpr hy)
      simp [hx, hy, hpos, hzero]

theorem topBefore_trans {x y z : Num × Nat} (h : topBefore x y = true) (g : topBefore y z = true) : topBefore x z = true := by
  rw [topBefore_iff] at *
  obtain h | ⟨he, hi⟩ := h <;> obtain g | ⟨ge, gi⟩ := g
  · exact .inl (g.trans h)
  · exact .inl (ge ▸ h)
  · exact .inl (he ▸ g)
  · exact .inr ⟨he.trans ge, hi.trans gi⟩

theorem topBefore_total {x y : Num × Nat} (hne : x.2 ≠ y.2) (h : ¬ topBefore x y = true) : topBefore y x = true := by
  rw [topBefore_iff] at *
  push Not at h
  obtain hlt | heq := h.1.lt_or_eq
  · exact .inl hlt
  · exact .inr ⟨heq.symm, lt_of_le_of_ne (h.2 heq) (Ne.symm hne)⟩

/-! ### The sort -/

theorem topInsert_perm (x : Num × Nat) : ∀ l, (topInsert x l).Perm (x :: l)
  | [] => .refl _
  | y :: l => by
    rw [topInsert]
    split
    · exact .refl _
    · exact ((topInsert_perm x l).cons y).trans (.swap x y l)

theorem topInsert_pairwise {x : Num × Nat} : ∀ {l : List (Num × Nat)}, (∀ y ∈ l, x.2 ≠ y.2) →
    l.Pairwise (fun a b => topBefore a b = true) → (topInsert x l).Pairwise (fun a b => topBefore a b = true)
  | [], _, _ => List.pairwise_singleton _ _
  | y :: l, hne, hl => by
    obtain ⟨hy, hl⟩ := List.pairwise_cons.mp hl
    rw [topInsert]
    split
    case isTrue hb =>
      refine List.pairwise_cons.mpr ⟨fun z hz => ?_, List.pairwise_cons.mpr ⟨hy, hl⟩⟩
      obtain rfl | hz := List.mem_cons.mp hz
      · exact hb
      · exact topBefore_trans hb (hy z hz)
    case isFalse hb =>
      refine List.pairwise_cons.mpr ⟨fun z hz => ?_, topInsert_pairwise (fun z hz => hne z (List.mem_cons_of_mem _ hz)) hl⟩
      obtain rfl | hz := List.mem_cons.mp ((topInsert_perm x l).mem_iff.mp hz)
      · exact topBefore_total (hne y List.mem_cons_self) hb
      · exact hy z hz

theorem foldl_topInsert_perm : ∀ (xs l : List (Num × Nat)), (xs.foldl (fun l x => topInsert x l) l).Perm (xs ++ l)
  | [], _ => .refl _
  | x :: xs, l => (foldl_topInsert_perm xs (topInsert x l)).trans
      (((topInsert_perm x l).append_left xs).trans List.perm_middle)

theorem foldl_topInsert_pairwise : ∀ {xs l : List (Num × Nat)}, ((xs ++ l).map Prod.snd).Nodup →
    l.Pairwise (fun a b => topBefore a b = true) → (xs.foldl (fun l x => topInsert x l) l).Pairwise (fun a b => topBefore a b = true)
  | [], _, _, hl => hl
  | x :: xs, l, hn, hl => by
    rw [List.cons_append, List.map_cons, List.nodup_cons] at hn
    rw [List.foldl_cons]
    refine foldl_topInsert_pairwise ?_ (topInsert_pairwise (fun y hy he => hn.1 ?_) hl)
    · refine (((topInsert_perm x l).append_left xs).trans List.perm_middle).map Prod.snd |>.nodup_iff.mpr ?_
      exact List.nodup_cons.mpr hn
    · exact List.mem_map.mpr ⟨y, List.mem_append_right _ hy, he.symm⟩

theorem satAdd32_cases (a b : Nat) : satAdd32 a b = if sx 32 a + sx 32 b < -(2 ^ 31) then (2 ^ 31, true) else
    if 2 ^ 31 ≤ sx 32 a + sx 32 b then (2 ^ 31 - 1, true) else (ux 32 (sx 32 a + sx 32 b), false) := rfl

end Run

theorem sx_toNat (x : BitVec 32) : sx 32 x.toNat = x.toInt := by
  rw [sx, BitVec.toInt_eq_toNat_cond, Nat.mod_eq_of_lt x.isLt]
  split <;> split <;> omega

/-- An integer in the range of INT32 and its two's complement. -/
theorem toInt_ux {z : Int} (h : -(2 ^ 31) ≤ z) (h2 : z < 2 ^ 31) : ux 32 z < 2 ^ 32 ∧ (BitVec.ofNat 32 (ux 32 z)).toInt = z := by
  have hu : ux 32 z = (z % 4294967296).toNat := rfl
  rw [hu, BitVec.toInt_eq_toNat_cond, BitVec.toNat_ofNat]
  refine ⟨by omega, ?_⟩
  split <;> omega

end Sys2Proof.Machine

namespace Sys2Proof.Proofs

open Sys2Proof.Machine Sys2Proof.Claims

/-- Settles O32: an insertion sort by an order that is total on different columns. -/
theorem topOrderSorts : Obligations.TopOrderSorts := by
  intro xs
  have hperm := Run.foldl_topInsert_perm xs.zipIdx []
  rw [List.append_nil] at hperm
  have hsnd : xs.zipIdx.map Prod.snd = List.range xs.length := by rw [List.zipIdx_map_snd, List.range_eq_range']
  refine ⟨hsnd ▸ hperm.map Prod.snd, List.pairwise_map.mpr ?_⟩
  have hsorted := Run.foldl_topInsert_pairwise (xs := xs.zipIdx) (l := []) (by rw [List.append_nil, hsnd]; exact List.nodup_range) .nil
  refine hsorted.imp_of_mem fun {a b} ha hb hab x y hx hy => ?_
  have hxa := List.mem_zipIdx_iff_getElem?.mp (hperm.mem_iff.mp ha)
  have hyb := List.mem_zipIdx_iff_getElem?.mp (hperm.mem_iff.mp hb)
  obtain rfl : a.1 = x := Option.some.inj (hxa.symm.trans hx)
  obtain rfl : b.1 = y := Option.some.inj (hyb.symm.trans hy)
  unfold Run.topBefore at hab
  cases hna : a.1.isNaN <;> cases hnb : b.1.isNaN <;> simp_all

/-- Settles O33: the sum in two's complement, cut at the ends of the range. -/
theorem scatterAddSaturates : Obligations.ScatterAddSaturates := by
  intro x y
  dsimp only
  rw [Run.satAdd32_cases, sx_toNat, sx_toNat]
  split
  case isTrue hlow =>
    have hend : (BitVec.ofNat 32 (2 ^ 31)).toInt = -(2 ^ 31) := by decide
    refine ⟨by decide, ?_, by simp only [true_iff]; exact .inl hlow⟩
    rw [hend]
    omega
  case isFalse hlow =>
    split
    case isTrue hhigh =>
      have hend : (BitVec.ofNat 32 (2 ^ 31 - 1)).toInt = 2 ^ 31 - 1 := by decide
      refine ⟨by decide, ?_, by simp only [true_iff]; exact .inr hhigh⟩
      rw [hend]
      omega
    case isFalse hhigh =>
      obtain ⟨hlt, hint⟩ := toInt_ux (not_lt.mp hlow) (not_le.mp hhigh)
      refine ⟨hlt, ?_, by simp; omega⟩
      rw [hint]
      omega

end Sys2Proof.Proofs
end

section
/-!
PROOFS. What happens to an array between its passes, the events and the queue's drain.
-/

namespace Sys2Proof.Machine

open Sys2Proof.Claims

namespace Dev

theorem array_onArray (d : Dev) (a : Nat) (f : DArray → DArray) : (d.onArray a f).array a = f (d.array a) := array_setArray d a _

theorem array_onArray_other (d : Dev) {a b : Nat} (f : DArray → DArray) (h : b ≠ a) : (d.onArray a f).array b = d.array b :=
  array_setArray_other d _ h

/-! ### Between the passes of an array -/

theorem shadowCopy_eq {d : Dev} {a : Nat} {o : Op} {w : DaWord} {t : Tile} (hn : d.nextPass a = some (o, w)) (ht : d.tile a w.slot = some t)
    (hc : t.codesOnly = false) (hr : d.coreRuns (a / 2) = true) :
    d.shadowCopy a = d.onArray a (fun x => { x with shadow := some (w.slot, t) }) := by
  simp only [shadowCopy, hn, ht, hr, hc]; rfl

theorem startRamp_eq {d : Dev} {a : Nat} (hd : d.rampDue a = true) (hg : (d.array a).groups < 8) :
    d.startRamp a = (if (d.array a).groups = 0 then d.bump F.DA_RAMP_CNT_starts a 0 1 else d).onArray a
      (fun x => { x with groups := 8, ramp := .running }) := by
  have hgate : (!d.rampDue a || decide ((d.array a).groups = 8)) = false := by simp [hd, hg.ne]
  rw [startRamp, hgate]
  rfl

theorem stopRamp_eq {d : Dev} {a : Nat} (n : Nat) (hd : d.rampDue a = false) (hg : (d.array a).groups ≠ 0) :
    d.stopRamp a n = d.onArray a (fun x => { x with groups := (d.array a).groups - n, ramp :=
      if (d.array a).groups - n = 0 then .gated else .rampingDown }) := by
  have hgate : (d.rampDue a || decide ((d.array a).groups = 0)) = false := by simp [hd, hg]
  rw [stopRamp, hgate]
  rfl

theorem staggerStart_eq {d : Dev} {a id : Nat} {o : Op} {w : DaWord} (hn : d.nextPass a = some (o, w)) (hb : w.barrier = true)
    (hr : d.passRelease (a / 2) o.id = some id) (hf : id ∉ (d.array a).staggered) :
    d.staggerStart a = d.onArray a (fun x => { x with staggered := x.staggered ++ [id] }) := by
  have hgate : w.barrier = true ∧ ¬ (d.array a).staggered.contains id = true := ⟨hb, by simpa using hf⟩
  simp only [staggerStart, hn, hr]
  rw [if_pos hgate]

end Dev

/-- What a change of one array on a running command leaves of the rest. -/
theorem onArray_left (s : State) (d : Dev) (a : Nat) (f : DArray → DArray) (hm : d.mem = s.dev.mem) (hc : d.cores = s.dev.cores)
    (ha : d.arrays = s.dev.arrays) :
    let t := left s (d.onArray a f)
    t.dev.array a = f (s.dev.array a) ∧ (∀ b, b ≠ a → t.dev.array b = s.dev.array b) ∧ t.dev.mem = s.dev.mem ∧ t.dev.cores = s.dev.cores := by
  have harray : ∀ b, d.array b = s.dev.array b := fun b => by rw [Dev.array, ha]; rfl
  refine ⟨?_, fun b hb => ?_, ?_, ?_⟩
  · rw [left, Dev.array_settle, Dev.array_onArray, harray]
  · rw [left, Dev.array_settle, Dev.array_onArray_other d f hb, harray]
  · rw [left, Dev.settle_mem]; exact hm
  · rw [left, Dev.settle_cores]; exact hc

/-! ### Events -/

/-- Storing an entry that is no default, then another, stores the other. -/
theorem Sp.insert_insert {α : Type} (k : Nat) (v w : α) : ∀ t : List (Nat × α), Sp.insert (Sp.insert t k v) k w = Sp.insert t k w
  | [] => by simp [Sp.insert]
  | (j, u) :: t => by
    by_cases hj : j = k
    · simp [Sp.insert, hj]
    · by_cases hk : k < j
      · simp [Sp.insert, hj, hk]
      · simp [Sp.insert, hj, hk, insert_insert k v w t]

theorem Sp.erase_insert {α : Type} (k : Nat) (v : α) : ∀ t : List (Nat × α), Sp.erase (Sp.insert t k v) k = Sp.erase t k
  | [] => by simp [Sp.insert, Sp.erase]
  | (j, u) :: t => by
    by_cases hj : j = k
    · simp [Sp.insert, Sp.erase, hj]
    · by_cases hk : k < j
      · simp [Sp.insert, Sp.erase, hj, hk]
      · simp [Sp.insert, Sp.erase, hj, hk, erase_insert k v t]

theorem Sp.set_set {α : Type} [DecidableEq α] {d : Nat → α} (t : List (Nat × α)) {k : Nat} {v : α} (w : α) (h : v ≠ d k) :
    Sp.set d (Sp.set d t k v) k w = Sp.set d t k w := by
  rw [Sp.set, Sp.set, Sp.set, if_neg h, Sp.erase_insert, Sp.insert_insert]

theorem Dev.onCore_onCore (d : Dev) (c : Nat) {f g : Core → Core} (h : f (d.core c) ≠ {}) :
    (d.onCore c f).onCore c g = d.onCore c (fun k => g (f k)) := by
  rw [onCore_eq (d.onCore c f), core_onCore]
  show Dev.setCore (Dev.setCore d c _) c _ = Dev.setCore d c _
  have hset := Sp.set_set (d := coreDefault) d.cores (k := c) (g (f (d.core c))) h
  rw [setCore, setCore, setCore, hset]

/-- An operation that the fetch engine takes from what waits and that ends at once is gone from its core. -/
theorem Dev.endHeld_taken (d : Dev) {c : Nat} {o : Op} (rest : List Op) (u : UnitId)
    (hne : ∀ x ∈ (d.core c).held ++ (d.core c).streams, x.id ≠ o.id) :
    (d.onCore c (fun k => { k with waiting := rest, held := k.held ++ [o] })).endHeld c u o.id (.ok ()) =
      d.onCore c (fun k => { k with waiting := rest }) := by
  have htaken : (fun k : Core => { k with waiting := rest, held := k.held ++ [o] }) (d.core c) ≠ {} := fun h =>
    List.append_ne_nil_of_right_ne_nil _ (List.cons_ne_nil o []) (congrArg Core.held h)
  show Dev.dropOp _ c o.id = _
  rw [dropOp, onCore_onCore d c htaken, onCore_eq, onCore_eq]
  congr 1
  have hkeep : ∀ l : List Op, (∀ x ∈ l, x.id ≠ o.id) → l.filter (fun x => x.id ≠ o.id) = l := fun l hl =>
    List.filter_eq_self.mpr fun x hx => by simpa using hl x hx
  have hheld := hkeep (d.core c).held fun x hx => hne x (by simp [hx])
  have hstreams := hkeep (d.core c).streams fun x hx => hne x (by simp [hx])
  dsimp only
  rw [List.filter_append, hheld, hstreams]
  simp

namespace Run

theorem plainWord_ok {o : Op} (h1 : bits o.w0 31 24 = 0) (h2 : bits o.w0 63 48 = 0) (h3 : bits o.w1 63 48 = 0) : plainWord o = pure () :=
  faultIf_of (by simp [h1, h2, h3]) _

/-- The value that EV_SIGNAL leaves in its counter. -/
def signalled (n : Nat) (k : Core) : Core :=
  { k with events := Sp.set (fun _ => 0) k.events n ((Sp.get (fun _ => 0) k.events n + 1) % 2 ^ 32) }

theorem evSignal_ok {u : UnitId} {o : Op} {d : Dev} (h1 : bits o.w0 31 24 = 0) (h2 : bits o.w0 63 48 = 0) (h3 : bits o.w1 63 48 = 0)
    (he : earlier d u o = false) : evSignal u o d = (.ok (), d.onCore u.core (signalled (bits o.w0 11 8))) := by
  rw [evSignal, plainWord_ok h1 h2 h3, pure_bind, dev_bind, waitIf_of he, pure_bind]
  rfl

/-- How far the counter of an EV_WAIT is from the stated value. -/
def waitFor (u : UnitId) (o : Op) (d : Dev) : Nat :=
  (Sp.get (fun _ => 0) (d.core u.core).events (bits o.w0 11 8) + 2 ^ 32 - bits o.w1 31 0) % 2 ^ 32

theorem evWait_eq {u : UnitId} {o : Op} {d : Dev} (h1 : bits o.w0 31 24 = 0) (h2 : bits o.w0 63 48 = 0) (h3 : bits o.w1 63 48 = 0) :
    evWait u o d = if waitFor u o d < 2 ^ 31 then (.ok (), d) else (.error .wait, d) := by
  rw [evWait, plainWord_ok h1 h2 h3, pure_bind, dev_bind]
  show waitIf (decide (2 ^ 31 ≤ waitFor u o d)) d = _
  split
  case isTrue h => rw [waitIf_of (decide_eq_false (not_le.mpr h))]; rfl
  case isFalse h => rw [decide_eq_true (not_lt.mp h)]; rfl

theorem qDrain_ok {u : UnitId} {o : Op} {d : Dev} {q : QEntry} (h1 : bits o.w0 31 24 = 0) (h2 : bits o.w0 63 48 = 0) (h3 : bits o.w1 63 48 = 0)
    (hq : d.queue u.core (bits o.w0 15 8) = some q) (hh : q.home < 4) (hf : d.slotFull u.core q (d.head u.core (bits o.w0 15 8)) = true) :
    qDrain u o d = (.ok (), d.drainHead u.core (bits o.w0 15 8) q) := by
  have hqueue : queueOf u.core (bits o.w0 15 8) 0x09 [0, 1, 2, 3] d = (.ok q, d) := by
    have hhome : [0, 1, 2, 3].contains q.home = true := by
      simp only [List.contains_eq_mem, List.mem_cons, List.not_mem_nil, or_false, decide_eq_true_eq]; omega
    rw [queueOf, dev_bind, hq]
    simp only [hhome, if_true]
    rfl
  rw [qDrain, plainWord_ok h1 h2 h3, pure_bind, bind_ok hqueue, dev_bind, hf, Bool.not_true, waitIf_false, pure_bind]
  rfl

end Run

/-! ### The drain of a queue's head -/

namespace Dev

/-- The head's drain before the head moves. -/
def drainSlots (d : Dev) (c : Nat) (e : QEntry) (k n : Nat) : Dev :=
  (List.range n).foldl (fun d i => (e.keys c ((k + i) % e.count)).foldl drainKey d) d

theorem drainHead_eq (d : Dev) (c q : Nat) (e : QEntry) : d.drainHead c q e =
    (d.drainSlots c e (d.head c q) (d.unitSpan c e (d.head c q))).moveHead c q (d.unitSpan c e (d.head c q)) e := rfl

theorem foldl_drainKeys (f : Nat → List Nat) : ∀ (l : List Nat) (d : Dev),
    l.foldl (fun d i => (f i).foldl drainKey d) d = (l.flatMap f).foldl drainKey d
  | [], _ => rfl
  | i :: l, d => by rw [List.foldl_cons, foldl_drainKeys f l, List.flatMap_cons, List.foldl_append]

theorem drainSlots_eq (d : Dev) (c : Nat) (e : QEntry) (k n : Nat) :
    d.drainSlots c e k n = ((List.range n).flatMap (fun i => e.keys c ((k + i) % e.count))).foldl drainKey d := foldl_drainKeys _ _ _

theorem drainSlots_slotsOnly (d : Dev) (c : Nat) (e : QEntry) (k n : Nat) : SlotsOnly d (d.drainSlots c e k n) := by
  rw [drainSlots_eq]
  exact SlotsOnly.foldl drainKey_slotsOnly _ d

/-- A slot after a list of slots was drained: empty with its owner kept, or as it was. -/
theorem slot_drainKeys (x : Nat) : ∀ (l : List Nat) (d : Dev),
    (l.foldl drainKey d).slot x = if x ∈ l then { owner := (d.slot x).owner } else d.slot x
  | [], _ => rfl
  | k :: l, d => by
    rw [List.foldl_cons, slot_drainKeys x l, slot_drainKey]
    by_cases hk : x = k
    · subst hk; simp
    · simp [hk]

theorem slot_drainSlots (d : Dev) (c : Nat) (e : QEntry) (k n x : Nat) : (d.drainSlots c e k n).slot x =
    if ∃ i < n, x ∈ e.keys c ((k + i) % e.count) then { owner := (d.slot x).owner } else d.slot x := by
  rw [drainSlots_eq, slot_drainKeys]
  simp only [List.mem_flatMap, List.mem_range]

theorem slot_onCore (d : Dev) (c : Nat) (f : Core → Core) (x : Nat) : (d.onCore c f).slot x = d.slot x := rfl

theorem slot_drainHead (d : Dev) (c q : Nat) (e : QEntry) (x : Nat) : (d.drainHead c q e).slot x =
    if ∃ i < d.unitSpan c e (d.head c q), x ∈ e.keys c ((d.head c q + i) % e.count) then { owner := (d.slot x).owner } else d.slot x := by
  rw [drainHead_eq, moveHead, slot_onCore, slot_drainSlots]

theorem core_drainSlots (d : Dev) (c : Nat) (e : QEntry) (k n : Nat) (x : Nat) : (d.drainSlots c e k n).core x = d.core x := by
  rw [core, drainSlots_slotsOnly d c e k n]; rfl

theorem head_drainHead (d : Dev) (c q : Nat) (e : QEntry) :
    (d.drainHead c q e).head c q = (d.head c q + d.unitSpan c e (d.head c q)) % e.count := by
  have hcore := core_drainSlots d c e (d.head c q) (d.unitSpan c e (d.head c q)) c
  have hhead : (d.drainSlots c e (d.head c q) (d.unitSpan c e (d.head c q))).head c q = d.head c q := by rw [head, hcore]; rfl
  rw [drainHead_eq, moveHead, head, core_onCore, hhead]
  exact Sp.get_set_same (fun _ => 0) _ _ _

theorem cells_drainHead (d : Dev) (c q : Nat) (e : QEntry) : (d.drainHead c q e).mem.cells = d.mem.cells := by
  rw [drainHead_eq]
  show (d.drainSlots c e _ _).mem.cells = _
  rw [drainSlots_slotsOnly]

theorem unitSpan_pos (d : Dev) (c : Nat) (e : QEntry) (k : Nat) : 0 < d.unitSpan c e k := by
  unfold unitSpan
  split
  · exact Nat.one_pos
  · split
    · split <;> decide
    · exact Nat.one_pos

/-! ### What the mark of an attempt leaves -/

theorem core_dropOp (d : Dev) (c id : Nat) : (d.dropOp c id).core c = { d.core c with
    streams := (d.core c).streams.filter (fun o => o.id ≠ id), held := (d.core c).held.filter (fun o => o.id ≠ id) } := core_onCore d c _

theorem head_dropOp (d : Dev) (c id q : Nat) : (d.dropOp c id).head c q = d.head c q := by rw [head, core_dropOp]; rfl
theorem tail_dropOp (d : Dev) (c id q : Nat) : (d.dropOp c id).tail c q = d.tail c q := by rw [tail, core_dropOp]; rfl

theorem core_onHeld (d : Dev) (c id : Nat) (f : Op → Op) : (d.onHeld c id f).core c = { d.core c with
    held := (d.core c).held.map (fun o => if o.id = id then f o else o) } := core_onCore d c _

theorem head_onHeld (d : Dev) (c id q : Nat) (f : Op → Op) : (d.onHeld c id f).head c q = d.head c q := by rw [head, core_onHeld]; rfl
theorem tail_onHeld (d : Dev) (c id q : Nat) (f : Op → Op) : (d.onHeld c id f).tail c q = d.tail c q := by rw [tail, core_onHeld]; rfl
theorem queue_onHeld (d : Dev) (c id q : Nat) (f : Op → Op) : (d.onHeld c id f).queue c q = d.queue c q := by rw [queue, core_onHeld]; rfl

theorem head_settle (before d : Dev) (c q : Nat) : (settle before d).head c q = d.head c q := by rw [head, core_settle]; rfl
theorem tail_settle (before d : Dev) (c q : Nat) : (settle before d).tail c q = d.tail c q := by rw [tail, core_settle]; rfl

end Dev

/-! ### An event operation at the fetch engine -/

/-- The head of what waits at the fetch engine, run as an event operation that ends. -/
theorem runEvent_ok {s : State} {c : Fin 4} {o : Op} {rest : List Op} {code : Nat} {work : UnitId → Op → Run Unit} {e : Dev}
    (hawake : s.dev.awake = true) (hruns : s.dev.coreRuns c = true) (hw : (s.dev.core c).waiting = o :: rest) (hc : o.opcode = code)
    (hwork : work ((found s).unitOf c o (0x20 + c)) o (found s) = (.ok (), e))
    (hne : ∀ x ∈ (e.core c).held ++ (e.core c).streams, x.id ≠ o.id) :
    s.applyCompute (fun d => d.runEvent c code true work) = .next (left s (e.onCore c (fun k => { k with waiting := rest }))) := by
  rw [State.applyCompute_awake hawake (Dev.not_tripped_of_coreRuns hruns)]
  have hwait : ((found s).core c).waiting = o :: rest := hw
  have hrun : (found s).coreRuns c = true := hruns
  have hend := Dev.endHeld_taken e rest ((found s).unitOf c o (0x20 + c)) hne
  simp only [Dev.runEvent, hrun, hwait, hc, hwork, Bool.not_true, Bool.false_eq_true, if_false, ne_eq, not_true_eq_false]
  exact congrArg (fun x => Host.Outcome.next (left s x)) hend

/-- The head of what waits at the fetch engine, run as an event operation that waits. -/
theorem runEvent_wait {s : State} {c : Fin 4} {o : Op} {rest : List Op} {code : Nat} {work : UnitId → Op → Run Unit} {e : Dev}
    (hawake : s.dev.awake = true) (hruns : s.dev.coreRuns c = true) (hw : (s.dev.core c).waiting = o :: rest) (hc : o.opcode = code)
    (hwork : work ((found s).unitOf c o (0x20 + c)) o (found s) = (.error .wait, e)) :
    s.applyCompute (fun d => d.runEvent c code true work) = .next (left s (found s)) := by
  rw [State.applyCompute_awake hawake (Dev.not_tripped_of_coreRuns hruns)]
  have hwait : ((found s).core c).waiting = o :: rest := hw
  have hrun : (found s).coreRuns c = true := hruns
  simp only [Dev.runEvent, hrun, hwait, hc, hwork, Bool.not_true, Bool.false_eq_true, if_false, ne_eq, not_true_eq_false]

end Sys2Proof.Machine

namespace Sys2Proof.Proofs

open Sys2Proof.Machine Sys2Proof.Claims

/-- Settles O27: under its condition each event is one change of its array, and a ramp's start counts before it. -/
theorem arrayEvents : Obligations.ArrayEvents := by
  intro s a hawake htrip others
  have hgo : ∀ (f : Dev → Dev), s.applyCompute f = .next (left s (f (found s))) := fun f => State.applyCompute_awake hawake htrip f {}
  refine ⟨fun o w tl hn ht hc hr => ?_, fun hd hg => ?_, fun n hd hg => ?_, fun o w id hn hb hr hf => ?_⟩
  · have heq : (found s).shadowCopy a = _ := Dev.shadowCopy_eq (d := found s) hn ht hc hr
    refine ⟨_, hgo _, ?_⟩
    rw [heq]
    exact onArray_left s (found s) a _ rfl rfl rfl
  · have heq : (found s).startRamp a = _ := Dev.startRamp_eq (d := found s) hd hg
    refine ⟨_, hgo _, ?_⟩
    rw [heq]
    have hframe : ∀ p : Prop, ∀ [Decidable p], (if p then (found s).bump F.DA_RAMP_CNT_starts a 0 1 else found s) =
        { found s with regs := (if p then (found s).bump F.DA_RAMP_CNT_starts a 0 1 else found s).regs } := fun p _ => by split <;> rfl
    obtain ⟨harray, hothers⟩ := onArray_left s (if ((found s).array a).groups = 0 then (found s).bump F.DA_RAMP_CNT_starts a 0 1 else found s) a
      (fun x => { x with groups := 8, ramp := .running }) (by rw [hframe]; rfl) (by rw [hframe]; rfl) (by rw [hframe]; rfl)
    refine ⟨harray, ?_, hothers⟩
    have hkey : F.DA_RAMP_CNT_starts.reg.key a 0 ∉ mailKeys := Dev.not_mail_of_lt (by
      simp only [F.DA_RAMP_CNT_starts, Reg.key, Reg.row]; omega)
    rw [left, Dev.fld_congr (Dev.rd_settle s.dev _ hkey)]
    show (if (s.dev.array a).groups = 0 then (found s).bump F.DA_RAMP_CNT_starts a 0 1 else found s).fld F.DA_RAMP_CNT_starts a = _
    split
    · exact Dev.fld_bump (found s) (x := F.DA_RAMP_CNT_starts) (by decide) (by decide) a 0 1
    · rfl
  · have heq : (found s).stopRamp a n = _ := Dev.stopRamp_eq (d := found s) n hd hg
    refine ⟨_, hgo _, ?_⟩
    rw [heq]
    obtain ⟨harray, hothers⟩ := onArray_left s (found s) a _ rfl rfl rfl
    refine ⟨harray.trans ?_, hothers⟩
    have hzero : (s.dev.array a).groups - n.val = 0 ↔ (s.dev.array a).groups ≤ n.val := Nat.sub_eq_zero_iff_le
    show ({ s.dev.array a with groups := (s.dev.array a).groups - n.val, ramp := if (s.dev.array a).groups - n.val = 0 then _ else _ } : DArray) = _
    simp only [hzero]
  · have heq : (found s).staggerStart a = _ := Dev.staggerStart_eq (d := found s) hn hb hr hf
    refine ⟨_, hgo _, ?_⟩
    rw [heq]
    exact onArray_left s (found s) a _ rfl rfl rfl

/-- Settles O28: an event operation that ends is gone and its core keeps the rest, one that waits changes nothing, and the drain of a
head leaves its slots empty. -/
theorem eventsAndDrains : Obligations.EventsAndDrains := by
  refine ⟨fun s c o rest hawake hruns hw h1 h2 h3 hne => ⟨fun hc htask hstr => ?_, fun hc hv => ?_, fun hc hv => ?_⟩,
    fun s c o d q hx h1 h2 h3 hq hh hk hf => ?_⟩
  · have hearlier : Run.earlier (found s) ((found s).unitOf c o (0x20 + c)) o = false := by
      refine Bool.or_eq_false_iff.mpr ⟨List.any_eq_false.mpr fun x hx => ?_, ?_⟩
      · have := htask x hx
        simp [this]
      · by_cases h8 : o.task = 8
        · have : ((found s).core c).streams = [] := hstr h8
          simp [Dev.unitOf, this]
        · simp [h8]
    have hheld : ∀ x ∈ (((found s).onCore c (Run.signalled (bits o.w0 11 8))).core c).held ++
        (((found s).onCore c (Run.signalled (bits o.w0 11 8))).core c).streams, x.id ≠ o.id := fun x hx => by
      rw [Dev.core_onCore] at hx
      exact hne x (by rw [List.append_assoc]; exact List.mem_append_right _ hx)
    have hfirst : Run.signalled (bits o.w0 11 8) ((found s).core c) ≠ {} := fun h =>
      List.cons_ne_nil o rest (hw.symm.trans (congrArg Core.waiting h))
    refine (runEvent_ok (work := Run.evSignal) hawake hruns hw hc (Run.evSignal_ok h1 h2 h3 hearlier) hheld).trans ?_
    rw [Dev.unitOf, Dev.onCore_onCore _ _ hfirst]
    rfl
  · exact runEvent_ok (work := Run.evWait) hawake hruns hw hc ((Run.evWait_eq h1 h2 h3).trans (if_pos hv)) fun x hx =>
      hne x (by rw [List.append_assoc]; exact List.mem_append_right _ hx)
  · exact runEvent_wait (work := Run.evWait) hawake hruns hw hc ((Run.evWait_eq h1 h2 h3).trans (if_neg (not_lt.mpr hv)))
  · generalize hn : bits o.w0 15 8 = n at *
    have hframe := hx.frame
    have hmark : ∀ x, ((d.onHeld c o.id (fun x => { x with stalled := false })).slot x) = s.dev.slot x := fun x => by rw [hframe]; rfl
    have hend : Ends Run.qDrain d c (Dev.execEngine c o) o ((d.onHeld c o.id (fun x => { x with stalled := false })).drainHead c n q) :=
      hn ▸ Run.qDrain_ok (q := q) h1 h2 h3 (by rw [hn]; exact (Dev.queue_onHeld _ _ _ _ _).trans hq) hh (by rw [hn]; exact (congrArg (Dev.slotFull _ c q) (Dev.head_onHeld _ _ _ _ _)).trans hf)
    have hdrain : ∀ x, ((d.onHeld c o.id (fun x => { x with stalled := false })).drainHead c n q).slot x =
        if ∃ i < d.unitSpan c q (d.head c n), x ∈ q.keys c ((d.head c n + i) % q.count) then { owner := (s.dev.slot x).owner }
        else s.dev.slot x := fun x => by
      rw [Dev.slot_drainHead, Dev.head_onHeld, hmark]; rfl
    refine ⟨_, hx.ends hend, gone_left _ _ _ _, ?_, fun x hxk => ?_, fun x hxk => ?_, ?_⟩
    · rw [left, Dev.head_settle, Dev.head_dropOp]
      exact (Dev.head_drainHead _ c n q).trans (by rw [Dev.head_onHeld]; rfl)
    · rw [left, Dev.slot_settle, Dev.dropOp, Dev.slot_onCore, hdrain, if_pos ⟨0, Dev.unitSpan_pos d c q _, by rwa [Nat.add_zero, Nat.mod_eq_of_lt hk]⟩]
      exact ⟨rfl, rfl, rfl⟩
    · rw [left, Dev.slot_settle, Dev.dropOp, Dev.slot_onCore, hdrain, if_neg ?_]
      rintro ⟨i, hi, hmem⟩
      exact hxk i hi hmem
    · rw [left, Dev.settle_mem]
      exact (Dev.cells_drainHead _ c n q).trans (by rw [hframe]; rfl)

end Sys2Proof.Proofs
end

section
/-!
PROOFS. The operations of the arrays that move tiles and accumulators: DA_TILE, DA_IMPORT and DA_SYNC.
-/

namespace Sys2Proof.Machine

open Sys2Proof.Claims

/-! ### Work over a list of units -/

namespace Run

section Loops

variable {α β : Type} {P : Dev → Prop} {obs : Dev → Nat → β} {R : Nat → β → β → Prop}

/-- Steps that each change their own unit's state in a stated way do so for every unit of a list without repetition. -/
theorem mapM_local {f : Nat → Run α} (S : Nat → Prop) (hstep : ∀ a d, S a → P d → ∃ r e, f a d = (.ok r, e) ∧ P e ∧
      (∀ x, x ≠ a → obs e x = obs d x) ∧ R a (obs d a) (obs e a)) :
    ∀ (l : List Nat) (d : Dev), (∀ a ∈ l, S a) → l.Nodup → P d → ∃ rs e, l.mapM f d = (.ok rs, e) ∧ P e ∧
      (∀ a ∈ l, R a (obs d a) (obs e a)) ∧ ∀ x, x ∉ l → obs e x = obs d x
  | [], d, _, _, hP => ⟨[], d, rfl, hP, fun _ h => absurd h List.not_mem_nil, fun _ _ => rfl⟩
  | a :: l, d, hS, hn, hP => by
    obtain ⟨ha, hn⟩ := List.nodup_cons.mp hn
    obtain ⟨r, e, hf, hPe, hother, hR⟩ := hstep a d (hS a List.mem_cons_self) hP
    obtain ⟨rs, k, hl, hPk, hin, hout⟩ := mapM_local S hstep l e (fun x hx => hS x (List.mem_cons_of_mem _ hx)) hn hPe
    refine ⟨r :: rs, k, ?_, hPk, fun x hx => ?_, fun x hx => ?_⟩
    · rw [List.mapM_cons, bind_ok hf, bind_ok hl]; rfl
    · obtain rfl | hx := List.mem_cons.mp hx
      · rw [hout x ha]; exact hR
      · rw [← hother x (fun h => ha (h ▸ hx))]; exact hin x hx
    · rw [List.mem_cons, not_or] at hx
      rw [hout x hx.2, hother x hx.1]

theorem forM_eq_mapM (f : Nat → Run Unit) : ∀ (l : List Nat) (d : Dev), ∀ rs e, l.mapM f d = (.ok rs, e) → l.forM f d = (.ok (), e)
  | [], d, _, e, h => by
    obtain ⟨-, rfl⟩ := Prod.mk.inj h
    rfl
  | a :: l, d, rs, e, h => by
    rw [List.mapM_cons] at h
    show (f a >>= fun _ => l.forM f) d = _
    rw [bind_apply] at h ⊢
    split at h
    next x k hk =>
      rw [bind_apply] at h
      split at h
      next xs m hm =>
        obtain ⟨-, rfl⟩ := Prod.mk.inj h
        exact forM_eq_mapM f l k xs m hm
      next => exact absurd (congrArg Prod.fst h) (by simp)
    next => exact absurd (congrArg Prod.fst h) (by simp)

theorem forM_local {f : Nat → Run Unit} (S : Nat → Prop) (hstep : ∀ a d, S a → P d → ∃ e, f a d = (.ok (), e) ∧ P e ∧
      (∀ x, x ≠ a → obs e x = obs d x) ∧ R a (obs d a) (obs e a))
    (l : List Nat) (d : Dev) (hS : ∀ a ∈ l, S a) (hn : l.Nodup) (hP : P d) : ∃ e, l.forM f d = (.ok (), e) ∧ P e ∧
      (∀ a ∈ l, R a (obs d a) (obs e a)) ∧ ∀ x, x ∉ l → obs e x = obs d x := by
  obtain ⟨rs, e, hl, h⟩ := mapM_local (f := f) S (fun a d ha hP => by
    obtain ⟨e, hf, h⟩ := hstep a d ha hP
    exact ⟨(), e, hf, h⟩) l d hS hn hP
  exact ⟨e, forM_eq_mapM f l d rs e hl, h⟩

end Loops

/-- Steps that change nothing. -/
theorem mapM_same {α : Type} {f : Nat → Run α} {d : Dev} (r : Nat → α) : ∀ (l : List Nat), (∀ a ∈ l, f a d = (.ok (r a), d)) →
    l.mapM f d = (.ok (l.map r), d)
  | [], _ => rfl
  | a :: l, h => by
    rw [List.mapM_cons, bind_ok (h a List.mem_cons_self), bind_ok (mapM_same r l fun x hx => h x (List.mem_cons_of_mem _ hx))]
    rfl

theorem forM_same {β : Type} {f : β → Run Unit} {d : Dev} : ∀ (l : List β), (∀ a ∈ l, f a d = (.ok (), d)) → l.forM f d = (.ok (), d)
  | [], _ => rfl
  | a :: l, h => by
    show (f a >>= fun _ => l.forM f) d = _
    rw [bind_ok (h a List.mem_cons_self)]
    exact forM_same l fun x hx => h x (List.mem_cons_of_mem _ hx)

theorem faultAt_of {b : Bool} (h : b = false) (cause engine : Nat) : faultAt b cause engine = pure () := by rw [h]; rfl

end Run

/-! ### The word of an array operation -/

theorem DaWord.arrays_nodup (w : DaWord) (c : Nat) : (w.arrays c).Nodup := by
  unfold arrays
  split <;> simp

theorem DaWord.arrays_lt (w : DaWord) {c : Nat} (hc : c < 4) : ∀ a ∈ w.arrays c, a < 8 := by
  unfold arrays
  split <;> simp <;> omega

namespace Run

theorem daWord_ok {u : UnitId} {o : Op} {d : Dev} (h : ArrayWord d u.core o) : daWord u o d = (.ok (DaWord.of o), d) := by
  obtain ⟨hsel, hreserved, htop, halone, hboth⟩ := h
  have hword : ((DaWord.of o).sel = 0 || bit o.w0 31 || bits o.w0 63 56 ≠ 0 : Bool) = false := by simp [hsel, hreserved, htop]
  have hdead : (d.retired (2 * u.core) && d.retired (2 * u.core + 1)) = false := by
    rw [Bool.eq_false_iff, ne_eq, Bool.and_eq_true]
    exact hboth
  have hlone : ((DaWord.of o).sel ≠ 3 && ((DaWord.of o).arrays u.core).any d.retired : Bool) = false := by
    rw [Bool.and_eq_false_iff]
    by_cases h3 : (DaWord.of o).sel = 3
    · exact .inl (by simp [h3])
    · exact .inr (List.any_eq_false.mpr fun a ha => by simp [halone h3 a ha])
  rw [daWord, faultAt_of hword, pure_bind, dev_bind, faultAt_of hdead, pure_bind]
  exact congrFun (congrArg (fun x : Run Unit => x >>= fun _ => pure (DaWord.of o)) (faultAt_of hlone _ _)) d

theorem daQueue_ok {u : UnitId} {w : DaWord} {q : Nat} {homes : List Nat} {e : QEntry} {d : Dev} (hq : d.queue u.core q = some e)
    (hh : e.home ∈ homes) : daQueue u w q homes d = (.ok e, d) := by
  have hhome : homes.contains e.home = true := by simpa using hh
  rw [daQueue, dev_bind, hq]
  simp only [hhome, if_true]
  rfl

theorem daLink_ok {u : UnitId} {w : DaWord} {base : Nat} {d : Dev} (h : LinksUp d u.core base w) (addr : Nat) :
    daLink u w base addr d = (.ok (), d) := by
  have hnone : (w.arrays u.core).find? (fun a => !d.retired a && (d.failedOn [base + a]).isSome) = none :=
    List.find?_eq_none.mpr fun a ha => by obtain hr | hf := h a ha <;> simp [*]
  rw [daLink, dev_bind, hnone]
  rfl

theorem formats_ok {w : DaWord} (h : ArrayFormats w) : (w.mode = 3 || !isOperand w.aFmt || !isOperand w.wFmt || decide (5 ≤ w.pattern)
    || (w.mode = 2 && w.pattern ≠ 0) : Bool) = false := by
  obtain ⟨hmode, ha, hw, hp, hdense⟩ := h
  by_cases h2 : w.mode = 2
  · simp [ha, hw, h2, hdense h2]
  · simp [hmode, ha, hw, hp, h2]

theorem lift_readMem {u : UnitId} {a len : Nat} {d e : Dev} {bs : List PByte} (h : d.readMem u.req a len = (bs, e)) (bad : Bool) :
    (lift (fun d => d.readMem u.req a len) >>= fun bs => pure (if bad then bs.map (fun b => { b with poison := true }) else bs) : Run _) d
      = (.ok (if bad then bs.map (fun b => { b with poison := true }) else bs), e) := by
  rw [lift_bind, h, pure_apply]

/-- A consumer's read of a slot that holds the bytes, while memory holds no latent error. -/
theorem slotRead_ok {u : UnitId} {e : QEntry} {k len : Nat} {d : Dev} (hf : len ≤ d.slotFill u.core e k)
    (hh : d.home (e.addr u.core k) = .coreMem u.core) (hs : d.Clean) :
    slotRead u e k 0 len d = (.ok (slotBytes d u.core e k len), d) := by
  have hwait : ¬ d.slotFill u.core e k < 0 + len := by omega
  rw [slotRead, dev_bind, waitIf_of (decide_eq_false hwait), pure_bind, Nat.add_zero]
  exact lift_readMem (Dev.readMem_sram hs u.req len (.inl hh)) _

end Run

theorem clean_of_sound {d : Dev} (h : Sound d) : d.Clean := by
  obtain ⟨hf, hs, ht⟩ := h
  exact ⟨hf, hs, ht⟩

/-! ### The device that an attempt starts with -/

namespace Dev

/-- An attempt's device: the operation is not stalled any more. -/
def attempted (d : Dev) (c id : Nat) : Dev := d.onHeld c id (fun x => { x with stalled := false })

theorem head_attempted (d : Dev) (c id q : Nat) : (d.attempted c id).head c q = d.head c q := head_onHeld ..
theorem tail_attempted (d : Dev) (c id q : Nat) : (d.attempted c id).tail c q = d.tail c q := tail_onHeld ..
theorem queue_attempted (d : Dev) (c id q : Nat) : (d.attempted c id).queue c q = d.queue c q := queue_onHeld ..

/-- Two devices that differ in their registers alone. -/
def RegsOnly (d e : Dev) : Prop := e = { d with regs := e.regs }

namespace RegsOnly

variable {d e f : Dev}

theorem refl (d : Dev) : RegsOnly d d := rfl

theorem after (k : RegsOnly e f) (h : RegsOnly d e) : RegsOnly d f := by
  rw [RegsOnly, k, h]

theorem ite {c : Prop} [Decidable c] (h : RegsOnly d e) (k : RegsOnly d f) : RegsOnly d (if c then e else f) := by
  split
  · exact h
  · exact k

theorem foldl {β : Type} {g : Dev → β → Dev} (h : ∀ d x, RegsOnly d (g d x)) : ∀ (l : List β) (d : Dev), RegsOnly d (l.foldl g d)
  | [], d => refl d
  | x :: l, d => (foldl h l (g d x)).after (h d x)

theorem wr (d : Dev) (r : Reg) (w j v : Nat) : RegsOnly d (d.wr r w j v) := rfl
theorem setFld (d : Dev) (x : Field) (w j v : Nat) : RegsOnly d (d.setFld x w j v) := rfl
theorem bump (d : Dev) (x : Field) (w j k : Nat) : RegsOnly d (d.bump x w j k) := rfl
theorem raise (d : Dev) (x : Field) (w j : Nat) : RegsOnly d (d.raise x w j) := rfl
theorem raiseIf (d : Dev) (b : Bool) (x : Field) (w j : Nat) : RegsOnly d (d.raiseIf b x w j) := ite (raise d x w j) (refl d)

theorem array (h : RegsOnly d e) (a : Nat) : e.array a = d.array a := by rw [h]; rfl
theorem mem (h : RegsOnly d e) : e.mem = d.mem := by rw [h]
theorem arrays (h : RegsOnly d e) : e.arrays = d.arrays := by rw [h]
theorem cores (h : RegsOnly d e) : e.cores = d.cores := by rw [h]
theorem env (h : RegsOnly d e) : e.env = d.env := by rw [h]
theorem core (h : RegsOnly d e) (c : Nat) : e.core c = d.core c := by rw [h]; rfl

end RegsOnly

theorem reportFlags_regsOnly (d : Dev) (n : Nat) (f : Flags) : RegsOnly d (d.reportFlags n f) :=
  (RegsOnly.foldl (g := fun d i => if bit f.toNat i then d.bump F.TEL_FLAG_CNT_ops 0 i 1 else d)
    (fun d i => .ite (.bump d F.TEL_FLAG_CNT_ops 0 i 1) (.refl d)) _ _).after (.setFld d F.CTX_FLAGS_flags 0 n _)

/-- Two devices that differ in their arrays, registers and free values alone. -/
def ArraysOnly (d e : Dev) : Prop := e = { d with arrays := e.arrays, regs := e.regs, fresh := e.fresh }

namespace ArraysOnly

variable {d e f : Dev}

theorem refl (d : Dev) : ArraysOnly d d := rfl

theorem after (k : ArraysOnly e f) (h : ArraysOnly d e) : ArraysOnly d f := by
  rw [ArraysOnly, k, h]

theorem of_regs (h : RegsOnly d e) : ArraysOnly d e := by
  rw [ArraysOnly, h]
theorem onArray (d : Dev) (a : Nat) (g : DArray → DArray) : ArraysOnly d (d.onArray a g) := rfl
theorem bump (d : Dev) (x : Field) (w j k : Nat) : ArraysOnly d (d.bump x w j k) := rfl
theorem raise (d : Dev) (x : Field) (w j : Nat) : ArraysOnly d (d.raise x w j) := rfl
theorem raiseIf (d : Dev) (b : Bool) (x : Field) (w j : Nat) : ArraysOnly d (d.raiseIf b x w j) := by cases b <;> rfl
theorem setTile (d : Dev) (a s : Nat) (t : Option Tile) : ArraysOnly d (d.setTile a s t) := rfl
theorem setBank (d : Dev) (a b : Nat) (x : Bank) : ArraysOnly d (d.setBank a b x) := rfl

theorem mem (h : ArraysOnly d e) : e.mem = d.mem := by rw [h]
theorem cores (h : ArraysOnly d e) : e.cores = d.cores := by rw [h]
theorem env (h : ArraysOnly d e) : e.env = d.env := by rw [h]

end ArraysOnly

theorem array_raiseIf (d : Dev) (b : Bool) (x : Field) (w j a : Nat) : (d.raiseIf b x w j).array a = d.array a := by cases b <;> rfl

theorem bufferErrors_none {d : Dev} (h : d.env.bufErrs = []) (a : Nat) : d.bufferErrors a = d := by rw [bufferErrors, h]; rfl

/-! ### Tiles -/

theorem tile_setTile (d : Dev) (a s : Nat) (t : Option Tile) : (d.setTile a s t).tile a s = t := by
  rw [tile, setTile, array_onArray]
  exact Sp.get_set_same (fun _ => none) _ _ _

theorem tile_setTile_other (d : Dev) {a s k : Nat} (t : Option Tile) (h : k ≠ s) : (d.setTile a s t).tile a k = d.tile a k := by
  rw [tile, setTile, array_onArray]
  exact Sp.get_set_other (fun _ => none) _ _ h

/-- The pair of a tile slot made invalid where a load breaks it. -/
def unpaired (d : Dev) (a : Nat) (w : DaWord) : Dev :=
  if w.slot % 2 = 1 then (match d.tile a w.slot with | some x => if x.codesOnly then d.setTile a (w.slot - 1) none else d
                                                      | none => d)
  else (match d.tile a (w.slot + 1) with | some x => if x.codesOnly then d.setTile a (w.slot + 1) none else d | none => d)

/-- A tile in its slot, with the mark of a paired slot. -/
def placed (d : Dev) (a : Nat) (w : DaWord) (t : Tile) : Dev :=
  if w.paired then ((d.unpaired a w).setTile a w.slot (some t)).setTile a (w.slot + 1) (some { codesOnly := true, pattern := 7 })
  else (d.unpaired a w).setTile a w.slot (some t)

/-- A device with the chaff of a tile counted. -/
def chaffNoted (d : Dev) (a ctx : Nat) (w : DaWord) (chaff : List (Nat × Nat)) : Dev :=
  match chaff with
  | [] => d
  | (j, n) :: _ =>
    ((if d.isSet F.DA_SP_ERR_chaff a then d else
      d.wr .DA_SP_CHAFF_INFO a 0 (physicalPosition w.pattern n * 2 ^ 32 + j * 2 ^ 16 + ctx % 16 * 2 ^ 8 + w.slot)).bump
        F.DA_SP_CHAFF_CNT_values a 0 chaff.length).raise F.DA_SP_ERR_chaff a

theorem loadTile_eq (d : Dev) (a ctx : Nat) (w : DaWord) (t : Tile) (chaff : List (Nat × Nat)) :
    d.loadTile a ctx w t chaff = (d.placed a w t).chaffNoted a ctx w chaff := by
  cases chaff <;> rfl

theorem chaffNoted_regsOnly (d : Dev) (a ctx : Nat) (w : DaWord) (chaff : List (Nat × Nat)) : RegsOnly d (d.chaffNoted a ctx w chaff) := by
  cases chaff with
  | nil => exact .refl d
  | cons x l => exact (RegsOnly.raise _ _ _ _).after ((RegsOnly.bump _ _ _ _ _).after (.ite (.refl d) (.wr d _ _ _ _)))

theorem unpaired_cases (d : Dev) (a : Nat) (w : DaWord) : d.unpaired a w = d ∨ ∃ k, d.unpaired a w = d.setTile a k none := by
  unfold unpaired
  split <;> split <;> try split
  all_goals first | exact .inl rfl | exact .inr ⟨_, rfl⟩

theorem array_setTile_other (d : Dev) {a x : Nat} (s : Nat) (t : Option Tile) (h : x ≠ a) : (d.setTile a s t).array x = d.array x :=
  array_onArray_other d _ h

theorem array_unpaired_other (d : Dev) {a x : Nat} (w : DaWord) (h : x ≠ a) : (d.unpaired a w).array x = d.array x := by
  obtain he | ⟨k, he⟩ := unpaired_cases d a w <;> rw [he]
  exact array_setTile_other d k none h

theorem unpaired_arraysOnly (d : Dev) (a : Nat) (w : DaWord) : ArraysOnly d (d.unpaired a w) := by
  obtain he | ⟨k, he⟩ := unpaired_cases d a w <;> rw [he] <;> rfl

theorem placed_arraysOnly (d : Dev) (a : Nat) (w : DaWord) (t : Tile) : ArraysOnly d (d.placed a w t) := by
  have h := unpaired_arraysOnly d a w
  unfold placed
  split
  · exact (ArraysOnly.setTile _ _ _ _).after ((ArraysOnly.setTile _ _ _ _).after h)
  · exact (ArraysOnly.setTile _ _ _ _).after h

theorem loadTile_arraysOnly (d : Dev) (a ctx : Nat) (w : DaWord) (t : Tile) (chaff : List (Nat × Nat)) :
    ArraysOnly d (d.loadTile a ctx w t chaff) := by
  rw [loadTile_eq]
  exact (ArraysOnly.of_regs (chaffNoted_regsOnly _ a ctx w chaff)).after (placed_arraysOnly d a w t)

theorem array_loadTile_other (d : Dev) {a x : Nat} (ctx : Nat) (w : DaWord) (t : Tile) (chaff : List (Nat × Nat)) (h : x ≠ a) :
    (d.loadTile a ctx w t chaff).array x = d.array x := by
  rw [loadTile_eq, (chaffNoted_regsOnly _ a ctx w chaff).array]
  unfold placed
  split
  · rw [array_setTile_other _ _ _ h, array_setTile_other _ _ _ h, array_unpaired_other d w h]
  · rw [array_setTile_other _ _ _ h, array_unpaired_other d w h]

theorem tile_loadTile (d : Dev) (a ctx : Nat) (w : DaWord) (t : Tile) (chaff : List (Nat × Nat)) :
    (d.loadTile a ctx w t chaff).tile a w.slot = some t := by
  rw [loadTile_eq, tile, (chaffNoted_regsOnly _ a ctx w chaff).array]
  show (d.placed a w t).tile a w.slot = _
  unfold placed
  split
  · rw [tile_setTile_other _ _ (by omega), tile_setTile]
  · rw [tile_setTile]

end Dev

namespace Dev

/-! ### The arrays at a queue's drain -/

theorem unitSpan_core (d : Dev) (c : Nat) {e : QEntry} (k : Nat) (h : e.home = 0) : d.unitSpan c e k = 1 := by
  simp [unitSpan, QEntry.blocks, h]

theorem drainKey_core (d : Dev) {k : Nat} (h : k < 16384) : d.drainKey k = d.setSlot k { owner := (d.slot k).owner } := by
  rw [drainKey, if_neg (not_le.mpr h)]

/-- The drain of a core-memory queue's head leaves the arrays. -/
theorem array_drainHead_core (d : Dev) {c : Nat} (q : Nat) {e : QEntry} (a : Nat) (hc : c < 4) (h : e.home = 0) :
    (d.drainHead c q e).array a = d.array a := by
  have hkeys : ∀ k, e.keys c k = [4096 * c + (e.stateIdx + k) % 4096] := fun k => by rw [QEntry.keys, if_pos h]
  rw [drainHead_eq, unitSpan_core d c _ h]
  show ((e.keys c ((d.head c q + 0) % e.count)).foldl drainKey d).array a = _
  rw [hkeys, List.foldl_cons, List.foldl_nil, drainKey_core d (by omega)]
  rfl

/-- A drain takes blocks of an array at most. -/
theorem array_drainKey (d : Dev) (k a : Nat) : ∃ b, (d.drainKey k).array a = { d.array a with blocks := b } := by
  unfold drainKey
  split
  · by_cases ha : a = (k - 16384) / 8
    · subst ha; exact ⟨_, array_onArray _ _ _⟩
    · exact ⟨(d.array a).blocks, array_onArray_other _ _ ha⟩
  · exact ⟨_, rfl⟩

theorem array_drainKeys (a : Nat) : ∀ (l : List Nat) (d : Dev), ∃ b, (l.foldl drainKey d).array a = { d.array a with blocks := b }
  | [], d => ⟨_, rfl⟩
  | k :: l, d => by
    obtain ⟨b, hb⟩ := array_drainKey d k a
    obtain ⟨b', hb'⟩ := array_drainKeys a l (d.drainKey k)
    exact ⟨b', by rw [List.foldl_cons, hb', hb]⟩

theorem array_drainHead (d : Dev) (c q : Nat) (e : QEntry) (a : Nat) : ∃ b, (d.drainHead c q e).array a = { d.array a with blocks := b } := by
  rw [drainHead_eq, drainSlots_eq]
  exact array_drainKeys a _ d

end Dev

/-! ### DA_TILE -/

namespace Run

/-- The tile that a DA_TILE finds in a slot, with its chaff. -/
def tileFound (d : Dev) (c : Nat) (w : DaWord) (q : QEntry) (k : Nat) : Tile × List (Nat × Nat) :=
  dropChaff w (tileOf w (slotSource d c q k) (slotBytes d c q k w.layout.bytes))

/-- One array's part of a DA_TILE. -/
def loadOne (u : UnitId) (w : DaWord) (t : Tile) (chaff : List (Nat × Nat)) (dirty : Bool) (a : Nat) : Run Unit := do
  upd (fun d => (d.loadTile a u.ctx w t chaff).raiseIf dirty F.DA_ERR_STATUS_operand_poison a)
  upd (fun d => d.bufferErrors a)

theorem loadOne_ok {d0 d : Dev} (u : UnitId) (w : DaWord) (t : Tile) (chaff : List (Nat × Nat)) (dirty : Bool) (a : Nat)
    (hd : Dev.ArraysOnly d0 d) (henv : d0.env.bufErrs = []) : ∃ e, loadOne u w t chaff dirty a d = (.ok (), e) ∧ Dev.ArraysOnly d0 e ∧
      (∀ x, x ≠ a → e.array x = d.array x) ∧ Sp.get (fun _ => none) (e.array a).tiles w.slot = some t := by
  have honly : Dev.ArraysOnly d0 ((d.loadTile a u.ctx w t chaff).raiseIf dirty F.DA_ERR_STATUS_operand_poison a) :=
    (Dev.ArraysOnly.raiseIf _ _ _ _ _).after ((Dev.loadTile_arraysOnly d a u.ctx w t chaff).after hd)
  have hnone := Dev.bufferErrors_none (d := (d.loadTile a u.ctx w t chaff).raiseIf dirty F.DA_ERR_STATUS_operand_poison a)
    (by rw [honly.env]; exact henv) a
  refine ⟨_, rfl, ?_, fun x hx => ?_, ?_⟩
  · show Dev.ArraysOnly d0 (Dev.bufferErrors _ a)
    rw [hnone]; exact honly
  · show (Dev.bufferErrors _ a).array x = _
    rw [hnone, Dev.array_raiseIf, Dev.array_loadTile_other d _ w t chaff hx]
  · show Sp.get _ ((Dev.bufferErrors _ a).array a).tiles w.slot = _
    rw [hnone, Dev.array_raiseIf]
    exact Dev.tile_loadTile d a u.ctx w t chaff

theorem daTile_ok {u : UnitId} {o : Op} {d : Dev} {q : QEntry} (hw : ArrayWord d u.core o) (hf : ArrayFormats (DaWord.of o))
    (hp : (DaWord.of o).paired = true → (DaWord.of o).slot % 2 = 0) (hq : d.queue u.core (DaWord.of o).src = some q) (hh : q.home = 0)
    (hl : LinksUp d u.core 0 (DaWord.of o)) (hlen : (DaWord.of o).layout.bytes ≤ d.slotFill u.core q (d.head u.core (DaWord.of o).src))
    (hhome : d.home (q.addr u.core (d.head u.core (DaWord.of o).src)) = .coreMem u.core) (hs : d.Clean) (henv : d.env.bufErrs = []) :
    ∃ e, daTile u o d = (.ok (), e.drainHead u.core (DaWord.of o).src q) ∧ Dev.ArraysOnly d e ∧
      (∀ a ∈ (DaWord.of o).arrays u.core, e.tile a (DaWord.of o).slot =
        some (tileFound d u.core (DaWord.of o) q (d.head u.core (DaWord.of o).src)).1) ∧
      ∀ a, a ∉ (DaWord.of o).arrays u.core → e.array a = d.array a := by
  obtain ⟨e, hrun, honly, hin, hout⟩ := forM_local (P := Dev.ArraysOnly d) (obs := Dev.array)
    (R := fun _ _ y => Sp.get (fun _ => none) y.tiles (DaWord.of o).slot =
      some (tileFound d u.core (DaWord.of o) q (d.head u.core (DaWord.of o).src)).1)
    (f := loadOne u (DaWord.of o) (tileFound d u.core (DaWord.of o) q (d.head u.core (DaWord.of o).src)).1
      (tileFound d u.core (DaWord.of o) q (d.head u.core (DaWord.of o).src)).2
      ((slotBytes d u.core q (d.head u.core (DaWord.of o).src) (DaWord.of o).layout.bytes).any PByte.poison))
    (fun _ => True) (fun a x _ hx => loadOne_ok u _ _ _ _ a hx henv) ((DaWord.of o).arrays u.core) d (fun _ _ => trivial)
    (DaWord.arrays_nodup _ _) (.refl d)
  refine ⟨e, ?_, honly, hin, hout⟩
  have hpair : ((DaWord.of o).mode = 3 || !isOperand (DaWord.of o).aFmt || !isOperand (DaWord.of o).wFmt || decide (5 ≤ (DaWord.of o).pattern)
      || ((DaWord.of o).mode = 2 && (DaWord.of o).pattern ≠ 0) || ((DaWord.of o).paired && (DaWord.of o).slot % 2 = 1) : Bool) = false := by
    rw [formats_ok hf, Bool.false_or, Bool.and_eq_false_iff]
    by_cases hpd : (DaWord.of o).paired = true
    · exact .inr (decide_eq_false (by have := hp hpd; omega))
    · exact .inl (Bool.eq_false_iff.mpr hpd)
  rw [daTile, bind_ok (daWord_ok hw)]
  rw [faultAt_of hpair, pure_bind, bind_ok (daQueue_ok hq (by simp [hh])), bind_ok (daLink_ok hl _), dev_bind,
    bind_ok (slotRead_ok hlen hhome hs)]
  exact bind_ok hrun

end Run

end Sys2Proof.Machine

namespace Sys2Proof.Proofs

open Sys2Proof.Machine Sys2Proof.Claims

/-- Settles O23: each selected array's slot takes the tile that the head slot spells, and the head moves on. -/
theorem tileLoads : Obligations.TileLoads := by
  intro s c env o d q w k hx hw hf hp hq hh hl hlen hhome hs henv
  have hframe := hx.frame
  have henv' : d.env.bufErrs = [] := by rw [hframe]; exact henv
  obtain ⟨e, hrun, honly, htile, harray⟩ := Run.daTile_ok (u := d.unitOf c o (Dev.execEngine c o)) (d := d.attempted c o.id) (q := q)
    hw hf hp ((Dev.queue_attempted d c o.id w.src).trans hq) hh hl ((Dev.head_attempted d c o.id w.src).symm ▸ hlen)
    ((Dev.head_attempted d c o.id w.src).symm ▸ hhome) (clean_of_sound hs) henv'
  have hunit : (d.unitOf c o (Dev.execEngine c o)).core = c.val := rfl
  rw [hunit] at htile harray
  have hhead : e.head c w.src = k := by
    rw [Dev.head, Dev.core, honly.cores]
    exact Dev.head_attempted d c o.id w.src
  have hdrained : ∀ a, (e.drainHead c w.src q).array a = e.array a := fun a => Dev.array_drainHead_core e w.src a c.isLt hh
  refine ⟨_, hx.ends hrun, fun a ha => ?_, fun a ha => ?_, ?_, fun x => ?_, gone_left _ _ _ _⟩
  · rw [left, Dev.tile, Dev.array_settle]
    show Sp.get _ ((e.drainHead c w.src q).array a).tiles w.slot = _
    rw [hdrained]
    refine (htile a ha).trans ?_
    rw [Dev.head_attempted]
    rfl
  · rw [left, Dev.array_settle]
    show (e.drainHead c w.src q).array a = _
    rw [hdrained, harray a ha, hframe]
    rfl
  · rw [left, Dev.head_settle, Dev.head_dropOp]
    show (e.drainHead c w.src q).head c w.src = _
    rw [Dev.head_drainHead, hhead, Dev.unitSpan_core e c k hh]
  · rw [left, Dev.cell_settle, Dev.cell]
    show Sp.get _ (e.drainHead c w.src q).mem.cells x = _
    rw [Dev.cells_drainHead, honly.mem, hframe]
    rfl

end Sys2Proof.Proofs
end

section
/-!
PROOFS. DA_IMPORT and DA_SYNC: words combined into a bank's accumulators.
-/

namespace Sys2Proof.Machine

open Sys2Proof.Claims

/-! ### Accumulators combined into a bank -/

namespace Dev

/-- One accumulator combined into a table, with the mark of differing anchors. -/
def combineOne (t : List (Nat × Acc) × Bool) (p : Nat × Acc) : List (Nat × Acc) × Bool :=
  (Sp.set (fun _ => ({} : Acc)) t.1 p.1 (Acc.combine (Sp.get (fun _ => ({} : Acc)) t.1 p.1) p.2).1, t.2 || (Acc.combine (Sp.get (fun _ => ({} : Acc)) t.1 p.1) p.2).2)

theorem combineInto_eq (acc parts : List (Nat × Acc)) : combineInto acc parts = parts.foldl combineOne (acc, false) := rfl

/-- A place that no part names keeps its accumulator. -/
theorem get_combine_other {k : Nat} : ∀ (parts : List (Nat × Acc)) (t : List (Nat × Acc) × Bool), k ∉ parts.map Prod.fst →
    Sp.get (fun _ => ({} : Acc)) (parts.foldl combineOne t).1 k = Sp.get (fun _ => ({} : Acc)) t.1 k
  | [], _, _ => rfl
  | p :: parts, t, h => by
    rw [List.map_cons, List.mem_cons, not_or] at h
    rw [List.foldl_cons, get_combine_other parts _ h.2]
    exact Sp.get_set_other (fun _ => ({} : Acc)) _ _ h.1

/-- A place that one part names takes it. -/
theorem get_combine_of_mem {k : Nat} {x : Acc} : ∀ (parts : List (Nat × Acc)) (t : List (Nat × Acc) × Bool), (parts.map Prod.fst).Nodup →
    (k, x) ∈ parts → Sp.get (fun _ => ({} : Acc)) (parts.foldl combineOne t).1 k = (Acc.combine (Sp.get (fun _ => ({} : Acc)) t.1 k) x).1
  | p :: parts, t, hn, h => by
    rw [List.map_cons, List.nodup_cons] at hn
    rw [List.foldl_cons]
    by_cases hk : p.1 = k
    · obtain rfl : p = (k, x) := by
        obtain h | h := List.mem_cons.mp h
        · exact h.symm
        · exact absurd (List.mem_map.mpr ⟨(k, x), h, hk.symm⟩) hn.1
      rw [get_combine_other parts _ hn.1]
      exact Sp.get_set_same (fun _ => ({} : Acc)) _ _ _
    · have hmem : (k, x) ∈ parts := (List.mem_cons.mp h).resolve_left fun he => hk (congrArg Prod.fst he.symm)
      rw [get_combine_of_mem parts _ hn.2 hmem]
      congr 2
      exact Sp.get_set_other (fun _ => ({} : Acc)) _ _ (Ne.symm hk)

theorem recordUnit_cases (b : Bank) (src : Option (Nat × Nat)) : (recordUnit b src).acc = b.acc ∧ (recordUnit b src).busy = b.busy ∧
    (recordUnit b src).started = b.started ∧ (recordUnit b src).outputs = b.outputs := by
  unfold recordUnit
  split
  · exact ⟨rfl, rfl, rfl, rfl⟩
  · split
    · exact ⟨rfl, rfl, rfl, rfl⟩
    · split
      · exact ⟨rfl, rfl, rfl, rfl⟩
      · split <;> exact ⟨rfl, rfl, rfl, rfl⟩

/-- A bank as a pass or an import begins with it. -/
def begunBank (w : DaWord) (b0 : Bank) : Bank :=
  if w.acc then (if b0.started then b0 else { b0 with started := true, outputs := w.outputs }) else { started := true, outputs := w.outputs }

theorem get_begunBank (w : DaWord) (b0 : Bank) (k : Nat) : Sp.get (fun _ => ({} : Acc)) (begunBank w b0).acc k = oldAcc w b0 k := by
  unfold begunBank oldAcc
  split
  · split <;> rfl
  · rfl

theorem started_begunBank (w : DaWord) (b0 : Bank) : (begunBank w b0).started = true := by
  unfold begunBank
  split
  · split
    · assumption
    · rfl
  · rfl

theorem bank_setBank (d : Dev) (a b : Nat) (x : Bank) : (d.setBank a b x).bank a b = x := by
  rw [bank, setBank, array_onArray]
  exact Sp.get_set_same (fun _ => ({} : Bank)) _ _ _

/-- The words of an import that are an array's share. -/
def importWords (w : DaWord) (es : List Elem) (a : Nat) : List Elem :=
  (es.drop ((if w.sel = 3 ∧ a % 2 = 1 then Run.evenShare w.rows else 0) * w.outputs)).take (w.share a * w.outputs)

/-- The accumulators of a list of words, in order. -/
def importParts (mine : List Elem) : List (Nat × Acc) := mine.zipIdx.map (fun (x, i) => (i, Acc.ofWord x.code))

/-- A bank after an import. -/
def importBank (w : DaWord) (es : List Elem) (src : Option (Nat × Nat)) (a : Nat) (b0 : Bank) : Bank :=
  recordUnit { begunBank w b0 with
    acc := (combineInto (begunBank w b0).acc (importParts (importWords w es a))).1
    redo := (combineInto (begunBank w b0).redo (importParts (importWords w es a))).1
    busy := true, rows := max (begunBank w b0).rows (w.share a)
    outPoison := ((importWords w es a).zipIdx.filter (fun (x, _) => x.poison)).foldl
      (fun p (_, i) => Sp.set (fun _ => false) p (i % w.outputs) true) (begunBank w b0).outPoison } src

theorem importParts_nodup (mine : List Elem) : ((importParts mine).map Prod.fst).Nodup := by
  have hfst : (importParts mine).map Prod.fst = mine.zipIdx.map Prod.snd := by
    rw [importParts, List.map_map]; rfl
  rw [hfst, List.zipIdx_map_snd]
  exact List.nodup_range'

/-- An accumulator after an import is the one before combined with its word. -/
theorem get_importBank {w : DaWord} {es : List Elem} (src : Option (Nat × Nat)) {a i : Nat} (b0 : Bank) {x : Elem} (hi : i < w.share a * w.outputs)
    (hx : es[(if w.sel = 3 ∧ a % 2 = 1 then Run.evenShare w.rows else 0) * w.outputs + i]? = some x) :
    Sp.get (fun _ => ({} : Acc)) (importBank w es src a b0).acc i = (Acc.combine (oldAcc w b0 i) (Acc.ofWord x.code)).1 := by
  have hmine : (importWords w es a)[i]? = some x := by
    rw [importWords, List.getElem?_take, if_pos hi, List.getElem?_drop, hx]
  have hmem : (i, Acc.ofWord x.code) ∈ importParts (importWords w es a) :=
    List.mem_map.mpr ⟨(x, i), List.mem_zipIdx_iff_getElem?.mpr hmine, rfl⟩
  rw [importBank, (recordUnit_cases _ src).1, combineInto_eq, get_combine_of_mem _ _ (importParts_nodup _) hmem, get_begunBank]

theorem busy_importBank (w : DaWord) (es : List Elem) (src : Option (Nat × Nat)) (a : Nat) (b0 : Bank) :
    (importBank w es src a b0).busy = true := (recordUnit_cases _ src).2.1

end Dev

/-! ### DA_IMPORT and DA_SYNC -/

namespace Run

/-- One array's part of a DA_IMPORT. -/
def importOne (w : DaWord) (es : List Elem) (src : Option (Nat × Nat)) (a : Nat) : Run Flags := do
  let d ← dev
  upd (fun e => (e.setBank a w.bank (Dev.importBank w es src a (d.bank a w.bank))).raiseIf
    (!((Dev.importWords w es a).zipIdx.filter (fun (x, _) => x.poison)).isEmpty) F.DA_ERR_STATUS_operand_poison a)
  pure { anchorMismatch := (Dev.combineInto (Dev.begunBank w (d.bank a w.bank)).acc (Dev.importParts (Dev.importWords w es a))).2 }

theorem importOne_ok (w : DaWord) (es : List Elem) (src : Option (Nat × Nat)) {d0 d : Dev} (a : Nat) (hd : Dev.ArraysOnly d0 d) :
    ∃ r e, importOne w es src a d = (.ok r, e) ∧ Dev.ArraysOnly d0 e ∧ (∀ x, x ≠ a → e.array x = d.array x) ∧
      Sp.get (fun _ => ({} : Bank)) (e.array a).banks w.bank = Dev.importBank w es src a (Sp.get (fun _ => ({} : Bank)) (d.array a).banks w.bank) := by
  refine ⟨_, _, rfl, (Dev.ArraysOnly.raiseIf _ _ _ _ _).after ((Dev.ArraysOnly.setBank _ _ _ _).after hd), fun x hx => ?_, ?_⟩
  · exact (Dev.array_raiseIf _ _ _ _ _ _).trans (Dev.array_onArray_other _ _ hx)
  · exact (congrArg (fun y : DArray => Sp.get (fun _ => ({} : Bank)) y.banks w.bank) (Dev.array_raiseIf _ _ _ _ _ _)).trans (Dev.bank_setBank _ _ _ _)

/-- What DA_IMPORT asks of an array before it reads its slot. -/
def ImportFits (d : Dev) (w : DaWord) (a : Nat) : Prop :=
  w.share a * w.outputs ≤ 65536 ∧ (w.mode = 1 → w.share a ≤ w.maxRows) ∧
    (w.acc = true → (d.bank a w.bank).started = true → (d.bank a w.bank).outputs = w.outputs)

theorem importFits_ok {d : Dev} {w : DaWord} {a : Nat} (h : ImportFits d w a) : (decide (65536 < w.share a * w.outputs) ||
    (w.mode = 1 && decide (w.maxRows < w.share a)) || (w.acc && (d.bank a w.bank).started && (d.bank a w.bank).outputs ≠ w.outputs) : Bool) = false := by
  obtain ⟨hsize, hrows, hout⟩ := h
  simp only [Bool.or_eq_false_iff, decide_eq_false_iff_not, Bool.and_eq_false_iff, not_lt]
  refine ⟨⟨hsize, ?_⟩, ?_⟩
  · by_cases hm : w.mode = 1
    · exact .inr (hrows hm)
    · exact .inl hm
  · by_cases ha : w.acc = true
    · by_cases hs : (d.bank a w.bank).started = true
      · exact .inr (fun h => h (hout ha hs))
      · exact .inl (.inr (Bool.eq_false_iff.mpr hs))
    · exact .inl (.inl (Bool.eq_false_iff.mpr ha))

theorem rows_ok {w : DaWord} (hf : ArrayFormats w) (hr : w.sel ≠ 3 → w.rows ≤ 128) : (w.mode = 3 || !isOperand w.aFmt || !isOperand w.wFmt ||
    decide (5 ≤ w.pattern) || (w.mode = 2 && w.pattern ≠ 0) || (w.sel ≠ 3 && decide (128 < w.rows)) : Bool) = false := by
  rw [formats_ok hf, Bool.false_or, Bool.and_eq_false_iff]
  by_cases h3 : w.sel = 3
  · exact .inl (by simp [h3])
  · exact .inr (decide_eq_false (not_lt.mpr (hr h3)))

theorem daImport_ok {u : UnitId} {o : Op} {d : Dev} {q : QEntry} {w : DaWord} (hwo : DaWord.of o = w) (hw : ArrayWord d u.core o)
    (hf : ArrayFormats w) (hr : w.sel ≠ 3 → w.rows ≤ 128) (hq : d.queue u.core w.src = some q) (hh : q.home = 0)
    (hl : LinksUp d u.core 0 w) (hfit : ∀ a ∈ w.arrays u.core, ImportFits d w a) (hslot : w.rows * w.outputs * 16 ≤ q.slotLen)
    (hlen : w.rows * w.outputs * 16 ≤ d.slotFill u.core q (d.head u.core w.src))
    (hhome : d.home (q.addr u.core (d.head u.core w.src)) = .coreMem u.core) (hs : d.Clean) :
    ∃ e f, daImport u o d = (.ok (), (e.drainHead u.core w.src q).reportFlags u.ctx f) ∧ Dev.ArraysOnly d e ∧
      ∀ a ∈ w.arrays u.core, e.bank a w.bank = Dev.importBank w (cutElems 128 0 (w.rows * w.outputs)
        (Dev.transit 0 (slotBytes d u.core q (d.head u.core w.src) (w.rows * w.outputs * 16))))
          (slotSource d u.core q (d.head u.core w.src)) a (d.bank a w.bank) := by
  subst hwo
  obtain ⟨rs, e, hrun, honly, hin, -⟩ := mapM_local (P := Dev.ArraysOnly d) (obs := Dev.array)
    (R := fun a x y => Sp.get (fun _ => ({} : Bank)) y.banks (DaWord.of o).bank = Dev.importBank (DaWord.of o)
      (cutElems 128 0 ((DaWord.of o).rows * (DaWord.of o).outputs)
        (Dev.transit 0 (slotBytes d u.core q (d.head u.core (DaWord.of o).src) ((DaWord.of o).rows * (DaWord.of o).outputs * 16))))
      (slotSource d u.core q (d.head u.core (DaWord.of o).src)) a (Sp.get (fun _ => ({} : Bank)) x.banks (DaWord.of o).bank))
    (f := importOne (DaWord.of o) (cutElems 128 0 ((DaWord.of o).rows * (DaWord.of o).outputs)
        (Dev.transit 0 (slotBytes d u.core q (d.head u.core (DaWord.of o).src) ((DaWord.of o).rows * (DaWord.of o).outputs * 16))))
      (slotSource d u.core q (d.head u.core (DaWord.of o).src)))
    (fun _ => True) (fun a x _ hx => importOne_ok _ _ _ a hx) ((DaWord.of o).arrays u.core) d (fun _ _ => trivial)
    (DaWord.arrays_nodup _ _) (.refl d)
  refine ⟨e, Flags.orAll rs, ?_, honly, hin⟩
  rw [daImport, bind_ok (daWord_ok hw), faultAt_of (rows_ok hf hr), pure_bind, bind_ok (daQueue_ok hq (by simp [hh])), bind_ok (daLink_ok hl _)]
  rw [bind_ok (forM_same _ fun a ha => by rw [dev_bind, faultAt_of (importFits_ok (hfit a ha))]; rfl),
    faultAt_of (decide_eq_false (not_lt.mpr hslot)), pure_bind, dev_bind, bind_ok (slotRead_ok hlen hhome hs)]
  exact bind_ok hrun

theorem daSync_ok {u : UnitId} {o : Op} {d : Dev} (hw : ArrayWord d u.core o) : daSync u o d = (.ok (), d) := by
  rw [daSync, bind_ok (daWord_ok hw)]
  rfl

end Run

end Sys2Proof.Machine

namespace Sys2Proof.Proofs

open Sys2Proof.Machine Sys2Proof.Claims

/-- Settles O26: each array's accumulators are combined with their words of the head slot, and the head moves on; DA_SYNC's word alone is
judged. -/
theorem importAccumulates : Obligations.ImportAccumulates := by
  refine ⟨fun s c env o d q => ?_, fun s c env o d hx hw => ?_⟩
  · intro w k n words hx hw hf hr hq hh hl hfit hslot hlen hhome hs
    have hframe := hx.frame
    obtain ⟨e, f, hrun, honly, hin⟩ := Run.daImport_ok (u := d.unitOf c o (Dev.execEngine c o)) (d := d.attempted c o.id) (q := q) (w := w) rfl
      hw hf hr ((Dev.queue_attempted d c o.id w.src).trans hq) hh hl (fun a ha => hfit a ha) hslot
      ((Dev.head_attempted d c o.id w.src).symm ▸ hlen) ((Dev.head_attempted d c o.id w.src).symm ▸ hhome) (clean_of_sound hs)
    have hunit : (d.unitOf c o (Dev.execEngine c o)).core = c.val := rfl
    rw [hunit] at hin
    have hhead : e.head c w.src = k := by
      rw [Dev.head, Dev.core, honly.cores]
      exact Dev.head_attempted d c o.id w.src
    have hflags : (e.drainHead c w.src q).RegsOnly ((e.drainHead c w.src q).reportFlags o.ctx f) := Dev.reportFlags_regsOnly _ _ _
    have hbank : ∀ a ∈ w.arrays c, (Dev.settle s.dev (((e.drainHead c w.src q).reportFlags o.ctx f).dropOp c o.id)).bank a w.bank =
        Dev.importBank w words (slotSource d c q k) a (d.bank a w.bank) := fun a ha => by
      rw [Dev.bank, Dev.array_settle]
      show Sp.get _ (((e.drainHead c w.src q).reportFlags o.ctx f).array a).banks w.bank = _
      rw [hflags.array, Dev.array_drainHead_core e w.src a c.isLt hh]
      refine (hin a ha).trans ?_
      rw [Dev.head_attempted]
      rfl
    refine ⟨_, hx.ends hrun, gone_left _ _ _ _, fun a ha => ⟨?_, fun i hi x hxe => ?_⟩, ?_, fun x => ?_⟩
    · rw [left]
      exact (congrArg Bank.busy (hbank a ha)).trans (Dev.busy_importBank _ _ _ _ _)
    · rw [left]
      exact (congrArg (fun b : Bank => Sp.get (fun _ => ({} : Acc)) b.acc i) (hbank a ha)).trans (Dev.get_importBank _ _ hi hxe)
    · rw [left, Dev.head_settle, Dev.head_dropOp]
      show ((e.drainHead c w.src q).reportFlags o.ctx f).head c w.src = _
      rw [Dev.head, hflags.core, ← Dev.head, Dev.head_drainHead, hhead, Dev.unitSpan_core e c k hh]
    · rw [left, Dev.cell_settle, Dev.cell]
      show Sp.get _ ((e.drainHead c w.src q).reportFlags o.ctx f).mem.cells x = _
      rw [hflags.mem, Dev.cells_drainHead, honly.mem, hframe]
      rfl
  · have hframe := hx.frame
    have hrun := Run.daSync_ok (u := d.unitOf c o (Dev.execEngine c o)) (d := d.attempted c o.id) hw
    refine ⟨_, hx.ends hrun, fun x hxe => ?_, ?_, ?_, ?_⟩
    · rw [Dev.core_dropOp] at hxe
      simpa using (List.mem_filter.mp hxe).2
    all_goals
      rw [hframe]
      rfl

end Sys2Proof.Proofs
end

section
/-!
PROOFS. DA_EXPORT: a bank's outputs written into the tail slot of a queue.
-/

namespace Sys2Proof.Machine

open Sys2Proof.Claims

namespace Dev

/-! ### A write of core memory and the slots' states -/

theorem mem_foldl_slots {β : Type} {f : Dev → β → Dev} (h : ∀ d x, (f d x).mem.slots = d.mem.slots) : ∀ (l : List β) (d : Dev),
    (l.foldl f d).mem.slots = d.mem.slots
  | [], _ => rfl
  | x :: l, d => (mem_foldl_slots h l (f d x)).trans (h d x)

theorem slots_writeGranule {d : Dev} (size g a : Nat) (bs : List PByte) {t : Dev → Nat → Dev} (ht : ∀ w, (t d w).mem.slots = d.mem.slots) :
    (d.writeGranule size g a bs t).mem.slots = d.mem.slots := by
  have htouch : (if max a g = g ∧ min (a + bs.length) (g + size) = g + size then (if size = 8 then d.setFlips g [] else d.setSymErrs g [])
      else t d g).mem.slots = d.mem.slots := by
    split
    · split <;> rfl
    · exact ht g
  unfold writeGranule
  dsimp only
  refine (mem_foldl_slots (f := fun d w => d.setPoison w _) (fun _ _ => rfl) _ _).trans ?_
  exact (mem_foldl_slots (f := fun d (x : PByte × Nat) => d.setCell (max a g + x.2) x.1.val) (fun _ _ => rfl) _ _).trans htouch

/-- A write of core memory without latent errors leaves the states of the slots. -/
theorem slots_writeMem {d : Dev} (h : d.Clean) (rq : Req) {a c : Nat} (bs : List PByte) (hh : d.home a = .coreMem c) :
    (d.writeMem rq a bs).mem.slots = d.mem.slots := by
  have hfold : ∀ (l : List Nat) (e : Dev), e.Clean → (∀ g ∈ l, a < g + 8 ∧ g < a + bs.length) →
      (l.foldl (fun d g => d.writeGranule 8 g a bs (fun d w => d.touchWord (.cmem c) rq false w)) e).mem.slots = e.mem.slots := fun l => by
    induction l with
    | nil => exact fun _ _ _ => rfl
    | cons g l ih =>
      intro e he hl
      have hword : ∀ (e : Dev) (w : Nat), e.Clean → Quiet e (e.touchWord (.cmem c) rq false w) := fun e w he => by
        rw [touchWord_clean he]; exact .refl he
      have hst := stored_writeGranule he (hl g List.mem_cons_self) hword
      rw [List.foldl_cons, ih _ hst.clean fun x hx => hl x (List.mem_cons_of_mem _ hx)]
      exact slots_writeGranule 8 g a bs fun w => by rw [touchWord_clean he]
  unfold writeMem
  rw [hh]
  exact hfold _ d h fun g hg => granule_meets (by decide) hg

/-! ### A slot filled in one go -/

theorem keys_core {e : QEntry} (c k : Nat) (h : e.home = 0) : e.keys c k = [4096 * c + (e.stateIdx + k) % 4096] := by rw [QEntry.keys, if_pos h]

theorem slotFull_fillTo {d : Dev} {key len : Nat} (poison : Bool) (src : Option (Nat × Nat)) (hf : (d.slot key).full = false) :
    ((d.fillTo key len len poison src).slot key).full = true := by
  rw [fillTo, hf]
  simp only [Bool.false_eq_true, if_false, slot_setSlot, if_true, beq_iff_eq]
  omega

theorem tail_moveTail (d : Dev) (c q n : Nat) (e : QEntry) : (d.moveTail c q n e).tail c q = (d.tail c q + n) % e.count := by
  rw [tail, moveTail, core_onCore]
  exact Sp.get_set_same (fun _ => 0) _ _ _

/-- A unit of bytes written whole into a tail slot: the bytes are stored, the slot is full, the tail moves on. -/
def produced (d : Dev) (rq : Req) (c q : Nat) (e : QEntry) (bs : List PByte) : Dev :=
  ((e.keys c (d.tail c q)).foldl (fun d x => d.fillTo x e.slotLen e.slotLen (bs.any PByte.poison) none)
    (d.writeMem rq (e.addr c (d.tail c q)) bs)).moveTail c q 1 e

theorem fillTo_slots (d : Dev) (key n len : Nat) (p : Bool) (src : Option (Nat × Nat)) : (d.fillTo key n len p src).mem.cells = d.mem.cells ∧
    (d.fillTo key n len p src).cores = d.cores ∧ (d.fillTo key n len p src).arrays = d.arrays := by
  unfold fillTo
  dsimp only
  split <;> exact ⟨rfl, rfl, rfl⟩

theorem produced_one {d : Dev} (rq : Req) {c q key : Nat} {e : QEntry} (bs : List PByte) (h : e.keys c (d.tail c q) = [key]) :
    d.produced rq c q e bs = ((d.writeMem rq (e.addr c (d.tail c q)) bs).fillTo key e.slotLen e.slotLen
      (bs.any PByte.poison) none).moveTail c q 1 e := by
  rw [produced, h, List.foldl_cons, List.foldl_nil]

section Produced

variable (d : Dev) (rq : Req) {c q key : Nat} {e : QEntry} (bs : List PByte)

theorem array_moveTail (n x : Nat) (d : Dev) : (d.moveTail c q n e).array x = d.array x := rfl

theorem array_produced (h : e.keys c (d.tail c q) = [key]) (a : Nat) : (d.produced rq c q e bs).array a = d.array a := by
  have hfill : ((d.writeMem rq (e.addr c (d.tail c q)) bs).fillTo key e.slotLen e.slotLen (bs.any PByte.poison) none).array a = d.array a := by
    rw [array, (fillTo_slots _ key _ _ _ none).2.2, (writeMem_memOnly d rq _ bs).arrays, array]
  rw [produced_one rq bs h, array_moveTail, hfill]

theorem tail_produced (h : e.keys c (d.tail c q) = [key]) : (d.produced rq c q e bs).tail c q = (d.tail c q + 1) % e.count := by
  have hfill : ((d.writeMem rq (e.addr c (d.tail c q)) bs).fillTo key e.slotLen e.slotLen (bs.any PByte.poison) none).tail c q = d.tail c q := by
    rw [tail, core, (fillTo_slots _ key _ _ _ none).2.1, (writeMem_memOnly d rq _ bs).cores, tail, core]
  rw [produced_one rq bs h, tail_moveTail, hfill]

theorem cell_moveTail (n x : Nat) (d : Dev) : (d.moveTail c q n e).cell x = d.cell x := rfl

theorem cell_produced (h : e.keys c (d.tail c q) = [key]) (x : Nat) :
    (d.produced rq c q e bs).cell x = (d.writeMem rq (e.addr c (d.tail c q)) bs).cell x := by
  rw [produced_one rq bs h, cell_moveTail, cell, (fillTo_slots _ key _ _ _ none).1, cell]

theorem slot_moveTail (n x : Nat) (d : Dev) : (d.moveTail c q n e).slot x = d.slot x := rfl

theorem slotFull_produced {d : Dev} (h : e.keys c (d.tail c q) = [key]) (hs : d.Clean) (he : d.slotEmpty c e (d.tail c q) = true)
    (hh : d.home (e.addr c (d.tail c q)) = .coreMem c) : (d.produced rq c q e bs).slotFull c e (d.tail c q) = true := by
  have hempty : (d.slot key).full = false := by
    rw [slotEmpty, h] at he
    simp only [List.all_cons, List.all_nil, Bool.and_true, Bool.and_eq_true, Bool.not_eq_true'] at he
    exact he.2
  have hslot : ((d.writeMem rq (e.addr c (d.tail c q)) bs).slot key).full = false := by
    rw [slot, slots_writeMem hs rq bs hh]
    exact hempty
  rw [slotFull, h, List.all_cons, List.all_nil, Bool.and_true, produced_one rq bs h, slot_moveTail]
  exact slotFull_fillTo _ none hslot

end Produced

end Dev

namespace Run

theorem produce_ok {u : UnitId} {q : Nat} {e : QEntry} {d : Dev} (bs : List PByte) (he : d.slotEmpty u.core e (d.tail u.core q) = true) :
    produce u q e bs d = (.ok (), d.produced u.req u.core q e bs) := by
  rw [produce, dev_bind, he, Bool.not_true, waitIf_false, pure_bind]
  rfl

/-! ### DA_EXPORT -/

theorem reportMisses_none (u : UnitId) (b : Bank) (d : Dev) : reportMisses u b [] d = (.ok (), d) := by
  have hnone : (b.auditAt.forM (fun (entry, off, mask) => do
      let mine := ([] : List Nat).filter (fun k => bit mask k)
      mine.forM (fun k => do
        let i := off + k
        let va := entry + 0xC0 + i / 8
        let old ← vread u.req va 1
        let v := leNat (old.map PByte.val)
        vwrite u.req va [{ val := BitVec.ofNat 8 (v ||| 2 ^ (i % 8)), poison := old.any PByte.poison }])) : Run Unit) d = (.ok (), d) :=
    forM_same _ fun _ _ => rfl
  rw [reportMisses, bind_ok hnone]
  rfl

theorem arbitrate_of_sound {d : Dev} {a bk : Nat} (h : (d.bank a bk).suspect = false) : d.arbitrate a bk = ((false, d.bank a bk), d) := by
  rw [Dev.arbitrate, h]
  rfl

theorem auditMisses_none {d : Dev} (c : Nat) {b : Bank} (rows : Nat) (h : b.audit = 0) : d.auditMisses c b rows = [] := by
  rw [Dev.auditMisses, h]
  refine List.filter_eq_nil_iff.mpr fun k _ => ?_
  simp [bit]

/-- The outputs of a word's arrays, row by row. -/
def exported (d : Dev) (w : DaWord) (c : Nat) : List (Elem × Flags) :=
  (w.arrays c).flatMap (fun a => (List.range (w.share a)).flatMap (fun r =>
    (List.range (d.bank a w.bank).outputs).map (fun x => Dev.exportElem (d.bank a w.bank) w false r x)))

/-- Where no bank is audited every output is exported as it is. -/
theorem exported_of_unaudited {d : Dev} {w : DaWord} {c : Nat} (h : ∀ a ∈ w.arrays c, (d.bank a w.bank).audit = 0) (P : Nat → Prop)
    [DecidablePred P] (skip : Elem × Flags) :
    (w.arrays c).flatMap (fun a => (List.range (w.share a)).flatMap (fun r => (List.range (d.bank a w.bank).outputs).map (fun x =>
      if bit (d.bank a w.bank).audit (x / 64) = true ∧ ¬ P x then skip else Dev.exportElem (d.bank a w.bank) w false r x))) =
    exported d w c := by
  rw [exported, List.flatMap, List.flatMap]
  refine congrArg List.flatten (List.map_congr_left fun a ha => ?_)
  have hbit : ∀ k, bit (d.bank a w.bank).audit k = false := fun k => by rw [h a ha]; simp [bit]
  simp [hbit]

/-- Every bank of a list of arrays not busy any more. -/
def idled (d : Dev) (w : DaWord) (l : List Nat) : Dev := l.foldl (fun d a => d.setBank a w.bank { d.bank a w.bank with busy := false }) d

theorem length_exported (d : Dev) (w : DaWord) (c : Nat) :
    (exported d w c).length = (w.arrays c).foldl (fun n a => n + w.share a * (d.bank a w.bank).outputs) 0 := by
  have hsum : ∀ (l : List Nat) (f : Nat → Nat) (n : Nat), l.foldl (fun n a => n + f a) n = n + (l.map f).sum := fun l f => by
    induction l with
    | nil => exact fun n => rfl
    | cons a l ih => exact fun n => by rw [List.foldl_cons, ih, List.map_cons, List.sum_cons, Nat.add_assoc]
  rw [hsum, Nat.zero_add, exported, List.length_flatMap]
  refine congrArg List.sum (List.map_congr_left fun a _ => ?_)
  simp [List.length_flatMap]

theorem daExport_ok {u : UnitId} {o : Op} {d : Dev} {q : QEntry} {w : DaWord} {width : Nat} (hwo : DaWord.of o = w)
    (hwidth : (if w.raw then 128 else (Fmt.ofCode w.wFmt).width) = width) (hw : ArrayWord d u.core o)
    (hf : w.raw = true ∨ w.wFmt ∈ [0, 1, 2, 3, 4, 0xC]) (hr : w.sel ≠ 3 → w.rows ≤ 128) (hq : d.queue u.core w.dst = some q)
    (hh : q.home = 0) (hl : LinksUp d u.core 8 w) (hlen : (exported d w u.core).length * width / 8 ≤ q.slotLen)
    (he : d.slotEmpty u.core q (d.tail u.core w.dst) = true)
    (hb : ∀ a ∈ w.arrays u.core, (d.bank a w.bank).suspect = false ∧ (d.bank a w.bank).audit = 0) (henv : d.env.bufErrs = []) :
    daExport u o d = (.ok (), (idled (d.produced u.req u.core w.dst q (packPoisoned width ((exported d w u.core).map Prod.fst))) w
      (w.arrays u.core)).reportFlags u.ctx (Flags.orAll ((exported d w u.core).map Prod.snd))) := by
  subst hwo hwidth
  have hword : ((!(DaWord.of o).raw && !([0, 1, 2, 3, 4, 0xC].contains (DaWord.of o).wFmt)) ||
      ((DaWord.of o).sel ≠ 3 && decide (128 < (DaWord.of o).rows)) : Bool) = false := by
    refine Bool.or_eq_false_iff.mpr ⟨?_, ?_⟩
    · obtain hraw | hfmt := hf
      · simp [hraw]
      · have hc : [0, 1, 2, 3, 4, 0xC].contains (DaWord.of o).wFmt = true := List.contains_iff_mem.mpr hfmt
        rw [hc, Bool.not_true, Bool.and_false]
    · by_cases h3 : (DaWord.of o).sel = 3
      · simp [h3]
      · simp [hr h3]
  rw [daExport, bind_ok (daWord_ok hw), faultAt_of hword, pure_bind, bind_ok (daQueue_ok hq (by simp [hh])), bind_ok (daLink_ok hl _), dev_bind]
  rw [length_exported] at hlen
  have hpart := mapM_same (d := d) (f := fun a => (do
      upd (fun d => d.bufferErrors a)
      let (allBad, b) ← lift (fun d => d.arbitrate a (DaWord.of o).bank)
      let d ← dev
      pure (a, b, allBad, d.auditMisses u.core b ((DaWord.of o).share a)) : Run (Nat × Bank × Bool × List Nat)))
    (fun a => (a, d.bank a (DaWord.of o).bank, false, [])) ((DaWord.of o).arrays u.core) fun a ha => by
      obtain ⟨hsus, haud⟩ := hb a ha
      rw [upd_bind, Dev.bufferErrors_none henv, lift_bind, arbitrate_of_sound hsus]
      dsimp only
      rw [dev_bind, auditMisses_none _ _ haud]
      rfl
  rw [faultAt_of (decide_eq_false (not_lt.mpr hlen)), pure_bind, he, Bool.not_true, waitIf_false, pure_bind, bind_ok hpart, dev_bind]
  rw [bind_ok (forM_same _ fun x hx => by
    obtain ⟨a, -, rfl⟩ := List.mem_map.mp hx
    exact reportMisses_none u _ d)]
  simp only [List.flatMap_map]
  rw [exported_of_unaudited (fun a ha => (hb a ha).2), bind_ok (produce_ok _ he)]
  rfl

theorem bank_setBank_other (d : Dev) {a x : Nat} (b k : Nat) (y : Bank) (h : x ≠ a) : (d.setBank a b y).bank x k = d.bank x k := by
  rw [Dev.bank, Dev.setBank, Dev.array_onArray_other d _ h, Dev.bank]

theorem acc_idled (w : DaWord) (a : Nat) : ∀ (l : List Nat) (d : Dev), ((idled d w l).bank a w.bank).acc = (d.bank a w.bank).acc
  | [], _ => rfl
  | x :: l, d => by
    rw [idled, List.foldl_cons, ← idled, acc_idled w a l]
    by_cases hx : a = x
    · subst hx; rw [Dev.bank_setBank]
    · rw [bank_setBank_other d _ _ _ hx]

theorem busy_idled (w : DaWord) {a : Nat} : ∀ (l : List Nat) (d : Dev), (a ∈ l ∨ (d.bank a w.bank).busy = false) →
    ((idled d w l).bank a w.bank).busy = false
  | [], _, h => h.resolve_left List.not_mem_nil
  | x :: l, d, h => by
    rw [idled, List.foldl_cons, ← idled]
    refine busy_idled w l _ ?_
    by_cases hx : a = x
    · subst hx; exact .inr (by rw [Dev.bank_setBank])
    · rw [bank_setBank_other d _ _ _ hx]
      exact h.imp_left fun hm => (List.mem_cons.mp hm).resolve_left hx

theorem idled_arraysOnly (w : DaWord) : ∀ (l : List Nat) (d : Dev), Dev.ArraysOnly d (idled d w l)
  | [], d => .refl d
  | x :: l, d => by
    rw [idled, List.foldl_cons, ← idled]
    exact (idled_arraysOnly w l _).after (.setBank d x w.bank _)

end Run

end Sys2Proof.Machine

namespace Sys2Proof.Proofs

open Sys2Proof.Machine Sys2Proof.Claims

/-- Settles O25: the outputs of the selected banks stand in the tail slot, which is full, and no bank is busy. -/
theorem exportWritesTheBank : Obligations.ExportWritesTheBank := by
  intro s c env o d q w k width outs bytes hx hw hf hr hq hh hl hlen he hb hhome hs henv
  have hframe := hx.frame
  have houts : outs = (Run.exported d w c).map Prod.fst := by
    simp only [Run.exported, List.map_flatMap, List.map_map]
    rfl
  have htail := Dev.tail_attempted d c o.id w.dst
  have hrun := Run.daExport_ok (u := d.unitOf c o (Dev.execEngine c o)) (d := d.attempted c o.id) (q := q) (w := w) (width := width) rfl rfl
    hw hf hr ((Dev.queue_attempted d c o.id w.dst).trans hq) hh hl (by rw [houts, List.length_map] at hlen; exact hlen)
    (htail.symm ▸ he) hb (by rw [hframe]; exact henv)
  have hcore : (d.unitOf c o (Dev.execEngine c o)).core = c.val := rfl
  have hctx : (d.unitOf c o (Dev.execEngine c o)).ctx = o.ctx := rfl
  rw [hcore, hctx] at hrun
  have hkey : q.keys c ((d.attempted c o.id).tail c w.dst) = [4096 * c + (q.stateIdx + (d.attempted c o.id).tail c w.dst) % 4096] :=
    Dev.keys_core c _ hh
  have hclean : (d.attempted c o.id).Clean := clean_of_sound hs
  have hbytes : packPoisoned width ((Run.exported (d.attempted c o.id) w c).map Prod.fst) = bytes := congrArg (packPoisoned width) houts.symm
  generalize hp : (d.attempted c o.id).produced ((d.unitOf c o (Dev.execEngine c o)).req) c w.dst q
    (packPoisoned width ((Run.exported (d.attempted c o.id) w c).map Prod.fst)) = p at hrun
  generalize hi : Run.idled p w (w.arrays c) = i at hrun
  have hidle : Dev.ArraysOnly p i := hi ▸ Run.idled_arraysOnly w (w.arrays c) p
  generalize hfl : i.reportFlags o.ctx (Flags.orAll ((Run.exported (d.attempted c o.id) w c).map Prod.snd)) = f at hrun
  have hflags : Dev.RegsOnly i f := hfl ▸ Dev.reportFlags_regsOnly _ _ _
  have hmem : f.mem = p.mem := hflags.mem.trans hidle.mem
  refine ⟨_, hx.ends hrun, gone_left _ _ _ _, fun x => ?_, ?_, ?_, fun a ha => ?_⟩
  · have hst := Dev.stored_writeMem hclean ((d.unitOf c o (Dev.execEngine c o)).req) (a := q.addr c k) bytes (.inl ⟨c, hhome⟩)
    have hcell : (Dev.settle s.dev (f.dropOp c o.id)).cell x =
        ((d.attempted c o.id).writeMem ((d.unitOf c o (Dev.execEngine c o)).req) (q.addr c k) bytes).cell x := by
      rw [Dev.cell_settle, Dev.cell]
      show Sp.get _ f.mem.cells x = _
      rw [hmem, ← hp, ← Dev.cell, Dev.cell_produced _ _ _ hkey, hbytes, htail]
    rw [left, hcell]
    split
    case isTrue hin => exact hst.inside x hin
    case isFalse hin => exact (hst.outside x hin).trans (by rw [hframe]; rfl)
  · have hfull := Dev.slotFull_produced ((d.unitOf c o (Dev.execEngine c o)).req) (packPoisoned width ((Run.exported (d.attempted c o.id) w c).map Prod.fst))
      hkey hclean (htail.symm ▸ he) (htail.symm ▸ hhome)
    rw [hp, htail] at hfull
    refine Eq.trans (List.all_congr rfl fun x => ?_) hfull
    rw [left, Dev.slot_settle, Dev.slot]
    show (Sp.get _ f.mem.slots x).full = _
    rw [hmem, Dev.slot]
  · rw [left, Dev.tail_settle, Dev.tail_dropOp, Dev.tail, hflags.core, Dev.core, hidle.cores, ← hp, ← Dev.core, ← Dev.tail,
      Dev.tail_produced _ _ _ hkey, htail]
  · have hbank : (Dev.settle s.dev (f.dropOp c o.id)).bank a w.bank = i.bank a w.bank := by
      rw [Dev.bank, Dev.array_settle, Dev.bank]
      exact congrArg (fun y : DArray => Sp.get _ y.banks w.bank) (hflags.array a)
    rw [left, hbank, ← hi]
    refine ⟨Run.busy_idled w _ p (.inl ha), ?_⟩
    rw [Run.acc_idled, Dev.bank, ← hp, Dev.array_produced _ _ _ hkey]
    rfl

end Sys2Proof.Proofs
end

section
/-!
PROOFS. DA_PASS: a block's rows multiplied with the tile in the shadow registers and added to the bank.
-/

namespace Sys2Proof.Machine

open Sys2Proof.Claims

/-! ### Rows as a pass reads them -/

namespace Run

/-- Work that ends with an answer as stated and draws free values at most. -/
def Draws {α : Type} (Q : α → Prop) (x : Run α) : Prop := ∀ d : Dev, ∃ r fr, x d = (.ok r, { d with fresh := fr }) ∧ Q r

namespace Draws

variable {α β : Type}

theorem pure {Q : α → Prop} {a : α} (h : Q a) : Draws Q (Pure.pure a : Run α) := fun d => ⟨a, d.fresh, rfl, h⟩

theorem bind {P : α → Prop} {Q : β → Prop} {x : Run α} {g : α → Run β} (hx : Draws P x) (hg : ∀ a, P a → Draws Q (g a)) : Draws Q (x >>= g) := by
    intro d
    obtain ⟨a, fr, hrun, ha⟩ := hx d
    obtain ⟨b, fr', hrun', hb⟩ := hg a ha { d with fresh := fr }
    exact ⟨b, fr', by rw [bind_ok hrun, hrun'], hb⟩

theorem draw (w : Nat) : Draws (fun _ => True) (Run.lift (Dev.draw · w)) := fun _ => ⟨_, _, rfl, trivial⟩

theorem weaken {P Q : α → Prop} {x : Run α} (h : Draws P x) (hq : ∀ a, P a → Q a) : Draws Q x := fun d => by
  obtain ⟨a, fr, hrun, ha⟩ := h d
  exact ⟨a, fr, hrun, hq a ha⟩

/-- A run of draws, one for each place of a list without repetition. -/
theorem mapM {f : Nat → Run α} {Q : Nat → α → Prop} (z : α) (h : ∀ i, Draws (Q i) (f i)) : ∀ l : List Nat, l.Nodup →
    Draws (fun rs => ∃ g : Nat → α, rs = l.map g ∧ ∀ i ∈ l, Q i (g i)) (l.mapM f)
  | [], _ => pure ⟨fun _ => z, rfl, fun _ h => absurd h List.not_mem_nil⟩
  | i :: l, hn => by
    obtain ⟨hi, hn⟩ := List.nodup_cons.mp hn
    rw [List.mapM_cons]
    refine bind (h i) fun a ha => bind (mapM z h l hn) fun rs ⟨g, hrs, hg⟩ => pure ⟨fun j => if j = i then a else g j, ?_, fun j hj => ?_⟩
    · rw [List.map_cons, if_pos rfl, hrs]
      exact congrArg (a :: ·) (List.map_congr_left fun j hj => (if_neg fun he : j = i => hi (he ▸ hj)).symm)
    · dsimp only
      by_cases hji : j = i
      · rw [if_pos hji, hji]; exact ha
      · rw [if_neg hji]; exact hg j ((List.mem_cons.mp hj).resolve_left hji)

end Draws

/-- A row of a block laid out as the pass reads it. -/
def RowFits (b : Block) (f : Fmt) (len i : Nat) : Prop :=
  b.rowLen = len ∧ (Fmt.ofCode b.fmt).width = f.width ∧ (((b.rows[i]?).getD {}).scales.length = ceilDiv len 32 ∨ f.isMx = false)

theorem streamedRow_draws (b : Block) (f : Fmt) (len i : Nat) :
    Draws (fun r => RowFits b f len i → r = (((b.rows[i]?).getD {}).elems, ((b.rows[i]?).getD {}).scales)) (streamedRow b f len i) := by
  unfold streamedRow
  dsimp only
  split
  case isTrue => exact .pure fun _ => rfl
  case isFalse hn =>
    have hany : ∀ r : List Nat × List Nat, RowFits b f len i → r = (((b.rows[i]?).getD {}).elems, ((b.rows[i]?).getD {}).scales) :=
      fun r ⟨hlen, hw, hs⟩ => absurd ⟨hlen, hw, hs.imp_right fun h => by simp [h]⟩ hn
    refine .bind (.mapM (Q := fun _ _ => True) 0 (fun j => ?_) _ List.nodup_range) fun es _ => ?_
    · split
      · exact .pure trivial
      · exact .draw _
    · refine .bind (.mapM (Q := fun _ _ => True) 0 (fun j => ?_) _ List.nodup_range) fun ss _ => .pure (hany _)
      split
      · exact .pure trivial
      · exact .draw _

/-- The rows that a block delivers to a pass. -/
def passRows (blk : Block) (w : DaWord) (lost : Bool) (n : Nat) : Run (List (Nat × BlockRow × List Nat × List Nat)) :=
  (List.range n).mapM (fun i => do
    let (es, ss) ← streamedRow blk (Fmt.ofCode w.aFmt) w.reduction i
    let r := (blk.rows[i]?).getD {}
    pure (i, { r with poison := r.poison || lost }, es, ss))

/-- A row as a pass is given it. -/
def RowGiven (blk : Block) (w : DaWord) (i : Nat) (x : Nat × BlockRow × List Nat × List Nat) : Prop :=
  x.1 = i ∧ x.2.1.rowMax = ((blk.rows[i]?).getD {}).rowMax ∧ (RowFits blk (Fmt.ofCode w.aFmt) w.reduction i →
    x.2.2 = (((blk.rows[i]?).getD {}).elems, ((blk.rows[i]?).getD {}).scales))

theorem passRows_draws (blk : Block) (w : DaWord) (lost : Bool) (n : Nat) : Draws (fun rows => ∃ g : Nat → Nat × BlockRow × List Nat × List Nat,
    rows = (List.range n).map g ∧ ∀ i ∈ List.range n, RowGiven blk w i (g i)) (passRows blk w lost n) := by
  refine .mapM (0, {}, [], []) (fun i => ?_) _ List.nodup_range
  refine .bind (streamedRow_draws blk (Fmt.ofCode w.aFmt) w.reduction i) fun r hr => .pure ⟨rfl, rfl, hr⟩

end Run

/-! ### One pass on one array -/

namespace Dev

/-- What a row gives as its streamed values. -/
def rowValues (w : DaWord) (es ss : List Nat) (k : Nat) : Num :=
  if (Fmt.ofCode w.aFmt).isMx then (Fmt.ofCode w.aFmt).decodeMx ((ss[k / 32]?).getD 0) ((es[k]?).getD 0)
  else (Fmt.ofCode w.aFmt).decode ((es[k]?).getD 0)

/-- The outputs that one row of a pass adds to. -/
def rowParts (w : DaWord) (t : Tile) (x : Nat × BlockRow × List Nat × List Nat) : List (Nat × Acc) :=
  ((List.range w.outputs).filter (outputLive w)).map (fun k =>
    (x.1 * w.outputs + k, (rowOutput w t (rowValues w x.2.2.1 x.2.2.2) (.ofCode x.2.1.rowMax) k).1))

theorem upset_none {d : Dev} (h : d.env.upsets = []) (a : Nat) (parts : List (Nat × Acc)) : d.upset a parts = parts := by
  unfold upset
  rw [h]
  exact List.map_id _

/-- What one pass changes of the array's state and its count of passes. -/
def passSeen (d : Dev) (a : Nat) : DArray × Nat := (d.array a, d.fld F.DA_PASS_CNT_passes a)

/-- A bank after a pass. -/
def PassedBank (w : DaWord) (t : Tile) (rows : List (Nat × BlockRow × List Nat × List Nat)) (b0 b : Bank) : Prop :=
  b.busy = true ∧ b.started = true ∧ b.acc = ((rows.flatMap (rowParts w t)).foldl combineOne ((begunBank w b0).acc, false)).1

/-- What the pass finds of one row: its magnitude, and each output's accumulator with its mark of an invalid product. -/
def rowResult (w : DaWord) (t : Tile) (x : Nat × BlockRow × List Nat × List Nat) : Nat × BlockRow × Num × List (Nat × Acc × Bool) :=
  (x.1, x.2.1, rowMagnitude w t (rowValues w x.2.2.1 x.2.2.2), ((List.range w.outputs).filter (outputLive w)).map (fun k =>
    (x.1 * w.outputs + k, rowOutput w t (rowValues w x.2.2.1 x.2.2.2) (.ofCode x.2.1.rowMax) k)))

/-- The form of a pass: the bank stored, the pass counted, the checks' counters and flags. -/
theorem runPass_form (d : Dev) (a : Nat) (w : DaWord) (t : Tile) (rows : List (Nat × BlockRow × List Nat × List Nat)) (unit : Option (Nat × Nat))
    (audit : Nat × Nat × Nat) : ∃ (acc1 : List (Nat × Acc)) (b2 : Bank) (fl : Flags) (fails skips : Nat) (p q : Bool),
      d.runPass a w t rows unit audit = (fl, (((((d.setBank a w.bank b2).bump F.DA_PASS_CNT_passes a 0 1).bump F.DA_CHK_FAIL_CNT_rows a 0 fails).raiseIf p
        F.DA_ERR_STATUS_chk_fail a).bump F.DA_CHK_SKIP_CNT_rows a 0 skips).raiseIf q F.DA_ERR_STATUS_operand_poison a) ∧
      b2.acc = (combineInto acc1 (d.upset a ((rows.map (rowResult w t)).flatMap (fun r => r.2.2.2.map (fun e => (e.1, e.2.1)))))).1 ∧
      b2.busy = true ∧ b2.started = true ∧ acc1 = (begunBank w (d.bank a w.bank)).acc := by
  refine ⟨_, _, _, _, _, _, _, rfl, rfl, ?_, ?_, ?_⟩
  · exact ((recordUnit_cases _ unit).2.1).trans (recordUnit_cases _ t.src).2.1
  · exact (((recordUnit_cases _ unit).2.2.1).trans (recordUnit_cases _ t.src).2.2.1).trans (started_begunBank w _)
  · exact ((recordUnit_cases _ unit).1).trans (recordUnit_cases _ t.src).1

theorem fld_raiseIf_other (d : Dev) (b : Bool) {x y : Field} {w j w' j' : Nat} (h : y.reg.key w' j' ≠ x.reg.key w j) :
    (d.raiseIf b x w j).fld y w' j' = d.fld y w' j' := by
  cases b
  · rfl
  · exact fld_raise_other d h

theorem array_setBank (d : Dev) (a b : Nat) (x : Bank) : ((d.setBank a b x).array a).shadow = (d.array a).shadow ∧
    ((d.setBank a b x).array a).blocks = (d.array a).blocks := by
  rw [setBank, array_onArray]
  exact ⟨rfl, rfl⟩

theorem fld_setBank (d : Dev) (a b : Nat) (x : Bank) (f : Field) (w j : Nat) : (d.setBank a b x).fld f w j = d.fld f w j := rfl

theorem good_eq (w : DaWord) (t : Tile) (rows : List (Nat × BlockRow × List Nat × List Nat)) :
    (rows.map (rowResult w t)).flatMap (fun r => r.2.2.2.map (fun e => (e.1, e.2.1))) = rows.flatMap (rowParts w t) := by
  rw [List.flatMap_map]
  exact congrArg (List.flatMap · rows) (funext fun x => List.map_map ..)

theorem runPass_ok {d0 d : Dev} (a : Nat) (w : DaWord) (t : Tile) (rows : List (Nat × BlockRow × List Nat × List Nat)) (unit : Option (Nat × Nat))
    (audit : Nat × Nat × Nat) (hd : ArraysOnly d0 d) (hu : d0.env.upsets = []) : ∃ fl e, d.runPass a w t rows unit audit = (fl, e) ∧
      ArraysOnly d0 e ∧ (∀ x, x ≠ a → passSeen e x = passSeen d x) ∧ e.fld F.DA_PASS_CNT_passes a = satAdd 48 (d.fld F.DA_PASS_CNT_passes a) 1 ∧
      (e.array a).shadow = (d.array a).shadow ∧ (e.array a).blocks = (d.array a).blocks ∧ PassedBank w t rows (d.bank a w.bank) (e.bank a w.bank) := by
  obtain ⟨acc1, b2, fl, fails, skips, p, q, heq, hacc, hbusy, hstart, hacc1⟩ := runPass_form d a w t rows unit audit
  rw [upset_none (by rw [hd.env]; exact hu), combineInto_eq, hacc1, good_eq] at hacc
  have hfld : ∀ x, ((((((d.setBank a w.bank b2).bump F.DA_PASS_CNT_passes a 0 1).bump F.DA_CHK_FAIL_CNT_rows a 0 fails).raiseIf p
      F.DA_ERR_STATUS_chk_fail a).bump F.DA_CHK_SKIP_CNT_rows a 0 skips).raiseIf q F.DA_ERR_STATUS_operand_poison a).fld F.DA_PASS_CNT_passes x =
      ((d.setBank a w.bank b2).bump F.DA_PASS_CNT_passes a 0 1).fld F.DA_PASS_CNT_passes x := fun x => by
    rw [fld_raiseIf_other _ _ (x := F.DA_ERR_STATUS_operand_poison), fld_bump_other (x := F.DA_CHK_SKIP_CNT_rows),
      fld_raiseIf_other _ _ (x := F.DA_ERR_STATUS_chk_fail), fld_bump_other (x := F.DA_CHK_FAIL_CNT_rows)]
    all_goals
      simp only [F.DA_PASS_CNT_passes, F.DA_ERR_STATUS_operand_poison, F.DA_CHK_SKIP_CNT_rows, F.DA_ERR_STATUS_chk_fail, F.DA_CHK_FAIL_CNT_rows,
        Reg.key, Reg.row]
      omega
  have harray : ∀ x, ((((((d.setBank a w.bank b2).bump F.DA_PASS_CNT_passes a 0 1).bump F.DA_CHK_FAIL_CNT_rows a 0 fails).raiseIf p
      F.DA_ERR_STATUS_chk_fail a).bump F.DA_CHK_SKIP_CNT_rows a 0 skips).raiseIf q F.DA_ERR_STATUS_operand_poison a).array x =
      (d.setBank a w.bank b2).array x := fun x => by
    rw [array_raiseIf]
    exact array_raiseIf ..
  refine ⟨fl, _, heq, ?_, fun x hx => Prod.ext ?_ ?_, ?_, ?_, ?_, ?_⟩
  · refine (ArraysOnly.raiseIf _ _ _ _ _).after ((ArraysOnly.bump _ _ _ _ _).after ((ArraysOnly.raiseIf _ _ _ _ _).after ?_))
    exact (ArraysOnly.bump _ _ _ _ _).after ((ArraysOnly.bump _ _ _ _ _).after ((ArraysOnly.setBank d a w.bank b2).after hd))
  · exact (harray x).trans (array_onArray_other d _ hx)
  · refine (hfld x).trans ((fld_bump_other _ (x := F.DA_PASS_CNT_passes) (y := F.DA_PASS_CNT_passes) 1 ?_).trans (fld_setBank ..))
    simp only [F.DA_PASS_CNT_passes, Reg.key, Reg.row]
    omega
  · exact (hfld a).trans (fld_bump _ (by decide) (by decide) _ _ _)
  · exact (congrArg DArray.shadow (harray a)).trans (array_setBank d a w.bank b2).1
  · exact (congrArg DArray.blocks (harray a)).trans (array_setBank d a w.bank b2).2
  · have hbank : Dev.bank _ a w.bank = b2 := (congrArg (fun y : DArray => Sp.get (fun _ => ({} : Bank)) y.banks w.bank) (harray a)).trans
      (bank_setBank d a w.bank b2)
    rw [hbank]
    exact ⟨hbusy, hstart, hacc⟩

/-! ### The accumulators after a pass -/

theorem rowParts_keys (w : DaWord) (t : Tile) (x : Nat × BlockRow × List Nat × List Nat) :
    (rowParts w t x).map Prod.fst = ((List.range w.outputs).filter (outputLive w)).map (fun k => x.1 * w.outputs + k) := by
  rw [rowParts, List.map_map]
  rfl

theorem mem_passKeys {w : DaWord} {t : Tile} {g : Nat → Nat × BlockRow × List Nat × List Nat} {n : Nat} (hg : ∀ i ∈ List.range n, (g i).1 = i)
    (y : Nat) : y ∈ (((List.range n).map g).flatMap (rowParts w t)).map Prod.fst ↔
      ∃ i < n, ∃ k < w.outputs, outputLive w k = true ∧ y = i * w.outputs + k := by
  simp only [List.map_flatMap, List.flatMap_map, rowParts_keys, List.mem_flatMap, List.mem_map, List.mem_filter, List.mem_range]
  constructor
  · rintro ⟨i, hi, k, ⟨hk, hl⟩, rfl⟩
    exact ⟨i, hi, k, hk, hl, by rw [hg i (List.mem_range.mpr hi)]⟩
  · rintro ⟨i, hi, k, hk, hl, rfl⟩
    exact ⟨i, hi, k, ⟨hk, hl⟩, by rw [hg i (List.mem_range.mpr hi)]⟩

/-- The outputs of different rows have different places. -/
theorem place_inj {n i j k l : Nat} (hk : k < n) (hl : l < n) (h : i * n + k = j * n + l) : i = j ∧ k = l := by
  have hi : (i * n + k) / n = i := by rw [Nat.mul_comm, Nat.mul_add_div (by omega), Nat.div_eq_of_lt hk, Nat.add_zero]
  have hj : (j * n + l) / n = j := by rw [Nat.mul_comm, Nat.mul_add_div (by omega), Nat.div_eq_of_lt hl, Nat.add_zero]
  have hij : i = j := by rw [← hi, h, hj]
  exact ⟨hij, by subst hij; omega⟩

theorem passKeys_nodup {w : DaWord} {t : Tile} {g : Nat → Nat × BlockRow × List Nat × List Nat} {n : Nat}
    (hg : ∀ i ∈ List.range n, (g i).1 = i) : ((((List.range n).map g).flatMap (rowParts w t)).map Prod.fst).Nodup := by
  rw [List.map_flatMap, List.flatMap_map, List.nodup_flatMap]
  refine ⟨fun i _ => ?_, List.Nodup.pairwise_of_forall_ne List.nodup_range fun i hi j hj hij => ?_⟩
  · rw [rowParts_keys]
    exact (List.nodup_range.filter _).map fun x y h => Nat.add_left_cancel h
  · rw [Function.onFun, rowParts_keys, rowParts_keys, hg i hi, hg j hj, List.disjoint_left]
    intro y hy hy'
    obtain ⟨k, hk, rfl⟩ := List.mem_map.mp hy
    obtain ⟨l, hl, heq⟩ := List.mem_map.mp hy'
    exact hij (place_inj (List.mem_range.mp (List.mem_of_mem_filter hl)) (List.mem_range.mp (List.mem_of_mem_filter hk)) heq).1.symm

section Passed

variable {w : DaWord} {t : Tile} {g : Nat → Nat × BlockRow × List Nat × List Nat} {n : Nat} {b0 b : Bank}

theorem passed_past (hg : ∀ i ∈ List.range n, (g i).1 = i) (h : PassedBank w t ((List.range n).map g) b0 b) {x : Nat} (hx : w.outputs * n ≤ x) :
    Sp.get (fun _ => ({} : Acc)) b.acc x = oldAcc w b0 x := by
  rw [h.2.2, get_combine_other, get_begunBank]
  rw [mem_passKeys hg]
  rintro ⟨i, hi, k, hk, -, rfl⟩
  have hle : (i + 1) * w.outputs ≤ n * w.outputs := Nat.mul_le_mul_right _ hi
  rw [Nat.add_mul, Nat.one_mul] at hle
  rw [Nat.mul_comm] at hx
  omega

theorem passed_at (hg : ∀ i ∈ List.range n, (g i).1 = i) (h : PassedBank w t ((List.range n).map g) b0 b) {i x : Nat} (hi : i < n)
    (hx : x < w.outputs) : Sp.get (fun _ => ({} : Acc)) b.acc (i * w.outputs + x) = if outputLive w x then
      (Acc.combine (oldAcc w b0 (i * w.outputs + x)) (rowOutput w t (rowValues w (g i).2.2.1 (g i).2.2.2) (.ofCode (g i).2.1.rowMax) x).1).1
      else oldAcc w b0 (i * w.outputs + x) := by
  have hin := List.mem_range.mpr hi
  split
  case isTrue hl =>
    rw [h.2.2, get_combine_of_mem _ _ (passKeys_nodup hg) (List.mem_flatMap.mpr ⟨g i, List.mem_map.mpr ⟨i, hin, rfl⟩,
      List.mem_map.mpr ⟨x, List.mem_filter.mpr ⟨List.mem_range.mpr hx, hl⟩, by rw [hg i hin]⟩⟩), get_begunBank]
  case isFalse hl =>
    rw [h.2.2, get_combine_other, get_begunBank]
    rw [mem_passKeys hg]
    rintro ⟨j, hj, k, hk, hlive, heq⟩
    exact hl ((place_inj hx hk heq).2 ▸ hlive)

end Passed

end Dev

/-! ### One array's part of a DA_PASS -/

namespace Run

/-- The block that a queue's head slot holds for an array. -/
def blockFor (e : QEntry) (c k a : Nat) (x : DArray) : Block :=
  ((((e.blocks c k).find? (fun x => x.1 = a)).map Prod.snd).bind (fun s => Sp.get (fun _ => none) x.blocks s)).getD {}

/-- What a DA_PASS does on one array, once it may start. -/
def passOne (u : UnitId) (o : Op) (w : DaWord) (e : QEntry) (k a : Nat) : Run Flags := do
  upd (fun d => d.bufferErrors a)
  let d ← dev
  let s := ((e.blocks u.core k).find? (fun x => x.1 = a)).map Prod.snd
  let key := 16384 + 8 * a + s.getD 0
  let blk := (s.bind (fun s => d.block a s)).getD {}
  let lost := (d.slot key).lost
  let n := min (w.share a) blk.rows.length
  let rows ← (List.range n).mapM (fun i => do
    let (es, ss) ← streamedRow blk (Fmt.ofCode w.aFmt) w.reduction i
    let r := (blk.rows[i]?).getD {}
    pure (i, { r with poison := r.poison || lost }, es, ss))
  let t := (((d.array a).shadow).map Prod.snd).getD {}
  upd (fun d => d.onArray a (fun x => { x with shadow := none, ramp := .running }))
  lift (fun d => d.runPass a w t rows (d.slot key).src o.audit)

/-- An array's state and count of passes before and after a pass. -/
def PassDone (w : DaWord) (e : QEntry) (c k a : Nat) (x y : DArray × Nat) : Prop :=
  y.2 = satAdd 48 x.2 1 ∧ y.1.shadow = none ∧ y.1.blocks = x.1.blocks ∧ ∃ g : Nat → Nat × BlockRow × List Nat × List Nat,
    (∀ i ∈ List.range (min (w.share a) (blockFor e c k a x.1).rows.length), RowGiven (blockFor e c k a x.1) w i (g i)) ∧
    Dev.PassedBank w ((x.1.shadow.map Prod.snd).getD {}) ((List.range (min (w.share a) (blockFor e c k a x.1).rows.length)).map g)
      (Sp.get (fun _ => ({} : Bank)) x.1.banks w.bank) (Sp.get (fun _ => ({} : Bank)) y.1.banks w.bank)

theorem passOne_ok {d0 d : Dev} (u : UnitId) (o : Op) (w : DaWord) (e : QEntry) (k a : Nat) (hd : Dev.ArraysOnly d0 d)
    (hb : d0.env.bufErrs = []) (hu : d0.env.upsets = []) : ∃ r f, passOne u o w e k a d = (.ok r, f) ∧ Dev.ArraysOnly d0 f ∧
      (∀ x, x ≠ a → Dev.passSeen f x = Dev.passSeen d x) ∧ PassDone w e u.core k a (Dev.passSeen d a) (Dev.passSeen f a) := by
  obtain ⟨rows, fr, hrows, g, hmap, hg⟩ := passRows_draws (blockFor e u.core k a (d.array a)) w
    (d.slot (16384 + 8 * a + (((e.blocks u.core k).find? (fun x => x.1 = a)).map Prod.snd).getD 0)).lost
    (min (w.share a) (blockFor e u.core k a (d.array a)).rows.length) d
  have hstart : Dev.ArraysOnly d0 (Dev.onArray { d with fresh := fr } a (fun x => { x with shadow := none, ramp := .running })) :=
    (Dev.ArraysOnly.onArray _ _ _).after (Dev.ArraysOnly.after rfl hd)
  obtain ⟨fl, f, hpass, honly, hother, hcount, hshadow, hblocks, hbank⟩ := Dev.runPass_ok a w (((d.array a).shadow.map Prod.snd).getD {}) rows
    (d.slot (16384 + 8 * a + (((e.blocks u.core k).find? (fun x => x.1 = a)).map Prod.snd).getD 0)).src o.audit hstart hu
  refine ⟨fl, f, ?_, honly, fun x hx => (hother x hx).trans (Prod.ext (Dev.array_onArray_other _ _ hx) rfl), hcount, ?_, ?_, g, hg, ?_⟩
  · rw [passOne, upd_bind, Dev.bufferErrors_none (by rw [hd.env]; exact hb), dev_bind]
    refine (bind_ok hrows).trans ?_
    rw [upd_bind, lift_apply]
    exact congrArg (fun x : Flags × Dev => ((.ok x.1, x.2) : Except Stop Flags × Dev)) hpass
  · exact hshadow.trans (congrArg DArray.shadow (Dev.array_onArray _ _ _))
  · refine hblocks.trans ?_
    rw [Dev.array_onArray]
    rfl
  · rw [hmap] at hbank
    have hsame : Dev.bank (Dev.onArray { d with fresh := fr } a (fun x => { x with shadow := none, ramp := .running })) a w.bank =
        Sp.get (fun _ => ({} : Bank)) (d.array a).banks w.bank := by
      rw [Dev.bank, Dev.array_onArray]
      rfl
    rw [hsame] at hbank
    exact hbank

/-! ### The word and the arrays of a DA_PASS -/

/-- What a DA_PASS asks of an array's tile, rows and bank. -/
def passCheck (w : DaWord) (a : Nat) : Run Unit := do
  let d ← dev
  let ea := 0x30 + a
  match d.tile a w.slot with
  | none => stop (.fatal 0x06 0 0 0 (some ea))
  | some t => do
    faultAt (t.codesOnly || t.aFmt ≠ w.aFmt || t.wFmt ≠ w.wFmt || t.pattern ≠ w.pattern) 0x06 ea
    if w.mode = 1 ∧ w.pattern ≠ 0 ∧ !t.transposable then do
      upd (fun d => d.raise F.DA_SP_ERR_dx_nontransposable a)
      stop (.fatal 0x06 0 0 0 (some ea))
  let b := d.bank a w.bank
  faultAt (decide (w.maxRows < w.share a) || decide (65536 < w.share a * w.outputs)
    || (w.acc && b.started && b.outputs ≠ w.outputs)) 0x06 ea

theorem passCheck_ok {d : Dev} {o : Op} {w : DaWord} {a : Nat} {tl : Tile} (h : PassReady d o w a tl) :
    passCheck w a d = (.ok (), d) := by
  obtain ⟨⟨x, htile, hcodes, ha, hw, hp, htrans⟩, hrows, hsize, hout, -⟩ := h
  have htile' : faultAt (x.codesOnly || x.aFmt ≠ w.aFmt || x.wFmt ≠ w.wFmt || x.pattern ≠ w.pattern) 0x06 (0x30 + a) = pure () :=
    faultAt_of (by simp [hcodes, ha, hw, hp]) _ _
  have hdx : ¬ (w.mode = 1 ∧ w.pattern ≠ 0 ∧ (!x.transposable) = true) := by
    rintro ⟨hm, hpat, hx⟩
    simp [htrans hm hpat] at hx
  have hbank : faultAt (decide (w.maxRows < w.share a) || decide (65536 < w.share a * w.outputs)
      || (w.acc && (d.bank a w.bank).started && (d.bank a w.bank).outputs ≠ w.outputs)) 0x06 (0x30 + a) = pure () := by
    refine faultAt_of (Bool.or_eq_false_iff.mpr ⟨by simp [hrows, hsize], ?_⟩) _ _
    by_cases hacc : w.acc = true
    · by_cases hs : (d.bank a w.bank).started = true
      · simp [hout hacc hs]
      · simp [hs]
    · simp [hacc]
  rw [passCheck, dev_bind, htile]
  simp only [htile', hbank, if_neg hdx, pure_bind]
  rfl

theorem passReady_ok {d : Dev} {o : Op} {w : DaWord} {a : Nat} {tl : Tile} (h : PassReady d o w a tl) :
    passReady o w a d = (.ok (), d) := by
  obtain ⟨-, -, -, -, hgroups, hshadow, hopen⟩ := h
  have hbarrier : (w.barrier && !d.barrierOpen a o) = false := by
    by_cases hb : w.barrier = true
    · simp [hopen hb]
    · simp [hb]
  rw [passReady, dev_bind, waitIf_of hbarrier, pure_bind]
  simp only [hgroups, hshadow, ne_eq, not_true_eq_false, decide_false, waitIf_false, pure_bind]
  rfl

end Run

namespace Dev

theorem barrierOpen_attempted (d : Dev) (c id a : Nat) (o : Op) : (d.attempted c id).barrierOpen a o = d.barrierOpen a o := by
  have hcore : ((d.attempted c id).core (a / 2)).waiting = (d.core (a / 2)).waiting ∧
      ((d.attempted c id).core (a / 2)).armed = (d.core (a / 2)).armed := by
    by_cases hc : a / 2 = c
    · rw [hc, attempted, core_onHeld]
      exact ⟨rfl, rfl⟩
    · rw [attempted, onHeld, core_onCore_other d _ hc]
      exact ⟨rfl, rfl⟩
  have hrelease : (d.attempted c id).passRelease (a / 2) o.id = d.passRelease (a / 2) o.id := by
    simp only [passRelease, hcore.1, hcore.2]
  rw [barrierOpen, barrierOpen, hrelease]
  rfl

end Dev

theorem passReady_attempted {d : Dev} {o : Op} {w : DaWord} {a : Nat} {tl : Tile} (c id : Nat) (h : PassReady d o w a tl) :
    PassReady (d.attempted c id) o w a tl := by
  obtain ⟨htile, hrows, hsize, hout, hgroups, hshadow, hopen⟩ := h
  exact ⟨htile, hrows, hsize, hout, hgroups, hshadow, fun hb => (Dev.barrierOpen_attempted d c id a o).trans (hopen hb)⟩

namespace Dev

theorem unitSpan_congr {d e : Dev} (h : ∀ a, (e.array a).blocks = (d.array a).blocks) (c : Nat) (q : QEntry) (k : Nat) :
    e.unitSpan c q k = d.unitSpan c q k := by
  simp only [unitSpan, h]

theorem fld_reportFlags_passes (d : Dev) (n : Nat) (f : Flags) (a : Nat) :
    (d.reportFlags n f).fld F.DA_PASS_CNT_passes a = d.fld F.DA_PASS_CNT_passes a := by
  have hbump : ∀ (l : List Nat) (d : Dev), (∀ i ∈ l, i < 6) → (l.foldl (fun d i => if bit f.toNat i then d.bump F.TEL_FLAG_CNT_ops 0 i 1 else d)
      d).fld F.DA_PASS_CNT_passes a = d.fld F.DA_PASS_CNT_passes a := fun l => by
    induction l with
    | nil => exact fun _ _ => rfl
    | cons i l ih =>
      intro d hl
      have hi := hl i List.mem_cons_self
      rw [List.foldl_cons, ih _ fun x hx => hl x (List.mem_cons_of_mem _ hx)]
      split
      · refine fld_bump_other d 1 ?_
        simp only [F.DA_PASS_CNT_passes, F.TEL_FLAG_CNT_ops, Reg.key, Reg.row]
        omega
      · rfl
  unfold reportFlags
  dsimp only
  rw [hbump _ _ fun i hi => List.mem_range.mp hi]
  refine fld_setFld_other d _ ?_
  simp only [F.DA_PASS_CNT_passes, F.CTX_FLAGS_flags, Reg.key, Reg.row]
  omega

/-- The device after a pass's flags and, with keep = 0, its drain. -/
def passLeft (e : Dev) (keep : Bool) (ctx c q : Nat) (x : QEntry) (f : Flags) : Dev :=
  if keep then e.reportFlags ctx f else (e.reportFlags ctx f).drainHead c q x

theorem array_passLeft (e : Dev) (keep : Bool) (ctx c q : Nat) (x : QEntry) (f : Flags) (a : Nat) :
    ∃ b, (e.passLeft keep ctx c q x f).array a = { e.array a with blocks := b } := by
  have hflags := (reportFlags_regsOnly e ctx f).array a
  unfold passLeft
  split
  · exact ⟨(e.array a).blocks, hflags⟩
  · obtain ⟨b, hb⟩ := array_drainHead (e.reportFlags ctx f) c q x a
    exact ⟨b, by rw [hb, hflags]⟩

theorem regs_drainHead (d : Dev) (c q : Nat) (e : QEntry) : (d.drainHead c q e).regs = d.regs := by
  rw [drainHead_eq]
  show (d.drainSlots c e _ _).regs = _
  rw [drainSlots_slotsOnly]

theorem fld_passLeft (e : Dev) (keep : Bool) (ctx c q : Nat) (x : QEntry) (f : Flags) (a : Nat) :
    (e.passLeft keep ctx c q x f).fld F.DA_PASS_CNT_passes a = e.fld F.DA_PASS_CNT_passes a := by
  unfold passLeft
  split
  · exact fld_reportFlags_passes e ctx f a
  · exact (congrArg (fun r : RegFile => r.fld F.DA_PASS_CNT_passes a 0) (regs_drainHead _ c q x)).trans (fld_reportFlags_passes e ctx f a)

theorem cells_passLeft (e : Dev) (keep : Bool) (ctx c q : Nat) (x : QEntry) (f : Flags) :
    (e.passLeft keep ctx c q x f).mem.cells = e.mem.cells := by
  have hflags := congrArg MemSys.cells (reportFlags_regsOnly e ctx f).mem
  unfold passLeft
  split
  · exact hflags
  · exact (cells_drainHead _ c q x).trans hflags

end Dev

namespace Run

theorem daPass_ok {u : UnitId} {o : Op} {d : Dev} {q : QEntry} {w : DaWord} {k : Nat} {tl : Nat → Tile} (hwo : DaWord.of o = w)
    (hk : d.head u.core w.src = k) (hw : ArrayWord d u.core o) (hf : ArrayFormats w) (hr : w.sel ≠ 3 → w.rows ≤ 128)
    (hq : d.queue u.core w.src = some q) (hh : q.home = w.sel) (hl : LinksUp d u.core 0 w)
    (hfull : ∀ i < d.unitSpan u.core q k, d.slotFull u.core q ((k + i) % q.count) = true)
    (hready : ∀ a ∈ w.arrays u.core, PassReady d o w a (tl a)) (hb : d.env.bufErrs = []) (hu : d.env.upsets = []) :
    ∃ e f, daPass u o d = (.ok (), e.passLeft w.keep u.ctx u.core w.src q f) ∧
      Dev.ArraysOnly d e ∧ (∀ a ∈ w.arrays u.core, PassDone w q u.core k a (Dev.passSeen d a) (Dev.passSeen e a)) ∧
      ∀ a, (e.array a).blocks = (d.array a).blocks := by
  subst hwo
  obtain ⟨rs, e, hrun, honly, hin, hout⟩ := mapM_local (P := Dev.ArraysOnly d) (obs := Dev.passSeen)
    (R := PassDone (DaWord.of o) q u.core k) (f := passOne u o (DaWord.of o) q k)
    (fun _ => True) (fun a x _ hx => passOne_ok u o _ q k a hx hb hu) ((DaWord.of o).arrays u.core) d (fun _ _ => trivial)
    (DaWord.arrays_nodup _ _) (.refl d)
  refine ⟨e, Flags.orAll rs, ?_, honly, hin, fun a => ?_⟩
  case refine_2 =>
    by_cases ha : a ∈ (DaWord.of o).arrays u.core
    · obtain ⟨-, -, hblocks, -⟩ := hin a ha
      exact hblocks
    · exact congrArg (fun x : DArray × Nat => x.1.blocks) (hout a ha)
  subst hk
  have hcheck : ((DaWord.of o).arrays u.core).forM (passCheck (DaWord.of o)) d = (.ok (), d) := forM_same _ fun a ha => passCheck_ok (hready a ha)
  have hstart : ((DaWord.of o).arrays u.core).forM (passReady o (DaWord.of o)) d = (.ok (), d) := forM_same _ fun a ha => passReady_ok (hready a ha)
  have hslots : (List.range (d.unitSpan u.core q (d.head u.core (DaWord.of o).src))).any
      (fun i => !d.slotFull u.core q ((d.head u.core (DaWord.of o).src + i) % q.count)) = false :=
    List.any_eq_false.mpr fun i hi => by simp [hfull i (List.mem_range.mp hi)]
  rw [daPass, bind_ok (daWord_ok hw), faultAt_of (rows_ok hf hr), pure_bind, bind_ok (daQueue_ok hq (by simp [hh])), bind_ok (daLink_ok hl _)]
  refine (bind_ok hcheck).trans ?_
  rw [dev_bind, waitIf_of hslots, pure_bind, bind_ok hstart]
  refine (bind_ok hrun).trans ?_
  rw [upd_bind]
  unfold Dev.passLeft
  cases (DaWord.of o).keep <;> rfl

end Run

end Sys2Proof.Machine

namespace Sys2Proof.Proofs

open Sys2Proof.Machine Sys2Proof.Claims

/-- Settles O24: each selected array's accumulators are combined with the products of the rows that its block delivers. -/
theorem passAccumulates : Obligations.PassAccumulates := by
  intro s c env o d q tl w k f hx hw hf hr hq hh hl hfull hready hb hu
  have hframe := hx.frame
  obtain ⟨e, fl, hrun, honly, hin, hblocks⟩ := Run.daPass_ok (u := d.unitOf c o (Dev.execEngine c o)) (d := d.attempted c o.id) (q := q) (w := w) (k := k)
    (tl := tl) rfl (Dev.head_attempted d c o.id w.src) hw hf hr ((Dev.queue_attempted d c o.id w.src).trans hq) hh hl hfull
    (fun a ha => passReady_attempted c o.id (hready a ha)) (by rw [hframe]; exact hb) (by rw [hframe]; exact hu)
  have hcore : (d.unitOf c o (Dev.execEngine c o)).core = c.val := rfl
  have hctx : (d.unitOf c o (Dev.execEngine c o)).ctx = o.ctx := rfl
  rw [hcore, hctx] at hrun
  rw [hcore] at hin
  have hhead : (e.reportFlags o.ctx fl).head c w.src = k := by
    rw [Dev.head, (Dev.reportFlags_regsOnly e o.ctx fl).core, Dev.core, honly.cores]
    exact Dev.head_attempted d c o.id w.src
  refine ⟨_, hx.ends hrun, gone_left _ _ _ _, fun a ha sl b hsl hb => ?_, fun hkeep => ?_, fun hkeep => ?_, ?_⟩
  · obtain ⟨blocks, harray⟩ := Dev.array_passLeft e w.keep o.ctx c w.src q fl a
    obtain ⟨hcount, hshadow, -, g, hgiven, hbank⟩ := hin a ha
    have hblk : Run.blockFor q c k a (d.array a) = b := by
      rw [Run.blockFor, hsl]
      exact congrArg (fun x : Option Block => x.getD {}) hb
    have htile : (((d.array a).shadow).map Prod.snd).getD {} = tl a := by
      obtain ⟨-, -, -, -, -, hshadow, -⟩ := hready a ha
      rw [hshadow]; rfl
    have hdarray : (Dev.passSeen (d.attempted c o.id) a).1 = d.array a := rfl
    rw [hdarray, hblk] at hgiven
    rw [hdarray, hblk, htile] at hbank
    have hfst : ∀ i ∈ List.range (min (w.share a) b.rows.length), (g i).1 = i := fun i hi => (hgiven i hi).1
    have hleft : (Dev.settle s.dev ((e.passLeft w.keep o.ctx c w.src q fl).dropOp c o.id)).array a = { e.array a with blocks := blocks } := by
      rw [Dev.array_settle]
      exact harray
    have hleftBank : (Dev.settle s.dev ((e.passLeft w.keep o.ctx c w.src q fl).dropOp c o.id)).bank a w.bank = e.bank a w.bank := by
      rw [Dev.bank, hleft]
      rfl
    rw [left, hleftBank]
    refine ⟨hbank.1, hbank.2.1, ?_, ?_, fun x hx => Dev.passed_past hfst hbank hx, fun hlen hwidth i hi r hrow hscale x hx => ?_⟩
    · exact (congrArg DArray.shadow hleft).trans hshadow
    · have hkey : F.DA_PASS_CNT_passes.reg.key a 0 ∉ mailKeys := Dev.not_mail_of_lt (by
        have := DaWord.arrays_lt w c.isLt a ha
        simp only [F.DA_PASS_CNT_passes, Reg.key, Reg.row]; omega)
      refine (Dev.fld_congr (Dev.rd_settle s.dev _ hkey)).trans ?_
      refine (Dev.fld_passLeft e w.keep o.ctx c w.src q fl a).trans (hcount.trans ?_)
      exact (Dev.fld_bump d (x := F.DA_PASS_CNT_passes) (by decide) (by decide) a 0 1).symm
    · have hi' := List.mem_range.mpr hi
      obtain ⟨-, hmax, hfits⟩ := hgiven i hi'
      rw [hrow] at hmax hfits
      have hvalues := hfits ⟨hlen, hwidth, by
        rw [hrow]
        by_cases hmx : f.isMx = true
        · exact .inl (hscale hmx)
        · exact .inr (Bool.eq_false_iff.mpr hmx)⟩
      have hat := Dev.passed_at hfst hbank hi hx
      rw [hmax, hvalues] at hat
      exact hat
  · rw [left, Dev.head_settle, Dev.head_dropOp, Dev.passLeft, hkeep, if_neg (by decide), Dev.head_drainHead, hhead]
    refine congrArg (fun n => (k + n) % q.count) (Dev.unitSpan_congr (fun a => ?_) c q k)
    rw [(Dev.reportFlags_regsOnly e o.ctx fl).array]
    exact hblocks a
  · rw [left, Dev.head_settle, Dev.head_dropOp, Dev.passLeft, hkeep]
    exact hhead
  · rw [left, Dev.settle_mem]
    exact (Dev.cells_passLeft e w.keep o.ctx c w.src q fl).trans (by rw [honly.mem, hframe]; rfl)

end Sys2Proof.Proofs
end

section
/-!
PROOFS. The Hoard's stacks: removal of frames, and HD_POP, HD_DROP and HD_TURN.
-/

namespace Sys2Proof.Machine

open Sys2Proof.Claims

/-! ### Stacks -/

namespace Hoard

theorem mem_stack {h : Hoard} {k : Nat} {x : HoardFrame} : x ∈ h.stack k ↔ x ∈ h.frames ∧ x.slot = k ∧ x.removed = false := by
  simp [stack]

theorem mem_frames_reclaim {h : Hoard} {x : HoardFrame} (hx : x ∈ h.reclaim.frames) : x ∈ h.frames :=
  (List.dropWhile_sublist _).subset hx

/-- A frame left after a removal stood there before, and one that is not removed has another number. -/
theorem mem_frames_remove {h : Hoard} {id : Nat} {x : HoardFrame} (hx : x ∈ (h.remove id).frames) (hr : x.removed = false) :
    x ∈ h.frames ∧ x.id ≠ id := by
  obtain ⟨f, hf, rfl⟩ := List.mem_map.mp (mem_frames_reclaim hx)
  by_cases hid : f.id = id
  · rw [if_pos hid] at hr
    exact absurd hr Bool.true_eq_false_eq_False
  · rw [if_neg hid]
    exact ⟨hf, hid⟩

theorem mem_stack_remove {h : Hoard} {id k : Nat} {x : HoardFrame} (hx : x ∈ (h.remove id).stack k) : x ∈ h.stack k ∧ x.id ≠ id := by
  obtain ⟨hm, hk, hr⟩ := mem_stack.mp hx
  obtain ⟨hf, hid⟩ := mem_frames_remove hm hr
  exact ⟨mem_stack.mpr ⟨hf, hk, hr⟩, hid⟩

/-- Frames removed one after the other (R371). -/
def removeAll (h : Hoard) (l : List Nat) : Hoard := l.foldl remove h

theorem mem_stack_removeAll {k : Nat} {x : HoardFrame} : ∀ (l : List Nat) (h : Hoard), x ∈ (h.removeAll l).stack k →
    x ∈ h.stack k ∧ x.id ∉ l
  | [], _, hx => ⟨hx, List.not_mem_nil⟩
  | id :: l, h, hx => by
    obtain ⟨hs, hl⟩ := mem_stack_removeAll l (h.remove id) hx
    obtain ⟨hs, hid⟩ := mem_stack_remove hs
    exact ⟨hs, List.not_mem_cons_of_ne_of_not_mem hid hl⟩

theorem stack_removeAll (h : Hoard) (k : Nat) : (h.removeAll ((h.stack k).map HoardFrame.id)).stack k = [] := by
  refine List.eq_nil_iff_forall_not_mem.mpr fun x hx => ?_
  obtain ⟨hs, hl⟩ := mem_stack_removeAll _ h hx
  exact hl (List.mem_map_of_mem hs)

/-- The mark of HD_TURN (R372). -/
def turn (h : Hoard) (slot : Nat) : Hoard :=
  if h.turned.contains slot then h else ({ h with turned := h.turned ++ [slot] } : Hoard).unturn

theorem frames_turn (h : Hoard) (slot : Nat) : (h.turn slot).frames = h.frames := by
  rw [turn]
  split <;> rfl

theorem mem_turned_turn {h : Hoard} {slot : Nat} (hs : h.stack slot ≠ []) : slot ∈ (h.turn slot).turned := by
  rw [turn]
  split
  case isTrue hc => exact List.contains_iff_mem.mp hc
  case isFalse =>
    refine List.mem_filter.mpr ⟨List.mem_append_right _ (List.mem_singleton_self _), ?_⟩
    rw [Bool.not_eq_true', List.isEmpty_eq_false_iff]
    exact hs

end Hoard

/-! ### Work on the Hoard -/

/-- The Hoard of a core changed, and frames counted. -/
def Dev.hoardLeft (d : Dev) (c : Nat) (g : Hoard → Hoard) : Dev := d.onCore c (fun k => { k with hoard := g k.hoard })

theorem Dev.hoard_hoardLeft (d : Dev) (c : Nat) (g : Hoard → Hoard) : ((d.hoardLeft c g).core c).hoard = g (d.core c).hoard := by
  rw [hoardLeft, core_onCore]

theorem Dev.hoard_attempted (d : Dev) (c id : Nat) : ((d.attempted c id).core c).hoard = (d.core c).hoard := by
  rw [attempted, core_onHeld]

namespace Run

theorem noting_ok {α : Type} {x : Field} {w : Nat} {r : Run α} {d e : Dev} {a : α} (h : r d = (.ok a, e)) :
    noting x w r d = (.ok a, e) := by
  have ht : attempt r d = (.ok (.ok a), e) := by simp only [attempt, h]
  rw [noting, bind_ok ht]
  rfl

theorem theHoard_bind {α : Type} (c : Nat) (g : Hoard → Run α) (d : Dev) : (theHoard c >>= g) d = g (d.core c).hoard d := rfl

theorem hdWord_ok {u : UnitId} {o : Op} {d : Dev} (hc : u.ctx = o.ctx) (ho : u.opcode = o.opcode) (h : HoardWord d o)
    {bad : Bool → UnitId → Run Unit} (hbad : bad false u = pure ()) : hdWord bad u o false d = (.ok (bits o.w0 13 8), d) := by
  obtain ⟨h0, h1, hz, hs⟩ := h
  have hw : (u.opcode != 0x52 && o.w1 != 0) = false := by
    rw [ho]
    by_cases h52 : o.opcode = 0x52
    · simp [h52]
    · simp [hz h52]
  have hn : decide ((d.job u.ctx).seqSlots ≤ bits o.w0 13 8) = false := by rw [hc]; exact decide_eq_false (by omega)
  rw [hdWord, dev_bind]
  simp only [h0, h1, hw, hn, bne_self_eq_false, Bool.false_or, Bool.and_false, Bool.false_eq_true, if_false, hbad]
  rfl

theorem hdDirectory_ok {u : UnitId} {d : Dev} (h : d.env.hoardPoison = false) : hdDirectory u d = (.ok (), d) := by
  refine noting_ok ?_
  rw [dev_bind, faultIf_of h]
  rfl

/-- What stands before the work of HD_POP, HD_TURN and HD_DROP. -/
theorem hdStart_ok {u : UnitId} {o : Op} {d : Dev} (hc : u.ctx = o.ctx) (ho : u.opcode = o.opcode) (h : HoardWord d o)
    (hp : d.env.hoardPoison = false) (g : Nat → Run Unit) :
    ((do let slot ← hdWord hdBad u o false; hdDirectory u; g slot) : Run Unit) d = g (bits o.w0 13 8) d := by
  rw [bind_ok (hdWord_ok hc ho h rfl)]
  exact bind_ok (hdDirectory_ok hp)

theorem hdPop_ok {u : UnitId} {o : Op} {d : Dev} (hc : u.ctx = o.ctx) (ho : u.opcode = o.opcode) (h : HoardWord d o)
    (hp : d.env.hoardPoison = false) {f : HoardFrame} {fs : List HoardFrame}
    (hs : (d.core u.core).hoard.stack (bits o.w0 13 8) = f :: fs) (ht : f.tag = bits o.w1 31 0) :
    hdPop u o d = (.ok (), (d.hoardLeft u.core (fun h => h.remove f.id)).bump F.HD_POP_CNT_frames u.core 0 1) := by
  refine (hdStart_ok hc ho h hp _).trans ?_
  rw [theHoard_bind, hs]
  simp only [ht, ne_eq, not_true_eq_false, decide_false]
  rfl

theorem hdTurn_ok {u : UnitId} {o : Op} {d : Dev} (hc : u.ctx = o.ctx) (ho : u.opcode = o.opcode) (h : HoardWord d o)
    (hp : d.env.hoardPoison = false) : hdTurn u o d = (.ok (), d.hoardLeft u.core (fun h => h.turn (bits o.w0 13 8))) :=
  hdStart_ok hc ho h hp _

/-- One frame dropped and counted. -/
def dropOne (c : Nat) (d : Dev) (id : Nat) : Dev := (d.hoardLeft c (fun h => h.remove id)).bump F.HD_POP_CNT_frames c 0 1

theorem hoard_dropOnes (c : Nat) : ∀ (l : List Nat) (d : Dev),
    ((l.foldl (dropOne c) d).core c).hoard = (d.core c).hoard.removeAll l
  | [], _ => rfl
  | id :: l, d => by
    rw [List.foldl_cons, hoard_dropOnes c l, dropOne]
    have hcore : (((d.hoardLeft c (fun h => h.remove id)).bump F.HD_POP_CNT_frames c 0 1).core c).hoard = (d.core c).hoard.remove id :=
      Dev.hoard_hoardLeft d c (fun h => h.remove id)
    rw [hcore]
    rfl

theorem fld_dropOnes (c : Nat) : ∀ (l : List Nat) (d : Dev),
    (l.foldl (dropOne c) d).fld F.HD_POP_CNT_frames c = raisedBy d F.HD_POP_CNT_frames c 0 l.length
  | [], d => (min_eq_left (Nat.le_sub_one_of_lt (by have := Dev.fld_lt d F.HD_POP_CNT_frames c 0; exact this))).symm
  | id :: l, d => by
    have h1 : (dropOne c d id).fld F.HD_POP_CNT_frames c = raisedBy d F.HD_POP_CNT_frames c 0 1 :=
      Dev.fld_bump _ (by decide) (by decide) c 0 1
    rw [List.foldl_cons, fld_dropOnes c l, raisedBy, h1, raisedBy, raisedBy, List.length_cons]
    omega

theorem mem_dropOnes (c : Nat) : ∀ (l : List Nat) (d : Dev), (l.foldl (dropOne c) d).mem = d.mem
  | [], _ => rfl
  | _ :: l, _ => mem_dropOnes c l _

theorem dropAll_ok (c : Nat) : ∀ (l : List HoardFrame) (d : Dev),
    (l.forM (fun f => do
      hoard c (fun h => h.remove f.id)
      upd (fun d => d.bump F.HD_POP_CNT_frames c 0 1)) : Run Unit) d = (.ok (), (l.map HoardFrame.id).foldl (dropOne c) d)
  | [], _ => rfl
  | f :: l, d => dropAll_ok c l (dropOne c d f.id)

theorem hdDrop_ok {u : UnitId} {o : Op} {d : Dev} (hc : u.ctx = o.ctx) (ho : u.opcode = o.opcode) (h : HoardWord d o)
    (hp : d.env.hoardPoison = false) :
    hdDrop u o d = (.ok (), (((d.core u.core).hoard.stack (bits o.w0 13 8)).map HoardFrame.id).foldl (dropOne u.core) d) := by
  refine (hdStart_ok hc ho h hp _).trans ?_
  rw [theHoard_bind]
  exact dropAll_ok u.core _ d

end Run

end Sys2Proof.Machine

namespace Sys2Proof.Claims

open Sys2Proof.Machine

/-- What an operation that is gone leaves of its core's Hoard is what its work left. -/
theorem hoard_left (s : State) (e : Dev) (c : Fin 4) (o : Op) :
    ((left s (e.dropOp c o.id)).dev.core c).hoard = (e.core c).hoard := by
  rw [left, Dev.core_settle, Dev.core_dropOp]

theorem mem_left (s : State) (e : Dev) (c : Fin 4) (o : Op) : (left s (e.dropOp c o.id)).dev.mem = e.mem := Dev.settle_mem ..

theorem rd_left (s : State) (e : Dev) (c : Fin 4) (o : Op) {r : Reg} {i j : Nat} (h : r.key i j < 0x40000000) :
    (left s (e.dropOp c o.id)).dev.rd r i j = e.rd r i j := Dev.rd_settle s.dev _ (Dev.not_mail_of_lt h)

theorem fld_left (s : State) (e : Dev) (c : Fin 4) (o : Op) {f : Field} {i j : Nat} (h : f.reg.key i j < 0x40000000) :
    (left s (e.dropOp c o.id)).dev.fld f i j = e.fld f i j := Dev.fld_congr (rd_left s e c o h)

/-- The Hoard that an operation of the fetch side finds. -/
theorem FetchRuns.hoard {s : State} {env : Env} {c : Fin 4} {p : Pick} {code : Nat} {free : Dev → Bool} {o : Op} {d : Dev}
    (h : FetchRuns s env c p code free o d) : (d.core c).hoard = (s.dev.core c).hoard := by
  obtain ⟨-, -, -, ⟨-, -, -, -, rfl⟩ | ⟨-, -, -, rfl⟩⟩ := h
  · rw [Dev.core_onCore]; rfl
  · rfl

end Sys2Proof.Claims

namespace Sys2Proof.Proofs

open Sys2Proof.Machine Sys2Proof.Claims Sys2Proof.Machine.Hoard

/-- Settles O35: a removal takes the frames of a number off every stack, a drop removes each frame of its stack, and a turned slot
with a frame keeps its mark. -/
theorem hoardStacks : Obligations.HoardStacks := by
  intro s c p env o d slot h hword henv
  have hattempt : ∀ {code free}, FetchRuns s env c p code free o d → ((d.attempted c o.id).core c).hoard = h ∧
      HoardWord (d.attempted c o.id) o ∧ (d.attempted c o.id).env.hoardPoison = false := fun hr =>
    ⟨(Dev.hoard_attempted d c o.id).trans hr.hoard, hword, by rw [hr.frame]; exact henv⟩
  have hkey : F.HD_POP_CNT_frames.reg.key c 0 < 0x40000000 := by
    simp only [F.HD_POP_CNT_frames, Reg.key, Reg.row]; omega
  have hmem : ∀ {code free}, FetchRuns s env c p code free o d → (d.attempted c o.id).mem = s.dev.mem := fun hr => by
    rw [hr.frame]; rfl
  have hfld : ∀ {code free}, FetchRuns s env c p code free o d →
      (d.attempted c o.id).fld F.HD_POP_CNT_frames c = s.dev.fld F.HD_POP_CNT_frames c := fun hr => by
    rw [hr.frame]; rfl
  refine ⟨fun f fs hr hs ht => ?_, fun hr => ?_, fun hr hs => ?_⟩
  · obtain ⟨hh, hw, hp⟩ := hattempt hr
    have hend := Run.hdPop_ok (u := d.unitOf c o (0x20 + c)) rfl rfl hw hp (by rw [← hs, ← hh]; rfl) ht
    refine ⟨_, hr.ends hend, gone_left _ _ _ _, fun k x hx => ?_, ?_, ?_⟩
    · rw [hoard_left] at hx
      have hl := Dev.hoard_hoardLeft (d.attempted c o.id) c (fun h => h.remove f.id)
      rw [hh] at hl
      exact (mem_stack_remove (hl ▸ hx)).symm
    · rw [fld_left _ _ _ _ hkey]
      refine (Dev.fld_bump _ (by decide) (by decide) c 0 1).trans ?_
      exact congrArg (fun n => min (n + 1) _) (hfld hr)
    · exact (mem_left ..).trans (hmem hr)
  · obtain ⟨hh, hw, hp⟩ := hattempt hr
    have hend := Run.hdDrop_ok (u := d.unitOf c o (0x20 + c)) rfl rfl hw hp
    have hu : (d.unitOf c o (0x20 + c)).core = c.val := rfl
    rw [hu, hh] at hend
    refine ⟨_, hr.ends hend, gone_left _ _ _ _, ?_, ?_, ?_⟩
    · rw [hoard_left, Run.hoard_dropOnes, hh]
      exact stack_removeAll h slot
    · rw [fld_left _ _ _ _ hkey, Run.fld_dropOnes, List.length_map, raisedBy, hfld hr]
      rfl
    · exact (mem_left ..).trans ((Run.mem_dropOnes ..).trans (hmem hr))
  · obtain ⟨hh, hw, hp⟩ := hattempt hr
    have hend := Run.hdTurn_ok (u := d.unitOf c o (0x20 + c)) rfl rfl hw hp
    have hl := (Dev.hoard_hoardLeft (d.attempted c o.id) c (fun h => h.turn slot)).trans (congrArg (fun h => h.turn slot) hh)
    refine ⟨_, hr.ends hend, gone_left _ _ _ _, ?_, ?_, ?_⟩
    · rw [hoard_left]
      exact hl ▸ mem_turned_turn hs
    · rw [hoard_left]
      exact (congrArg Hoard.frames hl).trans (frames_turn h slot)
    · exact (mem_left ..).trans (hmem hr)

end Sys2Proof.Proofs
end

section
/-!
PROOFS. Work that leaves the cores alone; the Hoard's own work and the W queue.
-/

namespace Sys2Proof.Machine

open Sys2Proof.Claims

namespace Run

/-- Work that leaves every core as it was, whether it ends or stops. -/
def KeepsCores {α : Type} (x : Run α) : Prop := ∀ d : Dev, (x d).2.cores = d.cores

namespace KeepsCores

variable {α β : Type}

theorem ofMemWork {x : Run α} (h : MemWork x) : KeepsCores x := fun d => (h d).cores

theorem pure (a : α) : KeepsCores (Pure.pure a : Run α) := fun _ => rfl

theorem stop (s : Stop) : KeepsCores (Run.stop s : Run α) := fun _ => rfl

theorem dev : KeepsCores Run.dev := fun _ => rfl

theorem upd {f : Dev → Dev} (hf : ∀ d : Dev, (f d).cores = d.cores) : KeepsCores (Run.upd f) := hf

theorem bind {x : Run α} {g : α → Run β} (hx : KeepsCores x) (hg : ∀ a, KeepsCores (g a)) : KeepsCores (x >>= g) := fun d => by
  have hd := hx d
  rw [bind_apply]
  split
  next a e he => exact (hg a e).trans (by rw [← hd, he])
  next s e he => exact (congrArg (fun r => r.2.cores) he).symm.trans hd

theorem ite {c : Prop} [Decidable c] {x y : Run α} (hx : KeepsCores x) (hy : KeepsCores y) : KeepsCores (if c then x else y) := by
  split
  · exact hx
  · exact hy

theorem attempt {x : Run α} (hx : KeepsCores x) : KeepsCores (Run.attempt x) := hx

theorem mapM {γ : Type} {f : γ → Run β} (hf : ∀ a, KeepsCores (f a)) : ∀ l : List γ, KeepsCores (l.mapM f)
  | [] => by rw [List.mapM_nil]; exact .pure _
  | a :: l => by
    rw [List.mapM_cons]
    exact .bind (hf a) fun _ => .bind (mapM hf l) fun _ => .pure _

end KeepsCores

theorem reach_keepsCores (rq : Req) (va pa : Nat) : KeepsCores (reach rq va pa) :=
  .bind .dev fun _ => .ite (.bind (.upd fun _ => (Dev.fabError_control _ rq _ _ _).cores) fun _ => .stop _) (.pure _)

theorem vpieces_keepsCores (rq : Req) (va : Int) (len : Nat) (need : Need) : KeepsCores (vpieces rq va len need) :=
  .bind (.ofMemWork (address_memWork va)) fun _ => .mapM (fun (a, n) =>
    .bind (.ofMemWork (translate_memWork rq a need)) fun _ => .bind (reach_keepsCores rq a _) fun _ => .bind .dev fun _ =>
      .bind (.ofMemWork (.lift fun d => d.readMem_memOnly _ _ n)) fun _ => .pure _) _

theorem vsolid_keepsCores (rq : Req) (va : Int) (len : Nat) : KeepsCores (vsolid rq va len) :=
  .bind (.ofMemWork (address_memWork va)) fun _ => .bind (vpieces_keepsCores rq _ len {}) fun _ => .ofMemWork (solid_memWork _ _ _)

theorem colNote_control (d : Dev) (f : Field) (source group stream ctx cause : Nat) :
    ControlOnly d (d.colNote f source group stream ctx cause) :=
  .after (.raise _ f 0 0) (.ite (.wr d .COL_ERR_INFO 0 0 _) (.refl d))

theorem colConsume_keepsCores {α : Type} (x : ColId) {r : Run α} (h : KeepsCores r) : KeepsCores (colConsume x r) :=
  .bind (.attempt h) fun e => by
    split
    · exact .pure _
    · refine .bind .dev fun d => ?_
      dsimp only
      split
      · exact .bind (.upd fun d => (colNote_control d _ _ _ _ _ _).cores) fun _ => .stop _
      · exact .stop _

theorem colPlan_keepsCores (x : ColId) : KeepsCores (colPlan x) :=
  .bind .dev fun _ => .ite (.pure _) (.bind (colConsume_keepsCores x (vsolid_keepsCores _ _ _)) fun _ => .pure _)

theorem bucketEntry_keepsCores (x : ColId) (p : ColPlan) (b : Nat) : KeepsCores (bucketEntry x p b) :=
  .bind (colConsume_keepsCores x (vsolid_keepsCores _ _ _)) fun _ => .pure _

theorem tryFire_keepsCores (x : ColId) (p : ColPlan) : ∀ n, KeepsCores (tryFire x p n)
  | 0 => .pure _
  | n + 1 => .bind .dev fun _ => .ite (.pure _) <| .bind (bucketEntry_keepsCores x p _) fun _ => .ite (.pure _) <|
      .bind (.upd fun _ => rfl) fun _ => .ite (.bind (.upd fun _ => rfl) fun _ => tryFire_keepsCores x p n) (tryFire_keepsCores x p n)

theorem fillReport_keepsCores (x : ColId) (b bytes : Nat) : KeepsCores (fillReport x b bytes) :=
  .bind .dev fun _ => .bind (colPlan_keepsCores x) fun p => .ite (.upd fun _ => rfl) <|
    .bind (bucketEntry_keepsCores x p b) fun _ =>
      .bind (.upd fun _ => (Dev.raiseIf_control _ _ _ 0 0).cores) fun _ => tryFire_keepsCores x p _

end Run

/-! ### Hoards after a stop -/

namespace Dev

/-- Every core has its Hoard as it was. -/
def KeepsHoards (d e : Dev) : Prop := ∀ k, (e.core k).hoard = (d.core k).hoard

theorem KeepsHoards.ofCores {d e : Dev} (h : e.cores = d.cores) : KeepsHoards d e := fun k => by rw [core, core, h]

theorem fatal_of_stopped {d : Dev} {f : FaultInfo} (h : (d.ctx f.ctx).st = .faulted ∨ (d.ctx f.ctx).st = .stopping) :
    d.fatal f = d.recordFatal f := by
  have hctx : (d.recordFatal f).ctx f.ctx = d.ctx f.ctx := by
    rw [ctx, recordFatal_recordOnly]; rfl
  have hst : ((d.recordFatal f).ctx f.ctx).st = .faulted ∨ ((d.recordFatal f).ctx f.ctx).st = .stopping := by rw [hctx]; exact h
  exact if_pos hst

theorem fatal_keepsHoards (d : Dev) (f : FaultInfo) : KeepsHoards d (d.fatal f) := fun k => by
  by_cases h : (d.ctx f.ctx).st = .faulted ∨ (d.ctx f.ctx).st = .stopping
  · rw [fatal_of_stopped h]
    exact KeepsHoards.ofCores (recordFatal_recordOnly d f).cores k
  · rw [core_fatal (fun hf => h (.inl hf)) (fun hs => h (.inr hs))]
    split <;> rfl

theorem cores_onCtx (d : Dev) (n : Nat) (f : Ctx → Ctx) : (d.onCtx n f).cores = d.cores := rfl

theorem cores_formRecord (d : Dev) (f : FaultInfo) (kind : Nat) : (d.formRecord f kind).2.cores = d.cores := rfl

/-- What a page fault does before the context's list: the record formed, counted and posted (R309). -/
def recordPage (d : Dev) (f : FaultInfo) : Dev :=
  (((d.formRecord f 1).2.bump F.CTX_FAULT_CNT_page 0 f.ctx 1).raise F.CTX_ERR_STATUS_page_fault).postRecord (d.formRecord f 1).1

theorem cores_recordPage (d : Dev) (f : FaultInfo) : (d.recordPage f).cores = d.cores := by
  have hcount (e : Dev) : RegsOnly e ((e.bump F.CTX_FAULT_CNT_page 0 f.ctx 1).raise F.CTX_ERR_STATUS_page_fault) :=
    .after (.raise _ _ _ _) (.bump _ _ _ _ _)
  rw [recordPage, (postRecord_recordOnly _ _).cores, (hcount _).cores, cores_formRecord]

theorem pageFault_eq {d : Dev} (h : d.isSet F.CTX_CTRL_pf_en = true) (f : FaultInfo) : d.pageFault f =
    ((d.recordPage f).onCtx f.ctx (fun x => { x with pageFaults := x.pageFaults ++ [f] })).contextEvent f.ctx 0x8002 (d.formRecord f 1).1 := by
  unfold pageFault
  rw [h, Bool.not_true, if_neg Bool.false_ne_true]
  rfl

theorem pageFault_keepsHoards (d : Dev) (f : FaultInfo) : KeepsHoards d (d.pageFault f) := by
  cases h : d.isSet F.CTX_CTRL_pf_en with
  | false =>
    unfold pageFault
    rw [h, Bool.not_false, if_pos rfl]
    exact fatal_keepsHoards d f
  | true =>
    rw [pageFault_eq h]
    exact .ofCores ((ControlOnly.ofMail (mailOnly_contextEvent _ _ _ _)).cores.trans
      ((cores_onCtx _ _ _).trans (cores_recordPage d f)))

theorem stopped_keepsHoards (d : Dev) (u : UnitId) (cursor : Nat) (s : Stop) : KeepsHoards d (d.stopped u cursor s) := by
  cases s with
  | wait => exact fun _ => rfl
  | page va dev => exact pageFault_keepsHoards d _
  | fatal cause va pa detail engine => exact fatal_keepsHoards d _

/-- The Hoard's own work that leaves the cores alone keeps every Hoard but for the page fault that may hold its issue. -/
theorem hoard_runHoard {c : Nat} {u : UnitId} {work : Run Unit} (hw : Run.KeepsCores work) (d : Dev) (k : Nat) :
    ∃ va, (((d.runHoard c u work).core k).hoard) = { (d.core k).hoard with stopped := va } := by
  have hcores (r : Except Stop Unit) (e : Dev) (h : work d = (r, e)) : (e.core k).hoard = (d.core k).hoard := by
    have := hw d
    rw [h] at this
    rw [core, core, this]
  unfold runHoard
  split
  · exact ⟨(d.core k).hoard.stopped, rfl⟩
  · split
    next e he => exact ⟨(d.core k).hoard.stopped, hcores _ e he⟩
    next va dev e he =>
      by_cases hk : k = c
      · subst hk
        refine ⟨some va, (stopped_keepsHoards _ u 0 _ k).trans ?_⟩
        rw [core_onCore, hcores _ e he]
      · refine ⟨(d.core k).hoard.stopped, (stopped_keepsHoards _ u 0 _ k).trans ?_⟩
        rw [core_onCore_other _ _ hk, hcores _ e he]
    next s e _ he => exact ⟨(d.core k).hoard.stopped, (stopped_keepsHoards e u 0 s k).trans (hcores _ e he)⟩

theorem runHoard_of {d e : Dev} {c : Nat} {u : UnitId} {work : Run Unit} (hr : d.coreRuns c = true) (h : work d = (.ok (), e)) :
    d.runHoard c u work = e := by
  unfold runHoard
  rw [hr, h]
  rfl

/-! ### WQ_ENTRY_COMPLETE, WQ_FLUSH and the Hoard's own commands -/

theorem hoard_entryComplete {d : Dev} {c : Nat} {e : WEntry}
    (h : (d.core c).hoard.running.find? (fun e => e.ids.all (fun id => !d.outstanding c id)) = some e) :
    (d.entryComplete c).1 = some (e.bucket, e.bytes) ∧
      ((d.entryComplete c).2.core c).hoard.running = (d.core c).hoard.running.erase e ∧
      ((d.entryComplete c).2.core c).hoard.queue = (d.core c).hoard.queue := by
  have hfold : ∀ (l : List Nat) (x : Hoard),
      (l.foldl (fun (h : Hoard) id => h.onFrame id (fun f => { f with wPins := f.wPins - 1 })) x).queue = x.queue := fun l => by
    induction l with
    | nil => exact fun _ => rfl
    | cons i l ih => exact fun x => ih _
  unfold entryComplete
  dsimp only
  rw [h]
  dsimp only
  rw [core_onCore]
  exact ⟨rfl, rfl, hfold _ _⟩

end Dev

namespace Run

theorem wqFlush_ok {u : UnitId} {o : Op} {d : Dev} (ho : u.opcode = 0x59) (h0 : bits o.w0 63 14 = 0) (h1 : o.w1 = 0)
    (hq : (d.core u.core).hoard.queue = []) (hi : (d.core u.core).hoard.issuing = none) (hr : (d.core u.core).hoard.running = []) :
    wqFlush u o d = (.ok (), d.hoardLeft u.core Hoard.reclaimFlushed) := by
  have hword : hdWord wqBad u o false d = (.ok (bits o.w0 13 8), d) := by
    have hz : bits 0 63 32 = 0 := rfl
    rw [hdWord, dev_bind]
    simp only [h0, h1, ho, hz, bne_self_eq_false, Bool.false_or, Bool.and_false, Bool.false_and, Bool.false_eq_true, if_false]
    rfl
  have hissue : wqIssue u d = (.ok (), d) := by
    rw [wqIssue, theHoard_bind, hi]
    rfl
  have hnext : wqNext u F.WQ_FLUSH_CNT_entries d = (.ok (), d) := by
    rw [wqNext, theHoard_bind, hi, hq]
    rfl
  have hall : wqIssueAll u 1 d = (.ok (), d) := by
    rw [wqIssueAll, bind_ok hissue, bind_ok hnext, bind_ok hissue]
    rfl
  rw [wqFlush, bind_ok hword, theHoard_bind, hq, List.length_nil, bind_ok hall, theHoard_bind, hq, hi, hr]
  rfl

end Run

end Sys2Proof.Machine

namespace Sys2Proof.Proofs

open Sys2Proof.Machine Sys2Proof.Claims

/-- Settles O36: an empty W queue has nothing to issue before its flush, a completed entry's report leaves the cores alone, and the
Hoard's own work runs on what its command chose. -/
theorem hoardBackground : Obligations.HoardBackground := by
  intro s c env h i u size
  refine ⟨fun p o d hf h0 h1 hq hi hr => ?_, fun e ha hr hfind => ?_, fun r f e ha hr hhome hroom hfind hframe hwork => ?_,
    fun f b e ha hr hhome hen hfind hwin hwork => ?_, fun w ws e1 e ha hr hst hi hq hbusy hen htasks hnext hissue => ?_⟩
  · have hh : ((d.attempted c o.id).core c).hoard = h := (Dev.hoard_attempted d c o.id).trans hf.hoard
    have hcode : o.opcode = 0x59 := hf.2.2.1
    have hend := Run.wqFlush_ok (u := d.unitOf c o (0x20 + c)) (d := d.attempted c o.id) hcode h0 h1
      ((congrArg Hoard.queue hh).trans hq) ((congrArg Hoard.issuing hh).trans hi) ((congrArg Hoard.running hh).trans hr)
    refine ⟨_, hf.ends hend, gone_left _ _ _ _, ?_, ?_⟩
    · rw [hoard_left]
      exact (Dev.hoard_hoardLeft _ _ _).trans (congrArg Hoard.reclaimFlushed hh)
    · refine (mem_left ..).trans ?_
      show d.mem = _
      rw [hf.frame]; rfl
  · have ht := Dev.not_tripped_of_coreRuns hr
    obtain ⟨hsome, hrun, hqueue⟩ := Dev.hoard_entryComplete (d := found s {}) hfind
    refine ⟨_, State.applyCompute_awake ha ht (fun d => d.wqEntryComplete c) {}, ?_⟩
    have hleft : ∃ va, ((left s ((found s {}).wqEntryComplete c)).dev.core c).hoard =
        { (((found s {}).entryComplete c).2.core c).hoard with stopped := va } := by
      rw [left, Dev.core_settle]
      have hruns : (found s {}).coreRuns c = true := hr
      unfold Dev.wqEntryComplete
      rw [hruns, Bool.not_true, if_neg Bool.false_ne_true]
      generalize hx : (found s {}).entryComplete c = x at hsome ⊢
      obtain ⟨y, k⟩ := x
      subst hsome
      exact Dev.hoard_runHoard (Run.fillReport_keepsCores _ _ _) k c
    obtain ⟨va, hva⟩ := hleft
    rw [hva]
    exact ⟨hrun, hqueue⟩
  · have ht := Dev.not_tripped_of_coreRuns hr
    refine (State.applyCompute_awake ha ht (fun d => d.hoardWriteBack c) env).trans ?_
    refine congrArg (fun e => Host.Outcome.next (left s e)) ?_
    unfold Dev.hoardWriteBack
    dsimp only
    rw [if_neg (by rintro (hz | hle); exacts [hhome hz, absurd hle (Nat.not_le.mpr hroom)])]
    have hfind' : ((found s env).core c).hoard.resident.find? (fun r => !((found s env).core c).hoard.pinned r.frame &&
      !((found s env).core c).hoard.clean r.frame) = some r := hfind
    have hframe' : ((found s env).core c).hoard.frame r.frame = some f := hframe
    rw [hfind']
    dsimp only
    rw [hframe']
    exact Dev.runHoard_of hr hwork
  · have ht := Dev.not_tripped_of_coreRuns hr
    refine (State.applyCompute_awake ha ht (fun d => d.hoardPrefetch c) env).trans ?_
    refine congrArg (fun e => Host.Outcome.next (left s e)) ?_
    have hen' : (found s env).isSet F.HD_CTRL_pf_en c = true := hen
    have hfind' : ((found s env).core c).hoard.turned.findSome? (fun k => (((found s env).core c).hoard.stack k).find?
      (fun f => (((found s env).core c).hoard.copy f.id).isNone && decide (f.id ≤ ((found s env).core c).hoard.pushNo))) = some f := hfind
    unfold Dev.hoardPrefetch
    dsimp only
    rw [hfind']
    dsimp only
    rw [hen', if_neg]
    · exact Dev.runHoard_of hr ((Run.bind_ok hwork).trans rfl)
    · simp only [Bool.not_true, Bool.false_or, Bool.or_eq_true, beq_iff_eq, decide_eq_true_eq]
      rintro (hz | hlt)
      exacts [hhome hz, absurd hlt (Nat.not_lt.mpr hwin)]
  · have ht := Dev.not_tripped_of_coreRuns hr
    refine (State.applyCompute_awake ha ht (fun d => d.bubbleIssue c (d.passPending c)) env).trans ?_
    refine congrArg (fun e => Host.Outcome.next (left s e)) ?_
    have hen' : (found s env).isSet F.WQ_CTRL_drain_en c = true := hen
    have htasks' : (found s env).tasks c ((found s env).fld F.WQ_CFG_task c) = [] := htasks
    have hst' : ((found s env).core c).hoard.stopped = none := hst
    have hi' : ((found s env).core c).hoard.issuing = none := hi
    have hq' : ((found s env).core c).hoard.queue = w :: ws := hq
    unfold Dev.bubbleIssue
    dsimp only
    rw [hst', hi', hq', hbusy, hen', htasks']
    exact Dev.runHoard_of hr ((Run.bind_ok hnext).trans hissue)

end Sys2Proof.Proofs
end

section
/-!
PROOFS. The summary bits apart from the mailbox unit's own registers; the words of collectives; COL_REMAP, COL_FILL and COL_GRADWAIT.
-/

namespace Sys2Proof.Machine

open Sys2Proof.Claims

namespace Dev

/-! ### Summary bits -/

/-- The leaf words read the windows 0 to 7 of their registers, and six bits of INT_FW. -/
theorem leafWord_congr_low {d e : Dev} (h : ∀ r ∈ leafRegs, r ≠ .INT_FW → ∀ w < 8, e.rd r w = d.rd r w)
    (b : Nat) (hfw : b = 53 → bits (e.rd .INT_FW) 5 0 = bits (d.rd .INT_FW) 5 0) : e.leafWord b = d.leafWord b := by
  simp only [leafRegs, List.forall_mem_cons, ne_eq, reduceCtorEq, not_false_eq_true, forall_true_left] at h
  unfold leafWord
  repeat' (refine ite_congr rfl (fun _ => ?_) (fun _ => ?_))
  all_goals simp (disch := omega) only [h, hfw]

/-- Two names of one register read the same where they reset to the same. -/
theorem rd_of_key_eq (d : Dev) {r q : Reg} {w j w' j' : Nat} (hk : r.key w j = q.key w' j') (hr : r.reset j = q.reset j') :
    d.rd r w j = d.rd q w' j' := by
  rw [rd, rd, RegFile.rd, RegFile.rd, hk, hr]

theorem leafRegs_not_mail : ∀ r ∈ leafRegs, r ≠ .INT_FW → ∀ w < 8, r.key w 0 ∈ mailKeys → r.key w 0 = Reg.MBX_ERR_STATUS.key 0 0 := by
  decide

theorem intLeafEn_not_mail : ∀ b < 64, Reg.INT_LEAF_EN.key 0 b ∉ mailKeys := by decide

/-- A field above the leaves of INT_FW, in a register that stands where the mailbox unit's do: no summary bit sees it. -/
theorem intSum_setFld_mail {x : Field} (hx : x.lo ≤ x.hi) (h64 : x.hi < 64) (h6 : 6 ≤ x.lo) (d : Dev) {w j : Nat}
    (hr : x.reg.reset j = 0) (hm : x.reg.key w j ∈ mailKeys) (he : x.reg.key w j ≠ Reg.MBX_ERR_STATUS.key 0 0) (v : Nat) :
    (d.setFld x w j v).intSum = d.intSum := by
  have hleaf (b : Nat) : (d.setFld x w j v).leafWord b = d.leafWord b := by
    refine leafWord_congr_low (fun r hl hfw w' hw => rd_setFld_other d x v fun hk => ?_) b fun _ => ?_
    · have hmr : r.key w' 0 ∈ mailKeys := by rw [hk]; exact hm
      exact he (hk.symm.trans (leafRegs_not_mail r hl hfw w' hw hmr))
    · by_cases hk : Reg.INT_FW.key 0 0 = x.reg.key w j
      · have hzero : Reg.INT_FW.reset 0 = x.reg.reset j := hr ▸ rfl
        refine Nat.eq_of_testBit_eq fun i => ?_
        rw [← bit, ← bit, bit_bits, bit_bits, rd_of_key_eq _ hk hzero, rd_of_key_eq _ hk hzero, bit_rd_setFld d hx h64]
        by_cases hi : i < 6
        · rw [if_neg (by omega)]
        · simp [hi]
      · rw [rd_setFld_other d x v hk]
  have hen : ∀ b ∈ List.range 64, (d.setFld x w j v).rd .INT_LEAF_EN 0 b = d.rd .INT_LEAF_EN 0 b := fun b hb =>
    rd_setFld_other d x v fun hk => intLeafEn_not_mail b (List.mem_range.mp hb) (by rw [hk]; exact hm)
  exact List.foldl_ext _ _ 0 (fun a b hb => by rw [hleaf, hen b hb])

end Dev

theorem Dev.intSum_congr {d e : Dev} (h : e.regs = d.regs) : e.intSum = d.intSum := by
  cases d; cases e; subst h; rfl

theorem Dev.fld_of_regs {d e : Dev} (h : e.regs = d.regs) (x : Field) (w j : Nat) : e.fld x w j = d.fld x w j := by
  rw [fld, fld, h]

/-! ### Words of collectives -/

namespace Dev

theorem mem_setFld_onCtx (d : Dev) (x : Field) (w j v n : Nat) (f : Ctx → Ctx) : ((d.setFld x w j v).onCtx n f).mem = d.mem := rfl

theorem ctx_dropOp_onCtx (d : Dev) (n c id : Nat) (f : Ctx → Ctx) : ((d.onCtx n f).dropOp c id).ctx n = f (d.ctx n) := ctx_setCtx d n _

theorem ctx_core_attempted (d : Dev) (c id k : Nat) : ((d.attempted c id).core k).ctx = (d.core k).ctx := by
  by_cases hk : k = c
  · rw [hk, attempted, core_onHeld]
  · rw [attempted, onHeld, core_onCore_other _ _ hk]

theorem any_held_attempted {p : Op → Bool} (hp : ∀ x, p { x with stalled := false } = p x) (d : Dev) (c id k : Nat) :
    ((d.attempted c id).core k).held.any p = (d.core k).held.any p := by
  by_cases hk : k = c
  · rw [hk]; exact any_held_onHeld hp d c id
  · rw [attempted, onHeld, core_onCore_other _ _ hk]

theorem otherCollectives_attempted (d : Dev) (c id : Nat) (u : UnitId) (o : Op) :
    Run.otherCollectives (d.attempted c id) u o = Run.otherCollectives d u o := by
  have hcores : (d.attempted c id).ctxCores u.ctx = d.ctxCores u.ctx :=
    List.filter_congr fun k _ => by rw [ctx_core_attempted]
  have hheld (k : Nat) := any_held_attempted (p := fun y => decide (0x70 ≤ y.opcode) && decide (y.opcode < 0x80) && y.ctx == u.ctx &&
    !(k == u.core && y.id == o.id)) (fun _ => rfl) d c id k
  rw [Run.otherCollectives, hcores]
  simp only [hheld]
  rfl

end Dev

namespace Run

theorem colBad_of {b : Bool} (h : b = false) (x : ColId) (d : Dev) : colBad x b d = (.ok (), d) := by
  rw [colBad, dev_bind, h]
  rfl

/-- What a collective's word says of it before it is numbered. -/
def wordId (u : UnitId) (o : Op) (stream : Nat) : ColId :=
  { u, group := bits o.w0 31 16, stream, seq := o.work.headD 1 - 1, opcode := o.opcode }

theorem colWord_ok (u : UnitId) {o : Op} (h : ColWord o) (stream : Nat) (d : Dev) :
    colWord u o stream d = (.ok (wordId u o stream), d) := by
  obtain ⟨h0, h1, hw⟩ := h
  refine bind_ok (colBad_of ?_ _ d)
  by_cases hf : o.opcode = 0x79
  · rw [if_pos hf] at hw
    simp [h0, h1, hf, hw]
  · rw [if_neg hf] at hw
    simp [h0, h1, hf, hw]

theorem colBehind_ok {x : ColId} {d : Dev} (h : (d.ctx x.u.ctx).slotWaits = []) : colBehind x d = (.ok (), d) := by
  rw [colBehind, dev_bind, h]
  rfl

/-- The plan of a job without one (R431). -/
def noPlan : ColPlan := { groupTable := 0, groups := 0, bucketTable := 0, buckets := 0, staging := 0, slots := 1, timeout := 100000 }

theorem colPlan_none {x : ColId} {d : Dev} (h : (d.job x.u.ctx).planCount = 0) : colPlan x d = (.ok noPlan, d) := by
  rw [colPlan, dev_bind, if_pos h]
  rfl

theorem colRemap_ok {u : UnitId} {o : Op} {d : Dev} (h : ColWord o) (hn : bits o.w0 31 16 ≤ d.fld F.COL_PLAN_plans 0 u.ctx)
    (ho : otherCollectives d u o = false) :
    colRemap u o d = (.ok (), (d.setFld F.COL_PLAN_active 0 u.ctx (bits o.w0 31 16)).onCtx u.ctx (fun c => { c with colSeq := [] })) := by
  have hbad : decide (d.fld F.COL_PLAN_plans 0 u.ctx < bits o.w0 31 16) = false := decide_eq_false (by omega)
  rw [colRemap, bind_ok (colWord_ok u h 0 d), dev_bind]
  refine (bind_ok (colBad_of hbad _ d)).trans ?_
  rw [waitIf_of ho]
  rfl

theorem colFill_stray {u : UnitId} {o : Op} {d : Dev} (h : ColWord o) (hs : (d.ctx u.ctx).slotWaits = [])
    (hp : (d.job u.ctx).planCount = 0) (ha : d.isSet F.COL_BKT_armed 0 u.ctx = false) :
    colFill u o d = (.ok (), d.raise F.COL_ERR_STATUS_stray) := by
  rw [colFill, bind_ok (colWord_ok u h 0 d), bind_ok (colBehind_ok hs), fillReport, dev_bind]
  refine (bind_ok (colPlan_none hp)).trans ?_
  rw [if_pos]
  · rfl
  · rw [Bool.or_eq_true, Bool.not_eq_true']
    exact .inl ha

theorem colGradwait_ok {u : UnitId} {o : Op} {d : Dev} (h : ColWord o) (hs : (d.ctx u.ctx).slotWaits = [])
    (hp : (d.job u.ctx).planCount = 0) (hg : bits o.w0 31 16 = 0) (ha : d.isSet F.COL_BKT_armed 0 u.ctx = false) :
    colGradwait u o d = (.ok (), d) := by
  have hx : decide (noPlan.groups < (wordId u o 0).group) = false := by
    rw [show (wordId u o 0).group = 0 from hg]; rfl
  have hgroup : colGroupOf (wordId u o 0) noPlan d = (.ok { num := 0, rank := 0, core := none, members := [d.deviceId] }, d) := by
    have hg' : (wordId u o 0).group = 0 := hg
    rw [colGroupOf]
    refine (bind_ok (colBad_of hx _ d)).trans ?_
    have hzero : colGroup (wordId u o 0) noPlan (wordId u o 0).group d =
        (.ok { num := 0, rank := 0, core := none, members := [d.deviceId] }, d) := by
      rw [hg', colGroup, dev_bind]
      rfl
    rw [bind_ok hzero]
    exact (bind_ok (colBad_of rfl _ d)).trans rfl
  rw [colGradwait, bind_ok (colWord_ok u h 0 d)]
  refine (bind_ok (colPlan_none hp)).trans ((bind_ok hgroup).trans ((bind_ok (colBehind_ok hs)).trans ?_))
  rw [dev_bind, if_neg]
  · rfl
  · rw [Bool.not_eq_true]; exact ha

end Run

end Sys2Proof.Machine

namespace Sys2Proof.Claims

open Sys2Proof.Machine

/-- What the collectives' commands find in a device that only its cores set apart from the one before. -/
theorem FetchRuns.attempted {s : State} {env : Env} {c : Fin 4} {p : Pick} {code : Nat} {free : Dev → Bool} {o : Op} {d : Dev}
    (h : FetchRuns s env c p code free o d) : d.attempted c o.id = { found s env with cores := (d.attempted c o.id).cores } := by
  rw [h.frame]; rfl

/-- A field set by an operation reads as it was set, wherever its register stands: where it stands among the mailbox unit's, no
summary bit rises and no event is sent. -/
theorem fld_set_left {x : Field} (hx : x.lo ≤ x.hi) (h64 : x.hi < 64) (h6 : 6 ≤ x.lo) {s : State} {d : Dev} (hd : d.regs = s.dev.regs)
    {c : Fin 4} {o : Op} {j n : Nat} (hr : x.reg.reset j = 0) (he : x.reg.key 0 j ≠ Reg.MBX_ERR_STATUS.key 0 0)
    (hn : n < 2 ^ (x.hi + 1 - x.lo)) (f : Ctx → Ctx) :
    (left s (((d.setFld x 0 j n).onCtx o.ctx f).dropOp c o.id)).dev.fld x 0 j = n := by
  have hset : (((d.setFld x 0 j n).onCtx o.ctx f).dropOp c o.id).fld x 0 j = n :=
    (Dev.fld_of_regs (e := ((d.setFld x 0 j n).onCtx o.ctx f).dropOp c o.id) rfl x 0 j).trans
      ((Dev.fld_setFld d hx h64 0 j n).trans (Nat.mod_eq_of_lt hn))
  by_cases hm : x.reg.key 0 j ∈ mailKeys
  · have hsum : (((d.setFld x 0 j n).onCtx o.ctx f).dropOp c o.id).intSum = s.dev.intSum :=
      (Dev.intSum_congr rfl).trans ((Dev.intSum_setFld_mail hx h64 h6 d hr hm he n).trans (Dev.intSum_congr hd))
    rw [left, Dev.settle_of_intSum_eq hsum]
    exact (Dev.fld_of_regs rfl x 0 j).trans hset
  · rw [left, Dev.fld_congr (Dev.rd_settle s.dev _ hm)]
    exact hset

end Sys2Proof.Claims

namespace Sys2Proof.Proofs

open Sys2Proof.Machine Sys2Proof.Claims

/-- Settles O37: each of the three ends at once under its conditions; the plan that COL_REMAP makes active reads so even where the
number of the operation's context would put its register among the mailbox unit's. -/
theorem collectiveControl : Obligations.CollectiveControl := by
  intro s c p env o d n hword
  refine ⟨fun h hn ho => ?_, fun h hs hp ha => ?_, fun h hs hp hg ha => ?_⟩
  · have hframe := h.attempted
    have hother := (Dev.otherCollectives_attempted d c o.id (d.unitOf c o 0x80) o).trans ho
    generalize hk : d.attempted c o.id = k at hframe hother
    have hregs : k.regs = s.dev.regs := by rw [hframe]; rfl
    have hplans : n ≤ k.fld F.COL_PLAN_plans 0 o.ctx := by rw [Dev.fld_of_regs hregs]; exact hn
    have hend := Run.colRemap_ok (u := d.unitOf c o 0x80) hword hplans hother
    have hu : (d.unitOf c o 0x80).ctx = o.ctx := rfl
    rw [hu] at hend
    have hlt : n < 2 ^ (F.COL_PLAN_active.hi + 1 - F.COL_PLAN_active.lo) := Nat.lt_of_le_of_lt hn (Dev.fld_lt s.dev F.COL_PLAN_plans 0 o.ctx)
    have he : F.COL_PLAN_active.reg.key 0 o.ctx ≠ Reg.MBX_ERR_STATUS.key 0 0 := by
      simp only [F.COL_PLAN_active, Reg.key, Reg.row]; omega
    rw [← hk] at hend
    refine ⟨_, h.ends hend, gone_left _ _ _ _, ?_, ?_, ?_⟩
    · rw [hk]
      exact fld_set_left (x := F.COL_PLAN_active) (by decide) (by decide) (by decide) hregs rfl he hlt _
    · rw [left, Dev.ctx_settle, Dev.ctx_dropOp_onCtx]
    · refine (mem_left ..).trans ?_
      rw [hk]
      exact (Dev.mem_setFld_onCtx ..).trans (by rw [hframe]; rfl)
  · have hframe := h.attempted
    generalize hk : d.attempted c o.id = k at hframe
    have hend := Run.colFill_stray (u := d.unitOf c o 0x80) (d := k) hword (by rw [hframe]; exact hs) (by rw [hframe]; exact hp)
      (by rw [hframe]; exact ha)
    rw [← hk] at hend
    refine ⟨_, h.ends hend, gone_left _ _ _ _, ?_, ?_, ?_⟩
    · rw [Dev.isSet_eq_fld, fld_left _ _ _ _ (by decide), ← Dev.isSet_eq_fld]
      exact Dev.isSet_raise (x := F.COL_ERR_STATUS_stray) _ (by decide) (by decide) 0 0
    · rw [left, Dev.ctx_settle, hk, hframe]
      rfl
    · refine (mem_left ..).trans ?_
      rw [hk, hframe]; rfl
  · have hframe := h.attempted
    generalize hk : d.attempted c o.id = k at hframe
    have hend := Run.colGradwait_ok (u := d.unitOf c o 0x80) (d := k) hword (by rw [hframe]; exact hs) (by rw [hframe]; exact hp) hg
      (by rw [hframe]; exact ha)
    rw [← hk] at hend
    refine ⟨_, h.ends hend, ?_⟩
    rw [hk, hframe]
    exact ⟨rfl, rfl, rfl⟩

end Sys2Proof.Proofs
end

section
/-!
PROOFS. Words as bytes and back; what arrives for collectives and barriers.
-/

namespace Sys2Proof.Machine

open Sys2Proof.Claims

/-! ### Words as bytes -/

theorem leNat_leBytes : ∀ n v, leNat (leBytes n v) = v % 256 ^ n
  | 0, v => (Nat.mod_one v).symm
  | n + 1, v => by
    have hb : (BitVec.ofNat 8 v).toNat = v % 256 := BitVec.toNat_ofNat v 8
    rw [leBytes, leNat, leNat_leBytes n, hb, Nat.pow_succ', Nat.mod_mul]

theorem leNat_append : ∀ a b : List Byte, leNat (a ++ b) = leNat a + 256 ^ a.length * leNat b
  | [], b => by simp [leNat]
  | x :: a, b => by
    rw [List.cons_append, leNat, leNat, leNat_append a b, List.length_cons, Nat.pow_succ']
    ring

/-- A word of a string of words. -/
theorem field_wordBytes : ∀ (ws : List Nat) (i : Nat), field (wordBytes ws) (8 * i) 8 = (ws[i]?).getD 0 % 2 ^ 64
  | [], i => by simp [field, wordBytes, leNat]
  | w :: ws, 0 => by
    have hlen : (leBytes 8 w).length = 8 := Dev.length_leBytes 8 w
    rw [field, wordBytes, List.flatMap_cons, Nat.mul_zero, List.drop_zero, List.take_append_of_le_length (by omega),
      List.take_of_length_le (by omega), leNat_leBytes]
    rfl
  | w :: ws, i + 1 => by
    have hlen : (leBytes 8 w).length = 8 := Dev.length_leBytes 8 w
    have ih := field_wordBytes ws i
    rw [field, wordBytes] at ih
    rw [field, wordBytes, List.flatMap_cons, List.drop_append, List.drop_eq_nil_of_le (by omega), List.nil_append, hlen,
      show 8 * (i + 1) - 8 = 8 * i by omega, ih, List.getElem?_cons_succ]

/-- The cause that a record's fourth word holds (R304). -/
theorem cause_toBytes (f : FaultInfo) (kind time device seq : Nat) :
    bits (field (f.toBytes kind time device seq) 24 8) 7 0 = f.cause % 256 := by
  rw [FaultInfo.toBytes, field_wordBytes _ 3, bits_eq_mod]
  simp only [List.getElem?_cons_succ, List.getElem?_cons_zero, Option.getD_some]
  omega

/-! ### A release of a barrier -/

namespace Dev

theorem ctx_onCtx (d : Dev) (n : Nat) (f : Ctx → Ctx) : (d.onCtx n f).ctx n = f (d.ctx n) := ctx_setCtx d n _

/-- A barrier freed: the release is counted and timed, and its operation is gone (R456). -/
theorem freeBarrier_eq (d : Dev) (c : Nat) (o : Op) : ∃ g : Core → Core,
    d.freeBarrier c o = (((d.bump F.BAR_CNT_releases 0 0 1).wr .BAR_LAST_REL 0 0 d.now).onCore c g).dropOp c o.id :=
  ⟨_, rfl⟩

theorem not_held_dropOp {d : Dev} {c id : Nat} {y : Op} (hy : y ∈ ((d.dropOp c id).core c).held) : y.id ≠ id := by
  rw [core_dropOp] at hy
  simpa using (List.mem_filter.mp hy).2

theorem rd_dropOp_onCore (d : Dev) (c c' id : Nat) (g : Core → Core) (r : Reg) (w j : Nat) :
    ((d.onCore c g).dropOp c' id).rd r w j = d.rd r w j := rfl

/-- What a freed barrier leaves after its command. -/
theorem freed (before d : Dev) (c : Nat) (o : Op) :
    let t := settle before (d.freeBarrier c o)
    (∀ y ∈ (t.core c).held, y.id ≠ o.id) ∧ t.rd .BAR_LAST_REL = d.now % 2 ^ 64 ∧
      t.fld F.BAR_CNT_releases = raisedBy d F.BAR_CNT_releases 0 0 1 ∧
      t.fld F.BAR_LATE_CNT_releases = d.fld F.BAR_LATE_CNT_releases := by
  obtain ⟨g, hg⟩ := freeBarrier_eq d c o
  have hcnt : F.BAR_CNT_releases.reg.key 0 0 ≠ Reg.BAR_LAST_REL.key 0 0 := by decide
  have hlate : F.BAR_LATE_CNT_releases.reg.key 0 0 ≠ Reg.BAR_LAST_REL.key 0 0 := by decide
  have hlate' : F.BAR_LATE_CNT_releases.reg.key 0 0 ≠ F.BAR_CNT_releases.reg.key 0 0 := by decide
  dsimp only
  rw [hg]
  refine ⟨fun y hy => ?_, ?_, ?_, ?_⟩
  · rw [core_settle] at hy
    exact not_held_dropOp hy
  · rw [rd_settle _ _ (not_mail_of_lt (by decide)), rd_dropOp_onCore, rd_wr]
  · rw [fld_congr (rd_settle _ _ (not_mail_of_lt (by decide))), fld_congr (rd_dropOp_onCore ..), fld_congr (rd_wr_other _ _ hcnt)]
    exact fld_bump d (by decide) (by decide) 0 0 1
  · rw [fld_congr (rd_settle _ _ (not_mail_of_lt (by decide))), fld_congr (rd_dropOp_onCore ..), fld_congr (rd_wr_other _ _ hlate),
      fld_bump_other d 1 hlate']

/-! ### A collective's fault -/

theorem isSet_colNote (d : Dev) {f : Field} (hf : f.lo ≤ f.hi) (h64 : f.hi < 64) (source group stream ctx cause : Nat) :
    (d.colNote f source group stream ctx cause).isSet f = true := isSet_raise _ hf h64 0 0

/-- A collective whose peer is lost: the leaf, the context's state and the record (R459). -/
theorem peerLost {d : Dev} {n group stream seq source : Nat} {u : UnitId} {cur : Nat} (hn : n < 16)
    (hu : d.collectiveUnit n group stream seq = some (u, cur)) (hctx : u.ctx = n) (hst : (d.ctx n).st = .running) :
    let e := d.collectiveFault n group stream seq source 0x13
    (e.ctx n).st = .faulted ∧ e.isSet F.COL_ERR_STATUS_peer_lost = true ∧ bits (e.rd .CTX_FREC 0 (8 * n + 3)) 7 0 = 0x13 := by
  have hnote : ControlOnly d (d.colNote F.COL_ERR_STATUS_peer_lost source group stream n 0x13) := Run.colNote_control ..
  have hset := isSet_colNote d (f := F.COL_ERR_STATUS_peer_lost) (by decide) (by decide) source group stream n 0x13
  unfold collectiveFault
  rw [hu]
  dsimp only
  rw [if_neg (by rw [hst]; decide), if_neg (by decide)]
  generalize d.colNote F.COL_ERR_STATUS_peer_lost source group stream n 0x13 = k at hnote hset
  have hk : k.ctx n = d.ctx n := by rw [ctx, hnote.ctxs]; rfl
  have hf : (k.ctx n).st ≠ .faulted := by rw [hk, hst]; decide
  have hs : (k.ctx n).st ≠ .stopping := by rw [hk, hst]; decide
  have hinfo : (u.info 0x13 0 0 source cur none).ctx = n := hctx
  have hcause : (u.info 0x13 0 0 source cur none).cause = 0x13 := rfl
  generalize u.info 0x13 0 0 source cur none = f at hinfo hcause
  subst hinfo
  refine ⟨?_, ?_, ?_⟩
  · rw [ctx_fatal hf hs, if_pos rfl]
  · have hrec : (k.fatal f).rd .COL_ERR_STATUS = k.rd .COL_ERR_STATUS := by
      rw [rd_fatal_other hf hs (not_mail_of_lt (by decide)) (fun i => by simp only [Reg.key, Reg.row]; omega),
        rd_recordFatal k f (by decide) (by decide) (by simp only [Reg.key, Reg.row]; omega)]
    rw [isSet_eq_fld, fld_congr hrec, ← isSet_eq_fld]
    exact hset
  · rw [rd_fatal hf hs (not_mail_of_lt (by simp only [Reg.key, Reg.row]; omega)), recorded, rd_keepRecord _ _ _ (by decide)]
    exact (cause_toBytes f 0 _ _ _).trans (by rw [hcause])

/-- A message of a running context that this device's own does not contradict is kept and counted (R438). -/
theorem collectiveMessage_kept {d : Dev} {n : Nat} {m : ColMsg} (ha : (d.ctx n).aborted = false) (hj : (d.ctx n).job ≠ none)
    (hst : (d.ctx n).st = .running)
    (hown : ∀ y ∈ (d.ctx n).inbox, y.src = d.deviceId → y.group = m.group → y.stream = m.stream → y.seq = m.seq →
      y.opcode = m.opcode ∧ y.kind = m.kind ∧ y.count = m.count ∧ y.step = m.step) :
    d.collectiveMessage n m = (((d.draw 32).2.bump F.COL_RX_BYTES_bytes 0 0 (d.draw 32).1).onCtx n
      (fun x => { x with inbox := x.inbox ++ [m] })) := by
  have hid : ((d.draw 32).2.bump F.COL_RX_BYTES_bytes 0 0 (d.draw 32).1).deviceId = d.deviceId :=
    (fld_bump_other (y := F.RHK_DEV_ID_id) _ _ (by decide)).trans rfl
  have hjob : (d.ctx n).job.isNone = false := by
    cases h : (d.ctx n).job with
    | none => exact absurd h hj
    | some => rfl
  have hclash : (match (d.ctx n).inbox.find? (fun y => y.src == d.deviceId && y.group == m.group && y.stream == m.stream && y.seq == m.seq) with
      | some y => y.opcode != m.opcode || y.kind != m.kind || y.count != m.count || y.step != m.step
      | none => false) = false := by
    split
    next y hy =>
      have hp := List.find?_some hy
      simp only [Bool.and_eq_true, beq_iff_eq] at hp
      obtain ⟨⟨⟨hsrc, hgroup⟩, hstream⟩, hseq⟩ := hp
      obtain ⟨ho, hk, hc, hs⟩ := hown y (List.mem_of_find?_eq_some hy) hsrc hgroup hstream hseq
      simp [ho, hk, hc, hs]
    next => rfl
  unfold collectiveMessage
  dsimp only
  rw [ha, if_neg Bool.false_ne_true, hjob, if_neg Bool.false_ne_true, hid]
  exact (if_neg (fun h => Bool.false_ne_true (hclash.symm.trans h))).trans (if_neg (by rw [hst]; decide))

theorem raisedBy_zero (d : Dev) (f : Field) (w j : Nat) : raisedBy d f w j 0 = d.fld f w j := by
  have := fld_lt d f w j
  rw [raisedBy]
  omega

end Dev

end Sys2Proof.Machine

namespace Sys2Proof.Proofs

open Sys2Proof.Machine Sys2Proof.Claims

/-- Settles O38: a message is kept beside what came before it, a release frees the barrier that waits, and a lost peer faults the
context with the record's cause 0x13. -/
theorem collectiveArrivals : Obligations.CollectiveArrivals := by
  intro s n hawake htrip x
  have happly (f : Dev → Dev) : s.applyCompute f {} = .next (left s (f (found s {}))) := State.applyCompute_awake hawake htrip f {}
  have hwait (group seq c o) (hw : s.dev.waitingBarrier n group seq = some (c, o)) : (found s {}).waitingBarrier n group seq = some (c, o) := hw
  have hfreed (c : Nat) (o : Op) (hnow : s.dev.now < 2 ^ 64) :
      let t := left s ((found s {}).freeBarrier c o)
      (∀ y ∈ (t.dev.core c).held, y.id ≠ o.id) ∧ t.dev.rd .BAR_LAST_REL = s.dev.now ∧
        t.dev.fld F.BAR_CNT_releases = raisedBy s.dev F.BAR_CNT_releases 0 0 1 ∧
        t.dev.fld F.BAR_LATE_CNT_releases = raisedBy s.dev F.BAR_LATE_CNT_releases 0 0 0 := by
    obtain ⟨hheld, htime, hcnt, hl⟩ := Dev.freed s.dev (found s {}) c o
    exact ⟨hheld, htime.trans (Nat.mod_eq_of_lt hnow), hcnt, hl.trans (Dev.raisedBy_zero s.dev _ 0 0).symm⟩
  refine ⟨fun m ha hj hst hown => ?_, fun m ha => ?_, fun group seq c o hw hst => ⟨?_, fun at_ hlate => ?_, fun at_ hat hdue => ?_⟩,
    fun group stream seq source u cur hu hctx hst => ⟨?_, fun haw => ?_⟩, fun b k e hfind hst hstop hwork => ?_⟩
  · have hkept := Dev.collectiveMessage_kept (d := found s {}) (n := n) (m := m) ha hj hst hown
    refine ⟨_, ((found s {}).draw 32).1, happly (fun d => d.collectiveMessage n m), ?_, ?_, ?_⟩
    · rw [hkept, left, Dev.ctx_settle, Dev.ctx_onCtx]
      rfl
    · rw [hkept, left, Dev.fld_congr (Dev.rd_settle s.dev _ (Dev.not_mail_of_lt (by decide)))]
      exact (Dev.fld_of_regs rfl _ 0 0).trans (Dev.fld_bump _ (by decide) (by decide) 0 0 _)
    · rw [hkept, left, Dev.settle_mem]
      rfl
  · refine ⟨_, happly (fun d => d.collectiveMessage n m), ?_⟩
    have hm : (found s {}).collectiveMessage n m =
        (found s {}).emit (.rhanak ((found s {}).portTo m.src) "abort" [m.src, n, m.group, m.stream, m.seq]) := if_pos ha
    rw [hm, left, Dev.settle_ctxs, Dev.settle_out]
    exact ⟨rfl, _, rfl⟩
  · refine ⟨_, happly (fun d => d.barrierRelease n group seq none), fun hnow => ?_⟩
    have hfree : (found s {}).barrierRelease n group seq none = (found s {}).freeBarrier c o := by
      unfold Dev.barrierRelease
      rw [hwait group seq c o hw]
      exact if_neg (fun h => h hst)
    rw [hfree]
    exact hfreed c o hnow
  · refine ⟨_, happly (fun d => d.barrierRelease n group seq (some at_)), fun hnow => ?_⟩
    have hfree : (found s {}).barrierRelease n group seq (some at_) =
        ((found s {}).bump F.BAR_LATE_CNT_releases 0 0 1).freeBarrier c o := by
      unfold Dev.barrierRelease
      rw [hwait group seq c o hw]
      exact (if_neg (fun h => h hst)).trans (if_pos hlate)
    obtain ⟨hheld, htime, hcnt, hl⟩ := Dev.freed s.dev ((found s {}).bump F.BAR_LATE_CNT_releases 0 0 1) c o
    rw [hfree]
    refine ⟨hheld, htime.trans (Nat.mod_eq_of_lt hnow), hcnt.trans ?_, hl.trans ?_⟩
    · exact congrArg (fun v => min (v + 1) _) (Dev.fld_bump_other (y := F.BAR_CNT_releases) _ 1 (by decide))
    · exact Dev.fld_bump _ (by decide) (by decide) 0 0 1
  · refine ⟨_, happly (fun d => d.timedRelease n group seq), fun hnow => ?_⟩
    have hfree : (found s {}).timedRelease n group seq = (found s {}).freeBarrier c o := by
      unfold Dev.timedRelease
      rw [hwait group seq c o hw]
      refine if_neg ?_
      rw [hat]
      rintro (h | h | h)
      · exact h hst
      · exact absurd h (Nat.succ_ne_zero at_)
      · exact absurd h (Nat.not_lt.mpr hdue)
    rw [hfree]
    exact hfreed c o hnow
  · obtain ⟨hfault, hleaf, hrec⟩ := Dev.peerLost (d := found s {}) (source := source) n.isLt hu hctx hst
    refine ⟨_, happly (fun d => d.collectiveFault n group stream seq source 0x13), ?_, ?_, ?_⟩
    · rw [left, Dev.ctx_settle]
      exact hfault
    · rw [left, Dev.isSet_eq_fld, Dev.fld_congr (Dev.rd_settle s.dev _ (Dev.not_mail_of_lt (by decide))), ← Dev.isSet_eq_fld]
      exact hleaf
    · rw [left, Dev.rd_settle s.dev _ (Dev.not_mail_of_lt (by simp only [Reg.key, Reg.row]; omega))]
      exact hrec
  · refine (happly (fun d => d.peerTimeout n group stream seq source)).trans
      ((happly (fun d => d.collectiveFault n group stream seq source 0x13)).trans ?_).symm
    rw [Dev.peerTimeout, show (found s {}).awaits n group stream seq source = true from haw, if_pos rfl]
  · refine (happly (fun d => d.bucketComplete n b)).trans ?_
    have hdone : (found s {}).bucketComplete n b = e := by
      unfold Dev.bucketComplete
      rw [show ((found s {}).ctx n).buckets.find? (fun k => k.1 = b ∧ k.2.fired ∧ ¬ k.2.done) = some (b, k) from hfind]
      dsimp only
      rw [if_neg, hwork]
      rintro (h | h)
      · exact h hst
      · rw [hstop] at h; cases h
    rw [hdone]

end Sys2Proof.Proofs
end

section
/-!
PROOFS. Flits, acknowledgements, resends and training of the fabric links.
-/

namespace Sys2Proof.Machine

open Sys2Proof.Claims

namespace FabDir

/-- Putting a flit on the wires touches the sender's side alone. -/
theorem receiver_of_send {f g : FabDir} {words ws : List Nat} {seq : Nat} (h : f.send words = some (seq, ws, g)) :
    g.expect = f.expect ∧ g.fails = f.fails ∧ g.nakAt = f.nakAt := by
  unfold send at h
  split at h
  · split at h
    · cases h; exact ⟨rfl, rfl, rfl⟩
    · cases h
  · split at h
    · cases h; exact ⟨rfl, rfl, rfl⟩
    · cases h

theorem acked_eq {f : FabDir} {seq : Nat} (h : seq < f.expect) : f.acked seq =
    { f with buffer := f.buffer.filter (fun x => decide (seq < x.1))
             resend := f.resend.bind (fun k => if seq < k then some k else if seq + 1 < f.next then some (seq + 1) else none) } :=
  if_pos h

/-- A resend goes on behind what is acknowledged. -/
theorem resend_acked {f : FabDir} {seq k : Nat} (h : seq < f.expect) (hk : (f.acked seq).resend = some k) : seq < k := by
  rw [acked_eq h] at hk
  obtain ⟨r, -, hr⟩ := Option.bind_eq_some_iff.mp hk
  split at hr
  · cases hr; assumption
  · split at hr
    · cases hr; omega
    · cases hr

end FabDir

namespace Dev

/-! ### Registers of a link -/

/-- Words that fail parity counted (R31, R40). -/
def parityCounted (d : Dev) (b bad : Nat) : Dev :=
  (d.bump F.FAB_LINK_PAR_CNT_words 0 b bad).raiseIf (decide (0 < bad)) F.FAB_ERR_STATUS_parity_event

theorem rd_raiseIf_other (d : Dev) (c : Bool) (x : Field) {r : Reg} {w j w' j' : Nat} (h : r.key w' j' ≠ x.reg.key w j) :
    (d.raiseIf c x w j).rd r w' j' = d.rd r w' j' := by
  unfold raiseIf
  split
  · exact rd_raise_other d x h
  · rfl

theorem fld_parityCounted (d : Dev) (b bad : Nat) :
    (d.parityCounted b bad).fld F.FAB_LINK_PAR_CNT_words 0 b = raisedBy d F.FAB_LINK_PAR_CNT_words 0 b bad := by
  have hk : F.FAB_LINK_PAR_CNT_words.reg.key 0 b ≠ F.FAB_ERR_STATUS_parity_event.reg.key 0 0 := by
    simp only [F.FAB_LINK_PAR_CNT_words, F.FAB_ERR_STATUS_parity_event, Reg.key, Reg.row]; omega
  rw [parityCounted, fld_congr (rd_raiseIf_other _ _ F.FAB_ERR_STATUS_parity_event hk)]
  exact fld_bump d (by decide) (by decide) 0 b bad

theorem isSet_parityCounted (d : Dev) (b : Nat) {bad : Nat} (h : 0 < bad) :
    (d.parityCounted b bad).isSet F.FAB_ERR_STATUS_parity_event = true := by
  rw [parityCounted, raiseIf, if_pos (decide_eq_true h)]
  exact isSet_raise _ (by decide) (by decide) 0 0

theorem rd_parityCounted (d : Dev) (b bad : Nat) {r : Reg} {j : Nat} (hs : r.key 0 j ≠ Reg.FAB_ERR_STATUS.key 0 0)
    (hc : r.key 0 j ≠ Reg.FAB_LINK_PAR_CNT.key 0 b) : (d.parityCounted b bad).rd r 0 j = d.rd r 0 j := by
  rw [parityCounted, rd_raiseIf_other _ _ F.FAB_ERR_STATUS_parity_event hs, rd_bump_other d F.FAB_LINK_PAR_CNT_words bad hc]

theorem linkUp_parityCounted (d : Dev) {b : Nat} (bad : Nat) : (d.parityCounted b bad).linkUp b = d.linkUp b := by
  rw [linkUp, linkUp, fld_congr (rd_parityCounted d b bad (by simp only [F.FAB_LINK_STATUS_state, Reg.key, Reg.row]; omega)
    (by simp only [F.FAB_LINK_STATUS_state, Reg.key, Reg.row]; omega))]

theorem replayLimit_parityCounted (d : Dev) (b bad : Nat) : (d.parityCounted b bad).replayLimit = d.replayLimit := by
  rw [replayLimit, replayLimit, fld_congr (rd_parityCounted d b bad (by decide)
    (by simp only [F.FAB_CTRL_replay_limit, Reg.key, Reg.row]; omega))]

theorem frame_parityCounted (d : Dev) (b bad : Nat) : RegsOnly d (d.parityCounted b bad) :=
  .after (.raiseIf _ _ _ _ _) (.bump _ _ _ _ _)

theorem rd_fabCapture (d : Dev) (addr master link ctx code : Nat) {r : Reg} {j : Nat} (ha : r.key 0 j ≠ Reg.FAB_ERR_ADDR.key 0 0)
    (hi : r.key 0 j ≠ Reg.FAB_ERR_INFO.key 0 0) : (d.fabCapture addr master link ctx code).rd r 0 j = d.rd r 0 j := by
  unfold fabCapture
  split
  · rw [rd_wr_other _ _ hi, rd_wr_other _ _ ha]
  · rfl

/-- A link that fails: its state, and the leaf of a failed bridge. -/
theorem state_linkFail (d : Dev) {b : Nat} : (d.linkFail b).fld F.FAB_LINK_STATUS_state 0 b = 3 ∧
    (d.linkFail b).isSet F.FAB_ERR_STATUS_bridge_failed = true := by
  refine ⟨?_, isSet_raise _ (by decide) (by decide) 0 0⟩
  have hk : F.FAB_LINK_STATUS_state.reg.key 0 b ≠ F.FAB_ERR_STATUS_bridge_failed.reg.key 0 0 := by
    simp only [F.FAB_LINK_STATUS_state, F.FAB_ERR_STATUS_bridge_failed, Reg.key, Reg.row]; omega
  rw [linkFail, fld_raise_other _ hk, fld_congr (rd_fabCapture _ _ _ _ _ _ (by simp only [F.FAB_LINK_STATUS_state, Reg.key, Reg.row]; omega)
    (by simp only [F.FAB_LINK_STATUS_state, Reg.key, Reg.row]; omega))]
  exact fld_setFld d (by decide) (by decide) 0 b 3

/-- What was counted and raised before a link fails stays. -/
theorem parity_linkFail (d : Dev) {b : Nat} :
    (d.linkFail b).fld F.FAB_LINK_PAR_CNT_words 0 b = d.fld F.FAB_LINK_PAR_CNT_words 0 b ∧
      (d.isSet F.FAB_ERR_STATUS_parity_event = true → (d.linkFail b).isSet F.FAB_ERR_STATUS_parity_event = true) := by
  constructor
  · have hs : F.FAB_LINK_PAR_CNT_words.reg.key 0 b ≠ F.FAB_ERR_STATUS_bridge_failed.reg.key 0 0 := by
      simp only [F.FAB_LINK_PAR_CNT_words, F.FAB_ERR_STATUS_bridge_failed, Reg.key, Reg.row]; omega
    rw [linkFail, fld_raise_other _ hs, fld_congr (rd_fabCapture _ _ _ _ _ _ (by simp only [F.FAB_LINK_PAR_CNT_words, Reg.key, Reg.row]; omega)
      (by simp only [F.FAB_LINK_PAR_CNT_words, Reg.key, Reg.row]; omega))]
    exact fld_setFld_other (x := F.FAB_LINK_STATUS_state) d 3 (by
      simp only [F.FAB_LINK_PAR_CNT_words, F.FAB_LINK_STATUS_state, Reg.key, Reg.row]; omega)
  · intro h
    have hrd : ((d.setFld F.FAB_LINK_STATUS_state 0 b 3).fabCapture 0 0 b 0 0).rd .FAB_ERR_STATUS 0 0 = d.rd .FAB_ERR_STATUS 0 0 := by
      rw [rd_fabCapture _ _ _ _ _ _ (by decide) (by decide), rd_setFld_other d F.FAB_LINK_STATUS_state 3 (by
        simp only [F.FAB_LINK_STATUS_state, Reg.key, Reg.row]; omega)]
    refine isSet_raise_of_isSet (x := F.FAB_ERR_STATUS_bridge_failed) (y := F.FAB_ERR_STATUS_parity_event) _ rfl rfl (by decide) 0 0 ?_
    rw [isSet_eq_fld, fld_congr hrd, ← isSet_eq_fld]
    exact h

theorem out_linkFail (d : Dev) (b : Nat) : (d.linkFail b).out = d.out := by
  unfold linkFail fabCapture
  split <;> rfl

/-- A replay time that is counted touches neither the counts of parity nor the link's state. -/
theorem rd_replayNs (d : Dev) (b ns : Nat) {r : Reg} {j : Nat} (h : r.key 0 j ≠ Reg.FAB_LINK_REPLAY_NS.key 0 b) :
    (d.bump F.FAB_LINK_REPLAY_NS_ns 0 b ns).rd r 0 j = d.rd r 0 j := rd_bump_other d F.FAB_LINK_REPLAY_NS_ns ns h

theorem linkUp_of_state {d e : Dev} {b : Nat} (h : e.rd .FAB_LINK_STATUS 0 b = d.rd .FAB_LINK_STATUS 0 b) : e.linkUp b = d.linkUp b := by
  rw [linkUp, linkUp, fld_congr (x := F.FAB_LINK_STATUS_state) h]

theorem fld_linkTrained (d : Dev) (b : Nat) : (d.linkTrained b).linkUp b = true ∧
    (d.linkTrained b).fld F.FAB_LINK_STATUS_train_count 0 b = raisedBy d F.FAB_LINK_STATUS_train_count 0 b 1 := by
  constructor
  · rw [linkUp, linkTrained, fld_setFld _ (by decide) (by decide)]
    rfl
  · rw [linkTrained, fld_setFld_disjoint (x := F.FAB_LINK_STATUS_state) (y := F.FAB_LINK_STATUS_train_count) _ rfl (by decide) (by decide)
      0 b 2 (by decide)]
    exact fld_bump d (by decide) (by decide) 0 b 1

end Dev

namespace Fabric

/-- The directions of a link have places of their own. -/
theorem dir_setDir (l : Links) (b : Nat) (back : Bool) (f : FabDir) : dir (setDir l b back f) b back = f := by
  rw [dir, setDir, Sp.get_set, if_pos rfl]

theorem get_setDir_other (l : Links) {b k : Nat} {back : Bool} (f : FabDir) (h : k ≠ 2 * b + b2n back) :
    Sp.get (fun _ => {}) (setDir l b back f) k = Sp.get (fun _ => {}) l k := by
  rw [setDir, Sp.get_set, if_neg h]

section

variable {d : Dev} {l : Links} {b : Nat} {back : Bool} {words ws : List Nat} {errs : List (Nat × Nat)} {seq : Nat} {g : FabDir}
  (hu : d.linkUp b = true) (hs : (dir l b back).send words = some (seq, ws, g))
include hu hs

theorem flitReceive_discards (he : seq ≠ g.expect) :
    flitReceive d l b back words errs = (d.parityCounted b (failedWords ws errs), setDir l b back g) := by
  unfold flitReceive
  rw [hu, hs]
  exact if_pos he

theorem flitReceive_accepts (he : seq = g.expect) (hb : failedWords ws errs = 0) :
    ∃ ns, flitReceive d l b back words errs = (((d.parityCounted b (failedWords ws errs)).bump F.FAB_LINK_REPLAY_NS_ns 0 b ns).emit
      (.fabric b (b2n back) "ack" seq), setDir l b back g.accept) := by
  unfold flitReceive
  rw [hu, hs, Bool.not_true, if_neg Bool.false_ne_true]
  dsimp only
  rw [if_neg (fun h => h he), if_pos hb]
  exact ⟨_, rfl⟩

theorem flitReceive_rejects (he : seq = g.expect) (hb : 0 < failedWords ws errs) :
    flitReceive d l b back words errs =
      (if d.replayLimit < g.fails + 1 then (d.parityCounted b (failedWords ws errs)).linkFail b
        else (d.parityCounted b (failedWords ws errs)).emit (.fabric b (b2n back) "nak" seq), setDir l b back (g.reject d.now)) := by
  have hnow : (d.parityCounted b (failedWords ws errs)).now = d.now := by rw [Dev.frame_parityCounted d b (failedWords ws errs)]
  have hr : flitReceive d l b back words errs = (if (d.parityCounted b (failedWords ws errs)).replayLimit < g.fails + 1 then
      ((d.parityCounted b (failedWords ws errs)).linkFail b, setDir l b back (g.reject (d.parityCounted b (failedWords ws errs)).now))
      else ((d.parityCounted b (failedWords ws errs)).emit (.fabric b (b2n back) "nak" seq),
        setDir l b back (g.reject (d.parityCounted b (failedWords ws errs)).now))) := by
    unfold flitReceive
    rw [hu, hs, Bool.not_true, if_neg Bool.false_ne_true]
    dsimp only
    rw [if_neg (fun h => h he), if_neg (by omega)]
    rfl
  rw [hr, hnow, Dev.replayLimit_parityCounted]
  split <;> rfl

end

theorem flitReceive_none {d : Dev} {l : Links} {b : Nat} {back : Bool} {words : List Nat} (errs : List (Nat × Nat))
    (h : d.linkUp b = false ∨ (dir l b back).send words = none) : flitReceive d l b back words errs = (d, l) := by
  unfold flitReceive
  cases hu : d.linkUp b with
  | false => rfl
  | true =>
    rw [h.resolve_left (by rw [hu]; decide)]
    rfl

end Fabric

end Sys2Proof.Machine

namespace Sys2Proof.Claims

open Sys2Proof.Machine

/-- What a flit that arrived leaves after its command: the words that failed are counted, the other directions are as they were. -/
theorem flit_left {s : State} {b : Fin 51} {back : Bool} {e : Dev} {g : FabDir} {bad : Nat}
    (hcnt : e.fld F.FAB_LINK_PAR_CNT_words 0 b = raisedBy s.dev F.FAB_LINK_PAR_CNT_words 0 b bad)
    (hpar : 0 < bad → e.isSet F.FAB_ERR_STATUS_parity_event = true) :
    let t := leftLink s e b back g
    (t.dev.fld F.FAB_LINK_PAR_CNT_words 0 b = raisedBy s.dev F.FAB_LINK_PAR_CNT_words 0 b bad ∧
        (0 < bad → t.dev.isSet F.FAB_ERR_STATUS_parity_event = true)) ∧
      (∀ k, k ≠ 2 * b.val + b2n back → Sp.get (fun _ => {}) t.links k = Sp.get (fun _ => {}) s.links k) ∧
      dirOf t b back = g ∧ t.dev.out = e.out ∧ t.dev.linkUp b = e.linkUp b := by
  refine ⟨⟨?_, fun h => ?_⟩, fun k hk => Fabric.get_setDir_other _ _ hk, Fabric.dir_setDir _ _ _ _, Dev.settle_out .., ?_⟩
  · rw [leftLink, Dev.fld_congr (Dev.rd_settle s.dev _ (Dev.not_mail_of_lt (by
      simp only [F.FAB_LINK_PAR_CNT_words, Reg.key, Reg.row]; omega)))]
    exact hcnt
  · rw [leftLink, Dev.isSet_eq_fld, Dev.fld_congr (Dev.rd_settle s.dev _ (Dev.not_mail_of_lt (by decide))), ← Dev.isSet_eq_fld]
    exact hpar h
  · exact Dev.linkUp_of_state (Dev.rd_settle s.dev _ (Dev.not_mail_of_lt (by simp only [Reg.key, Reg.row]; omega)))

end Sys2Proof.Claims

namespace Sys2Proof.Proofs

open Sys2Proof.Machine Sys2Proof.Claims

/-- Settles O39: the four ends of a flit (discarded, accepted, answered with a negative acknowledgement, one failure too many) exclude
each other, and what each counts and raises stays. -/
theorem flitsArrive : Obligations.FlitsArrive := by
  intro s b back words errs hawake f
  have hexec := State.applyLinks_awake hawake (fun d l => Fabric.flitReceive d l b back words errs)
  refine ⟨fun seq ws f' hup hsend => ?_, fun hnone => ?_⟩
  · intro bad counted
    obtain ⟨hexp, hfails, hnaks⟩ := FabDir.receiver_of_send hsend
    have hup' : (found s).linkUp b = true := hup
    have hcnt := Dev.fld_parityCounted (found s) b bad
    have hpar := fun h => Dev.isSet_parityCounted (found s) b (bad := bad) h
    have hupk : ((found s).parityCounted b bad).linkUp b = true := (Dev.linkUp_parityCounted _ bad).trans hup
    have hout : ((found s).parityCounted b bad).out = [] := by rw [Dev.frame_parityCounted (found s) b bad]; rfl
    by_cases hseq : seq = f.expect
    · by_cases hbad : bad = 0
      · obtain ⟨ns, hr⟩ := Fabric.flitReceive_accepts (errs := errs) hup' hsend (hseq.trans hexp.symm) hbad
        rw [hr] at hexec
        have hleft := flit_left (s := s) (b := b) (back := back) (bad := bad) (g := f'.accept)
          (e := (((found s).parityCounted b bad).bump F.FAB_LINK_REPLAY_NS_ns 0 b ns).emit (.fabric b (b2n back) "ack" seq))
          ((Dev.fld_bump_other (x := F.FAB_LINK_REPLAY_NS_ns) (y := F.FAB_LINK_PAR_CNT_words) _ ns (by
            simp only [F.FAB_LINK_REPLAY_NS_ns, F.FAB_LINK_PAR_CNT_words, Reg.key, Reg.row]; omega)).trans hcnt)
          (fun h => absurd hbad (by omega))
        obtain ⟨hc, ho, hd, hout', hup''⟩ := hleft
        have hacc : f'.accept = { f' with expect := seq + 1, fails := 0, nakAt := [] } := by
          rw [FabDir.accept, hexp, hseq]
        have hupn := Dev.linkUp_of_state (Dev.rd_replayNs ((found s).parityCounted b bad) b ns (r := .FAB_LINK_STATUS) (j := b) (by
          simp only [Reg.key, Reg.row]; omega))
        refine ⟨_, hexec, hc, ho, fun _ _ => ⟨hd.trans hacc, hout'.trans ?_, hup''.trans (hupn.trans hupk)⟩, fun _ h => absurd hbad (by omega),
          fun h => absurd hseq h⟩
        exact congrArg (· ++ [Out.fabric b (b2n back) "ack" seq]) hout
      · have hr := Fabric.flitReceive_rejects (errs := errs) hup' hsend (hseq.trans hexp.symm) (Nat.pos_of_ne_zero hbad)
        rw [hr] at hexec
        have hrej : f'.reject s.dev.now = { f' with fails := f.fails + 1, nakAt := f.nakAt ++ [s.dev.now] } := by
          rw [FabDir.reject, hfails, hnaks]
        have hlimit : (found s).replayLimit = max 1 (s.dev.fld F.FAB_CTRL_replay_limit) := rfl
        rw [hlimit, hfails] at hexec
        by_cases hlim : max 1 (s.dev.fld F.FAB_CTRL_replay_limit) < f.fails + 1
        · rw [if_pos hlim] at hexec
          obtain ⟨hpc, hps⟩ := Dev.parity_linkFail ((found s).parityCounted b bad) (b := b)
          obtain ⟨hst, hleaf⟩ := Dev.state_linkFail ((found s).parityCounted b bad) (b := b)
          obtain ⟨hc, ho, hd, hout', -⟩ := flit_left (back := back) (g := f'.reject s.dev.now) (hpc.trans hcnt) (fun h => hps (hpar h))
          refine ⟨_, hexec, hc, ho, fun _ h => absurd h hbad, fun _ _ => ⟨hd.trans hrej, fun h => absurd hlim (Nat.not_lt.mpr h), fun _ => ⟨?_, ?_,
            hout'.trans ((Dev.out_linkFail _ _).trans hout)⟩⟩, fun h => absurd hseq h⟩
          · refine (Dev.fld_congr (Dev.rd_settle s.dev _ (Dev.not_mail_of_lt ?_))).trans hst
            simp only [F.FAB_LINK_STATUS_state, Reg.key, Reg.row]; omega
          · exact (Dev.isSet_eq_of_rd (x := F.FAB_ERR_STATUS_bridge_failed) (Dev.rd_settle s.dev _ (Dev.not_mail_of_lt (by decide)))).trans hleaf
        · rw [if_neg hlim] at hexec
          obtain ⟨hc, ho, hd, hout', hup''⟩ := flit_left (s := s) (b := b) (back := back) (bad := bad) (g := f'.reject s.dev.now)
            (e := ((found s).parityCounted b bad).emit (.fabric b (b2n back) "nak" seq)) hcnt hpar
          exact ⟨_, hexec, hc, ho, fun _ h => absurd h hbad, fun _ _ => ⟨hd.trans hrej, fun _ => ⟨hout'.trans
            (congrArg (· ++ [Out.fabric b (b2n back) "nak" seq]) hout), hup''.trans hupk⟩, fun h => absurd h hlim⟩, fun h => absurd hseq h⟩
    · have hr := Fabric.flitReceive_discards (errs := errs) hup' hsend (by rw [hexp]; exact hseq)
      rw [hr] at hexec
      obtain ⟨hc, ho, hd, hout', hup''⟩ := flit_left (back := back) (g := f') hcnt hpar
      exact ⟨_, hexec, hc, ho, fun h => absurd h hseq, fun h => absurd h hseq, fun _ => ⟨hd, hout'.trans hout, hup''.trans hupk⟩⟩
  · have hr := Fabric.flitReceive_none (d := found s) errs hnone
    refine hexec.trans ?_
    rw [hr]
    rfl

/-- Settles O40: each of the four replaces the directions of its own link and the fields of its own register. -/
theorem fabricControl : Obligations.FabricControl := by
  intro s b back seq hawake f st
  refine ⟨fun hup hheld => ?_, fun hup hseq => ?_, fun hst hbefore => ?_, fun hst => ?_⟩
  · have hany : (dirOf s b back).buffer.any (fun x => x.1 = seq) = true := by
      obtain ⟨x, hx, hs⟩ := hheld
      exact List.any_eq_true.mpr ⟨x, hx, decide_eq_true hs⟩
    have hnak : Fabric.nak (found s) s.links b back seq =
        ((found s).bump F.FAB_LINK_REPLAY_CNT_replays 0 b 1, Fabric.setDir s.links b back ((dirOf s b back).resendFrom seq)) := by
      unfold Fabric.nak
      exact if_pos (by rw [show (found s).linkUp b = true from hup]; exact hany)
    refine (State.applyLinks_awake hawake (fun d l => Fabric.nak d l b back seq)).trans ?_
    rw [hnak]
    rfl
  · have hack : Fabric.ack (found s) s.links b back seq = (found s, Fabric.setDir s.links b back (f.acked seq)) := if_pos hup
    have hexec := State.applyLinks_awake hawake (fun d l => Fabric.ack d l b back seq)
    rw [hack] at hexec
    have hdir : dirOf (leftLink s (found s) b back (f.acked seq)) b back = f.acked seq := Fabric.dir_setDir _ _ _ _
    have heq := FabDir.acked_eq hseq
    refine ⟨_, hexec, rfl, (congrArg FabDir.buffer hdir).trans (by rw [heq]), (congrArg FabDir.next hdir).trans (by rw [heq]),
      (congrArg FabDir.expect hdir).trans (by rw [heq]), fun k hk => ?_⟩
    exact FabDir.resend_acked hseq ((congrArg FabDir.resend hdir).symm.trans hk)
  · have hmay : (found s).mayTrain b = true := by
      rw [Dev.mayTrain, Bool.and_eq_true, Bool.or_eq_true, beq_iff_eq, beq_iff_eq, List.all_eq_true]
      exact ⟨hst, fun x hx => decide_eq_true (hbefore x hx)⟩
    have htrain : Fabric.training (found s) s.links b = ((found s).linkTrained b, Fabric.clear s.links b) := if_pos hmay
    have hexec := State.applyLinks_awake hawake (fun d l => Fabric.training d l b)
    rw [htrain] at hexec
    obtain ⟨hup, hcount⟩ := Dev.fld_linkTrained (found s) b
    have hkey : Reg.FAB_LINK_STATUS.key 0 b ∉ mailKeys := Dev.not_mail_of_lt (by simp only [Reg.key, Reg.row]; omega)
    have hrd := Dev.rd_settle s.dev ((found s).linkTrained b) hkey
    refine ⟨_, hexec, (Dev.linkUp_of_state hrd).trans hup, (Dev.fld_congr (x := F.FAB_LINK_STATUS_train_count) hrd).trans hcount, ?_,
      Fabric.dir_setDir (Fabric.setDir s.links b false {}) b true {}, fun k h0 h1 => ?_⟩
    · refine (Fabric.get_setDir_other (b := b) (back := true) (k := 2 * b.val + b2n false) (Fabric.setDir s.links b false {}) {} ?_).trans
        (Fabric.dir_setDir s.links b false {})
      exact fun h => absurd h (by simp [b2n])
    · exact (Fabric.get_setDir_other (b := b) (back := true) (Fabric.setDir s.links b false {}) {} h1).trans
        (Fabric.get_setDir_other (b := b) (back := false) s.links {} h0)
  · have hfail : Fabric.trainTimeout (found s) b = (found s).linkFail b := if_pos hst
    have hexec := State.apply_awake hawake (fun d => Fabric.trainTimeout d b) {}
    rw [hfail] at hexec
    obtain ⟨hstate, hleaf⟩ := Dev.state_linkFail (found s) (b := b)
    have hkey : Reg.FAB_LINK_STATUS.key 0 b ∉ mailKeys := Dev.not_mail_of_lt (by simp only [Reg.key, Reg.row]; omega)
    exact ⟨_, hexec, (Dev.fld_congr (x := F.FAB_LINK_STATUS_state) (Dev.rd_settle s.dev _ hkey)).trans hstate,
      (Dev.isSet_eq_of_rd (x := F.FAB_ERR_STATUS_bridge_failed) (Dev.rd_settle s.dev _ (Dev.not_mail_of_lt (by decide)))).trans hleaf, rfl⟩

end Sys2Proof.Proofs
end

section
/-!
PROOFS. Summary bits that do not rise; messages that arrive, are taken and are posted.
-/

namespace Sys2Proof.Machine

open Sys2Proof.Claims

namespace Dev

/-! ### Summary bits one by one -/

/-- A number built from distinct powers of two has their bits. -/
theorem bit_foldl_pow (p : Nat → Prop) [DecidablePred p] : ∀ n,
    (List.range n).foldl (fun a b => if p b then a else a + 2 ^ b) 0 < 2 ^ n ∧
      ∀ i, bit ((List.range n).foldl (fun a b => if p b then a else a + 2 ^ b) 0) i = decide (i < n ∧ ¬ p i)
  | 0 => ⟨Nat.one_pos, fun i => by simp [bit]⟩
  | n + 1 => by
    obtain ⟨hlt, hbit⟩ := bit_foldl_pow p n
    rw [List.range_succ, List.foldl_append, List.foldl_cons, List.foldl_nil]
    generalize (List.range n).foldl (fun a b => if p b then a else a + 2 ^ b) 0 = a at hlt hbit ⊢
    have hpow := Nat.pow_succ 2 n
    by_cases hp : p n
    · rw [if_pos hp]
      refine ⟨by omega, fun i => (hbit i).trans ?_⟩
      by_cases hi : i = n
      · simp [hi, hp]
      · have hiff : i < n + 1 ↔ i < n := by omega
        simp [hiff]
    · rw [if_neg hp]
      refine ⟨by omega, fun i => ?_⟩
      rw [bit, Nat.add_comm, ← Nat.mul_one (2 ^ n), Nat.testBit_two_pow_mul_add _ hlt]
      by_cases hi : i < n
      · have hi' : i < n + 1 := by omega
        rw [if_pos hi, ← bit, hbit]
        simp [hi, hi']
      · rw [if_neg hi]
        by_cases hin : i = n
        · simp [hin, hp]
        · have hgt : ¬ i < n + 1 := by omega
          have hpos : i - n ≠ 0 := by omega
          simp [hgt, Nat.testBit_lt_two_pow (Nat.one_lt_two_pow hpos)]

/-- A summary bit is set when one of its enabled leaves is (R525). -/
theorem bit_intSum (d : Dev) (b : Nat) : bit d.intSum b = decide (b < 64 ∧ d.leafWord b &&& d.rd .INT_LEAF_EN 0 b ≠ 0) :=
  (bit_foldl_pow (fun b => d.leafWord b &&& d.rd .INT_LEAF_EN 0 b = 0) 64).2 b

/-- Summary bits do not rise where no leaf does. -/
theorem bit_intSum_of_leaves {d e : Dev} (h : ∀ b i, bit (e.leafWord b) i = true → bit (d.leafWord b) i = true)
    (hen : ∀ b < 64, e.rd .INT_LEAF_EN 0 b = d.rd .INT_LEAF_EN 0 b) {b : Nat} (hb : bit e.intSum b = true) : bit d.intSum b = true := by
  rw [bit_intSum, decide_eq_true_iff] at hb ⊢
  obtain ⟨h64, hne⟩ := hb
  refine ⟨h64, fun hz => hne (Nat.eq_of_testBit_eq fun i => ?_)⟩
  rw [hen b h64, Nat.testBit_and, Nat.zero_testBit, Bool.and_eq_false_imp]
  intro hi
  have hzero := congrArg (fun n => n.testBit i) hz
  simp only [Nat.testBit_and, Nat.zero_testBit, Bool.and_eq_false_imp] at hzero
  exact hzero (h b i hi)

theorem intSum_of_rd {d e : Dev} (h : ∀ r ∈ leafRegs, ∀ w < 8, e.rd r w = d.rd r w)
    (hen : ∀ b < 64, e.rd .INT_LEAF_EN 0 b = d.rd .INT_LEAF_EN 0 b) : e.intSum = d.intSum := by
  have hfw : e.rd .INT_FW = d.rd .INT_FW := h .INT_FW (by decide) 0 (by decide)
  have hleaf (b : Nat) : e.leafWord b = d.leafWord b :=
    leafWord_congr_low (fun r hr _ w hw => h r hr w hw) b fun _ => by rw [hfw]
  exact List.foldl_ext _ _ 0 (fun a b hb => by rw [hleaf, hen b (List.mem_range.mp hb)])

/-! ### A message put on a channel -/

/-- A channel with room takes a message, and no summary bit sees it (R510, R515). -/
theorem ringStore_of_room {d : Dev} {c : Nat} (bs : List Byte) (h : (d.ring c).msgs.length < 16) :
    d.ringStore c bs = d.setRing c { d.ring c with msgs := (d.ring c).msgs ++ [bs] } := if_pos h

theorem msgs_ringPut_of_room {d : Dev} {c : Nat} (bs : List Byte) (h : (d.ring c).msgs.length < 16) :
    ((d.ringPut c bs).ring c).msgs = (d.ring c).msgs ++ [bs] := by
  rw [ring_ringPut, ringStore_of_room bs h, ring_setRing]

theorem intSum_ringPut_of_room {d : Dev} {c : Nat} (bs : List Byte) (h : (d.ring c).msgs.length < 16) :
    (d.ringPut c bs).intSum = d.intSum := by
  rw [ringPut_eq, ringStore_of_room bs h]
  unfold ringBell
  dsimp only
  split
  case isTrue hp => exact intSum_setMbxDb _ hp _
  case isFalse => rfl

/-! ### A message that is dropped -/

theorem rd_mbxDrop_info {d : Dev} {x : Field} (hx : x.reg = .MBX_ERR_STATUS) (sender c : Nat) (port : MbxPort)
    (ho : d.isSet F.MBX_ERR_STATUS_overlong = false) (hb : d.isSet F.MBX_ERR_STATUS_bind_violation = false) :
    (d.mbxDrop x sender c port).rd .MBX_ERR_INFO = sender % 256 * 2 ^ 16 + c % 64 * 2 ^ 8 + port.code := by
  have hport : port.code < 4 := by cases port <;> decide
  unfold mbxDrop
  dsimp only
  rw [ho, hb]
  rw [rd_raise_other _ x (by rw [hx]; decide)]
  refine (rd_wr _ .MBX_ERR_INFO 0 0 _).trans (Nat.mod_eq_of_lt ?_)
  omega

theorem mbxDrop_rings (d : Dev) (x : Field) (sender c : Nat) (port : MbxPort) : (d.mbxDrop x sender c port).rings = d.rings := by
  unfold mbxDrop
  dsimp only
  split <;> rfl

theorem mbxDrop_out (d : Dev) (x : Field) (sender c : Nat) (port : MbxPort) : (d.mbxDrop x sender c port).out = d.out := by
  unfold mbxDrop
  dsimp only
  split <;> rfl

theorem mbxArrive_overlong {d : Dev} {sender c : Nat} (port : MbxPort) {bs : List Byte} (hlen : 240 < bodyLength bs) :
    d.mbxArrive sender c port bs = (false, d.mbxDrop F.MBX_ERR_STATUS_overlong sender c port) := if_pos hlen

theorem mbxArrive_of_not_accepts {d : Dev} {sender c : Nat} (port : MbxPort) {bs : List Byte} (hlen : bodyLength bs ≤ 240)
    (h : ¬ Accepts d sender c) :
    d.mbxArrive sender c port bs = (false, d.mbxDrop F.MBX_ERR_STATUS_bind_violation sender c port) := by
  have hshort : ¬ 240 < field bs 6 2 := Nat.not_lt.mpr hlen
  rw [Accepts] at h
  unfold mbxArrive
  dsimp only
  rw [if_neg hshort, if_pos]
  by_contra hn
  refine h ?_
  simp only [Bool.or_eq_true, Bool.not_eq_true', not_or, Bool.not_eq_false, bne_iff_ne, ne_eq, not_not, beq_iff_eq] at hn
  obtain ⟨⟨hv, hs⟩, hc⟩ := hn
  refine ⟨hv, hs, fun h10 h13 => ?_⟩
  simpa [h10, h13] using hc

/-! ### A message that is taken -/

/-- A channel whose oldest message is gone (R509, R511). -/
def oldestGone (d : Dev) (c : Nat) : Dev :=
  d.setRing c { d.ring c with msgs := (d.ring c).msgs.drop 1, head := ((d.ring c).head + 1) % 16, collision := false }

/-- The bytes of a taken message: after an overwrite its collision flag is set. -/
def takenBytes (collision : Bool) (m : List Byte) : List Byte :=
  if collision then ({ Msg.ofBytes m with flags := (Msg.ofBytes m).flags ||| 4 } : Msg).toBytes else m

theorem ringTake_of_msg {d : Dev} {c : Nat} {m : List Byte} {ms : List (List Byte)} (h : (d.ring c).msgs = m :: ms)
    (hq : ∀ q ∈ d.boot.quotes, q.1 ≠ c) : d.ringTake c = (some (takenBytes (d.ring c).collision m),
      if c = 1 ∧ ms = [] then (d.oldestGone c).setFld F.INT_FW_board_msg 0 0 0 else d.oldestGone c) := by
  have hms : (d.ring c).msgs.drop 1 = ms := by rw [h]; rfl
  unfold ringTake oldestGone
  rw [hms]
  dsimp only
  rw [h]
  dsimp only
  rw [feed_of_no_quote]
  · rfl
  · split <;> exact hq

theorem ringTake_of_empty {d : Dev} {c : Nat} (h : (d.ring c).msgs = []) : d.ringTake c = (none, d) := by
  unfold ringTake
  dsimp only
  rw [h]

/-- MBX_RECV(p) written with a message (R528). -/
def received (d : Dev) (p : Nat) (bs : List Byte) : Dev :=
  (List.range 32).foldl (fun d i => d.wr .MBX_RECV 0 (32 * p + i) (field bs (8 * i) 8)) d

theorem mbxTake_eq (d : Dev) (p c : Nat) : d.mbxTake p c = (d.ringTake c).2.received p ((d.ringTake c).1.getD emptyMarker) := rfl

theorem rd_received (d : Dev) (p : Nat) (bs : List Byte) {i : Nat} (hi : i < 32) :
    (d.received p bs).rd .MBX_RECV 0 (32 * p + i) = field bs (8 * i) 8 := by
  rw [received, rd_foldl_wr .MBX_RECV 0 (32 * p) (fun i => field bs (8 * i) 8) (by decide) d 32 i hi]
  exact Nat.mod_eq_of_lt (field_lt bs (8 * i) 8)

theorem received_regsOnly (d : Dev) (p : Nat) (bs : List Byte) : RegsOnly d (d.received p bs) := .foldl (fun d _ => .wr d _ _ _ _) _ d

theorem rings_received (d : Dev) (p : Nat) (bs : List Byte) : (d.received p bs).rings = d.rings :=
  (congrArg Dev.rings (received_regsOnly d p bs)).trans rfl

theorem leafRegs_not_receive : ∀ r ∈ leafRegs, ∀ w < 8, r.key w 0 < 0x40080400 ∨ 0x40080800 ≤ r.key w 0 := by decide

/-- A run of stores leaves the registers that it does not name. -/
theorem rd_foldl_wr_of_ne (r : Reg) (w b : Nat) (v : Nat → Nat) {r' : Reg} {w' j' : Nat} : ∀ (l : List Nat) (d : Dev),
    (∀ i ∈ l, r'.key w' j' ≠ r.key w (b + i)) → (l.foldl (fun d i => d.wr r w (b + i) (v i)) d).rd r' w' j' = d.rd r' w' j'
  | [], _, _ => rfl
  | i :: l, d, h => by
    rw [List.foldl_cons, rd_foldl_wr_of_ne r w b v l _ (fun k hk => h k (List.mem_cons_of_mem _ hk)), rd_wr_other d _ (h i List.mem_cons_self)]

/-- No summary bit sees MBX_RECV. -/
theorem intSum_received (d : Dev) {p : Nat} (hp : p < 4) (bs : List Byte) : (d.received p bs).intSum = d.intSum := by
  have hrd {r : Reg} {w j : Nat} (h : r.key w j < 0x40080400 ∨ 0x40080800 ≤ r.key w j) : (d.received p bs).rd r w j = d.rd r w j :=
    rd_foldl_wr_of_ne .MBX_RECV 0 (32 * p) (fun i => field bs (8 * i) 8) (List.range 32) d (fun i hi hk => by
      have hi := List.mem_range.mp hi
      have hkey : Reg.MBX_RECV.key 0 (32 * p + i) = 0x40080400 + 8 * (32 * p + i) := rfl
      omega)
  exact intSum_of_rd (fun r hr w hw => hrd (leafRegs_not_receive r hr w hw)) (fun b _ => hrd (by rw [key_intLeafEn]; omega))

theorem not_mail_recv {p i : Nat} (hp : p < 4) (hi : i < 32) : Reg.MBX_RECV.key 0 (32 * p + i) ∉ mailKeys := fun hm => by
  have hall : ∀ x ∈ mailKeys, x < 0x40080400 ∨ 0x40080800 ≤ x := by decide
  have := hall _ hm
  have hkey : Reg.MBX_RECV.key 0 (32 * p + i) = 0x40080400 + 8 * (32 * p + i) := rfl
  omega

/-- board_msg cleared raises no summary bit. -/
theorem bit_intSum_boardClear (d : Dev) {b : Nat} (h : bit (d.setFld F.INT_FW_board_msg 0 0 0).intSum b = true) : bit d.intSum b = true := by
  have hne : ∀ r ∈ leafRegs, r ≠ .INT_FW → ∀ w < 8, r.key w 0 ≠ F.INT_FW_board_msg.reg.key 0 0 := by decide
  refine bit_intSum_of_leaves (fun b i hi => ?_) (fun b hb => rd_setFld_other d F.INT_FW_board_msg 0 (by
    rw [key_intLeafEn]; exact fun h => absurd h (by rw [show F.INT_FW_board_msg.reg.key 0 0 = 0x41000020 from rfl]; omega))) h
  by_cases h53 : b = 53
  · subst h53
    have hleaf (e : Dev) : e.leafWord 53 = bits (e.rd .INT_FW) 5 0 := rfl
    have hset := bit_rd_setFld d (x := F.INT_FW_board_msg) (by decide) (by decide) 0 0 0 (0 + i)
    rw [hleaf, bit_bits, Bool.and_eq_true] at hi ⊢
    refine ⟨hi.1, ?_⟩
    have hi2 := hi.2
    rw [show (F.INT_FW_board_msg.reg) = Reg.INT_FW from rfl] at hset
    rw [hset] at hi2
    split at hi2
    · simp [bit] at hi2
    · exact hi2
  · have hsame := leafWord_congr_low (d := d) (e := d.setFld F.INT_FW_board_msg 0 0 0)
      (fun r hr hfw w hw => rd_setFld_other d F.INT_FW_board_msg 0 (hne r hr hfw w hw)) b (fun h => absurd h h53)
    rw [hsame] at hi
    exact hi

theorem rings_boardClear (d : Dev) : (d.setFld F.INT_FW_board_msg 0 0 0).rings = d.rings := rfl

/-- The message flag that stands in the first word of a taken message. -/
theorem flag_takenBytes (m : List Byte) : bit (field (takenBytes true m) 0 8) 26 = true := by
  rw [takenBytes, if_pos rfl]
  generalize hx : ({ Msg.ofBytes m with flags := (Msg.ofBytes m).flags ||| 4 } : Msg) = x
  have hflag : x.flags / 4 % 2 = 1 := by
    rw [← hx]
    have h2 : ((Msg.ofBytes m).flags ||| 4).testBit 2 = true := by
      rw [Nat.testBit_or, show Nat.testBit 4 2 = true from rfl, Bool.or_true]
    simpa [Nat.testBit_eq_decide_div_mod_eq] using h2
  have hparts : x.toBytes = (leBytes 2 x.code ++ leBytes 1 x.status ++ leBytes 1 x.flags) ++ (leBytes 1 x.channel ++ leBytes 1 x.context
      ++ leBytes 2 x.length ++ leBytes 4 x.tag ++ leBytes 4 x.arg0 ++ x.body) := by
    simp only [Msg.toBytes, List.append_assoc]
  have h4 : (leBytes 2 x.code ++ leBytes 1 x.status ++ leBytes 1 x.flags).length = 4 := by simp only [List.length_append, length_leBytes]
  rw [field, List.drop_zero, hparts, List.take_append, List.take_of_length_le (by omega), leNat_append, leNat_append, leNat_append,
    leNat_leBytes, leNat_leBytes, leNat_leBytes, h4, List.length_append, length_leBytes, length_leBytes, bit,
    Nat.testBit_eq_decide_div_mod_eq, decide_eq_true_iff]
  generalize leNat (List.take _ _) = rest
  omega

theorem ring_of_rings {d e : Dev} (h : e.rings = d.rings) (k : Nat) : e.ring k = d.ring k := by rw [ring, ring, h]

theorem rings_withEnv (d : Dev) (env : Env) : ({ d with env } : Dev).rings = d.rings := rfl

theorem ring_withEnv (d : Dev) (env : Env) (k : Nat) : ({ d with env } : Dev).ring k = d.ring k := rfl

/-- What a take leaves after its command: the rings, and the message in MBX_RECV(p). -/
theorem taken_left {s : State} {e d : Dev} {p : Nat} (hp : p < 4) (bs : List Byte)
    (hsum : ∀ b, bit e.intSum b = true → bit s.dev.intSum b = true) (hrings : e.rings = d.rings) :
    (∀ k, (left s (e.received p bs)).dev.ring k = d.ring k) ∧
      ∀ i < 32, (left s (e.received p bs)).dev.rd .MBX_RECV 0 (32 * p + i) = field bs (8 * i) 8 := by
  refine ⟨fun k => ?_, fun i hi => ?_⟩
  · have hsettle := settle_of_not_risen (before := s.dev) (d := e.received p bs)
      (fun b _ hb _ => hsum b (by rw [← intSum_received e hp]; exact hb))
    rw [left, hsettle, ring_withEnv]
    exact ring_of_rings ((rings_received e p bs).trans hrings) k
  · rw [left, rd_settle s.dev _ (not_mail_recv hp hi), rd_received e p bs hi]

/-! ### A message that a control processor posts -/

/-- The bytes of MBX_SEND(p) (R528). -/
def sendBytes (d : Dev) (p : Nat) : List Byte := wordBytes ((List.range 32).map (fun i => d.rd .MBX_SEND 0 (32 * p + i)))

theorem mbxPost_other (d : Dev) (p : Nat) {c : Nat} (hc : ¬ c = 1) : d.mbxPost p c = (d.mbxArrive p c .processor (d.sendBytes p)).2 :=
  if_neg (by simp [hc])

theorem mbxPost_board {d e : Dev} {p : Nat} (h : d.mbxArrive p 1 .processor (d.sendBytes p) = (true, e)) :
    d.mbxPost p 1 = e.setFld F.INT_FW_board_msg 0 0 1 := by
  unfold sendBytes at h
  unfold mbxPost
  dsimp only
  rw [h]
  rfl

end Dev

end Sys2Proof.Machine

namespace Sys2Proof.Proofs

open Sys2Proof.Machine Sys2Proof.Claims

/-- Settles O43: a channel with room takes the message, and no summary bit sees it; a message that is dropped touches the status alone. -/
theorem messagesArrive : Obligations.MessagesArrive := by
  intro s sender c port bs hawake d msgs
  have hexec := State.apply_awake hawake (fun d => (d.mbxArrive sender.toNat c port bs).2) {}
  refine ⟨fun hlen hacc hroom hwaits => ?_, fun f hf => ?_⟩
  · have hmsgs : ((d.ringPut c (bs.take (16 + bodyLength bs))).ring c).msgs = msgs := Dev.msgs_ringPut_of_room _ hroom
    have hstays := Dev.answerUnlisted_of_waits 16 (d := d.ringPut c (bs.take (16 + bodyLength bs))) (c := c)
      (by rw [hmsgs]; exact waits_ringPut c.isLt _ hwaits)
    rw [Dev.mbxArrive_of_accepts port hlen hacc, hstays] at hexec
    have hsettle := Dev.settle_of_intSum_eq (before := s.dev) (after := d.ringPut c (bs.take (16 + bodyLength bs)))
      (Dev.intSum_ringPut_of_room _ hroom)
    rw [left, hsettle] at hexec
    exact ⟨_, hexec, hmsgs, fun k hk => Dev.ring_ringPut_other d _ hk, Dev.ringPut_out d c _,
      (Dev.ringPut_control d c _).mem⟩
  · have hdrop : (d.mbxArrive sender.toNat c port bs).2 = d.mbxDrop f sender.toNat c port ∧ f.reg = .MBX_ERR_STATUS ∧ f.lo ≤ f.hi ∧ f.hi < 64 := by
      obtain ⟨hlen, rfl⟩ | ⟨hlen, hacc, rfl⟩ := hf
      · rw [Dev.mbxArrive_overlong port hlen]
        exact ⟨rfl, rfl, by decide, by decide⟩
      · rw [Dev.mbxArrive_of_not_accepts port hlen hacc]
        exact ⟨rfl, rfl, by decide, by decide⟩
    obtain ⟨hd, hreg, hlo, h64⟩ := hdrop
    refine ⟨_, hexec, ?_, ?_, ?_, fun ho hb => ?_⟩
    · exact (congrArg Dev.rings hd).trans (Dev.mbxDrop_rings ..)
    · exact (congrArg Dev.out hd).trans (Dev.mbxDrop_out ..)
    · rw [show ((found s).mbxArrive sender.toNat c port bs).2 = d.mbxDrop f sender.toNat c port from hd]
      unfold Dev.mbxDrop
      exact Dev.isSet_raise _ hlo h64 0 0
    · rw [show ((found s).mbxArrive sender.toNat c port bs).2 = d.mbxDrop f sender.toNat c port from hd,
        Dev.rd_mbxDrop_info (d := d) hreg sender.toNat c port ho hb, Nat.mod_eq_of_lt sender.isLt, Nat.mod_eq_of_lt c.isLt]

/-- Settles O46: a take without a waiting quote changes the channel, MBX_RECV(p) and at most board_msg, so no summary bit rises; a post
is an arrival from the control processor. -/
theorem processorsTakeAndPost : Obligations.ProcessorsTakeAndPost := by
  intro s p c hawake r recv sent
  have htake := State.apply_awake hawake (fun d => d.mbxTake p c) {}
  have hrecv (t : State) (i : Nat) : recv t i = t.dev.rd .MBX_RECV 0 (32 * p + i) := rfl
  refine ⟨fun m ms hmsgs hq => ?_, fun hmsgs => ?_, fun hc => ?_, fun hc hlen hacc => ?_⟩
  · have hr := Dev.ringTake_of_msg (d := found s) (c := c) hmsgs hq
    have hgone : ∀ b, bit (if c.val = 1 ∧ ms = [] then ((found s).oldestGone c).setFld F.INT_FW_board_msg 0 0 0 else (found s).oldestGone c).intSum b = true →
        bit s.dev.intSum b = true := fun b hb => by
      split at hb
      · exact Dev.bit_intSum_boardClear ((found s).oldestGone c) hb
      · exact hb
    have hrings : (if c.val = 1 ∧ ms = [] then ((found s).oldestGone c).setFld F.INT_FW_board_msg 0 0 0 else (found s).oldestGone c).rings =
        ((found s).oldestGone c).rings := by split <;> rfl
    rw [Dev.mbxTake_eq, hr] at htake
    dsimp only at htake
    generalize (if c.val = 1 ∧ ms = [] then ((found s).oldestGone c).setFld F.INT_FW_board_msg 0 0 0 else (found s).oldestGone c) = e
      at htake hgone hrings
    have hbs : (some (Dev.takenBytes r.collision m)).getD Dev.emptyMarker = Dev.takenBytes r.collision m := rfl
    rw [show ((found s).ring c).collision = r.collision from rfl, hbs] at htake
    obtain ⟨hring, hgot⟩ := Dev.taken_left (s := s) p.isLt (Dev.takenBytes r.collision m) hgone hrings
    have hc : ((found s).oldestGone c).ring c = { r with msgs := r.msgs.drop 1, head := (r.head + 1) % 16, collision := false } :=
      Dev.ring_setRing ..
    refine ⟨_, htake, ?_, ?_, fun k hk => ?_, fun hcoll i hi => ?_, fun hcoll => ?_⟩
    · exact (congrArg Ring.msgs ((hring c).trans hc)).trans (by rw [hmsgs]; rfl)
    · exact congrArg Ring.collision ((hring c).trans hc)
    · exact (hring k).trans (Dev.ring_setRing_other _ _ hk)
    · exact (hgot i hi).trans (by rw [hcoll]; rfl)
    · rw [hrecv, hgot 0 (by decide), hcoll, Nat.mul_zero]
      exact Dev.flag_takenBytes m
  · have hr := Dev.ringTake_of_empty (d := found s) (c := c) hmsgs
    have hm : (found s).mbxTake p c = (found s).received p Dev.emptyMarker := by rw [Dev.mbxTake_eq, hr, Option.getD_none]
    rw [hm] at htake
    obtain ⟨-, hgot⟩ := Dev.taken_left (s := s) (e := found s) (d := found s) p.isLt Dev.emptyMarker (fun _ h => h) rfl
    refine ⟨_, htake, fun i hi => (hgot i hi).trans ?_, ?_⟩
    · have hzero : ∀ i < 32, field Dev.emptyMarker (8 * i) 8 = 0 := by decide
      exact hzero i hi
    · have hsettle := Dev.settle_of_intSum_eq (before := s.dev) (after := (found s).received p Dev.emptyMarker)
        (Dev.intSum_received (found s) p.isLt _)
      rw [left, hsettle, Dev.rings_withEnv, Dev.rings_received]
      rfl
  · have hne : ¬ c.val = 1 := fun h => hc (Fin.ext h)
    refine (State.apply_awake hawake (fun d => d.mbxPost p c) {}).trans
      ((State.apply_awake hawake (fun d => (d.mbxArrive (BitVec.ofNat 8 p).toNat c .processor sent).2) {}).trans ?_).symm
    have hp : (BitVec.ofNat 8 p.val).toNat = p.val := by
      rw [BitVec.toNat_ofNat]; omega
    rw [hp]
    refine congrArg (fun e => Host.Outcome.next (left s e)) ?_
    exact (Dev.mbxPost_other (found s) p hne).symm
  · subst hc
    refine ⟨_, State.apply_awake hawake (fun d => d.mbxPost p 1) {}, ?_⟩
    have harr := Dev.mbxArrive_of_accepts .processor hlen hacc
    rw [Dev.mbxPost_board harr]
    exact Dev.isSet_raise (x := F.INT_FW_board_msg) _ (by decide) (by decide) 0 0

end Sys2Proof.Proofs
end

section
/-!
PROOFS. Software writes by the access codes; REGISTER_WRITE and the commands of single registers.
-/

namespace Sys2Proof.Machine

open Sys2Proof.Claims

/-! ### Fields of a written register -/

/-- The fields of every register lie apart, inside its 64 bits. -/
theorem fields_inside : ∀ r ∈ Reg.all, ∀ x ∈ r.row.fields, x.lo ≤ x.hi ∧ x.hi < 64 := by decide +kernel

theorem fields_apart : ∀ r ∈ Reg.all, r.row.fields.Pairwise (fun x y => x.hi < y.lo ∨ y.hi < x.lo) := by decide +kernel

theorem ofKey_some {k w j : Nat} {r : Reg} (h : Reg.ofKey k = some (r, w, j)) : r ∈ Reg.all ∧ w < r.row.windows := by
  obtain ⟨q, hq, hf⟩ := List.exists_of_findSome?_eq_some h
  dsimp only at hf
  split at hf
  next hc =>
    obtain ⟨hlo, hw, -⟩ := hc
    cases hf
    exact ⟨hq, by omega⟩
  next => cases hf

/-- What a write leaves in a list of fields. -/
def putFields (g : FieldRow → Nat) (l : List FieldRow) (acc : Nat) : Nat :=
  l.foldl (fun acc row => putBits acc row.hi row.lo (g row)) acc

theorem bit_putFields_outside (g : FieldRow → Nat) {i : Nat} : ∀ (l : List FieldRow) (acc : Nat), (∀ x ∈ l, x.lo ≤ x.hi) →
    (∀ x ∈ l, i < x.lo ∨ x.hi < i) → bit (putFields g l acc) i = bit acc i
  | [], _, _, _ => rfl
  | x :: l, acc, hl, h => by
    have ih := bit_putFields_outside g l (putBits acc x.hi x.lo (g x)) (fun y hy => hl y (List.mem_cons_of_mem _ hy))
      (fun y hy => h y (List.mem_cons_of_mem _ hy))
    have hx := h x List.mem_cons_self
    rw [putFields, List.foldl_cons, ← putFields, ih, bit_putBits (hl x List.mem_cons_self), if_neg (by omega)]

theorem bit_putFields_inside (g : FieldRow → Nat) {x : FieldRow} {i : Nat} (hlo : x.lo ≤ i) (hhi : i ≤ x.hi) :
    ∀ (l : List FieldRow) (acc : Nat), (∀ y ∈ l, y.lo ≤ y.hi) → l.Pairwise (fun x y => x.hi < y.lo ∨ y.hi < x.lo) → x ∈ l →
    bit (putFields g l acc) i = bit (g x) (i - x.lo)
  | y :: l, acc, hl, hp, hx => by
    obtain ⟨hy, hp⟩ := List.pairwise_cons.mp hp
    rw [putFields, List.foldl_cons, ← putFields]
    rcases List.mem_cons.mp hx with rfl | hx
    · rw [bit_putFields_outside g l _ (fun z hz => hl z (List.mem_cons_of_mem _ hz)) (fun z hz => by have := hy z hz; omega),
        bit_putBits (hl x List.mem_cons_self), if_pos ⟨hlo, hhi⟩]
    · exact bit_putFields_inside g hlo hhi l _ (fun z hz => hl z (List.mem_cons_of_mem _ hz)) hp hx

/-- What one field takes of a write, by its access code (R13). -/
theorem bit_writtenField (locked : Bool) (old v : Nat) (x : FieldRow) {i : Nat} (hlo : x.lo ≤ i) (hhi : i ≤ x.hi) :
    bit (RegFile.writtenField locked old v x) (i - x.lo) = match x.access with
      | .ro => bit old i
      | .rw => bit v i
      | .rwl => if locked then bit old i else bit v i
      | .w1c => bit old i && !bit v i
      | .wo => false := by
  obtain ⟨hi, lo, access, reset⟩ := x
  dsimp only at hlo hhi ⊢
  have hin : i - lo < hi + 1 - lo := by omega
  have hat : lo + (i - lo) = i := by omega
  have hbits (n : Nat) : bit (bits n hi lo) (i - lo) = bit n i := by rw [bit_bits, hat, decide_eq_true hin, Bool.true_and]
  cases access with
  | ro => exact hbits old
  | rw => exact hbits v
  | rwl => cases locked <;> exact hbits _
  | w1c => rw [Dev.bit_writtenField_w1c, hbits, hbits]
  | wo => exact Nat.zero_testBit _

/-- A software write leaves a register as the access codes of its fields say (R13, R15). -/
theorem registerTakes_written {r : Reg} (hr : r ∈ Reg.all) (locked : Bool) (old v : Nat) :
    RegisterTakes r locked old v (RegFile.written r locked old v % 2 ^ 64) := by
  have hin := fields_inside r hr
  have hle : ∀ x ∈ r.row.fields, x.lo ≤ x.hi := fun x hx => (hin x hx).1
  have hmod {i : Nat} (hi : i < 64) : bit (RegFile.written r locked old v % 2 ^ 64) i = bit (RegFile.written r locked old v) i := by
    rw [bit, Nat.testBit_mod_two_pow, decide_eq_true hi, Bool.true_and, bit]
  refine ⟨fun x hx i hlo hhi => ?_, fun i hi => ?_⟩
  · rw [hmod (by have := (hin x hx).2; omega)]
    exact (bit_putFields_inside _ hlo hhi _ 0 hle (fields_apart r hr) hx).trans (bit_writtenField locked old v x hlo hhi)
  · rw [bit, Nat.testBit_mod_two_pow, ← bit]
    rw [show bit (RegFile.written r locked old v) i = false from
      (bit_putFields_outside _ _ 0 hle hi).trans (Nat.zero_testBit i), Bool.and_false]

namespace Dev

/-- A software write stores what the access codes leave, but for the bindings of channels 0 to 7 under a set lock. -/
theorem plainWrite_eq (d : Dev) (r : Reg) (w j v : Nat) : d.plainWrite r w j v =
    if r = .MBX_BIND ∧ j < 8 ∧ d.isSet r.lock w = true then d
    else d.wr r w j (RegFile.written r (d.isSet r.lock w) (d.rd r w j) (v % 2 ^ 64)) := by
  unfold plainWrite RegFile.swWrite
  rw [BitVec.toNat_ofNat]
  split
  next h => exact (if_pos h).symm
  next h => exact (if_neg h).symm

theorem rd_plainWrite_other (d : Dev) {r r' : Reg} {w j w' j' : Nat} (v : Nat) (h : r'.key w' j' ≠ r.key w j) :
    (d.plainWrite r w j v).rd r' w' j' = d.rd r' w' j' := by
  rw [plainWrite_eq]
  split
  · rfl
  · exact rd_wr_other d _ h

theorem regWrite_plain {r : Reg} (h : r ∉ actionRegs) (d : Dev) (m w j v : Nat) :
    d.regWrite m r w j v = (d.plainWrite r w j v).syncReasons := by
  unfold regWrite
  split
  case h_11 => rfl
  all_goals exact absurd (by decide) h

/-! ### Commands of single registers -/

/-- The registers of an array that is retired (R126). -/
def retireRegs (d : Dev) (a reason : Nat) : Dev :=
  ((d.setFld F.DA_RETIRE_reason a 0 reason).setFld F.DA_RETIRE_retired a 0 1).raise F.DA_ERR_STATUS_retired a

theorem retire_eq {d : Dev} {a : Nat} (h : d.retired a = false) (reason : Nat) : ∃ x : Health,
    d.retire a reason = ({ d.retireRegs a reason with health := x }).deviceEvent 0x8004 (leBytes 1 a ++ leBytes 1 reason) :=
  ⟨_, if_neg (by rw [h]; decide)⟩

theorem fld_retireRegs (d : Dev) (a : Nat) : (d.retireRegs a 2).isSet F.DA_RETIRE_retired a = true ∧
    (d.retireRegs a 2).fld F.DA_RETIRE_reason a = 2 ∧ (d.retireRegs a 2).isSet F.DA_ERR_STATUS_retired a = true := by
  have hk : Reg.DA_RETIRE.key a 0 ≠ F.DA_ERR_STATUS_retired.reg.key a 0 := by
    simp only [F.DA_ERR_STATUS_retired, Reg.key, Reg.row]; omega
  have hrd : (d.retireRegs a 2).rd .DA_RETIRE a = _ := rd_raise_other _ F.DA_ERR_STATUS_retired hk
  refine ⟨?_, ?_, isSet_raise _ (by decide) (by decide) a 0⟩
  · refine (isSet_eq_of_rd (x := F.DA_RETIRE_retired) hrd).trans ?_
    rw [isSet_eq_fld, fld_setFld _ (by decide) (by decide)]
    rfl
  · refine (fld_congr (x := F.DA_RETIRE_reason) hrd).trans ?_
    refine (fld_setFld_disjoint (x := F.DA_RETIRE_retired) (y := F.DA_RETIRE_reason) _ rfl (by decide) (by decide) a 0 1 (by decide)).trans ?_
    exact fld_setFld _ (by decide) (by decide) a 0 2

theorem rd_clearRecord (d : Dev) (n k : Nat) : (d.clearRecord n).rd .CTX_FREC 0 k = if k / 8 = n then 0 else d.rd .CTX_FREC 0 k := by
  have hkey (k : Nat) : Reg.CTX_FREC.key 0 k = 0x4000800 + 8 * k := rfl
  unfold clearRecord
  split
  next h =>
    have hat : k = 8 * n + (k - 8 * n) := by omega
    rw [hat, rd_foldl_wr .CTX_FREC 0 (8 * n) (fun _ => 0) (by decide) d 8 (k - 8 * n) (by omega), Nat.zero_mod]
  next h =>
    refine rd_foldl_wr_of_ne .CTX_FREC 0 (8 * n) (fun _ => 0) _ d (fun i hi hk => ?_)
    have := List.mem_range.mp hi
    rw [hkey, hkey] at hk
    omega

theorem fld_writeFreq (d : Dev) (step : Nat) {duty : Nat} (hd : duty < 16) :
    (d.wr .PWR_FREQ 0 0 (min d.dutyMax duty * 2 ^ 8 + min 44 (max d.fMin step))).fld F.PWR_FREQ_step = min 44 (max d.fMin step) ∧
      (d.wr .PWR_FREQ 0 0 (min d.dutyMax duty * 2 ^ 8 + min 44 (max d.fMin step))).fld F.PWR_FREQ_duty = min d.dutyMax duty := by
  have hlt : min d.dutyMax duty < 16 := lt_of_le_of_lt (min_le_right _ _) hd
  have hs : min 44 (max d.fMin step) ≤ 44 := min_le_left _ _
  generalize min d.dutyMax duty = q at hlt ⊢
  generalize min 44 (max d.fMin step) = p at hs ⊢
  have hrd : (d.wr .PWR_FREQ 0 0 (q * 2 ^ 8 + p)).rd .PWR_FREQ = q * 2 ^ 8 + p := (rd_wr d .PWR_FREQ 0 0 _).trans (Nat.mod_eq_of_lt (by omega))
  constructor
  · refine (fld_eq_bits _ F.PWR_FREQ_step 0 0).trans ?_
    rw [show (F.PWR_FREQ_step).reg = Reg.PWR_FREQ from rfl, hrd, bits_eq_mod]
    show (q * 2 ^ 8 + p) / 2 ^ 0 % 2 ^ 6 = p
    omega
  · refine (fld_eq_bits _ F.PWR_FREQ_duty 0 0).trans ?_
    rw [show (F.PWR_FREQ_duty).reg = Reg.PWR_FREQ from rfl, hrd, bits_eq_mod]
    show (q * 2 ^ 8 + p) / 2 ^ 8 % 2 ^ 4 = q
    omega

/-- A route entry takes a write by its access codes, which no lock holds. -/
theorem rd_routeWrite (d : Dev) (i v : Nat) {locked : Bool} :
    RegisterTakes .RHK_ROUTE locked (d.rd .RHK_ROUTE 0 i) (v % 2 ^ 32) ((d.routeWrite i v).rd .RHK_ROUTE 0 i) := by
  have hw : d.routeWrite i v = d.plainWrite .RHK_ROUTE 0 i (v % 2 ^ 32) := rfl
  rw [hw, plainWrite_eq, if_neg (fun h => absurd h.1 (by decide)), rd_wr, Nat.mod_eq_of_lt (show v % 2 ^ 32 < 2 ^ 64 by omega)]
  have hfree (a b : Bool) (old v : Nat) : RegFile.written .RHK_ROUTE a old v = RegFile.written .RHK_ROUTE b old v := by
    cases a <;> cases b <;> rfl
  rw [hfree _ locked]
  exact registerTakes_written (by decide) locked _ _

theorem rd_portTraining (d : Dev) (p : Nat) (f : RhkPort → RhkPort) :
    ((d.setPfld F.RHK_PORT_STATUS_state p 1).onPort p f).pfld F.RHK_PORT_STATUS_state p = 1 :=
  (fld_of_regs (d := d.setPfld F.RHK_PORT_STATUS_state p 1) rfl _ _ _).trans (fld_setFld d (by decide) (by decide) (p / 4) (p % 4) 1)

end Dev

end Sys2Proof.Machine

namespace Sys2Proof.Proofs

open Sys2Proof.Machine Sys2Proof.Claims

/-- A command that acts where a register write does answers the same. -/
theorem registerWrite_as {s : State} (h : s.dev.awake = true) {m : Fin 4} {key : BitVec 32} {v : BitVec 64} {r : Reg} {w j : Nat}
    (hk : Reg.ofKey (key.toNat / 8 * 8) = some (r, w, j)) {f : Dev → Dev} (hf : (found s).regWrite m r w j v.toNat = f (found s)) :
    exec (.registerWrite m key v) s = s.apply f {} := by
  refine (State.apply_awake h (fun d => d.keyWrite m key.toNat v.toNat) {}).trans ((State.apply_awake h f {}).trans ?_).symm
  rw [Dev.keyWrite, hk]
  exact congrArg (fun e => Host.Outcome.next (left s e)) hf.symm

theorem bits_low (n k : Nat) : bits n k 0 = n % 2 ^ (k + 1) := by rw [bits_eq_mod, Nat.pow_zero, Nat.div_one, Nat.sub_zero]

/-- Settles O47: a plain register takes the write field by field, and an action register's write runs the action itself. -/
theorem registerWrites : Obligations.RegisterWrites := by
  intro s m key v hawake at_
  have hexec := State.apply_awake hawake (fun d => d.keyWrite m key.toNat v.toNat) {}
  refine ⟨fun r w j hk hr => ?_, fun hk => ?_, fun hk => ?_, fun p hk => ?_, fun w j hk hv => ?_, fun w j hk hv => ?_, fun w j hk hv => ?_,
    fun w j hk => ?_, fun a j hk hv => ?_⟩
  · obtain ⟨hall, hw⟩ := ofKey_some hk
    refine ⟨(found s).plainWrite r w j v.toNat, ?_, ?_, fun r' w' j' hne => Dev.rd_plainWrite_other _ _ hne, rfl, rfl⟩
    · refine hexec.trans ?_
      rw [Dev.keyWrite, show Reg.ofKey (key.toNat / 8 * 8) = some (r, w, j) from hk]
      exact congrArg (fun e => Host.Outcome.next (left s e)) (Dev.regWrite_plain hr _ _ _ _ _)
    · have hcond : (r = .MBX_BIND ∧ j < 8 ∧ s.dev.isSet F.MBX_CTRL_lock = true) ↔ (r = .MBX_BIND ∧ j < 8 ∧ (found s).isSet r.lock w = true) := by
        refine and_congr_right fun hbind => and_congr_right fun _ => ?_
        subst hbind
        rw [show w = 0 from Nat.lt_one_iff.mp hw]
        rfl
      rw [Dev.plainWrite_eq]
      by_cases hlock : r = .MBX_BIND ∧ j < 8 ∧ s.dev.isSet F.MBX_CTRL_lock = true
      · rw [if_pos hlock, if_pos (hcond.mp hlock)]
        rfl
      · rw [if_neg hlock, if_neg (fun h => hlock (hcond.mpr h)), Dev.rd_wr, Nat.mod_eq_of_lt v.isLt]
        exact registerTakes_written hall _ _ _
  · refine hexec.trans ?_
    rw [Dev.keyWrite, show Reg.ofKey (key.toNat / 8 * 8) = none from hk]
  · exact registerWrite_as hawake hk rfl
  · refine registerWrite_as hawake hk ?_
    show (found s).dbSet p v.toNat = (found s).dbSet p (v.setWidth 32).toNat
    rw [BitVec.toNat_setWidth, Dev.dbSet, Dev.dbSet, Nat.mod_mod]
  · refine registerWrite_as hawake hk ?_
    refine (if_pos hv).trans ?_
    rw [bits_low]
    exact congrArg ((found s).mbxPost m) (BitVec.toNat_setWidth 6 v).symm
  · refine registerWrite_as hawake hk ?_
    refine (if_neg (by rw [hv]; decide)).trans ((if_pos hv).trans ?_)
    rw [bits_low]
    exact congrArg ((found s).mbxTake m) (BitVec.toNat_setWidth 6 v).symm
  · refine registerWrite_as hawake hk ((if_pos hv).trans ?_)
    rw [bits_low]
    exact congrArg (found s).clearRecord (BitVec.toNat_setWidth 4 v).symm
  · refine registerWrite_as hawake hk ?_
    show (found s).writeFreq (bits v.toNat 5 0) (bits v.toNat 11 8) = (found s).writeFreq (v.setWidth 6).toNat ((v >>> 8).setWidth 4).toNat
    rw [bits_low, BitVec.toNat_setWidth, BitVec.toNat_setWidth, BitVec.toNat_ushiftRight]
    rfl
  · exact registerWrite_as hawake hk (if_pos hv)

/-- Settles O48: each command sets the fields of its own register, and an event of it changes mail alone. -/
theorem registerCommands : Obligations.RegisterCommands := by
  intro s hawake
  have happly (f : Dev → Dev) : s.apply f {} = .next (left s (f (found s))) := State.apply_awake hawake f {}
  refine ⟨fun a hr => ?_, fun a hr => ?_, fun n => happly (fun d => d.invalidate n), fun n => ?_, fun p hup => ?_, fun p hup hen => ?_,
    happly (fun d => d.cpKick), fun step duty => ?_, fun b => ?_, fun i v => ?_⟩
  · obtain ⟨x, hx⟩ := Dev.retire_eq (d := found s) (a := a) hr 2
    obtain ⟨hset, hreason, hleaf⟩ := Dev.fld_retireRegs (found s) a
    have hev := Dev.mailOnly_deviceEvent { (found s).retireRegs a 2 with health := x } 0x8004 (leBytes 1 a ++ leBytes 1 2)
    have hexec := happly (fun d => d.retire a 2)
    rw [hx] at hexec
    generalize Dev.deviceEvent { (found s).retireRegs a 2 with health := x } 0x8004 (leBytes 1 a ++ leBytes 1 2) = e at hev hexec
    have hrd {r : Reg} (h : r.key a 0 < 0x40000000) : (left s e).dev.rd r a = ((found s).retireRegs a 2).rd r a :=
      (Dev.rd_settle s.dev e (Dev.not_mail_of_lt h)).trans (hev.2 r a 0 (Dev.not_mail_of_lt h))
    have hretire := hrd (r := .DA_RETIRE) (by simp only [Reg.key, Reg.row]; omega)
    have herr := hrd (r := .DA_ERR_STATUS) (by simp only [Reg.key, Reg.row]; omega)
    refine ⟨_, hexec, (Dev.isSet_eq_of_rd (x := F.DA_RETIRE_retired) hretire).trans hset,
      (Dev.fld_congr (x := F.DA_RETIRE_reason) hretire).trans hreason,
      (Dev.isSet_eq_of_rd (x := F.DA_ERR_STATUS_retired) herr).trans hleaf, ?_⟩
    rw [left, Dev.settle_arrays, hev.1]
    rfl
  · refine (happly (fun d => d.retire a 2)).trans ?_
    exact congrArg (fun e => Host.Outcome.next (left s e)) (if_pos hr)
  · refine ⟨_, happly (fun d => d.clearRecord n), fun k hk => ?_⟩
    rw [left, Dev.rd_settle s.dev _ (Dev.not_mail_of_lt (by simp only [Reg.key, Reg.row]; omega))]
    exact Dev.rd_clearRecord (found s) n k
  · refine (happly (fun d => d.retrain p)).trans ?_
    exact congrArg (fun e => Host.Outcome.next (left s e)) (if_pos hup)
  · have hre : (found s).retrain p = ((found s).setPfld F.RHK_PORT_STATUS_state p 1).onPort p (fun x => { x with failedAt := none }) :=
      (if_neg (by rw [show (found s).portUp p = false from hup]; decide)).trans (if_neg hen)
    have hexec := happly (fun d => d.retrain p)
    rw [hre] at hexec
    refine ⟨_, hexec, ?_, ?_⟩
    · refine (Dev.fld_congr (x := F.RHK_PORT_STATUS_state) (Dev.rd_settle s.dev _ (Dev.not_mail_of_lt ?_))).trans (Dev.rd_portTraining _ _ _)
      simp only [F.RHK_PORT_STATUS_state, Reg.key, Reg.row]; omega
    · rw [left, Dev.port_settle]
      exact congrArg RhkPort.failedAt (Dev.port_setPort ..)
  · obtain ⟨hs, hd⟩ := Dev.fld_writeFreq (found s) step.toNat duty.isLt
    exact ⟨_, happly (fun d => d.writeFreq step.toNat duty.toNat), (Dev.fld_of_regs rfl _ _ _).trans hs, (Dev.fld_of_regs rfl _ _ _).trans hd, rfl, rfl⟩
  · refine ⟨_, happly (fun d => d.routeBank b), ?_⟩
    rw [left, Dev.fld_congr (Dev.rd_settle s.dev _ (Dev.not_mail_of_lt (by decide)))]
    refine (Dev.fld_setFld (found s) (x := F.RHK_ROUTE_BANK_bank) (by decide) (by decide) 0 0 (b % 2)).trans ?_
    show b.val % 2 % 2 = b.val
    omega
  · have hrd {k : Nat} (hk : k < 131072) := Dev.rd_settle s.dev ((found s).routeWrite i v.toNat) (r := .RHK_ROUTE) (w := 0) (j := k)
      (Dev.not_mail_of_lt (by simp only [Reg.key, Reg.row]; omega))
    refine ⟨_, happly (fun d => d.routeWrite i v.toNat), ?_, fun k hk hne => ?_⟩
    · rw [left, hrd i.isLt]
      have htakes := Dev.rd_routeWrite (found s) i v.toNat (locked := false)
      rw [Nat.mod_eq_of_lt v.isLt] at htakes
      exact htakes
    · rw [left, hrd hk]
      exact Dev.rd_plainWrite_other (found s) _ (by simp only [Reg.key, Reg.row]; omega)

end Sys2Proof.Proofs
end

section
/-!
PROOFS. Commands that Prois takes from the mailboxes: the order of its checks (14_control_mailboxes_and_interrupts.md R517-R519), and
what an accepted command answers.
-/

namespace Sys2Proof.Machine

open Sys2Proof.Claims

/-! ### Fields of a byte string -/

theorem field_append_left (a b : List Byte) {off n : Nat} (h : off + n ≤ a.length) : field (a ++ b) off n = field a off n := by
  rw [field, List.drop_append_of_le_length (by omega), List.take_append_of_le_length (by rw [List.length_drop]; omega), field]

theorem field_append_right (a b : List Byte) {off : Nat} (n : Nat) (h : a.length ≤ off) :
    field (a ++ b) off n = field b (off - a.length) n := by
  rw [field, List.drop_append, List.drop_eq_nil_of_le h, List.nil_append, field]

theorem field_leBytes (n v : Nat) : field (leBytes n v) 0 n = v % 256 ^ n := by
  rw [field, List.drop_zero, List.take_of_length_le (by rw [Dev.length_leBytes]), leNat_leBytes]

/-- The first of the numbers that make up a byte string. -/
theorem field_leBytes_append (n v : Nat) (b : List Byte) : field (leBytes n v ++ b) 0 n = v % 256 ^ n := by
  rw [field_append_left _ _ (by rw [Dev.length_leBytes]; omega), field_leBytes]

/-! ### The message that Prois takes -/

theorem Msg.field_toBytes_code (x : Msg) : field x.toBytes 0 2 = x.code % 256 ^ 2 := by
  simp only [Msg.toBytes, List.append_assoc]
  exact field_leBytes_append 2 _ _

theorem code_takenBytes (collision : Bool) (m : List Byte) : (Msg.ofBytes (Dev.takenBytes collision m)).code = (Msg.ofBytes m).code := by
  cases collision
  case false => rfl
  case true => exact (Msg.field_toBytes_code _).trans (Nat.mod_eq_of_lt (Dev.field_lt m 0 2))

namespace Dev

/-- A channel's oldest message is what a take gives, whatever waits for the room (R509, R511). -/
theorem ringTake_fst {d : Dev} {c : Nat} {m : List Byte} {ms : List (List Byte)} (h : (d.ring c).msgs = m :: ms) :
    (d.ringTake c).1 = some (takenBytes (d.ring c).collision m) := by
  unfold ringTake
  dsimp only
  rw [h]
  rfl

/-- A command that Prois can take up stands at the head of its channel. -/
theorem headCommand_some {d : Dev} {c code : Nat} (h : d.headCommand c code ≠ none) :
    ∃ m ms, (d.ring c).msgs = m :: ms ∧ (Msg.ofBytes m).code = code := by
  unfold headCommand at h
  dsimp only at h
  split at h
  case h_1 => exact absurd rfl h
  case h_2 m ms hms =>
    refine ⟨m, ms, hms, ?_⟩
    by_contra hc
    exact h (if_pos (by simp [hc]))

theorem prois_of_none {d : Dev} {c code : Nat} {h : Handler} (hn : d.headCommand c code = none) : d.prois c code h = d := by
  unfold prois
  rw [hn]

end Dev

/-! ### What Prois answers -/

section
variable {s : State} {c : Fin 64} {code : Nat} {m : Msg} {d : Dev} {hd : Handler}

theorem taken_code (ht : Taken s c code m d) : m.code = code := by
  obtain ⟨-, hhead, bs, htake, rfl⟩ := ht
  obtain ⟨x, xs, hmsgs, hcode⟩ := Dev.headCommand_some hhead
  have hfst := Dev.ringTake_fst hmsgs
  rw [htake] at hfst
  rw [Option.some.inj hfst, code_takenBytes, hcode]

/-- What Prois answers to the command that it takes (R517, R519). -/
def proisAnswer (c : Fin 64) (reply : Nat) (m : Msg) (x : Answer × Dev) : Dev :=
  Dev.answerUnlisted 16 c (match x.1 with | .now st body => x.2.respond reply m st body | .later => x.2)

theorem prois_of_taken (ht : Taken s c code m d) :
    (found s).prois c code hd = proisAnswer c ((found s).binding c).reply m (d.judged ((found s).whoOn c) m hd) := by
  obtain ⟨-, hhead, bs, htake, rfl⟩ := ht
  obtain ⟨x, hx⟩ := Option.ne_none_iff_exists'.mp hhead
  unfold Dev.prois
  rw [hx]
  dsimp only
  rw [htake]
  rfl

/-- A command that the checks refuse is answered with their status, and it has no effect. -/
theorem exec_of_refused {i : Instr} (happly : exec i s = s.apply (fun d => d.prois c code hd)) (ht : Taken s c code m d) {st : Nat}
    (hr : d.refusal ((found s).whoOn c) m = some st) : exec i s = .next (answered s c m d st) := by
  rw [happly, State.apply_awake ht.1]
  refine congrArg (fun e => Host.Outcome.next (left s e)) ((prois_of_taken ht).trans ?_)
  rw [Dev.judged, hr]
  rfl

theorem judged_of_accepted (ha : Accepted s c code m d) : d.judged ((found s).whoOn c) m hd = hd d ((found s).whoOn c) m := by
  rw [Dev.judged, ha.2]

/-- An accepted command whose rule answers at once. -/
theorem exec_of_now {i : Instr} (happly : exec i s = s.apply (fun d => d.prois c code hd)) (ha : Accepted s c code m d) {st : Nat}
    {body : List Byte} {e : Dev} (hn : hd d ((found s).whoOn c) m = (.now st body, e)) : exec i s = .next (answered s c m e st body) := by
  rw [happly, State.apply_awake ha.1.1]
  refine congrArg (fun e => Host.Outcome.next (left s e)) ((prois_of_taken ha.1).trans ?_)
  rw [judged_of_accepted ha, hn]
  rfl

/-- An accepted command whose rule answers later. -/
theorem exec_of_later {i : Instr} (happly : exec i s = s.apply (fun d => d.prois c code hd)) (ha : Accepted s c code m d) {e : Dev}
    (hn : hd d ((found s).whoOn c) m = (.later, e)) : exec i s = .next (left s (Dev.answerUnlisted 16 c e)) := by
  rw [happly, State.apply_awake ha.1.1]
  refine congrArg (fun e => Host.Outcome.next (left s e)) ((prois_of_taken ha.1).trans ?_)
  rw [judged_of_accepted ha, hn]
  rfl

/-! ### The order of the checks -/

/-- Every command that Prois takes runs Prois on its channel. -/
theorem exec_of_proisCode {i : Instr} (h : proisCode i = some (c, code)) :
    ∃ hd : Handler, ∀ s, exec i s = s.apply (fun d => d.prois c code hd) := by
  unfold proisCode at h
  split at h
  case h_38 => cases h
  all_goals
    obtain ⟨⟩ := h
    exact ⟨_, fun _ => rfl⟩

theorem ownerOk_iff (d : Dev) (w : Who) (i : CmdInfo) (m : Msg) :
    d.ownerOk w i m = false ↔ i.ctx = true ∧ w.privilege = 2 ∧ ¬ Owns d w m.code m.context := by
  unfold Dev.ownerOk Owns
  cases hj : (d.ctx m.context).job with
  | none => simp [and_assoc]
  | some j => simp [and_assoc]

theorem flags_reserved : ∀ f < 256, (f &&& 0xFB = 0 ↔ ¬ ∃ k < 8, k ≠ 2 ∧ bit f k = true) := by decide +kernel

theorem headerOk_iff (i : CmdInfo) {m : Msg} (hf : m.flags < 256) : Dev.headerOk i m = true ↔ ¬ Malformed i m := by
  unfold Dev.headerOk Malformed
  have hflags := flags_reserved m.flags hf
  cases i.ctx <;> cases i.arg0 <;> simp [hflags, and_assoc]

/-- The three checks of R517 in their order. -/
theorem refusal_of_info {w : Who} {info : CmdInfo} (hi : cmdInfo m.code = some info) :
    d.refusal w m = if d.boot.runs = .rom ∧ m.code ∉ romAnswers then some 9
      else if w.privilege ∉ info.allow ∨ d.ownerOk w info m = false then some 5
      else if Dev.headerOk info m = true then none else some 3 := by
  unfold Dev.refusal
  rw [hi]
  refine if_congr (by simp) rfl (if_congr (by simp) rfl ?_)
  cases Dev.headerOk info m <;> rfl

theorem flags_taken (ht : Taken s c code m d) : m.flags < 256 := by
  obtain ⟨-, -, bs, -, rfl⟩ := ht
  exact Dev.field_lt bs 3 1

end

end Sys2Proof.Machine

namespace Sys2Proof.Proofs

open Sys2Proof.Machine Sys2Proof.Claims

/-- Settles O49: the three checks come in the order of `Dev.refusal`, and what it answers is all that happens. -/
theorem refusalOrder : Obligations.RefusalOrder := by
  intro i c code s hp
  obtain ⟨hd, happly⟩ := exec_of_proisCode hp
  refine ⟨fun hawake hnone => ?_, fun m d info ht hinfo => ?_⟩
  · rw [happly, State.apply_awake hawake]
    exact congrArg (fun e => Host.Outcome.next (left s e)) (Dev.prois_of_none hnone)
  · intro w alone denied
    have hcode := taken_code ht
    have hr := refusal_of_info (d := d) (w := w) (hcode ▸ hinfo)
    have halone : alone ↔ d.boot.runs = .rom ∧ m.code ∉ romAnswers := by rw [hcode]; rfl
    have hdenied : denied ↔ w.privilege ∉ info.allow ∨ d.ownerOk w info m = false := by rw [ownerOk_iff, hcode]
    have hheader := headerOk_iff info (flags_taken ht)
    refine ⟨fun ha => ?_, fun ha hden => ?_, fun ha hden hmal => ?_, fun ha hden hmal => ⟨ht, ?_⟩⟩
    · exact exec_of_refused (happly s) ht (hr.trans (if_pos (halone.mp ha)))
    · exact exec_of_refused (happly s) ht (hr.trans ((if_neg (mt halone.mpr ha)).trans (if_pos (hdenied.mp hden))))
    · exact exec_of_refused (happly s) ht
        (hr.trans ((if_neg (mt halone.mpr ha)).trans ((if_neg (mt hdenied.mpr hden)).trans (if_neg fun h => hheader.mp h hmal))))
    · exact hr.trans ((if_neg (mt halone.mpr ha)).trans ((if_neg (mt hdenied.mpr hden)).trans (if_pos (hheader.mpr hmal))))

end Sys2Proof.Proofs
end

section
/-!
PROOFS. Commands that read: what their answers' bytes hold (14_control_mailboxes_and_interrupts.md R520).
-/

namespace Sys2Proof.Machine

open Sys2Proof.Claims

/-! ### Byte strings made of equal parts -/

theorem length_flatMap_of {α : Type} {g : α → List Byte} {k : Nat} (hg : ∀ a, (g a).length = k) (l : List α) :
    (l.flatMap g).length = k * l.length := by
  simp [List.length_flatMap, hg, Nat.mul_comm]

/-- A field of the part at a place. -/
theorem field_flatMap {α : Type} {g : α → List Byte} {k : Nat} (hg : ∀ a, (g a).length = k) {o n : Nat} (hn : o + n ≤ k) {a : α} :
    ∀ {l : List α} {i : Nat}, l[i]? = some a → field (l.flatMap g) (k * i + o) n = field (g a) o n
  | [], _, h => by simp at h
  | x :: l, 0, h => by
    have hx : x = a := by simpa using h
    rw [List.flatMap_cons, hx, Nat.mul_zero, Nat.zero_add, field_append_left _ _ (by rw [hg]; exact hn)]
  | x :: l, i + 1, h => by
    have hoff : k * (i + 1) + o - k = k * i + o := by rw [Nat.mul_succ]; omega
    rw [List.flatMap_cons, field_append_right _ _ _ (by rw [hg, Nat.mul_succ]; omega), hg, hoff]
    exact field_flatMap hg hn (by simpa using h)

theorem field_flatMap_range {g : Nat → List Byte} {k : Nat} (hg : ∀ a, (g a).length = k) {o n : Nat} (hn : o + n ≤ k) {m i : Nat}
    (hi : i < m) : field ((List.range m).flatMap g) (k * i + o) n = field (g i) o n :=
  field_flatMap hg hn (List.getElem?_range hi)

/-- A number further on in a string of numbers. -/
theorem field_leBytes_skip (k v : Nat) (b : List Byte) {off : Nat} (n : Nat) (h : k ≤ off) :
    field (leBytes k v ++ b) off n = field b (off - k) n := by
  rw [field_append_right _ _ _ (by rw [Dev.length_leBytes]; exact h), Dev.length_leBytes]

theorem mod_word {v : Nat} (h : v < 2 ^ 64) : v % 256 ^ 8 = v := Nat.mod_eq_of_lt h

/-! ### Digits -/

/-- The digits of a number built from its digits. -/
theorem digits_foldl {f : Nat → Nat} {base : Nat} (hf : ∀ i, f i < base) : ∀ k,
    (List.range k).foldl (fun s n => s + f n * base ^ n) 0 < base ^ k ∧
      ∀ i < k, (List.range k).foldl (fun s n => s + f n * base ^ n) 0 / base ^ i % base = f i
  | 0 => ⟨Nat.one_pos, fun i hi => absurd hi (Nat.not_lt_zero i)⟩
  | k + 1 => by
    obtain ⟨hlt, hdig⟩ := digits_foldl hf k
    have hpos : 0 < base := Nat.lt_of_le_of_lt (Nat.zero_le _) (hf 0)
    rw [List.range_succ, List.foldl_append, List.foldl_cons, List.foldl_nil]
    generalize (List.range k).foldl (fun s n => s + f n * base ^ n) 0 = a at hlt hdig ⊢
    constructor
    · have hle : (f k + 1) * base ^ k ≤ base * base ^ k := Nat.mul_le_mul_right _ (hf k)
      rw [Nat.pow_succ', ]
      rw [Nat.succ_mul] at hle
      omega
    · intro i hi
      rcases Nat.lt_succ_iff_lt_or_eq.mp hi with hik | rfl
      · have hsplit : f k * base ^ k = base ^ i * (base * (f k * base ^ (k - i - 1))) := by
          rw [show k = i + (k - i - 1 + 1) by omega, Nat.pow_add, Nat.pow_succ]
          simp only [Nat.add_sub_cancel_left, Nat.add_sub_cancel]
          ring
        rw [hsplit, Nat.add_mul_div_left _ _ (Nat.pow_pos hpos), Nat.add_mul_mod_self_left, hdig i hik]
      · rw [Nat.add_mul_div_right _ _ (Nat.pow_pos hpos), Nat.div_eq_of_lt hlt, Nat.zero_add, Nat.mod_eq_of_lt (hf i)]

theorem bits_digit (x i : Nat) : bits x (4 * i + 3) (4 * i) = x / 16 ^ i % 16 := by
  rw [bits, Nat.shiftRight_eq_div_pow, show 4 * i + 3 + 1 - 4 * i = 4 by omega, Nat.pow_mul]
  rfl

theorem CtxState.code_lt (x : CtxState) : x.code < 16 := by cases x <;> decide

namespace Dev

/-! ### GET_STATUS -/

theorem ctxStates_lt (d : Dev) : d.ctxStates < 2 ^ 64 := (digits_foldl (base := 16) (fun n => (d.ctx n).st.code_lt) 16).1

theorem bits_ctxStates (d : Dev) {n : Nat} (hn : n < 16) : bits d.ctxStates (4 * n + 3) (4 * n) = (d.ctx n).st.code := by
  rw [bits_digit]
  exact (digits_foldl (base := 16) (fun n => (d.ctx n).st.code_lt) 16).2 n hn

/-- CTX_CORE_RUN's two halves: the contexts, and the cores that run none (08_jobs_contexts_and_translation.md R314). -/
theorem coreRun_eq (d : Dev) : d.coreRun = (List.range 4).foldl (fun s c => s + (d.runsOn c).getD 0 * 16 ^ c) 0
    + 2 ^ 16 * (List.range 4).foldl (fun s c => s + b2n (d.runsOn c).isNone * 2 ^ c) 0 := by
  have hstep : ∀ (l : List Nat) (a b : Nat), l.foldl (fun s c => match d.runsOn c with
      | some n => s + n * 16 ^ c
      | none => s + 2 ^ (16 + c)) (a + 2 ^ 16 * b) = l.foldl (fun s c => s + (d.runsOn c).getD 0 * 16 ^ c) a
        + 2 ^ 16 * l.foldl (fun s c => s + b2n (d.runsOn c).isNone * 2 ^ c) b := by
    intro l
    induction l with
    | nil => exact fun _ _ => rfl
    | cons c l ih =>
      intro a b
      rw [List.foldl_cons, List.foldl_cons, List.foldl_cons, ← ih]
      congr 1
      cases d.runsOn c with
      | none => simp only [Option.getD_none, Option.isNone_none, b2n, if_pos]; ring
      | some n => simp only [Option.getD_some, Option.isNone_some, b2n]; simp; ring
  exact hstep (List.range 4) 0 0

section
variable {d : Dev} (h : ∀ k < 4, ∀ n, d.runsOn k = some n → n < 16)
include h

theorem coreRun_halves : ∃ a b, d.coreRun = a + 2 ^ 16 * b ∧ a < 2 ^ 16 ∧ b < 2 ^ 4 ∧
    ∀ k < 4, a / 16 ^ k % 16 = (d.runsOn k).getD 0 ∧ b / 2 ^ k % 2 = b2n (d.runsOn k).isNone := by
  have hf (c : Nat) : (if c < 4 then (d.runsOn c).getD 0 else 0) < 16 := by
    split
    case isTrue hc =>
      cases hr : d.runsOn c with
      | none => decide
      | some n => exact h c hc n hr
    case isFalse => decide
  have hg (c : Nat) : b2n (d.runsOn c).isNone < 2 := by cases (d.runsOn c).isNone <;> decide
  obtain ⟨ha, hda⟩ := digits_foldl hf 4
  obtain ⟨hb, hdb⟩ := digits_foldl hg 4
  refine ⟨_, _, d.coreRun_eq, ?_, hb, fun k hk => ⟨?_, hdb k hk⟩⟩
  · exact ha
  · exact (hda k hk).trans (if_pos hk)

theorem coreRun_lt : d.coreRun < 2 ^ 64 := by
  obtain ⟨a, b, heq, ha, hb, -⟩ := coreRun_halves h
  omega

theorem bits_coreRun {k : Nat} (hk : k < 4) : bits d.coreRun (4 * k + 3) (4 * k) = (d.runsOn k).getD 0 := by
  obtain ⟨a, b, heq, ha, -, hd⟩ := coreRun_halves h
  have hsplit : 2 ^ 16 * b = 16 ^ k * (16 * (16 ^ (3 - k) * b)) := by
    rw [show (2 : Nat) ^ 16 = 16 ^ (k + (1 + (3 - k))) by rw [show k + (1 + (3 - k)) = 4 by omega]; rfl, Nat.pow_add, Nat.pow_add]
    ring
  rw [bits_digit, heq, hsplit, Nat.add_mul_div_left _ _ (Nat.pow_pos (by decide)), Nat.add_mul_mod_self_left]
  exact (hd k hk).1

theorem bit_coreRun {k : Nat} (hk : k < 4) : bit d.coreRun (16 + k) = (d.runsOn k).isNone := by
  obtain ⟨a, b, heq, ha, -, hd⟩ := coreRun_halves h
  rw [bit, heq, Nat.add_comm, Nat.testBit_two_pow_mul_add _ ha, if_neg (by omega), Nat.add_sub_cancel_left,
    Nat.testBit_eq_decide_div_mod_eq, (hd k hk).2]
  cases (d.runsOn k).isNone <;> rfl

end

theorem intSum_lt (d : Dev) : d.intSum < 2 ^ 64 := (bit_foldl_pow (fun b => d.leafWord b &&& d.rd .INT_LEAF_EN 0 b = 0) 64).1

/-- INT_SUM's bits: the enabled bits of each leaf word (R525). -/
theorem bit_intSum_iff (d : Dev) {b : Nat} (hb : b < 64) :
    bit d.intSum b = true ↔ ∃ i, bit (d.leafWord b) i = true ∧ bit (d.rd .INT_LEAF_EN 0 b) i = true := by
  rw [bit_intSum, decide_eq_true_iff]
  constructor
  · rintro ⟨-, hne⟩
    obtain ⟨i, hi⟩ := Nat.exists_testBit_of_ne_zero hne
    rw [Nat.testBit_and, Bool.and_eq_true] at hi
    exact ⟨i, hi⟩
  · rintro ⟨i, hl, he⟩
    refine ⟨hb, fun hz => ?_⟩
    have hbit := congrArg (fun n => n.testBit i) hz
    simp only [Nat.testBit_and, Nat.zero_testBit] at hbit
    exact Bool.false_ne_true (hbit.symm.trans (Bool.and_eq_true _ _ |>.mpr ⟨hl, he⟩))

/-! ### Counters and records -/

theorem getElem?_range_map {α : Type} (f : Nat → α) {m i : Nat} (hi : i < m) : ((List.range m).map f)[i]? = some (f i) := by
  rw [List.getElem?_map, List.getElem?_range hi, Option.map_some]

theorem length_keptRecord (d : Dev) (n : Nat) : (d.keptRecord n).length = 64 := by
  rw [keptRecord, length_wordBytes, List.length_map, List.length_range]

theorem field_keptRecord (d : Dev) (n : Nat) {k : Nat} (hk : k < 8) : field (d.keptRecord n) (8 * k) 8 = d.rd .CTX_FREC 0 (8 * n + k) := by
  rw [keptRecord, field_wordBytes, getElem?_range_map _ hk]
  exact Nat.mod_eq_of_lt (BitVec.isLt _)

theorem length_totals (d : Dev) (n : Nat) (l : List (Nat × (Reg × Nat × FieldRow))) :
    (l.flatMap (fun c => leBytes 8 (d.total n c))).length = 8 * l.length := length_flatMap_of (fun _ => length_leBytes 8 _) l

theorem total_lt (d : Dev) (n : Nat) (c : Nat × (Reg × Nat × FieldRow)) : d.total n c < 2 ^ 64 := by
  obtain ⟨k, r, j, x⟩ := c
  exact Nat.lt_of_le_of_lt (Nat.min_le_right _ _) (by decide)

theorem field_totals (d : Dev) (n : Nat) {l : List (Nat × (Reg × Nat × FieldRow))} {k o j : Nat} {r : Reg} {x : FieldRow}
    (hk : l[k]? = some (o, r, j, x)) : field (l.flatMap (fun c => leBytes 8 (d.total n c))) (8 * k) 8 =
      min (2 ^ 64 - 1) (Sp.get (fun _ => 0) d.totals (n * 2 ^ 30 + o) + bits (d.regValue r (n - r.row.window) j) x.hi x.lo) := by
  refine (field_flatMap (o := 0) (fun _ => length_leBytes 8 _) (Nat.le_refl 8) hk).trans ?_
  rw [field_leBytes]
  exact (Nat.mod_eq_of_lt (d.total_lt n (o, r, j, x))).trans (Nat.min_comm _ _)

/-! ### Flags -/

/-- A flag word's bits (02_number_formats_and_accumulation.md R68). -/
theorem bit_flags : ∀ a b c d e g : Bool, ∀ k < 6,
    bit (Flags.mk a b c d e g).toNat k = ([a, b, c, d, e, g][k]?).getD false := by decide

theorem bit_clear_ofNat (n mask : Nat) {k : Nat} (hk : k < 6) :
    bit ((Flags.ofNat n).clear mask).toNat k = (bit n k && !bit mask k) := by
  rw [Flags.clear, bit_flags _ _ _ _ _ _ k hk]
  interval_cases k <;> rfl

/-! ### The answers -/

theorem length_functionStates (d : Dev) : d.functionStates.length = 8 := by rw [functionStates, List.length_map, List.length_range]

theorem getInfo_answers (d : Dev) (w : Who) (m : Msg) : ∃ body : List Byte, getInfo d w m = (.now 0 body, d) ∧ body.length = 23 ∧
    field body 0 2 = 0x0640 ∧ field body 2 1 = 0xB0 ∧ field body 7 2 = d.deviceId ∧ field body 9 1 = (if d.idValid then 1 else 0) ∧
    field body 10 4 = d.ddrBytes / 2 ^ 30 % 2 ^ 32 ∧ field body 14 1 = d.split := by
  have hid : d.deviceId < 2 ^ 16 := fld_lt d F.RHK_DEV_ID_id 0 0
  have hsplit : d.split ≤ 8 := Nat.min_le_left _ _
  refine ⟨_, rfl, ?_, ?_, ?_, ?_, ?_, ?_, ?_⟩
  · simp [length_leBytes, length_functionStates]
  all_goals simp only [List.append_assoc, field_leBytes_append, field_leBytes_skip, Nat.reduceLeDiff, Nat.reduceSub, le_refl, Nat.sub_self,
    Nat.reducePow, Nat.reduceMod]
  · exact Nat.mod_eq_of_lt hid
  · cases d.idValid <;> rfl
  · exact Nat.mod_eq_of_lt (by omega)

theorem getStatus_answers (d : Dev) (w : Who) (m : Msg) : ∃ body : List Byte, getStatus d w m = (.now 0 body, d) ∧ body.length = 32 ∧
    (∀ n < 16, bits (field body 0 8) (4 * n + 3) (4 * n) = (d.ctx n).st.code) ∧
    ((∀ k < 4, ∀ n, d.runsOn k = some n → n < 16) → ∀ k < 4,
      bit (field body 8 8) (16 + k) = (d.runsOn k).isNone ∧ bits (field body 8 8) (4 * k + 3) (4 * k) = (d.runsOn k).getD 0) ∧
    (∀ b < 64, bit (field body 16 8) b = true ↔ ∃ i, bit (d.leafWord b) i = true ∧ bit (d.rd .INT_LEAF_EN 0 b) i = true) := by
  refine ⟨_, rfl, ?_, ?_, ?_, ?_⟩
  · simp [length_leBytes, length_functionStates]
  all_goals simp only [List.append_assoc, field_leBytes_append, field_leBytes_skip, Nat.reduceLeDiff, Nat.reduceSub, le_refl, Nat.sub_self]
  · intro n hn
    rw [mod_word d.ctxStates_lt, bits_ctxStates d hn]
  · intro h k hk
    rw [mod_word (coreRun_lt h)]
    exact ⟨bit_coreRun h hk, bits_coreRun h hk⟩
  · intro b hb
    rw [mod_word d.intSum_lt]
    exact d.bit_intSum_iff hb

theorem rd_lt (d : Dev) (r : Reg) (w j : Nat) : d.rd r w j < 2 ^ 64 := BitVec.isLt _

theorem getTelemetry_power (d : Dev) (w : Who) {m : Msg} (h : m.arg0 = 0) : ∃ body : List Byte,
    getTelemetry d w m = (.now 0 body, d) ∧ body.length = 27 ∧ field body 0 4 = d.fld F.PWR_EST_mw ∧
      field body 6 1 = d.effStep % 256 ∧ field body 19 8 = d.now % 2 ^ 64 := by
  have hmw : d.fld F.PWR_EST_mw < 2 ^ 32 := fld_lt d F.PWR_EST_mw 0 0
  unfold getTelemetry
  rw [h]
  refine ⟨_, rfl, ?_, ?_, ?_, ?_⟩
  · simp [length_leBytes]
  all_goals simp only [List.append_assoc, field_leBytes_append, field_leBytes_skip, field_leBytes, Nat.reduceLeDiff, Nat.reduceSub, le_refl,
    Nat.sub_self, Nat.reducePow]
  exact Nat.mod_eq_of_lt hmw

theorem getTelemetry_throttles (d : Dev) (w : Who) {m : Msg} (h : m.arg0 = 1) : ∃ body : List Byte,
    getTelemetry d w m = (.now 0 body, d) ∧ body.length = 84 ∧
      ∀ r < 7, field body (12 * r) 8 = d.throttleNs (r + 1) ∧ field body (12 * r + 8) 4 = d.rd .PWR_THR_CNT 0 r % 2 ^ 32 := by
  have hns (r : Nat) : d.throttleNs (r + 1) < 2 ^ 64 := Nat.lt_of_le_of_lt (Nat.min_le_right _ _) (by decide)
  have hg (r : Nat) : (leBytes 8 (d.throttleNs (r + 1)) ++ leBytes 4 (d.rd .PWR_THR_CNT 0 r)).length = 12 := by simp [length_leBytes]
  unfold getTelemetry
  rw [h]
  refine ⟨_, rfl, length_flatMap_of hg _, fun r hr => ⟨?_, ?_⟩⟩
  · refine (field_flatMap_range (o := 0) hg (by decide) hr).trans ?_
    rw [field_leBytes_append, mod_word (hns r)]
  · rw [field_flatMap_range hg (by decide) hr, field_leBytes_skip _ _ _ _ (by decide), field_leBytes]
    rfl

theorem getTelemetry_sensors (d : Dev) (w : Who) {m : Msg} (h : m.arg0 = 2) : ∃ body : List Byte,
    getTelemetry d w m = (.now 0 body, d) ∧ body.length = 260 ∧
      ∀ k < 130, field body (2 * k) 2 = if d.isSet F.TEL_SENSOR_failed 0 k then 0x8000 else d.fld F.TEL_SENSOR_temp 0 k := by
  have hg (k : Nat) : (leBytes 2 (if d.isSet F.TEL_SENSOR_failed 0 k then 0x8000 else d.fld F.TEL_SENSOR_temp 0 k)).length = 2 :=
    length_leBytes 2 _
  have hlt (k : Nat) : (if d.isSet F.TEL_SENSOR_failed 0 k then 0x8000 else d.fld F.TEL_SENSOR_temp 0 k) < 256 ^ 2 := by
    split
    · decide
    · exact fld_lt d F.TEL_SENSOR_temp 0 k
  unfold getTelemetry
  rw [h]
  refine ⟨_, rfl, (length_flatMap_of hg _).trans (by rw [List.length_range]), fun k hk => ?_⟩
  refine (field_flatMap_range (o := 0) hg (by decide) hk).trans ?_
  rw [field_leBytes, Nat.mod_eq_of_lt (hlt k)]

theorem getTelemetry_energy (d : Dev) (w : Who) {m : Msg} (h : m.arg0 = 3) : ∃ body : List Byte,
    getTelemetry d w m = (.now 0 body, d) ∧ body.length = 128 ∧ ∀ n < 16, field body (8 * n) 8 = d.rd .PWR_ENERGY 0 n := by
  have hg (n : Nat) : (leBytes 8 (d.rd .PWR_ENERGY 0 n)).length = 8 := length_leBytes 8 _
  unfold getTelemetry
  rw [h]
  refine ⟨_, rfl, length_flatMap_of hg _, fun n hn => ?_⟩
  refine (field_flatMap_range (o := 0) hg (by decide) hn).trans ?_
  rw [field_leBytes, mod_word (d.rd_lt _ _ _)]

theorem getTelemetry_detector (d : Dev) (w : Who) {m : Msg} (h : m.arg0 = 4) : ∃ body : List Byte,
    getTelemetry d w m = (.now 0 body, d) ∧ body.length = 94 ∧ ∀ f < 6, field body (8 * f) 8 = d.rd .TEL_FLAG_CNT 0 f := by
  have hg (f : Nat) : (leBytes 8 (d.rd .TEL_FLAG_CNT 0 f)).length = 8 := length_leBytes 8 _
  have hlen := length_flatMap_of hg (List.range 6)
  unfold getTelemetry
  rw [h]
  refine ⟨_, rfl, ?_, fun f hf => ?_⟩
  · simp only [List.length_append, hlen, length_leBytes, List.length_range]
  · simp only [List.append_assoc]
    rw [field_append_left _ _ (by rw [hlen, List.length_range]; omega)]
    refine (field_flatMap_range (o := 0) hg (by decide) hf).trans ?_
    rw [field_leBytes, mod_word (d.rd_lt _ _ _)]

theorem getTelemetry_beyond (d : Dev) (w : Who) {m : Msg} (h : 4 < m.arg0) : getTelemetry d w m = (.now 3 [], d) := by
  obtain ⟨k, hk⟩ : ∃ k, m.arg0 = k + 5 := ⟨m.arg0 - 5, by omega⟩
  unfold getTelemetry
  rw [hk]
  rfl

theorem getFlags_answers (d : Dev) (w : Who) {m : Msg} (h : m.arg0 < 2 ^ 16) : ∃ (e : Dev) (body : List Byte),
    getFlags d w m = (.now 0 body, e) ∧ field body 0 8 = d.rd .CTX_FLAGS 0 m.context ∧ body.length = 8 ∧
      (∀ k < 6, bit (e.fld F.CTX_FLAGS_flags 0 m.context) k = (bit (d.fld F.CTX_FLAGS_flags 0 m.context) k && !bit m.arg0 k)) ∧
      ∀ n < 16, n ≠ m.context → e.rd .CTX_FLAGS 0 n = d.rd .CTX_FLAGS 0 n := by
  refine ⟨_, _, if_neg (Nat.not_le.mpr h), ?_, length_leBytes 8 _, fun k hk => ?_, fun n _ hn => ?_⟩
  · rw [field_leBytes, mod_word (d.rd_lt _ _ _)]
  · have hk16 : k < 16 := by omega
    rw [fld_setFld _ (by decide) (by decide), bit, Nat.testBit_mod_two_pow, ← bit, bit_clear_ofNat _ _ hk]
    simp [F.CTX_FLAGS_flags, hk16]
  · refine rd_setFld_other _ F.CTX_FLAGS_flags _ ?_
    simp only [F.CTX_FLAGS_flags, Reg.key, Reg.row]
    omega

theorem bit_maskOut : ∀ a < 64, ∀ k < 6, bit (63 - a) k = !bit a k := by decide +kernel

theorem ackAlert_answers (d : Dev) (w : Who) {m : Msg} (h : m.arg0 < 64) : ∃ (e : Dev) (body : List Byte),
    ackAlert d w m = (.now 0 body, e) ∧ field body 0 8 = e.rd .INT_FW ∧
      ∀ k < 6, bit (e.rd .INT_FW) k = (bit (d.rd .INT_FW) k && !bit m.arg0 k) := by
  refine ⟨_, _, if_neg (Nat.not_le.mpr h), ?_, fun k hk => ?_⟩
  · rw [field_leBytes, mod_word (rd_lt _ _ _ _)]
  · have hk64 : k < 64 := by omega
    have hmask : (63 - m.arg0).testBit k = !bit m.arg0 k := bit_maskOut m.arg0 h k hk
    rw [rd_wr, bit, Nat.testBit_mod_two_pow, Nat.testBit_and, hmask]
    simp [hk64, bit]

theorem setEventMask_answers (d : Dev) {w : Who} {r : Nat} (hr : w.reply = some r) {m : Msg} (h : m.arg0 < 2 ^ 11) : ∃ e : Dev,
    setEventMask d w m = (.now 0 [], e) ∧
      ∀ k, Sp.get (fun _ => 0) e.eventMask k = if k = r then m.arg0 else Sp.get (fun _ => 0) d.eventMask k := by
  refine ⟨_, if_neg (Nat.not_le.mpr h), fun k => ?_⟩
  rw [hr]
  exact Sp.get_set _ _ _ _ _

/-! ### Quotes -/

theorem length_padTo (n : Nat) (l : List Byte) : (padTo n l).length = n := by
  rw [padTo, List.length_take, List.length_append, List.length_replicate]
  omega

theorem length_imageHash (d : Dev) : ((List.range 4).foldl (fun l w => l ++ leBytes 8 (d.rd .SEC_IMG_HASH 0 w)) []).length = 32 := by
  simp [List.range_succ, length_leBytes]

theorem length_quoteHeader (d : Dev) (nonce : List Byte) : (d.quoteHeader nonce).length = 256 := by
  simp only [quoteHeader, List.length_append, length_padTo, length_imageHash]

theorem length_quote (d : Dev) (nonce : List Byte) : (d.quote nonce).length = 25232 := by
  simp only [quote, List.length_append, length_quoteHeader, length_padTo]
  split
  · split
    · rw [length_padTo]
    · rw [List.length_replicate]
  · rw [List.length_replicate]

theorem padTo_append (n : Nat) (a b : List Byte) (h : a.length ≤ n) :
    padTo n (a ++ b) = a ++ (b ++ List.replicate n 0).take (n - a.length) := by
  rw [padTo, List.append_assoc, List.take_append, List.take_of_length_le h]

/-- A quote's type, and its nonce after the first 32 bytes (19_boot_security_and_defaults.md R642). -/
theorem quoteHeader_starts (d : Dev) (nonce : List Byte) : ∃ a b : List Byte,
    d.quoteHeader nonce = leBytes 2 0x9A01 ++ a ++ (padTo 32 nonce ++ b) ∧ a.length = 30 := by
  unfold quoteHeader
  simp only [List.append_assoc]
  rw [padTo_append 0x20 (leBytes 2 0x9A01) _ (by rw [length_leBytes]; decide)]
  simp only [List.append_assoc]
  exact ⟨_, _, rfl, by simp [length_leBytes, length_padTo]⟩

theorem quote_starts (d : Dev) (nonce : List Byte) :
    field (d.quote nonce) 0 2 = 0x9A01 ∧ ((d.quote nonce).drop 0x20).take 32 = padTo 32 nonce := by
  obtain ⟨a, b, heq, ha⟩ := d.quoteHeader_starts nonce
  have hlen : (leBytes 2 0x9A01 ++ a).length = 0x20 := by rw [List.length_append, length_leBytes, ha]
  have hquote : ∃ z, d.quote nonce = leBytes 2 0x9A01 ++ a ++ (padTo 32 nonce ++ z) := by
    unfold quote
    dsimp only
    rw [heq]
    simp only [List.append_assoc]
    exact ⟨_, rfl⟩
  obtain ⟨z, hz⟩ := hquote
  rw [hz]
  constructor
  · rw [List.append_assoc, field_leBytes_append]
    rfl
  · rw [List.drop_left' hlen, List.take_left' (length_padTo 32 nonce)]

theorem length_fragments (m : Msg) (c : Nat) {q : List Byte} (h : q.length = 25232) : (fragments m c q).length = 106 := by
  rw [fragments, List.length_map, List.length_range, h]
  rfl

theorem ring_proisPut (d : Dev) (c : Nat) (bs : List Byte) (k : Nat) : (d.proisPut c bs).ring k = (d.ringPut c bs).ring k := by
  unfold proisPut
  dsimp only
  split <;> rfl

theorem msgs_foldl_proisPut (c : Nat) : ∀ (l : List (List Byte)) (d : Dev), (d.ring c).msgs.length + l.length ≤ 16 →
    ((l.foldl (fun d b => d.proisPut c b) d).ring c).msgs = (d.ring c).msgs ++ l
  | [], d, _ => (List.append_nil _).symm
  | b :: l, d, h => by
    rw [List.length_cons] at h
    have hput : ((d.proisPut c b).ring c).msgs = (d.ring c).msgs ++ [b] := by
      rw [ring_proisPut, msgs_ringPut_of_room b (by omega)]
    have hroom : ((d.proisPut c b).ring c).msgs.length + l.length ≤ 16 := by rw [hput, List.length_append, List.length_singleton]; omega
    rw [List.foldl_cons, msgs_foldl_proisPut c l _ hroom, hput, List.append_assoc]
    rfl

/-- A quote on a channel that is empty and on which none waits: 16 fragments stand there and the rest wait. -/
theorem postQuote_of_empty {d : Dev} {c : Nat} (hq : ∀ x ∈ d.boot.quotes, x.1 ≠ c) (hr : (d.ring c).msgs = [])
    (l : List (List Byte)) :
    ((d.postQuote c l).ring c).msgs = l.take 16 ∧ (d.postQuote c l).boot.quotes = d.boot.quotes ++ (l.drop 16).map (fun b => (c, b)) := by
  have hwaits : d.boot.quotes.any (fun q => q.1 = c) = false := by simpa using hq
  have hboot := congrArg Dev.boot (MailOnly.foldl (fun d b => mailOnly_proisPut d c b) (l.take 16) d).1
  have hmsgs := msgs_foldl_proisPut c (l.take 16) d (by rw [hr, List.length_take]; simp)
  unfold postQuote
  dsimp only
  rw [hwaits, hr]
  refine ⟨hmsgs.trans (by rw [hr]; rfl), ?_⟩
  exact congrArg (fun b : Boot => b.quotes ++ (l.drop 16).map (fun b => (c, b))) hboot

end Dev

end Sys2Proof.Machine



namespace Sys2Proof.Proofs

open Sys2Proof.Machine Sys2Proof.Claims

/-- Settles O50: each command's answer, byte by byte. -/
theorem readingCommands : Obligations.ReadingCommands := by
  intro s c m d
  refine ⟨fun ha => ?_, fun ha => ?_, fun ha hw => ?_, fun ha hw => ?_,
    fun ha => ⟨fun h => ?_, fun h => ?_, fun h => ?_, fun h => ?_, fun h => ?_, fun h => ?_⟩,
    fun ha => ?_, fun ha hf => ?_, fun ha hf => ?_, fun ha hf => ?_, fun ha hf => ?_, fun ha hf => ?_, fun ha hf => ?_, fun ha => ?_⟩
  · obtain ⟨body, hnow, hbody⟩ := d.getInfo_answers ((found s).whoOn c) m
    exact ⟨body, exec_of_now rfl ha hnow, hbody⟩
  · obtain ⟨body, hnow, hbody⟩ := d.getStatus_answers ((found s).whoOn c) m
    exact ⟨body, exec_of_now rfl ha hnow, hbody⟩
  · exact exec_of_now rfl ha (if_pos hw)
  · exact ⟨_, exec_of_now rfl ha (if_neg hw), d.length_totals _ _, fun k o r j x hk => d.field_totals _ hk⟩
  · obtain ⟨body, hnow, hbody⟩ := d.getTelemetry_power ((found s).whoOn c) h
    exact ⟨body, exec_of_now rfl ha hnow, hbody⟩
  · obtain ⟨body, hnow, hbody⟩ := d.getTelemetry_throttles ((found s).whoOn c) h
    exact ⟨body, exec_of_now rfl ha hnow, hbody⟩
  · obtain ⟨body, hnow, hbody⟩ := d.getTelemetry_sensors ((found s).whoOn c) h
    exact ⟨body, exec_of_now rfl ha hnow, hbody⟩
  · obtain ⟨body, hnow, hbody⟩ := d.getTelemetry_energy ((found s).whoOn c) h
    exact ⟨body, exec_of_now rfl ha hnow, hbody⟩
  · obtain ⟨body, hnow, hbody⟩ := d.getTelemetry_detector ((found s).whoOn c) h
    exact ⟨body, exec_of_now rfl ha hnow, hbody⟩
  · exact exec_of_now rfl ha (d.getTelemetry_beyond _ h)
  · exact ⟨_, exec_of_now rfl ha rfl, d.length_keptRecord _, fun k hk => d.field_keptRecord _ hk⟩
  · exact exec_of_now rfl ha (if_pos hf)
  · obtain ⟨e, body, hnow, hbody⟩ := d.getFlags_answers ((found s).whoOn c) hf
    exact ⟨e, body, exec_of_now rfl ha hnow, hbody⟩
  · exact exec_of_now rfl ha (if_pos hf)
  · obtain ⟨e, body, hnow, hbody⟩ := d.ackAlert_answers ((found s).whoOn c) hf
    exact ⟨e, body, exec_of_now rfl ha hnow, hbody⟩
  · exact exec_of_now rfl ha (if_pos hf)
  · obtain ⟨e, hnow, hmask⟩ := d.setEventMask_answers (w := (found s).whoOn c) rfl hf
    exact ⟨e, exec_of_now rfl ha hnow, hmask⟩
  · obtain ⟨htype, hnonce⟩ := d.quote_starts m.body
    have hlen := d.length_quote m.body
    exact ⟨_, d.quote m.body, exec_of_later rfl ha rfl, hlen, htype, hnonce, Dev.length_fragments m _ hlen,
      fun hq hr => Dev.postQuote_of_empty hq hr _⟩

end Sys2Proof.Proofs
end

section
/-!
PROOFS. Numbers that the register file has no place for: a throttle reason beyond those of R570 and a context beyond those of R289 make the
device write at another register's place. No reachable state holds them, but the statements speak of every state
(16_power_thermal_and_measurement.md R571, 08_jobs_contexts_and_translation.md R306).
-/

namespace Sys2Proof.Machine

open Sys2Proof.Claims

/-- A command leaves one state, so that the devices that name it agree on every register but those of the mailboxes. -/
theorem rd_eq_of_left_eq {s : State} {d e : Dev} (h : left s d = left s e) {r : Reg} {w j : Nat} (hk : r.key w j ∉ mailKeys) :
    d.rd r w j = e.rd r w j := by
  have hrd := congrArg (fun s : State => s.dev.rd r w j) h
  exact (Dev.rd_settle _ _ hk).symm.trans (hrd.trans (Dev.rd_settle _ _ hk))

/-- An event on a pin of a device that does not run. -/
theorem State.applyPins_asleep {s : State} (h : s.dev.awake = false) (f : Dev → Links → Dev × Links) :
    s.applyPins f = .next { s with dev := (f (found s) s.links).1, links := (f (found s) s.links).2 } := by
  unfold State.applyPins
  rw [h]
  rfl

/-! ### A throttle reason -/

/-- The state at reset, one nanosecond later, with an episode of a reason. -/
def episodeOf (reason : Nat) : State :=
  { State.reset with dev := { State.reset.dev with now := 1, power := { State.reset.dev.power with
      active := [(reason, { since := 0, step := 0, duty := 0 })] } } }

/-- The nanoseconds of this reason stand where the first module sensor's reading stands. -/
def sensorReason : Nat := 2097314

theorem sensorReason_key : Reg.PWR_THR_NS.key 0 (sensorReason - 1) = Reg.TEL_SENSOR.key 0 98 := by decide

theorem rd_ddrSensors_stray :
    ((found (episodeOf sensorReason)).ddrSensors (List.replicate 32 (some 0))).rd .TEL_SENSOR 0 98 = 2 ^ 16 + 1 := by decide +kernel

/-- The nanoseconds of this reason stand where the sampled straps stand. -/
def strapReason : Nat := 8388547

theorem strapReason_key : Reg.PWR_THR_NS.key 0 (strapReason - 1) = Reg.SMB_STRAP.key 0 0 := by decide

/-- With RESET_N held low. -/
def heldInReset : State :=
  { episodeOf strapReason with dev := { (episodeOf strapReason).dev with pins := { (episodeOf strapReason).dev.pins with resetLow := true } } }

theorem fld_resetRelease_stray : ((found heldInReset).resetRelease [] 0 0 true []).1.fld F.SMB_STRAP_fwd ≠ 0 := by decide +kernel

/-! ### A context -/

/-- The record kept of this context stands where the count of hangs stands. -/
def strayContext : Nat := 17825761

theorem strayContext_key : Reg.CTX_FREC.key 0 (8 * strayContext + 1) = Reg.RST_HANG_CNT.key 0 0 := by decide

/-- The state at reset with core 0 running that context. -/
def strayCore : State :=
  { State.reset with dev := { State.reset.dev with ctxs := [(strayContext, { st := .running })], cores := [(0, { ctx := some strayContext })] } }

theorem fld_progressWatchdog_stray :
    ((found strayCore).progressWatchdog 0 (2 ^ 31)).fld F.RST_HANG_CNT_hangs ≠ 1 := by decide +kernel

end Sys2Proof.Machine

namespace Sys2Proof.Proofs

open Sys2Proof.Machine Sys2Proof.Claims

/-- Refutes O58, in its clause on DDR_SENSOR_READ: in a state whose active reasons hold one that is none of R570, its nanosecond is counted
into the register of the reading that the command has just stored. -/
theorem not_powerThermalAndScreens : ¬ Obligations.PowerThermalAndScreens := by
  intro h
  have hawake : (episodeOf sensorReason).dev.awake = true := by decide
  obtain ⟨-, -, -, -, -, -, hread, -⟩ := h.1 _ hawake
  obtain ⟨e, hexec, hrs⟩ := hread (List.replicate 32 (some 0)) rfl
  have hrun : exec (.ddrSensorRead (List.replicate 32 (some 0))) (episodeOf sensorReason) = .next (left _ _) :=
    State.apply_awake hawake _ _
  have hrd := rd_eq_of_left_eq (Host.Outcome.next.inj (hrun.symm.trans hexec)) (r := .TEL_SENSOR) (w := 0) (j := 98) (by decide)
  exact absurd (rd_ddrSensors_stray.symm.trans (hrd.trans ((hrs 0 (by decide)).1 0 rfl).1)) (by decide)

/-- Refutes O59, in its clause on PROGRESS_WATCHDOG: in a state whose core 0 serves a context with a number beyond 15, the record of the hang
is kept at a place that the count of hangs already has. -/
theorem not_hangsAndResets : ¬ Obligations.HangsAndResets := by
  intro h
  have hawake : strayCore.dev.awake = true := by decide
  obtain ⟨-, hwatch, -⟩ := h strayCore hawake
  obtain ⟨-, hruns⟩ := hwatch 0 (2 ^ 31)
  obtain ⟨e, hexec, -, -, hhang⟩ := hruns (by decide +kernel)
  obtain ⟨-, hcount, -⟩ := hhang (by decide +kernel)
  have hrun : exec (.progressWatchdog 0 (2 ^ 31)) strayCore = .next (left _ _) := State.apply_awake hawake _ _
  have hrd := rd_eq_of_left_eq (Host.Outcome.next.inj (hrun.symm.trans hexec)) (r := .RST_HANG_CNT) (w := 0) (j := 0) (by decide)
  exact fld_progressWatchdog_stray ((Dev.fld_congr (x := F.RST_HANG_CNT_hangs) hrd).trans (hcount.trans (by decide +kernel)))

/-- Refutes O60, in its clause on RESET_N_RELEASE: the straps are sampled, and then the nanosecond of a reason that is none of R570 is counted
into their register. -/
theorem not_pinsJtagAndSmbus : ¬ Obligations.PinsJtagAndSmbus := by
  intro h
  obtain ⟨-, -, hrelease, -⟩ := h.1 heldInReset
  obtain ⟨-, hreleases⟩ := hrelease 0 0 true []
  obtain ⟨t, hexec, -, -, hfwd, -⟩ := hreleases ⟨by decide, .inl (by decide)⟩
  have hrun := State.applyPins_asleep (s := heldInReset) (by decide) (fun d l => d.resetRelease l 0 0 true [])
  have ht := Host.Outcome.next.inj (hrun.symm.trans hexec)
  exact fld_resetRelease_stray ((congrArg (fun s : State => s.dev.fld F.SMB_STRAP_fwd) ht).trans hfwd)

end Sys2Proof.Proofs
end

section
/-!
PROOFS. Time over Rhanak: sync flits, the parent, a device that is its own root, and the hold (13_rhanak_links_and_topology.md
R494-R497).
-/

namespace Sys2Proof.Machine

open Sys2Proof.Claims

namespace Dev

/-! ### Ports -/

theorem port_onPort_same (d : Dev) (p : Nat) (f : RhkPort → RhkPort) : (d.onPort p f).port p = f (d.port p) := port_setPort d p _

theorem port_onPort_other (d : Dev) {p k : Nat} (f : RhkPort → RhkPort) (h : k ≠ p) : (d.onPort p f).port k = d.port k :=
  port_setPort_other d _ h

theorem port_congr {d e : Dev} (h : e.rhk.ports = d.rhk.ports) (p : Nat) : e.port p = d.port p := by rw [port, h, port]

theorem portUp_of_regs {d e : Dev} (h : e.regs = d.regs) (p : Nat) : e.portUp p = d.portUp p := by
  rw [portUp, portUp, pfld, pfld, fld_of_regs h]

/-! ### Fields of all six link dies -/

theorem setSync_regsOnly (d : Dev) (x : Field) (v : Nat) : RegsOnly d (d.setSync x v) := .foldl (fun d n => .setFld d x n 0 v) _ d

theorem fld_setSync (d : Dev) {x : Field} (h : x.lo ≤ x.hi) (h64 : x.hi < 64) (v : Nat) {n : Nat} (hn : n < 6) :
    (d.setSync x v).fld x n 0 = v % 2 ^ (x.hi + 1 - x.lo) := by
  have hall : ∀ (l : List Nat) (d : Dev), n ∈ l → (l.foldl (fun d n => d.setFld x n 0 v) d).fld x n 0 = v % 2 ^ (x.hi + 1 - x.lo) := by
    intro l
    induction l using List.reverseRecOn with
    | nil => intro _ hm; cases hm
    | append_singleton l k ih =>
      intro d hm
      rw [List.foldl_append, List.foldl_cons, List.foldl_nil]
      by_cases hk : x.reg.key n 0 = x.reg.key k 0
      · have hnk : n = k := by simp only [Reg.key] at hk; omega
        rw [hnk, fld_setFld _ h h64]
      · rw [fld_setFld_other _ v hk]
        refine ih d ((List.mem_append.mp hm).resolve_right fun hs => hk ?_)
        rw [List.mem_singleton.mp hs]
  exact hall _ d (List.mem_range.mpr hn)

theorem fld_setSync_disjoint (d : Dev) {x y : Field} (hr : y.reg = x.reg) (h : x.lo ≤ x.hi) (h64 : x.hi < 64) (v n : Nat)
    (hd : x.hi < y.lo ∨ y.hi < x.lo) : (d.setSync x v).fld y n 0 = d.fld y n 0 := by
  have hall : ∀ (l : List Nat) (d : Dev), (l.foldl (fun d n => d.setFld x n 0 v) d).fld y n 0 = d.fld y n 0 := by
    intro l
    induction l with
    | nil => exact fun _ => rfl
    | cons k l ih =>
      intro d
      rw [List.foldl_cons, ih]
      by_cases hk : y.reg.key n 0 = x.reg.key k 0
      · have hnk : n = k := by rw [hr] at hk; simp only [Reg.key] at hk; omega
        rw [hnk, fld_setFld_disjoint d hr h h64 k 0 v hd]
      · exact fld_setFld_other d v hk
  exact hall _ d

/-! ### The device locks, leads or follows -/

/-- The registers that say that the time base is locked. -/
def lockNoted (d : Dev) : Dev := (d.setSync F.RHK_SYNC_locked 1).setFld F.TB_STATUS_locked 0 0 1

theorem lockNoted_regsOnly (d : Dev) : RegsOnly d d.lockNoted := (RegsOnly.setFld _ F.TB_STATUS_locked 0 0 1).after (setSync_regsOnly d _ _)

theorem setLocked_true (d : Dev) : d.setLocked true = { d.lockNoted with rhk := { d.lockNoted.rhk with lockedOnce := true } } := rfl

theorem setLocked_ports (d : Dev) : (d.setLocked true).rhk.ports = d.rhk.ports := by
  have h : d.lockNoted.rhk = d.rhk := by rw [d.lockNoted_regsOnly]
  rw [setLocked_true, ← h]

theorem setLocked_lockedOnce (d : Dev) : (d.setLocked true).rhk.lockedOnce = true := by rw [setLocked_true]

/-- Locking leaves the time base where it is. -/
theorem setLocked_now (d : Dev) : (d.setLocked true).now = d.now := by
  have h : d.lockNoted.now = d.now := by rw [d.lockNoted_regsOnly]
  rw [setLocked_true, ← h]

theorem fld_setLocked (d : Dev) (x : Field) (w j : Nat) : (d.setLocked true).fld x w j = d.lockNoted.fld x w j :=
  fld_of_regs (by rw [setLocked_true]) x w j

theorem isSet_locked_setLocked (d : Dev) : (d.setLocked true).isSet F.TB_STATUS_locked = true := by
  rw [isSet_eq_fld, fld_setLocked, lockNoted, fld_setFld _ (by decide) (by decide)]
  decide

/-- A register of the link dies' windows is no register of the time base. -/
theorem sync_key_ne {n : Nat} (hn : n < 6) : Reg.RHK_SYNC.key n 0 ≠ Reg.TB_STATUS.key 0 0 := by
  simp only [Reg.key, Reg.row]; omega

/-- The root, its distance and its parent set in every link die. -/
def followNoted (d : Dev) (root hops parent : Nat) : Dev :=
  ((d.setSync F.RHK_SYNC_root root).setSync F.RHK_SYNC_hops hops).setSync F.RHK_SYNC_parent parent

theorem followNoted_regsOnly (d : Dev) (root hops parent : Nat) : RegsOnly d (d.followNoted root hops parent) :=
  (setSync_regsOnly _ _ _).after ((setSync_regsOnly _ _ _).after (setSync_regsOnly d _ _))

theorem followNoted_ports (d : Dev) (root hops parent : Nat) : (d.followNoted root hops parent).rhk.ports = d.rhk.ports := by
  rw [d.followNoted_regsOnly root hops parent]

theorem becomeRoot_eq (d : Dev) : d.becomeRoot = (d.followNoted d.deviceId 0 0x1F).setLocked true := rfl

theorem becomeRoot_now (d : Dev) : d.becomeRoot.now = d.now := by
  rw [becomeRoot_eq, setLocked_now, d.followNoted_regsOnly]

theorem becomeRoot_ports (d : Dev) : d.becomeRoot.rhk.ports = d.rhk.ports := by
  rw [becomeRoot_eq, setLocked_ports, followNoted_ports]

/-- What a root announces in every link die. -/
theorem becomeRoot_sync (d : Dev) {n : Nat} (hn : n < 6) : d.becomeRoot.fld F.RHK_SYNC_root n = d.deviceId ∧
    d.becomeRoot.fld F.RHK_SYNC_hops n = 0 ∧ d.becomeRoot.fld F.RHK_SYNC_locked n = 1 := by
  have hid : d.deviceId % 2 ^ 16 = d.deviceId := Nat.mod_eq_of_lt (fld_lt d F.RHK_DEV_ID_id 0 0)
  have hlock (e : Dev) (x : Field) (hx : x.reg = .RHK_SYNC) : (e.setLocked true).fld x n = (e.setSync F.RHK_SYNC_locked 1).fld x n := by
    rw [fld_setLocked, lockNoted, fld_setFld_other _ _ (by rw [hx]; exact sync_key_ne hn)]
  rw [becomeRoot_eq, hlock _ _ rfl, hlock _ _ rfl, hlock _ _ rfl, followNoted]
  refine ⟨?_, ?_, ?_⟩
  · rw [fld_setSync_disjoint _ (by rfl) (by decide) (by decide) _ _ (by decide),
      fld_setSync_disjoint _ (by rfl) (by decide) (by decide) _ _ (by decide),
      fld_setSync_disjoint _ (by rfl) (by decide) (by decide) _ _ (by decide), fld_setSync _ (by decide) (by decide) _ hn]
    exact hid
  · rw [fld_setSync_disjoint _ (by rfl) (by decide) (by decide) _ _ (by decide),
      fld_setSync_disjoint _ (by rfl) (by decide) (by decide) _ _ (by decide), fld_setSync _ (by decide) (by decide) _ hn]
    rfl
  · rw [fld_setSync _ (by decide) (by decide) _ hn]
    rfl

theorem setFld_ports (d : Dev) (x : Field) (w j v : Nat) : (d.setFld x w j v).rhk.ports = d.rhk.ports := rfl

/-- The time base a step of whole nanoseconds further on. -/
def stepped (d : Dev) (ns : Nat) : Dev :=
  let d := { d with now := (d.now + ns) % 2 ^ 64 }
  (if ns = 0 then d else d.wr .TB_STEP_NS 0 0 ns).raise F.TB_STATUS_stepped

theorem stepped_ports (d : Dev) (ns : Nat) : (d.stepped ns).rhk.ports = d.rhk.ports := by
  unfold stepped
  dsimp only
  split <;> rfl

theorem resolve_ports (d : Dev) (offset : Int) : (d.resolve offset).rhk.ports = d.rhk.ports := by
  have h : d.resolve offset = if 0 ≤ offset then (d.stepped (offset / 8).toNat).setLocked true else d.raise F.TB_STATUS_held := rfl
  rw [h]
  split
  · rw [setLocked_ports, stepped_ports]
  · exact setFld_ports ..

theorem adjustRate_ports (d : Dev) (offset : Int) : (d.adjustRate offset).rhk.ports = d.rhk.ports := by
  unfold adjustRate
  split
  · exact setFld_ports ..
  · exact (setFld_ports ..).trans rfl

/-- The device follows the parent that it has chosen. -/
def follow (d : Dev) (x : Nat × Nat × Nat × Bool) : Dev :=
  let e := d.followNoted x.1 (x.2.1 + 1) x.2.2.1
  if !x.2.2.2 || e.isSet F.TB_STATUS_held || (e.port x.2.2.1).syncSent.isNone then e
  else
    let off := (e.port x.2.2.1).offset
    if (!d.isSet F.TB_STATUS_locked && !d.rhk.lockedOnce) = true ∨
        ((d.fld F.RHK_SYNC_root ≠ x.1 ∨ d.fld F.RHK_SYNC_parent ≠ x.2.2.1) ∧ 80000 ≤ off.natAbs) then e.resolve off
    else (e.adjustRate off).setLocked true

theorem follow_ports (d : Dev) (x : Nat × Nat × Nat × Bool) : (d.follow x).rhk.ports = d.rhk.ports := by
  have hset := followNoted_ports d x.1 (x.2.1 + 1) x.2.2.1
  unfold follow
  dsimp only
  split
  · exact hset
  · split
    · rw [resolve_ports, hset]
    · rw [setLocked_ports, adjustRate_ports, hset]

/-- What the device does with the best announcement, once it does not lead itself. -/
def followBest (d : Dev) : Option (Nat × Nat × Nat × Bool) → Dev
  | none => d
  | some x => d.follow x

theorem followBest_ports (d : Dev) : ∀ best, (d.followBest best).rhk.ports = d.rhk.ports
  | none => rfl
  | some x => follow_ports d x

/-- A device leads, or follows the best announcement. -/
theorem chooseParent_cases (d : Dev) : d.chooseParent = d.becomeRoot ∨ d.chooseParent = d.followBest d.bestParent := by
  unfold chooseParent
  cases d.bestParent with
  | none => exact ite_eq_or_eq _ _ _
  | some x => exact ite_eq_or_eq _ _ _

/-- The choice of a parent leaves every port as it was. -/
theorem chooseParent_ports (d : Dev) : d.chooseParent.rhk.ports = d.rhk.ports := by
  rcases d.chooseParent_cases with h | h
  · rw [h, becomeRoot_ports]
  · rw [h, followBest_ports]

/-! ### Sync flits -/

/-- Port p after its sync flit of SYNC_EXCHANGE. -/
def sentSync (d : Dev) (fraction p : Nat) : Dev :=
  ((d.sendFlit p 4 []).onPort p (fun x => { x with syncSent := some (8 * d.now + fraction) })).emit (.rhanak p "sync"
    [8 * d.now + fraction, d.fld F.RHK_SYNC_root, d.fld F.RHK_SYNC_hops, d.fld F.RHK_SYNC_locked])

theorem syncExchange_eq (d : Dev) (fraction : Nat) : d.syncExchange fraction =
    (List.range 24).foldl (fun d p => if d.portUp p then d.sentSync fraction p else d) d := rfl

theorem port_sentSync_other (d : Dev) (fraction : Nat) {p k : Nat} (h : k ≠ p) : (d.sentSync fraction p).port k = d.port k :=
  (port_onPort_other (d.sendFlit p 4 []) (fun x => { x with syncSent := some (8 * d.now + fraction) }) h).trans (port_setPort_other d _ h)

theorem syncSent_sentSync (d : Dev) (fraction p : Nat) : ((d.sentSync fraction p).port p).syncSent = some (8 * d.now + fraction) :=
  congrArg RhkPort.syncSent
    (port_onPort_same (d.sendFlit p 4 []) p (fun x => { x with syncSent := some (8 * d.now + fraction) }))

/-- What the exchange over a list of ports leaves: the ports of the list that are up have sent, every other port is as it was. -/
theorem foldl_sentSync (fraction : Nat) : ∀ (l : List Nat) (d : Dev),
    let e := l.foldl (fun d p => if d.portUp p then d.sentSync fraction p else d) d
    e.regs = d.regs ∧ e.now = d.now ∧ (∀ o ∈ d.out, o ∈ e.out) ∧ (∀ k, ¬ (k ∈ l ∧ d.portUp k = true) → e.port k = d.port k) ∧
      ∀ k ∈ l, d.portUp k = true → (e.port k).syncSent = some (8 * d.now + fraction) ∧
        Out.rhanak k "sync" [8 * d.now + fraction, d.fld F.RHK_SYNC_root, d.fld F.RHK_SYNC_hops, d.fld F.RHK_SYNC_locked] ∈ e.out
  | [], d => ⟨rfl, rfl, fun _ ho => ho, fun _ _ => rfl, fun _ hk => absurd hk (List.not_mem_nil)⟩
  | p :: l, d => by
    intro e
    by_cases hp : d.portUp p = true
    · have he : e = l.foldl (fun d p => if d.portUp p then d.sentSync fraction p else d) (d.sentSync fraction p) := by
        show List.foldl _ _ _ = _
        rw [List.foldl_cons, if_pos hp]
      obtain ⟨hregs, hnow, hout, hother, hsent⟩ := foldl_sentSync fraction l (d.sentSync fraction p)
      rw [← he] at hregs hnow hout hother hsent
      have hup : ∀ k, (d.sentSync fraction p).portUp k = d.portUp k := portUp_of_regs rfl
      refine ⟨hregs, hnow, fun o ho => hout o ?_, fun k hk => ?_, fun k hk hkup => ?_⟩
      · exact List.mem_append_left _ (List.mem_append_left _ ho)
      · have hkp : k ≠ p := fun h => hk ⟨by rw [h]; exact List.mem_cons_self, by rw [h]; exact hp⟩
        rw [hother k fun h => hk ⟨List.mem_cons_of_mem _ h.1, by rw [← hup]; exact h.2⟩, port_sentSync_other d fraction hkp]
      · by_cases hkl : k ∈ l
        · exact hsent k hkl (by rw [hup]; exact hkup)
        · have hkp : k = p := (List.mem_cons.mp hk).resolve_right hkl
          subst hkp
          rw [hother k fun h => hkl h.1]
          exact ⟨syncSent_sentSync d fraction k, hout _ (List.mem_append_right _ (List.mem_singleton.mpr rfl))⟩
    · have he : e = l.foldl (fun d p => if d.portUp p then d.sentSync fraction p else d) d := by
        show List.foldl _ _ _ = _
        rw [List.foldl_cons, if_neg hp]
      obtain ⟨hregs, hnow, hout, hother, hsent⟩ := foldl_sentSync fraction l d
      rw [← he] at hregs hnow hout hother hsent
      refine ⟨hregs, hnow, hout, fun k hk => hother k fun h => hk ⟨List.mem_cons_of_mem _ h.1, h.2⟩, fun k hk hkup => ?_⟩
      rcases List.mem_cons.mp hk with rfl | hkl
      · exact absurd hkup hp
      · exact hsent k hkl hkup

/-- The port that a sync flit with its neighbour's stamps leaves. -/
def synced (d : Dev) (a : Announce) (sent theirs fraction : Nat) (x : RhkPort) : RhkPort :=
  let got : Int := (8 * d.now + fraction : Nat)
  let x := { x with announce := some a }
  match x.syncSent with
  | none => x
  | some mine =>
    { x with delay := (((got - sent) + ((theirs : Int) - mine)) / 2).toNat
             offset := (((sent : Int) - got) + ((theirs : Int) - mine)) / 2 }

theorem syncFlit_of_up {d : Dev} {p : Nat} (h : d.portUp p = true) (a : Announce) (sent theirs fraction : Nat) :
    d.syncFlit p a sent theirs fraction = (d.onPort p (d.synced a sent theirs fraction)).chooseParent := by
  rw [syncFlit, h]; rfl

theorem synced_announce (d : Dev) (a : Announce) (sent theirs fraction : Nat) (x : RhkPort) :
    (d.synced a sent theirs fraction x).announce = some a := by
  unfold synced
  dsimp only
  split <;> rfl

/-- Four stamps that fit a delay and an offset give that delay and that offset. -/
theorem synced_of_fits {d : Dev} {a : Announce} {sent theirs fraction mine delay : Nat} {offset : Int} {x : RhkPort}
    (hx : x.syncSent = some mine) (hgot : ((8 * d.now + fraction : Nat) : Int) = (sent : Int) - offset + delay)
    (htheirs : (theirs : Int) = (mine : Int) + offset + delay) :
    (d.synced a sent theirs fraction x).delay = delay ∧ (d.synced a sent theirs fraction x).offset = offset := by
  unfold synced
  dsimp only
  rw [hx]
  constructor <;> dsimp only <;> omega

/-! ### The root's timeout -/

/-- A locked announcement stands among the candidates exactly when a port that is up has one. -/
theorem candidates_locked (d : Dev) : d.candidates.any (fun x => x.2.2.2) = false ↔
    ∀ p < 24, ∀ a, d.portUp p = true → (d.port p).announce = some a → a.locked = false := by
  have hkeep : d.candidates.any (fun x => x.2.2.2) = ((List.range 24).filterMap (fun p =>
      match (d.port p).announce with
      | some a => if d.portUp p then some (a.root, a.hops, p, a.locked) else none
      | none => none)).any (fun x => x.2.2.2) := by
    unfold candidates
    dsimp only
    generalize List.filterMap _ _ = all
    split
    · rw [List.any_filter]; simp
    · rfl
  rw [hkeep, List.any_eq_false]
  constructor
  · intro h p hp a hup ha
    have hm := h (a.root, a.hops, p, a.locked) (List.mem_filterMap.mpr ⟨p, List.mem_range.mpr hp, by rw [ha]; exact if_pos hup⟩)
    exact Bool.eq_false_iff.mpr hm
  · intro h x hx
    obtain ⟨p, hp, hpx⟩ := List.mem_filterMap.mp hx
    split at hpx
    · rename_i a ha
      split at hpx
      · rename_i hup
        rw [← Option.some.inj hpx, h p (List.mem_range.mp hp) a hup ha]
        exact Bool.false_ne_true
      · cases hpx
    · cases hpx

/-- The bit that lets the device become root, bit 9 of RHK_SYNC (R495). -/
abbrev rootEnable : Field := ⟨.RHK_SYNC, 9, 9⟩

/-- The device must make itself root (R495). -/
def RootDue (d : Dev) : Prop :=
  (∃ t, d.rhk.firstUp = some t ∧ t + 10000000 ≤ d.now) ∧ d.idValid = true ∧ d.isSet rootEnable = true ∧
    d.rhk.lockedOnce = false ∧ ∀ p < 24, ∀ a, d.portUp p = true → (d.port p).announce = some a → a.locked = false

theorem rootTimeout_of_due {d : Dev} (h : d.RootDue) : d.rootTimeout = d.becomeRoot := by
  obtain ⟨⟨t, ht, hlate⟩, hid, hen, honce, hnone⟩ := h
  rw [rootTimeout, ht]
  refine if_pos ?_
  rw [hid, honce, (candidates_locked d).mpr hnone, decide_eq_true hlate]
  simp only [Bool.and_eq_true]
  exact ⟨⟨⟨⟨trivial, hen⟩, rfl⟩, trivial⟩, rfl⟩

theorem rootTimeout_of_not_due {d : Dev} (h : ¬ d.RootDue) : d.rootTimeout = d := by
  unfold rootTimeout
  split
  · rfl
  · rename_i t ht
    refine if_neg fun hc => h ?_
    simp only [Bool.and_eq_true, Bool.not_eq_true', decide_eq_true_eq] at hc
    obtain ⟨⟨⟨⟨hid, hen⟩, honce⟩, hlate⟩, hnone⟩ := hc
    exact ⟨⟨t, ht, hlate⟩, hid, hen, honce, (candidates_locked d).mp hnone⟩

theorem fld_held_setSync (d : Dev) (x : Field) (hx : x.reg = .RHK_SYNC) (v : Nat) :
    (d.setSync x v).fld F.TB_STATUS_held 0 0 = d.fld F.TB_STATUS_held 0 0 := by
  have hkey (n : Nat) : Reg.TB_STATUS.key 0 0 ≠ Reg.RHK_SYNC.key n 0 := by simp only [Reg.key, Reg.row]; omega
  unfold setSync
  generalize List.range 6 = l
  induction l generalizing d with
  | nil => rfl
  | cons n l ih => rw [List.foldl_cons, ih, fld_setFld_other _ _ (by rw [hx]; exact hkey n)]

theorem isSet_held_holdEnd (d : Dev) : ((d.setFld F.TB_STATUS_held 0 0 0).setLocked true).isSet F.TB_STATUS_held = false := by
  rw [isSet_eq_fld, fld_setLocked, lockNoted, fld_setFld_disjoint _ (by rfl) (by decide) (by decide) _ _ _ (by decide),
    fld_held_setSync _ _ rfl, fld_setFld _ (by decide) (by decide)]
  rfl

end Dev

end Sys2Proof.Machine

namespace Sys2Proof.Proofs

open Sys2Proof.Machine Sys2Proof.Claims

/-- Settles O55: stamps and announcements port by port, and a root or a held time base that locks. -/
theorem timeOverRhanak : Obligations.TimeOverRhanak := by
  intro s hawake d same
  refine ⟨fun fraction => ⟨_, State.apply_awake hawake _ _, ?_⟩, fun p a sent theirs fraction => ⟨fun hup => ?_, fun hup => ?_⟩, ?_,
    fun hheld => ?_, fun hheld => ?_⟩
  · obtain ⟨hregs, hnow, -, hother, hsent⟩ := Dev.foldl_sentSync fraction (List.range 24) d
    exact ⟨hregs, hnow, fun p _ hup => hother p fun h => by rw [hup] at h; exact absurd h.2 (by decide),
      fun p hp hup => hsent p (List.mem_range.mpr hp) hup⟩
  · refine (State.apply_awake hawake _ _).trans (congrArg (fun e => Host.Outcome.next (left s e)) ?_)
    show d.syncFlit p a sent theirs fraction = d
    rw [Dev.syncFlit, hup]; rfl
  · refine ⟨_, State.apply_awake hawake _ _, ?_⟩
    rw [Dev.syncFlit_of_up hup]
    have hport := fun k => Dev.port_congr (Dev.chooseParent_ports (d.onPort p (d.synced a sent theirs fraction))) k
    rw [hport p, Dev.port_onPort_same]
    exact ⟨Dev.synced_announce d a sent theirs fraction _,
      fun k hk => (hport k).trans (Dev.port_onPort_other d _ hk), fun mine delay offset => Dev.synced_of_fits⟩
  · intro due
    have hrun : exec .rootTimeout s = .next (left s d.rootTimeout) := State.apply_awake hawake _ _
    refine ⟨fun hn => ?_, fun hd => ⟨_, hrun, ?_⟩⟩
    · rw [hrun, Dev.rootTimeout_of_not_due hn]
    · rw [Dev.rootTimeout_of_due hd]
      exact ⟨Dev.isSet_locked_setLocked _, Dev.setLocked_lockedOnce _, Dev.becomeRoot_now d, fun n hn => Dev.becomeRoot_sync d hn⟩
  · refine (State.apply_awake hawake _ _).trans (congrArg (fun e => Host.Outcome.next (left s e)) ?_)
    exact if_neg (by rw [hheld]; exact Bool.false_ne_true)
  · have hend : d.holdEnd = (d.setFld F.TB_STATUS_held 0 0 0).setLocked true := if_pos hheld
    refine ⟨d.holdEnd, State.apply_awake hawake _ _, ?_⟩
    rw [hend]
    exact ⟨Dev.isSet_held_holdEnd d, Dev.isSet_locked_setLocked _, Dev.setLocked_now _⟩

end Sys2Proof.Proofs
end

section
/-!
PROOFS. The Ethernet port: frames, the link, flow control, rates, LLDP and management datagrams
(15_host_ethernet_interface.md R531-R537, R550, R551).
-/

namespace Sys2Proof.Machine

open Sys2Proof.Claims

namespace Dev

/-! ### What a frame's pauses leave -/

/-- The device `e` is `d` after frames were sent, the pauses of this port noted and bytes counted. -/
def PauseOnly (d e : Dev) : Prop :=
  e = { d with regs := e.regs, eth := { d.eth with pausing := e.eth.pausing }, out := e.out } ∧ (∀ o ∈ d.out, o ∈ e.out) ∧
    ∀ (r : Reg) (w j : Nat), r.key w j ≠ Reg.ETH_TX_BYTES.key 0 0 → e.rd r w j = d.rd r w j

theorem PauseOnly.refl (d : Dev) : PauseOnly d d := ⟨rfl, fun _ h => h, fun _ _ _ _ => rfl⟩

theorem PauseOnly.trans {a b c : Dev} (h : PauseOnly a b) (k : PauseOnly b c) : PauseOnly a c := by
  obtain ⟨hab, hout, hrd⟩ := h
  obtain ⟨hbc, hout', hrd'⟩ := k
  refine ⟨?_, fun o ho => hout' o (hout o ho), fun r w j hr => (hrd' r w j hr).trans (hrd r w j hr)⟩
  rw [hbc, hab]

theorem PauseOnly.foldl {β : Type} {f : Dev → β → Dev} (h : ∀ d x, PauseOnly d (f d x)) :
    ∀ (l : List β) (d : Dev), PauseOnly d (l.foldl f d)
  | [], d => .refl d
  | x :: l, d => (h d x).trans (foldl h l (f d x))

theorem PauseOnly.now {d e : Dev} (h : PauseOnly d e) : e.now = d.now := by rw [h.1]
theorem PauseOnly.config {d e : Dev} (h : PauseOnly d e) : e.eth.config = d.eth.config := by rw [h.1]
theorem PauseOnly.echoAt {d e : Dev} (h : PauseOnly d e) : e.eth.echoAt = d.eth.echoAt := by rw [h.1]

theorem pauseOnly_send (d : Dev) (n : Nat) (kind : String) (p bytes : Nat) (body : List Byte) :
    PauseOnly d ((d.onEth (fun e => { e with pausing := n })).ethSend kind p bytes body) :=
  ⟨rfl, fun _ h => List.mem_append_left _ h, fun _ _ _ h => rd_bump_other _ F.ETH_TX_BYTES_bytes _ h⟩

theorem pauseOnly_pfcSend (d : Dev) (p : Nat) : PauseOnly d (d.pfcSend p) := by
  unfold pfcSend
  dsimp only
  split
  · exact .refl d
  · split
    · exact pauseOnly_send ..
    · split
      · exact pauseOnly_send ..
      · exact .refl d

/-! ### Frames -/

/-- The FEC counts of a frame. -/
def fecNoted (d : Dev) (f : Frame) : Dev :=
  ((d.bump F.ETH_FEC_CNT_corrected 0 0 f.corrected).bump F.ETH_FEC_CNT_uncorrected 0 0 f.uncorrected).raiseIf
    (decide (0 < f.uncorrected)) F.ETH_ERR_STATUS_fec_uncorrected

theorem fecNoted_regsOnly (d : Dev) (f : Frame) : RegsOnly d (d.fecNoted f) :=
  (RegsOnly.raiseIf _ _ F.ETH_ERR_STATUS_fec_uncorrected 0 0).after
    ((RegsOnly.bump _ F.ETH_FEC_CNT_uncorrected 0 0 _).after (.bump d F.ETH_FEC_CNT_corrected 0 0 _))

theorem rd_fecNoted_other (d : Dev) (f : Frame) {r : Reg} {w j : Nat} (h : r.key w j ≠ Reg.ETH_FEC_CNT.key 0 0)
    (h' : r.key w j ≠ Reg.ETH_ERR_STATUS.key 0 0) : (d.fecNoted f).rd r w j = d.rd r w j := by
  rw [fecNoted, rd_raiseIf_other _ _ F.ETH_ERR_STATUS_fec_uncorrected h', rd_bump_other _ F.ETH_FEC_CNT_uncorrected _ h, rd_bump_other _ F.ETH_FEC_CNT_corrected _ h]

theorem fld_fecNoted (d : Dev) (f : Frame) : (d.fecNoted f).fld F.ETH_FEC_CNT_uncorrected =
    satAdd 32 (d.fld F.ETH_FEC_CNT_uncorrected) f.uncorrected := by
  have hcorrected : (d.bump F.ETH_FEC_CNT_corrected 0 0 f.corrected).fld F.ETH_FEC_CNT_uncorrected = d.fld F.ETH_FEC_CNT_uncorrected :=
    fld_setFld_disjoint d (by rfl) (by decide) (by decide) _ _ _ (by decide)
  have hraised (e : Dev) : (e.raiseIf (decide (0 < f.uncorrected)) F.ETH_ERR_STATUS_fec_uncorrected).fld F.ETH_FEC_CNT_uncorrected =
      e.fld F.ETH_FEC_CNT_uncorrected := fld_congr (rd_raiseIf_other e _ _ (r := .ETH_FEC_CNT) (by decide))
  rw [fecNoted, hraised, fld_bump (x := F.ETH_FEC_CNT_uncorrected) _ (by decide) (by decide), hcorrected]
  rfl

/-- A frame that passes, counted and in the receive buffer. -/
def takenIn (d : Dev) (f : Frame) : Dev :=
  ((d.fecNoted f).bump F.ETH_RX_BYTES_bytes 0 0 f.bytes).onEth
    (fun e => { e with fill := f.fill.foldl (fun t x => Sp.set (fun _ => 0) t (x.1 % 8) x.2) e.fill })

/-- What the replies of a frame read of the port stays while the frame is taken in. -/
theorem takenIn_reads (d : Dev) (f : Frame) : (d.takenIn f).now = d.now ∧ (d.takenIn f).eth.config = d.eth.config ∧
    (d.takenIn f).eth.echoAt = d.eth.echoAt := by
  show (d.fecNoted f).now = d.now ∧ (d.fecNoted f).eth.config = d.eth.config ∧ (d.fecNoted f).eth.echoAt = d.eth.echoAt
  rw [d.fecNoted_regsOnly f]
  exact ⟨rfl, rfl, rfl⟩

/-- A frame that passes, with the pauses that its bytes draw. -/
def buffered (d : Dev) (f : Frame) : Dev := (List.range 8).foldl (fun d p => d.pfcSend p) (d.takenIn f)

theorem isSet_vlan_fecNoted (d : Dev) (f : Frame) : (d.fecNoted f).isSet F.ETH_CTRL_vlan_en = d.isSet F.ETH_CTRL_vlan_en :=
  isSet_eq_of_rd (rd_fecNoted_other d f (by decide) (by decide))

/-- The port's own test of a frame is the rules' one. -/
theorem passes_iff (d : Dev) (f : Frame) : Passes d f ↔
    ¬ (9216 < f.bytes ∨ f.fcsOk = false ∨ 0 < f.uncorrected ∨ f.full = true) ∧ (d.fecNoted f).vlanOk f = true := by
  have heth : (d.fecNoted f).eth = d.eth := by rw [d.fecNoted_regsOnly f]
  have hvlan : (d.fecNoted f).vlanOk f = true ↔ f.stacked = false ∧
      f.vlan = (if d.isSet F.ETH_CTRL_vlan_en then some d.eth.config.vlan else none) := by
    rw [vlanOk, isSet_vlan_fecNoted, heth, Bool.and_eq_true, Bool.not_eq_true']
    refine and_congr_right fun _ => ?_
    cases f.vlan <;> cases d.isSet F.ETH_CTRL_vlan_en <;> simp
  rw [hvlan, Passes]
  simp only [not_or, not_lt, Nat.le_zero, Bool.not_eq_false, Bool.not_eq_true, and_assoc]

theorem frameReceive_of_not_passes {d : Dev} {f : Frame} (hup : d.eth.up = true) (h : ¬ Passes d f) :
    d.frameReceive f = (d.fecNoted f).ethDrop := by
  rw [passes_iff] at h
  unfold frameReceive
  rw [hup]
  by_cases hbad : 9216 < f.bytes ∨ f.fcsOk = false ∨ 0 < f.uncorrected ∨ f.full = true
  · exact if_pos hbad
  · refine (if_neg hbad).trans (if_pos ?_)
    exact (Bool.not_eq_true' _).mpr (Bool.not_eq_true _ ▸ fun hv => h ⟨hbad, hv⟩)

theorem frameReceive_of_passes {d : Dev} {f : Frame} (hup : d.eth.up = true) (h : Passes d f) :
    d.frameReceive f = (d.buffered f).dispatch f := by
  obtain ⟨hgood, hvlan⟩ := (passes_iff d f).mp h
  unfold frameReceive
  rw [hup]
  refine (if_neg hgood).trans (if_neg ?_)
  show ¬ (!(d.fecNoted f).vlanOk f) = true
  rw [hvlan]
  decide

theorem buffered_pauseOnly (d : Dev) (f : Frame) : PauseOnly (d.takenIn f) (d.buffered f) := .foldl pauseOnly_pfcSend _ _

theorem rd_buffered_other (d : Dev) (f : Frame) {r : Reg} {w j : Nat} (h : r.key w j ≠ Reg.ETH_FEC_CNT.key 0 0)
    (h' : r.key w j ≠ Reg.ETH_ERR_STATUS.key 0 0) (hr : r.key w j ≠ Reg.ETH_RX_BYTES.key 0 0)
    (ht : r.key w j ≠ Reg.ETH_TX_BYTES.key 0 0) : (d.buffered f).rd r w j = d.rd r w j :=
  ((d.buffered_pauseOnly f).2.2 r w j ht).trans ((rd_bump_other _ F.ETH_RX_BYTES_bytes _ hr).trans (rd_fecNoted_other d f h h'))

theorem fld_buffered (d : Dev) (f : Frame) : (d.buffered f).fld F.ETH_RX_BYTES_bytes = satAdd 64 (d.fld F.ETH_RX_BYTES_bytes) f.bytes := by
  rw [fld_congr ((d.buffered_pauseOnly f).2.2 _ _ _ (by decide))]
  refine (fld_bump _ (by decide) (by decide) 0 0 _).trans ?_
  rw [fld_congr (rd_fecNoted_other d f (by decide) (by decide))]
  rfl

theorem buffered_reads (d : Dev) (f : Frame) : (d.buffered f).now = d.now ∧ (d.buffered f).eth.config = d.eth.config ∧
    (d.buffered f).eth.echoAt = d.eth.echoAt ∧ ∀ a, (d.buffered f).ownAddress a = d.ownAddress a := by
  have hp := d.buffered_pauseOnly f
  obtain ⟨hnow', hconfig', hecho'⟩ := d.takenIn_reads f
  have hnow : (d.buffered f).now = d.now := hp.now.trans hnow'
  have hconfig : (d.buffered f).eth.config = d.eth.config := hp.config.trans hconfig'
  have hecho : (d.buffered f).eth.echoAt = d.eth.echoAt := hp.echoAt.trans hecho'
  refine ⟨hnow, hconfig, hecho, fun a => ?_⟩
  have hset (x : Field) (hx : x.reg = .ETH_CTRL) : (d.buffered f).isSet x = d.isSet x :=
    isSet_eq_of_rd (by rw [hx]; exact rd_buffered_other d f (by decide) (by decide) (by decide) (by decide))
  rw [ownAddress, ownAddress, hconfig, hset _ rfl, hset _ rfl]

theorem fld_ethSend_other (d : Dev) (kind : String) (peer bytes : Nat) (body : List Byte) {x : Field}
    (h : x.reg.key 0 0 ≠ Reg.ETH_TX_BYTES.key 0 0) : (d.ethSend kind peer bytes body).fld x = d.fld x :=
  fld_bump_other d (x := F.ETH_TX_BYTES_bytes) _ h

theorem fld_qpFail_rx (d : Dev) (q psn code : Nat) : (d.qpFail q psn code).fld F.ETH_RX_BYTES_bytes = d.fld F.ETH_RX_BYTES_bytes := by
  have hcap : (d.ethCapture q psn code).rd .ETH_RX_BYTES 0 0 = d.rd .ETH_RX_BYTES 0 0 := by
    unfold ethCapture
    dsimp only
    split
    · rfl
    · exact rd_wr_other d _ (by decide)
  exact (fld_raise_other (d.ethCapture q psn code) (x := F.ETH_ERR_STATUS_qp_error) (y := F.ETH_RX_BYTES_bytes) (by decide)).trans
    (fld_congr hcap)

/-- A congestion notification sent and noted. -/
def cnpSent (d : Dev) (q : Nat) : Dev :=
  ((d.setQp q { d.qp q with cnpAt := some d.now }).bump F.ETH_CNP_CNT_sent 0 0 1).ethSend "CNP" q (d.roceBytes q 16) []

theorem cnpSend_cases (d : Dev) (q : Nat) : d.cnpSend q = d.cnpSent q ∨ d.cnpSend q = d := ite_eq_or_eq _ _ _

theorem fld_cnpSend_rx (d : Dev) (q : Nat) : (d.cnpSend q).fld F.ETH_RX_BYTES_bytes = d.fld F.ETH_RX_BYTES_bytes := by
  rcases d.cnpSend_cases q with h | h
  · rw [h, cnpSent, fld_ethSend_other (x := F.ETH_RX_BYTES_bytes) _ _ _ _ _ (by decide)]
    exact fld_bump_other _ 1 (by decide)
  · rw [h]

theorem fld_sendAnswered_rx (d : Dev) (q psn kind : Nat) :
    (d.sendAnswered q psn kind).fld F.ETH_RX_BYTES_bytes = d.fld F.ETH_RX_BYTES_bytes := by
  unfold sendAnswered
  dsimp only
  split
  · rfl
  · split
    · rfl
    · rfl
    · split
      · exact fld_qpFail_rx d q psn 7
      · rfl

/-- What a frame's protocol does leaves the count of received bytes. -/
theorem fld_dispatch_rx (d : Dev) (f : Frame) : (d.dispatch f).fld F.ETH_RX_BYTES_bytes = d.fld F.ETH_RX_BYTES_bytes := by
  unfold dispatch
  cases f.proto with
  | pause | lldp | management => rfl
  | arp t | neighbour t =>
    dsimp only
    split
    · exact fld_ethSend_other _ _ _ _ _ (by decide)
    · rfl
  | echo t payload =>
    dsimp only
    split
    · rfl
    · exact fld_ethSend_other _ _ _ _ _ (by decide)
  | roce q icrcOk ce supported =>
    dsimp only
    split
    · exact fld_raise_other d (by decide)
    · split
      · rfl
      · split
        · exact fld_cnpSend_rx d q
        · rfl
  | sendAnswer q psn kind => exact fld_sendAnswered_rx d q psn kind
  | other => exact fld_bump_other d 1 (by decide)

/-! ### Paused priorities -/

/-- A priority after a PFC frame. -/
def pausedAfter (en pause release : Nat) (a : Bool) (p : Nat) : Bool :=
  if bit en p = false then a else bit pause p || (a && !bit release p)

theorem bit_pfc (en pause release : Nat) (k : Nat) : ∀ (l : List Nat) (a : Nat), l.Nodup →
    bit (l.foldl (fun a p => if bit en p && bit pause p then a ||| 2 ^ p else if bit en p && bit release p && bit a p then a ^^^ 2 ^ p else a) a) k =
      if k ∈ l then pausedAfter en pause release (bit a k) k else bit a k
  | [], a, _ => by simp
  | p :: l, a, h => by
    obtain ⟨hp, hl⟩ := List.nodup_cons.mp h
    have hstep : bit (if bit en p && bit pause p then a ||| 2 ^ p else if bit en p && bit release p && bit a p then a ^^^ 2 ^ p else a) k =
        if k = p then pausedAfter en pause release (bit a k) k else bit a k := by
      by_cases hkp : k = p
      · subst hkp
        rw [if_pos rfl, pausedAfter]
        cases hen : bit en k <;> cases hpa : bit pause k <;> cases hre : bit release k <;> cases ha : bit a k <;>
          simp_all [bit, Nat.testBit_or, Nat.testBit_xor, Nat.testBit_two_pow_self]
      · rw [if_neg hkp]
        have hne : (2 ^ p).testBit k = false := Nat.testBit_two_pow_of_ne (Ne.symm hkp)
        split
        · simp [bit, Nat.testBit_or, hne]
        · split
          · simp [bit, Nat.testBit_xor, hne]
          · rfl
    rw [List.foldl_cons, bit_pfc en pause release k l _ hl, hstep]
    by_cases hkp : k = p
    · subst hkp
      rw [if_neg hp, if_pos rfl, if_pos List.mem_cons_self]
    · rw [if_neg hkp]
      simp [hkp]

/-! ### The greeting after a reset -/

/-- RESET_DONE with its body on its two ways. -/
def greetWith (d : Dev) (body : List Byte) : Dev :=
  let d := (d.onEth (fun e => { e with greet := none })).eventOn 1 0x8007 0 body
  match d.boot.record with
  | none => d
  | some k =>
    let c := Sp.get (fun _ => []) d.flash.records k
    let (n, d) := d.nextEvent 3
    let m : Msg := { code := 0x8007, flags := 2, channel := 3, length := body.length, tag := n, body }
    d.ethSend "datagram" (field c 0x40 2) (d.datagramBytes (bit (field c 0x65 1) 3) m.toBytes.length)
      ((c.drop 0x78).take 6 ++ (c.drop 0x80).take 16 ++ datagramHeader 2 0 ++ m.toBytes)

theorem eventOn_eth (d : Dev) (c code context : Nat) (body : List Byte) : (d.eventOn c code context body).eth = d.eth := by
  rw [(mailOnly_eventOn d c code context body).1]

theorem greetWith_eth (d : Dev) (body : List Byte) : (d.greetWith body).eth = { d.eth with greet := none } := by
  have hev := eventOn_eth (d.onEth (fun e => { e with greet := none })) 1 0x8007 0 body
  unfold greetWith
  generalize (d.onEth (fun e => { e with greet := none })).eventOn 1 0x8007 0 body = e at hev
  dsimp only
  split
  · rw [hev]; rfl
  · rename_i k hk
    generalize ({ code := 0x8007, flags := 2, channel := 3, length := body.length, tag := (e.nextEvent 3).1, body } : Msg).toBytes = m
    exact hev

/-- RESET_DONE leaves the link and the queue pairs, and is owed no more. -/
theorem greet_eth (d : Dev) : d.greet.eth = { d.eth with greet := none } := by
  unfold greet
  split
  · rename_i h
    rw [← h]
  · exact greetWith_eth d _

/-! ### Management datagrams -/

/-- A command that "all" may issue answers at once where nothing names a reply channel, and changes nothing. -/
theorem observerHandler_answers (d : Dev) {w : Who} (hw : w.reply = none) (m : Msg) (code : Nat) :
    ∃ st body, observerHandler code d w m = (.now st body, d) := by
  unfold observerHandler
  split
  · exact ⟨_, _, rfl⟩
  · exact ⟨_, _, rfl⟩
  · unfold getCounters
    dsimp only
    split <;> exact ⟨_, _, rfl⟩
  · unfold getTelemetry
    split <;> exact ⟨_, _, rfl⟩
  · unfold getQuote
    rw [hw]
    exact ⟨_, _, rfl⟩
  · exact ⟨_, _, rfl⟩

theorem judged_observer (d : Dev) {w : Who} (hw : w.reply = none) (m : Msg) :
    ∃ st body, d.judged w m (observerHandler m.code) = (.now st body, d) := by
  unfold judged
  split
  · exact ⟨_, _, rfl⟩
  · exact observerHandler_answers d hw m m.code

theorem fragments_ne_nil (m : Msg) (c : Nat) (body : List Byte) : fragments m c body ≠ [] := fun h => by
  have hl := congrArg List.length h
  rw [fragments, List.length_map, List.length_range, List.length_nil] at hl
  omega

/-- The datagrams of a response. -/
def datagramSent (peer : Nat) (v6 : Bool) (seq st : Nat) (d : Dev) (b : List Byte) : Dev :=
  d.ethSend "datagram" peer (d.datagramBytes v6 (b.take 2 ++ leBytes 1 st ++ b.drop 3).length)
    (datagramHeader 1 seq ++ (b.take 2 ++ leBytes 1 st ++ b.drop 3))

theorem foldl_datagramSent (peer : Nat) (v6 : Bool) (seq st : Nat) : ∀ (l : List (List Byte)) (d : Dev),
    let e := l.foldl (datagramSent peer v6 seq st) d
    e.mem = d.mem ∧ e.rings = d.rings ∧ e.fld F.ETH_MGMT_CNT_answered = d.fld F.ETH_MGMT_CNT_answered ∧
      e.out = d.out ++ l.map (fun b => .ethernet "datagram" peer (datagramHeader 1 seq ++ (b.take 2 ++ leBytes 1 st ++ b.drop 3)))
  | [], d => ⟨rfl, rfl, rfl, (List.append_nil _).symm⟩
  | b :: l, d => by
    obtain ⟨hmem, hrings, hfld, hout⟩ := foldl_datagramSent peer v6 seq st l (datagramSent peer v6 seq st d b)
    refine ⟨hmem, hrings, hfld.trans (fld_ethSend_other _ _ _ _ _ (by decide)), hout.trans ?_⟩
    rw [List.map_cons, datagramSent, ethSend, emit]
    exact List.append_assoc ..

end Dev

end Sys2Proof.Machine
end

section
/-!
PROOFS. What each command of the Ethernet port leaves (15_host_ethernet_interface.md R531-R537, R550, R551).
-/

namespace Sys2Proof.Machine

open Sys2Proof.Claims

namespace Dev

/-! ### The replies of a frame that passes -/

theorem dispatch_arp {d : Dev} {f : Frame} {t : List Byte} (hf : f.proto = .arp t) (ht : t.length = 4) (ho : d.ownAddress t = true) :
    d.dispatch f = d.ethSend "ARP reply" 0 64 (f.src ++ d.eth.config.mac ++ t) := by
  simp [dispatch, hf, ht, ho]

theorem dispatch_neighbour {d : Dev} {f : Frame} {t : List Byte} (hf : f.proto = .neighbour t) (ht : t.length = 16)
    (ho : d.ownAddress t = true) : d.dispatch f = d.ethSend "neighbour advertisement" 0 90 (f.src ++ d.eth.config.mac ++ t) := by
  simp [dispatch, hf, ht, ho]

theorem dispatch_echo {d : Dev} {f : Frame} {t bs : List Byte} (hf : f.proto = .echo t bs) (ho : d.ownAddress t = true)
    (hl : bs.length ≤ 1472) (hr : (d.eth.echoAt.filter (fun x => d.now < x + 1000000000)).length < 1000) :
    .ethernet "echo reply" 0 (f.src ++ t ++ bs) ∈ (d.dispatch f).out := by
  rw [dispatch, hf]
  dsimp only
  rw [if_neg]
  · exact List.mem_append_right _ (List.mem_singleton.mpr rfl)
  · rw [ho, decide_eq_false (by omega), decide_eq_false (by omega)]
    decide

theorem mem_out_ethSend (d : Dev) (kind : String) (peer bytes : Nat) (body : List Byte) :
    .ethernet kind peer body ∈ (d.ethSend kind peer bytes body).out := List.mem_append_right _ (List.mem_singleton.mpr rfl)

/-! ### Rates -/

theorem qp_setQp (d : Dev) (q k : Nat) (x : QPair) : (d.setQp q x).qp k = if k = q then x else d.qp k := Sp.get_set _ _ _ _ _

theorem qp_setQp_same (d : Dev) (q : Nat) (x : QPair) : (d.setQp q x).qp q = x := by rw [qp_setQp, if_pos rfl]

theorem qp_setQp_other (d : Dev) {q k : Nat} (x : QPair) (h : k ≠ q) : (d.setQp q x).qp k = d.qp k := by rw [qp_setQp, if_neg h]

/-- The rate of a queue pair may rise (R537). -/
def RateDue (d : Dev) (q : Nat) : Prop :=
  d.qpRuns q = true ∧ (d.qp q).rate < 63 ∧ (d.qp q).rateAt + 1000 * d.fld F.ETH_CC_recovery ≤ d.now

theorem rateDue_iff (d : Dev) (q : Nat) : d.RateDue q ↔ (d.qpRuns q && decide ((d.qp q).rate < 63) &&
    decide ((d.qp q).rateAt + 1000 * d.fld F.ETH_CC_recovery ≤ d.now)) = true := by
  rw [Bool.and_eq_true, Bool.and_eq_true, decide_eq_true_eq, decide_eq_true_eq, and_assoc, RateDue]

/-- A queue pair's rate one place higher. -/
def rateRaised (d : Dev) (q : Nat) : Dev := d.setQp q { d.qp q with rate := (d.qp q).rate + 1, rateAt := d.now }

theorem rateRecovery_of_due {d : Dev} {q : Nat} (h : d.RateDue q) : d.rateRecovery q = d.rateRaised q := if_pos ((rateDue_iff d q).mp h)

theorem rateRecovery_of_not_due {d : Dev} {q : Nat} (h : ¬ d.RateDue q) : d.rateRecovery q = d :=
  if_neg fun hd => h ((rateDue_iff d q).mpr hd)

/-- A congestion notification received: the rate halves. -/
def cnpTaken (d : Dev) (q : Nat) : Dev :=
  (d.bump F.ETH_CNP_CNT_received 0 0 1).onQp q (fun x => { x with rate := (x.rate + 1) / 2 - 1, rateAt := d.now })

theorem fld_cnpTaken (d : Dev) (q : Nat) :
    (d.cnpTaken q).fld F.ETH_CNP_CNT_received = satAdd 32 (d.fld F.ETH_CNP_CNT_received) 1 := by
  have hregs : (d.cnpTaken q).regs = (d.bump F.ETH_CNP_CNT_received 0 0 1).regs := by rw [cnpTaken]; rfl
  rw [fld_of_regs hregs, fld_bump (x := F.ETH_CNP_CNT_received) d (by decide) (by decide)]
  rfl

theorem qp_bump (d : Dev) (x : Field) (w j k n : Nat) : (d.bump x w j k).qp n = d.qp n := rfl

theorem qp_cnpTaken_other (d : Dev) {q k : Nat} (h : k ≠ q) : (d.cnpTaken q).qp k = d.qp k := by
  rw [cnpTaken, onQp, qp_setQp_other _ _ h, qp_bump]

theorem cnpReceive_of_runs {d : Dev} {q : Nat} (h : d.qpRuns q = true) (hcc : d.isSet F.ETH_CC_cc_en = true) :
    d.cnpReceive q = d.cnpTaken q := if_neg (by rw [h, hcc]; decide)

theorem cnpReceive_of_off {d : Dev} {q : Nat} (h : d.qpRuns q = false ∨ d.isSet F.ETH_CC_cc_en = false) : d.cnpReceive q = d := by
  refine if_pos ?_
  rcases h with h | h
  · rw [h]; rfl
  · rw [h, Bool.not_false, Bool.or_true]

/-! ### LLDP -/

/-- An LLDPDU is due (R533). -/
def LldpDue (d : Dev) : Prop :=
  d.eth.up = true ∧ d.isSet F.ETH_CTRL_lldp_en = true ∧ ∀ t, d.eth.lldpAt = some t → t + 30000000000 ≤ d.now

/-- The LLDPDU sent and its time kept. -/
def lldpSent (d : Dev) : Dev :=
  (d.onEth (fun e => { e with lldpAt := some d.now })).ethSend "LLDPDU" 0 64
    (d.eth.config.mac ++ leBytes 2 120 ++ [0x5A, 0x47, 0x2D, 0x36, 0x34, 0x30])

theorem lldpDue_iff (d : Dev) : d.LldpDue ↔ (d.eth.up && d.isSet F.ETH_CTRL_lldp_en &&
    (match d.eth.lldpAt with | none => true | some t => decide (t + 30000000000 ≤ d.now))) = true := by
  unfold LldpDue
  cases d.eth.lldpAt <;> simp [and_assoc]

theorem lldpSend_of_due {d : Dev} (h : d.LldpDue) : d.lldpSend = d.lldpSent := if_pos ((lldpDue_iff d).mp h)

theorem lldpSend_of_not_due {d : Dev} (h : ¬ d.LldpDue) : d.lldpSend = d := if_neg fun hd => h ((lldpDue_iff d).mpr hd)

theorem lldpSent_out (d : Dev) (h : d.out = []) : ∃ bs, d.lldpSent.out = [.ethernet "LLDPDU" 0 bs] ∧
    bs.take d.eth.config.mac.length = d.eth.config.mac := by
  refine ⟨_, congrArg (· ++ _) h, ?_⟩
  rw [List.append_assoc, List.take_left']
  rfl

/-! ### Management datagrams -/

theorem length_ofBytes (bs : List Byte) : (Msg.ofBytes bs).length = bodyLength bs := rfl

/-- A datagram that the port does not look at. -/
def MgmtOff (d : Dev) : Prop := d.eth.up = false ∨ d.boot.runs = .none ∨ d.isSet F.ETH_CTRL_mgmt_en = false

/-- A datagram in its layout (R550). -/
def MgmtGood (payload : List Byte) : Prop :=
  field payload 0 2 = 0x7E01 ∧ field payload 2 1 < 3 ∧ 24 ≤ payload.length ∧ payload.length = 24 + bodyLength (payload.drop 8)

variable {d : Dev} {peer : Nat} {v6 : Bool} {port : Nat} {payload : List Byte}

theorem managementDatagram_of_off (h : d.MgmtOff) : d.managementDatagram peer v6 port payload = d := by
  refine if_pos ?_
  rw [Bool.not_eq_true', Bool.not_eq_true']
  exact h

theorem managementDatagram_of_on (h : ¬ d.MgmtOff) : ¬ ((!d.eth.up) = true ∨ d.boot.runs = .none ∨ (!d.isSet F.ETH_CTRL_mgmt_en) = true) := by
  rw [Bool.not_eq_true', Bool.not_eq_true']
  exact h

theorem managementDatagram_of_port (h : ¬ d.MgmtOff) (hp : port ≠ d.fld F.ETH_CTRL_mgmt_port) :
    d.managementDatagram peer v6 port payload = d.ethDrop := (if_neg (managementDatagram_of_on h)).trans (if_pos hp)

theorem not_mgmtGood_iff : ¬ MgmtGood payload ↔ field payload 0 2 ≠ 0x7E01 ∨ 3 ≤ field payload 2 1 ∨ payload.length < 24 ∨
    payload.length ≠ 24 + (Msg.ofBytes (payload.drop 8)).length := by
  rw [length_ofBytes, MgmtGood]
  omega

theorem managementDatagram_of_bad (h : ¬ d.MgmtOff) (hp : port = d.fld F.ETH_CTRL_mgmt_port) (hg : ¬ MgmtGood payload) :
    d.managementDatagram peer v6 port payload = d.datagramDrop :=
  (if_neg (managementDatagram_of_on h)).trans ((if_neg (not_not.mpr hp)).trans (if_pos (not_mgmtGood_iff.mp hg)))

theorem managementDatagram_of_kind (h : ¬ d.MgmtOff) (hp : port = d.fld F.ETH_CTRL_mgmt_port) (hg : MgmtGood payload)
    (hk : field payload 2 1 ≠ 0) : d.managementDatagram peer v6 port payload = d :=
  (if_neg (managementDatagram_of_on h)).trans ((if_neg (not_not.mpr hp)).trans
    ((if_neg fun hb => not_mgmtGood_iff.mpr hb hg).trans (if_pos hk)))

theorem managementDatagram_of_many (h : ¬ d.MgmtOff) (hp : port = d.fld F.ETH_CTRL_mgmt_port) (hg : MgmtGood payload)
    (hk : field payload 2 1 = 0) (hr : 1000 ≤ (d.eth.mgmtAt.filter (fun t => d.now < t + 1000000000)).length) :
    d.managementDatagram peer v6 port payload = d.datagramDrop.raise F.ETH_ERR_STATUS_mgmt_drop :=
  (if_neg (managementDatagram_of_on h)).trans ((if_neg (not_not.mpr hp)).trans
    ((if_neg fun hb => not_mgmtGood_iff.mpr hb hg).trans ((if_neg (not_not.mpr hk)).trans (if_pos hr))))

/-- A command in a datagram counted. -/
def datagramTaken (d : Dev) : Dev :=
  (d.onEth (fun e => { e with mgmtAt := d.now :: d.eth.mgmtAt.filter (fun t => d.now < t + 1000000000) })).bump
    F.ETH_MGMT_CNT_answered 0 0 1

theorem managementDatagram_of_answered (h : ¬ d.MgmtOff) (hp : port = d.fld F.ETH_CTRL_mgmt_port) (hg : MgmtGood payload)
    (hk : field payload 2 1 = 0) (hr : (d.eth.mgmtAt.filter (fun t => d.now < t + 1000000000)).length < 1000) :
    ∃ st body, d.managementDatagram peer v6 port payload = (fragments (Msg.ofBytes (payload.drop 8)) 0 body).foldl
      (datagramSent peer v6 (field payload 4 4) st) d.datagramTaken := by
  obtain ⟨st, body, hj⟩ := judged_observer d.datagramTaken (w := { identity := 0, privilege := 0, reply := none }) rfl
    (Msg.ofBytes (payload.drop 8))
  refine ⟨st, body, (if_neg (managementDatagram_of_on h)).trans ((if_neg (not_not.mpr hp)).trans
    ((if_neg fun hb => not_mgmtGood_iff.mpr hb hg).trans ((if_neg (not_not.mpr hk)).trans ((if_neg (Nat.not_le.mpr hr)).trans ?_))))⟩
  unfold datagramTaken at hj ⊢
  dsimp only
  rw [hj]
  rfl

end Dev

end Sys2Proof.Machine

namespace Sys2Proof.Proofs

open Sys2Proof.Machine Sys2Proof.Claims

/-- Settles O57: each command by the branch of the port's function that its case takes. -/
theorem ethernetPort : Obligations.EthernetPort := by
  intro s hawake d same counted
  have hout : d.out = [] := rfl
  have hkeep {i : Instr} {e : Dev} (hi : exec i s = .next (left s e)) (he : e = d) : exec i s = .next same := by rw [hi, he]
  have hcount (e : Dev) {f : Field} (h : f.lo ≤ f.hi) (h64 : f.hi < 64) (k : Nat) (he : e.fld f = d.fld f) :
      counted (e.bump f 0 0 k) f k := (Dev.fld_bump e h h64 0 0 k).trans (by rw [he]; rfl)
  refine ⟨fun f a b hup => ⟨hkeep (State.apply_awake hawake _ _) ?_, hkeep (State.apply_awake hawake _ _) ?_⟩, fun f hup hp => ?_,
    fun f hup hp => ?_, fun lanes => ⟨fun hup hl => ?_, fun hoff => hkeep (State.apply_awake hawake _ _) ?_⟩, ?_,
    fun pause release hup => ?_, fun q => ?_, ?_, fun peer v6 port payload => ?_⟩
  · exact if_pos (by rw [hup]; rfl)
  · exact if_pos (by rw [hup]; rfl)
  · refine ⟨_, State.apply_awake hawake _ _, ?_⟩
    rw [Dev.frameReceive_of_not_passes hup hp]
    have hregs : (d.fecNoted f).eth = d.eth ∧ (d.fecNoted f).out = d.out := by rw [d.fecNoted_regsOnly f]; exact ⟨rfl, rfl⟩
    exact ⟨hregs.1, hregs.2.trans hout,
      hcount _ (f := F.ETH_DROP_CNT_frames) (by decide) (by decide) 1 (Dev.fld_congr (Dev.rd_fecNoted_other d f (by decide) (by decide))),
      (Dev.fld_bump_other _ 1 (by decide)).trans (Dev.fld_fecNoted d f),
      (Dev.fld_bump_other _ 1 (by decide)).trans (Dev.fld_congr (Dev.rd_fecNoted_other d f (by decide) (by decide)))⟩
  · refine ⟨_, State.apply_awake hawake _ _, ?_⟩
    rw [Dev.frameReceive_of_passes hup hp]
    obtain ⟨hnow, hconfig, hecho, hown⟩ := d.buffered_reads f
    refine ⟨(Dev.fld_dispatch_rx _ f).trans (d.fld_buffered f), fun t hf ht ho => ?_, fun t hf ht ho => ?_, fun t bs hf ho hl hr => ?_,
      fun q ce sup hf => ?_, fun hf => ?_⟩
    · rw [Dev.dispatch_arp hf ht ((hown t).trans ho), hconfig]
      exact Dev.mem_out_ethSend ..
    · rw [Dev.dispatch_neighbour hf ht ((hown t).trans ho), hconfig]
      exact Dev.mem_out_ethSend ..
    · refine Dev.dispatch_echo hf ((hown t).trans ho) hl ?_
      rw [hecho, hnow]
      exact hr
    · have hd : (d.buffered f).dispatch f = (d.buffered f).raise F.ETH_ERR_STATUS_icrc := by rw [Dev.dispatch, hf]; rfl
      rw [hd]
      exact Dev.isSet_raise _ (by decide) (by decide) 0 0
    · have hd : (d.buffered f).dispatch f = (d.buffered f).ethDrop := by rw [Dev.dispatch, hf]
      rw [hd]
      exact hcount _ (f := F.ETH_DROP_CNT_frames) (by decide) (by decide) 1
        (Dev.fld_congr (Dev.rd_buffered_other d f (by decide) (by decide) (by decide) (by decide)))
  · have hlanes : lanes.toNat % 256 = lanes.toNat := Nat.mod_eq_of_lt lanes.isLt
    have hbad : lanes.toNat % 256 ≠ 0xFF := fun h => hl (BitVec.eq_of_toNat_eq (hlanes ▸ h))
    refine ⟨_, State.apply_awake hawake _ _, ?_⟩
    rw [show (found s).ethLinkDown lanes.toNat = _ from if_pos ⟨hup, hbad⟩]
    exact ⟨rfl, hlanes, Dev.isSet_raise _ (by decide) (by decide) 0 0, rfl⟩
  · refine if_neg ?_
    rintro ⟨hup, hbad⟩
    rcases hoff with hdown | rfl
    · rw [hdown] at hup
      cases hup
    · exact hbad rfl
  · refine ⟨_, State.apply_awake hawake _ _, ?_⟩
    by_cases hruns : d.boot.runs = .prois
    · rw [show (found s).ethLinkUp = _ from if_pos hruns, Dev.greet_eth]
      exact ⟨rfl, rfl, rfl, fun _ => rfl, fun hn => absurd hruns hn⟩
    · rw [show (found s).ethLinkUp = _ from if_neg hruns]
      exact ⟨rfl, rfl, rfl, fun h => absurd h hruns, fun _ => rfl⟩
  · refine ⟨_, State.apply_awake hawake _ _, ?_⟩
    have hrun : (found s).pfcFrame pause.toNat release.toNat = _ := if_neg (by rw [hup]; decide)
    rw [hrun]
    refine ⟨rfl, fun p hp => (Dev.bit_pfc (d.fld F.ETH_PFC_pfc_en) pause.toNat release.toNat p (List.range 8) d.eth.paused
      List.nodup_range).trans ?_⟩
    rw [if_pos (List.mem_range.mpr hp)]
    rfl
  · intro x
    have hrate : exec (.rateRecovery q) s = .next (left s (d.rateRecovery q)) := State.apply_awake hawake _ _
    have hcnp : exec (.cnpReceive q) s = .next (left s (d.cnpReceive q)) := State.apply_awake hawake _ _
    refine ⟨fun hruns hcc => ⟨d.cnpTaken q, hcnp.trans (by rw [Dev.cnpReceive_of_runs hruns hcc]), Dev.qp_setQp_same _ _ _,
        d.fld_cnpTaken q, fun k hk => d.qp_cnpTaken_other hk⟩,
      fun hoff => hkeep hcnp (Dev.cnpReceive_of_off hoff),
      fun hruns hlow hat => ⟨d.rateRaised q, hrate.trans (by rw [Dev.rateRecovery_of_due ⟨hruns, hlow, hat⟩]), Dev.qp_setQp_same _ _ _, rfl⟩,
      fun hoff => hkeep hrate (Dev.rateRecovery_of_not_due ?_)⟩
    rintro ⟨hruns, hlow, hat⟩
    rcases hoff with h | h | h
    · rw [h] at hruns
      cases hruns
    · exact absurd hlow (Nat.not_lt.mpr h)
    · exact absurd hat (Nat.not_le.mpr h)
  · have hsend : exec .lldpSend s = .next (left s d.lldpSend) := State.apply_awake hawake _ _
    refine ⟨fun hn => hkeep hsend (Dev.lldpSend_of_not_due hn), fun h => ⟨d.lldpSent, ?_, rfl, d.lldpSent_out hout⟩⟩
    rw [hsend, Dev.lldpSend_of_due h]
  · intro go kind off good recent
    have hgo {e : Dev} (h : d.managementDatagram peer v6 port.toNat payload = e) : go e := by
      rw [← h]
      exact State.apply_awake hawake _ _
    refine ⟨fun h => hgo (Dev.managementDatagram_of_off h), fun h hp => ⟨_, hgo (Dev.managementDatagram_of_port h hp), ?_⟩, fun h hp =>
      ⟨fun hg => ⟨_, hgo (Dev.managementDatagram_of_bad h hp hg), ?_⟩, fun hg hk => hgo (Dev.managementDatagram_of_kind h hp hg hk),
        fun hg hk hr => ⟨_, hgo (Dev.managementDatagram_of_many h hp hg hk hr), ?_⟩, fun hg hk hr => ?_⟩⟩
    · exact ⟨hcount d (f := F.ETH_DROP_CNT_frames) (by decide) (by decide) 1 rfl, hout⟩
    · exact ⟨hcount d (f := F.ETH_MGMT_CNT_dropped) (by decide) (by decide) 1 rfl, hout⟩
    · exact ⟨(Dev.fld_raise_other _ (by decide)).trans (hcount d (f := F.ETH_MGMT_CNT_dropped) (by decide) (by decide) 1 rfl),
        Dev.isSet_raise _ (by decide) (by decide) 0 0, hout⟩
    · obtain ⟨st, body, hrun⟩ := Dev.managementDatagram_of_answered (peer := peer) (v6 := v6) h hp hg hk hr
      obtain ⟨hmem, hrings, hfld, houts⟩ := Dev.foldl_datagramSent peer v6 (field payload 4 4) st
        (Dev.fragments (Msg.ofBytes (payload.drop 8)) 0 body) d.datagramTaken
      refine ⟨_, hgo hrun, hfld.trans (hcount _ (f := F.ETH_MGMT_CNT_answered) (by decide) (by decide) 1 rfl), hmem, hrings, ?_, ?_⟩
      · rw [houts]
        exact List.append_ne_nil_of_right_ne_nil _ (fun hn => Dev.fragments_ne_nil _ _ _ (List.map_eq_nil_iff.mp hn))
      · intro o ho
        rw [houts] at ho
        rcases List.mem_append.mp ho with hin | hin
        · exact absurd hin (by rw [show d.datagramTaken.out = [] from rfl]; exact List.not_mem_nil)
        · obtain ⟨b, -, hb⟩ := List.mem_map.mp hin
          exact ⟨_, hb.symm⟩

end Sys2Proof.Proofs
end

section
/-!
PROOFS. Traffic of the Rhanak ports: what packets sent, refused or lost leave unchanged, and the states of the ports
(13_rhanak_links_and_topology.md R466-R468, R480, R483, R488, R493).
-/

namespace Sys2Proof.Machine

open Sys2Proof.Claims

/-- What a port has received: nothing that the device sends changes it. -/
def RhkPort.incoming (x : RhkPort) : List Packet × List Byte × Nat × Nat × Nat × Option Announce :=
  (x.arrived, x.partialBytes, x.rxSeq, x.rxFails, x.goodAt, x.announce)

namespace Dev

/-- No register that packets sent or lost write: the byte counts of the ports, the error bits of the link dies and their capture. -/
def OffTraffic (k : Nat) : Prop :=
  ∀ n, (∀ i < 4, k ≠ Reg.RHK_PORT_TX_BYTES.key n i) ∧ k ≠ Reg.RHK_ERR_INFO.key n 0 ∧ k ≠ Reg.RHK_ERR_STATUS.key n 0

theorem offTraffic_status (n i : Nat) : OffTraffic (Reg.RHK_PORT_STATUS.key n i) := fun m => by
  refine ⟨fun k hk => ?_, ?_, ?_⟩ <;> simp only [Reg.key, Reg.row] <;> omega

theorem offTraffic_ctrl (n i : Nat) : OffTraffic (Reg.RHK_PORT_CTRL.key n i) := fun m => by
  refine ⟨fun k hk => ?_, ?_, ?_⟩ <;> simp only [Reg.key, Reg.row] <;> omega

theorem offTraffic_rhkCtrl (n : Nat) : OffTraffic (Reg.RHK_CTRL.key n 0) := fun m => by
  refine ⟨fun k hk => ?_, ?_, ?_⟩ <;> simp only [Reg.key, Reg.row] <;> omega

/-- The device `e` is `d` but for packets that left, waited or were lost, and the error bits that they raised. -/
structure Traffic (d e : Dev) : Prop where
  rd : ∀ (r : Reg) (w j : Nat), OffTraffic (r.key w j) → e.rd r w j = d.rd r w j
  err : ∀ (x : Field) (n : Nat), x.reg = .RHK_ERR_STATUS → d.isSet x n = true → e.isSet x n = true
  incoming : ∀ k, (e.port k).incoming = (d.port k).incoming
  out : ∀ o ∈ d.out, o ∈ e.out

namespace Traffic

theorem refl (d : Dev) : Traffic d d := ⟨fun _ _ _ _ => rfl, fun _ _ _ h => h, fun _ => rfl, fun _ h => h⟩

theorem trans {a b c : Dev} (h : Traffic a b) (k : Traffic b c) : Traffic a c :=
  ⟨fun r w j ho => (k.rd r w j ho).trans (h.rd r w j ho), fun x n hx hs => k.err x n hx (h.err x n hx hs),
    fun p => (k.incoming p).trans (h.incoming p), fun o ho => k.out o (h.out o ho)⟩

theorem foldl {β : Type} {f : Dev → β → Dev} (h : ∀ d x, Traffic d (f d x)) : ∀ (l : List β) (d : Dev), Traffic d (l.foldl f d)
  | [], d => refl d
  | x :: l, d => (h d x).trans (foldl h l (f d x))

theorem ite {c : Prop} [Decidable c] {d x y : Dev} (h : Traffic d x) (k : Traffic d y) : Traffic d (if c then x else y) := by
  split
  · exact h
  · exact k

theorem of_same {d e : Dev} (hr : e.regs = d.regs) (hp : ∀ k, (e.port k).incoming = (d.port k).incoming) (ho : ∀ o ∈ d.out, o ∈ e.out) :
    Traffic d e :=
  ⟨fun r w j _ => by rw [Dev.rd, hr, Dev.rd], fun x n _ hs => by rw [isSet_eq_fld, fld_of_regs hr]; exact hs, hp, ho⟩

theorem emit (d : Dev) (o : Out) : Traffic d (d.emit o) := of_same rfl (fun _ => rfl) fun _ h => List.mem_append_left _ h

theorem of_regsOnly {d e : Dev} (h : RegsOnly d e) (hr : ∀ (r : Reg) (w j : Nat), OffTraffic (r.key w j) → e.rd r w j = d.rd r w j)
    (he : ∀ (x : Field) (n : Nat), x.reg = .RHK_ERR_STATUS → d.isSet x n = true → e.isSet x n = true) : Traffic d e := by
  have hrhk : e.rhk = d.rhk := by rw [h]
  have hout : e.out = d.out := by rw [h]
  exact ⟨hr, he, fun k => by rw [port, hrhk, port], fun o ho => by rw [hout]; exact ho⟩

theorem setPort (d : Dev) (p : Nat) (x : RhkPort) (h : x.incoming = (d.port p).incoming) : Traffic d (d.setPort p x) :=
  of_same rfl (fun k => by
    by_cases hk : k = p
    · rw [hk, port_setPort, h]
    · rw [port_setPort_other d x hk]) fun _ h => h

theorem pfld {d e : Dev} (h : Traffic d e) {x : Field} (hx : x.reg = .RHK_PORT_STATUS ∨ x.reg = .RHK_PORT_CTRL) (p : Nat) :
    e.pfld x p = d.pfld x p := by
  refine fld_congr (h.rd _ _ _ ?_)
  rcases hx with hx | hx
  · rw [hx]; exact offTraffic_status _ _
  · rw [hx]; exact offTraffic_ctrl _ _

theorem state {d e : Dev} (h : Traffic d e) (p : Nat) : e.pfld F.RHK_PORT_STATUS_state p = d.pfld F.RHK_PORT_STATUS_state p :=
  h.pfld (.inl rfl) p

theorem portUp {d e : Dev} (h : Traffic d e) (p : Nat) : e.portUp p = d.portUp p := by rw [Dev.portUp, Dev.portUp, h.state]

end Traffic

/-- A bit of the error registers stays set where another one is raised. -/
theorem isSet_raise_err {d : Dev} {x y : Field} (hy : y.reg = .RHK_ERR_STATUS) (hx : x.reg = .RHK_ERR_STATUS) (hl : x.lo = x.hi) (h64 : x.hi < 64)
    (m : Nat) {n : Nat} (h : d.isSet y n = true) : (d.raise x m).isSet y n = true := by
  by_cases hmn : n = m
  · subst hmn
    exact isSet_raise_of_isSet d (hy.trans hx.symm) hl h64 n 0 h
  · refine (isSet_eq_of_rd (rd_raise_other d x ?_)).trans h
    rw [hx, hy]
    simp only [Reg.key, Reg.row]
    omega

theorem Traffic.raise (d : Dev) {x : Field} (hx : x.reg = .RHK_ERR_STATUS) (hl : x.lo = x.hi) (h64 : x.hi < 64) (n : Nat) :
    Traffic d (d.raise x n) :=
  .of_regsOnly (.raise d x n 0) (fun _ _ _ ho => rd_raise_other d x (by rw [hx]; exact (ho n).2.2))
    fun _ _ hy hs => isSet_raise_err hy hx hl h64 n hs

theorem traffic_rhkCapture (d : Dev) (die dest src port ctx code : Nat) : Traffic d (d.rhkCapture die dest src port ctx code) := by
  refine .ite (.of_regsOnly (.wr d .RHK_ERR_INFO die 0 _) (fun _ _ _ ho => rd_wr_other d _ (ho die).2.1) fun x n hx hs => ?_) (.refl d)
  refine (isSet_eq_of_rd (rd_wr_other d _ ?_)).trans hs
  rw [hx]
  simp only [Reg.key, Reg.row]
  omega

theorem traffic_rhkError (d : Dev) {x : Field} (hx : x.reg = .RHK_ERR_STATUS) (hl : x.lo = x.hi) (h64 : x.hi < 64) (entry : Option Nat)
    (p : Packet) (code : Nat) : Traffic d (d.rhkError x entry p code) :=
  (traffic_rhkCapture d _ _ _ _ _ _).trans (.raise _ hx hl h64 _)

/-- The bit of an error that has been noted is set. -/
theorem isSet_rhkError (d : Dev) {x : Field} (h : x.lo ≤ x.hi) (h64 : x.hi < 64) (p : Nat) (pkt : Packet) (code : Nat) :
    (d.rhkError x (some p) pkt code).isSet x (p / 4) = true := isSet_raise _ h h64 (p / 4) 0

/-! ### Packets sent -/

theorem traffic_sendFlit (d : Dev) (p type : Nat) (payload : List Byte) : Traffic d (d.sendFlit p type payload) :=
  (Traffic.setPort d p { d.port p with
    txSeq := ((d.port p).txSeq + 1) % 4096, sent := (d.port p).sent ++ [((d.port p).txSeq, type, payload)] } rfl).trans (.emit _ _)

theorem traffic_txBytes (d : Dev) (p k : Nat) : Traffic d (d.bumpPort F.RHK_PORT_TX_BYTES_bytes p k) := by
  have hp : p % 4 < 4 := Nat.mod_lt _ (by decide)
  refine .of_regsOnly (.bump d F.RHK_PORT_TX_BYTES_bytes _ _ _) (fun _ _ _ ho => rd_bump_other d _ _ ((ho (p / 4)).1 _ hp)) fun x n hx hs => ?_
  refine (isSet_eq_of_rd (rd_bump_other d _ _ ?_)).trans hs
  rw [hx]
  simp only [F.RHK_PORT_TX_BYTES_bytes, Reg.key, Reg.row]
  omega

/-- The port that a packet put on its link leaves, before its flits. -/
def sending (x : RhkPort) (pkt : Packet) (owed : Option (Nat × Nat)) : RhkPort :=
  let seq := Sp.get (fun _ => 0) x.hop pkt.cls
  let pkt := if pkt.rerouted then pkt else { pkt with cur := seq }
  { x with
    hop := Sp.set (fun _ => 0) x.hop pkt.cls ((seq + 1) % 2 ^ 24)
    used := Sp.set (fun _ => 0) x.used pkt.cls (Sp.get (fun _ => 0) x.used pkt.cls + pkt.credits)
    hold := x.hold ++ [{ seq, pkt, owed }] }

/-- The packet as its link numbers it. -/
def numbered (x : RhkPort) (pkt : Packet) : Packet := if pkt.rerouted then pkt else { pkt with cur := Sp.get (fun _ => 0) x.hop pkt.cls }

theorem transmit_eq (d : Dev) (p : Nat) (pkt : Packet) (owed : Option (Nat × Nat)) : d.transmit p pkt owed =
    (payloads (numbered (d.port p) pkt).toBytes).foldl (fun d b => d.sendFlit p 1 b)
      ((d.setPort p (sending (d.port p) pkt owed)).bumpPort F.RHK_PORT_TX_BYTES_bytes p (numbered (d.port p) pkt).size) := rfl

theorem traffic_transmit (d : Dev) (p : Nat) (pkt : Packet) (owed : Option (Nat × Nat)) : Traffic d (d.transmit p pkt owed) := by
  rw [transmit_eq]
  exact ((Traffic.setPort d p (sending (d.port p) pkt owed) rfl).trans (traffic_txBytes _ p _)).trans
    (.foldl (fun d b => traffic_sendFlit d p 1 b) _ _)

theorem traffic_give (d : Dev) (p : Nat) (pkt : Packet) (owed : Option (Nat × Nat)) : Traffic d (d.give p pkt owed) :=
  .ite (traffic_transmit d p pkt owed) (.setPort d p { d.port p with waiting := (d.port p).waiting ++ [(pkt, owed)] } rfl)

theorem traffic_leave (d : Dev) (entry : Option Nat) (p : Nat) (pkt : Packet) (owed : Option (Nat × Nat)) :
    Traffic d (d.leave entry p pkt owed).2 := by
  unfold leave
  split
  · exact traffic_rhkError d rfl rfl (by decide) _ _ _
  · exact traffic_give d p _ owed

theorem traffic_answerPacket (d : Dev) (entry : Option Nat) (req : Packet) (code : Nat) (poison : Bool) (data : List Byte) :
    Traffic d (d.answerPacket entry req code poison data) := by
  unfold answerPacket
  dsimp only
  split
  · exact .ite (traffic_leave d _ _ _ _) (.refl d)
  · split
    · exact traffic_leave d _ _ _ _
    · exact .refl d

theorem traffic_refuse (d : Dev) (entry : Option Nat) (req : Packet) (code : Nat) : Traffic d (d.refuse entry req code) :=
  traffic_answerPacket d entry req code false _

/-- A request that has been answered waits no more. -/
def notWaiting (d : Dev) (w : Waiting) : Dev := { d with rhk := { d.rhk with waiting := d.rhk.waiting.filter (fun x => x ≠ w) } }

theorem traffic_notWaiting (d : Dev) (w : Waiting) : Traffic d (d.notWaiting w) := .of_same rfl (fun _ => rfl) fun _ h => h

theorem traffic_failPacket (d : Dev) (p : Nat) (h : Held) : Traffic d (d.failPacket p h) := by
  have he : Traffic d (d.rhkError F.RHK_ERR_STATUS_no_route (some p) h.pkt 6) := traffic_rhkError d rfl rfl (by decide) _ _ _
  unfold failPacket
  dsimp only
  split
  · exact traffic_give d _ _ _
  · split
    · split
      · split
        · exact he
        · rename_i w hw
          exact he.trans ((traffic_notWaiting _ w).trans (.emit _ _))
      · exact he.trans (traffic_refuse _ none h.pkt 6)
    · exact .refl d

theorem port_rhkError (d : Dev) (x : Field) (entry : Option Nat) (p : Packet) (code k : Nat) :
    (d.rhkError x entry p code).port k = d.port k := by
  have hcap (e : Dev) (n a b c i j : Nat) : RegsOnly e (e.rhkCapture n a b c i j) := .ite (.wr e .RHK_ERR_INFO n 0 _) (.refl e)
  have h : RegsOnly d (d.rhkError x entry p code) := (RegsOnly.raise _ x _ 0).after (hcap d _ _ _ _ _ _)
  exact port_congr (by rw [h]) k

/-! ### Other ports than the one a packet leaves on -/

theorem port_sendFlit_other (d : Dev) {p k : Nat} (type : Nat) (payload : List Byte) (h : k ≠ p) : (d.sendFlit p type payload).port k = d.port k :=
  port_setPort_other d _ h

theorem port_give_other (d : Dev) {p k : Nat} (pkt : Packet) (owed : Option (Nat × Nat)) (h : k ≠ p) : (d.give p pkt owed).port k = d.port k := by
  have hflits : ∀ (l : List (List Byte)) (d : Dev), (l.foldl (fun d b => d.sendFlit p 1 b) d).port k = d.port k := by
    intro l
    induction l with
    | nil => exact fun _ => rfl
    | cons b l ih => intro d; rw [List.foldl_cons, ih, port_sendFlit_other d 1 b h]
  unfold give
  dsimp only
  split
  · rw [transmit_eq, hflits]
    exact port_setPort_other d _ h
  · exact port_setPort_other d _ h

theorem port_leave_other (d : Dev) (entry : Option Nat) {p k : Nat} (pkt : Packet) (owed : Option (Nat × Nat)) (h : k ≠ p) :
    (d.leave entry p pkt owed).2.port k = d.port k := by
  unfold leave
  split
  · exact port_rhkError d _ _ _ _ k
  · exact port_give_other d _ owed h

/-- A port that a packet is routed to is up and not in standby. -/
theorem state_of_route {d : Dev} {entry : Option Nat} {dest q : Nat} (h : d.route entry dest = .port q) : d.pfld F.RHK_PORT_STATUS_state q = 2 := by
  have husable : d.portUsable q = true := by
    have hegress : d.egress entry dest = .port q := by
      unfold route at h
      split at h
      · rename_i k hk
        split at h
        · cases h
        · rw [hk, ← h]
      · exact h
    unfold egress at hegress
    dsimp only at hegress
    split at hegress
    · cases hegress
    · split at hegress
      · cases hegress
      · split at hegress
        · split at hegress
          · cases hegress
          · split at hegress
            · rename_i hu
              cases hegress
              exact hu
            · cases hegress
        · split at hegress
          · cases hegress
          · split at hegress
            · rename_i hu
              cases hegress
              exact hu
            · split at hegress
              · rename_i hu
                cases hegress
                exact (Bool.and_eq_true _ _ ▸ hu).2
              · cases hegress
  unfold portUsable at husable
  rw [Bool.and_eq_true, Bool.and_eq_true, beq_iff_eq] at husable
  exact husable.1.1

end Dev

end Sys2Proof.Machine
end

section
/-!
PROOFS. A port that goes down, trains or is retried, and a request that waits too long (13_rhanak_links_and_topology.md R466-R468, R483,
R488, R493).
-/

namespace Sys2Proof.Machine

open Sys2Proof.Claims

namespace Dev

/-! ### Fail-over -/

theorem port_answerPacket_idle {d : Dev} {p : Nat} (hst : d.pfld F.RHK_PORT_STATUS_state p ≠ 2) (req : Packet) (code : Nat) (poison : Bool)
    (data : List Byte) : (d.answerPacket none req code poison data).port p = d.port p := by
  unfold answerPacket
  dsimp only
  split
  · rename_i q hq
    exact port_leave_other d _ _ _ fun h => hst (h ▸ state_of_route hq)
  · rfl

/-- A packet that its port has lost never comes back to it. -/
theorem port_failPacket_idle {d : Dev} {p : Nat} (hst : d.pfld F.RHK_PORT_STATUS_state p ≠ 2) (h : Held) :
    (d.failPacket p h).port p = d.port p := by
  have he := port_rhkError d F.RHK_ERR_STATUS_no_route (some p) h.pkt 6 p
  unfold failPacket
  dsimp only
  split
  · rename_i halt
    have hne := (Bool.and_eq_true _ _ ▸ halt).2
    exact port_give_other d _ _ fun heq => by rw [bne_iff_ne] at hne; exact hne heq.symm
  · split
    · split
      · split
        · exact he
        · exact he
      · refine (port_answerPacket_idle ?_ h.pkt 6 false _).trans he
        rw [(traffic_rhkError d rfl rfl (by decide) _ _ _).state]
        exact hst
    · rfl

/-- A packet that waited on a port that has gone down is routed anew. -/
def rerouted (d : Dev) (w : Packet × Option (Nat × Nat)) : Dev :=
  match d.route none w.1.dest with
  | .port q => d.give q w.1 w.2
  | _ => d

theorem traffic_rerouted (d : Dev) (w : Packet × Option (Nat × Nat)) : Traffic d (d.rerouted w) := by
  unfold rerouted
  split
  · exact traffic_give d _ _ _
  · exact .refl d

theorem port_rerouted_idle {d : Dev} {p : Nat} (hst : d.pfld F.RHK_PORT_STATUS_state p ≠ 2) (w : Packet × Option (Nat × Nat)) :
    (d.rerouted w).port p = d.port p := by
  unfold rerouted
  split
  · rename_i q hq
    exact port_give_other d _ _ fun h => hst (h ▸ state_of_route hq)
  · rfl

theorem port_foldl_idle {β : Type} {f : Dev → β → Dev} {p : Nat} (ht : ∀ d x, Traffic d (f d x))
    (hi : ∀ d x, d.pfld F.RHK_PORT_STATUS_state p ≠ 2 → (f d x).port p = d.port p) :
    ∀ (l : List β) (d : Dev), d.pfld F.RHK_PORT_STATUS_state p ≠ 2 → (l.foldl f d).port p = d.port p
  | [], _, _ => rfl
  | x :: l, d, hst => by
    rw [List.foldl_cons, port_foldl_idle ht hi l (f d x) (by rw [(ht d x).state]; exact hst), hi d x hst]

/-- A port that fails over, before its packets are sent elsewhere: noted, and empty. -/
def failNoted (d : Dev) (p : Nat) : Dev :=
  let x := d.port p
  let d := if (d.primaryDir p).isSome then d.setPfld F.RHK_PORT_CTRL_ring_use p 0 else d
  let first : Packet := (x.hold.head?.map Held.pkt).getD {}
  let d := (d.rhkCapture (p / 4) first.dest first.src p first.ctx 0).raise F.RHK_ERR_STATUS_failover (p / 4)
  let d := d.bumpPort F.RHK_PORT_FO_CNT_failovers p 1
  d.onPort p (fun x => { x with hold := [], waiting := [] })

theorem failOver_of_off {d : Dev} {p : Nat} (h : d.isSet F.RHK_CTRL_fo_en (p / 4) = false) : d.failOver p = d :=
  if_pos (by rw [h]; rfl)

theorem failOver_of_on {d : Dev} {p : Nat} (h : d.isSet F.RHK_CTRL_fo_en (p / 4) = true) :
    d.failOver p = (d.port p).waiting.foldl rerouted ((d.port p).hold.foldl (fun d h => d.failPacket p h) (d.failNoted p)) :=
  if_neg (by rw [h]; decide)

/-- The packets of a port that has failed over are sent elsewhere, answered or lost. -/
theorem traffic_failed (d : Dev) (p : Nat) (hs : List Held) (ws : List (Packet × Option (Nat × Nat))) :
    Traffic d (ws.foldl rerouted (hs.foldl (fun d h => d.failPacket p h) d)) :=
  (Traffic.foldl (fun d h => traffic_failPacket d p h) hs d).trans (.foldl traffic_rerouted ws _)

theorem port_failed_idle {d : Dev} {p : Nat} (hst : d.pfld F.RHK_PORT_STATUS_state p ≠ 2) (hs : List Held)
    (ws : List (Packet × Option (Nat × Nat))) : (ws.foldl rerouted (hs.foldl (fun d h => d.failPacket p h) d)).port p = d.port p := by
  have ht : Traffic d (hs.foldl (fun d h => d.failPacket p h) d) := .foldl (fun d h => traffic_failPacket d p h) hs d
  rw [port_foldl_idle traffic_rerouted (fun d w hd => port_rerouted_idle hd w) ws _ (by rw [ht.state]; exact hst),
    port_foldl_idle (fun d h => traffic_failPacket d p h) (fun d h hd => port_failPacket_idle hd h) hs d hst]

/-- The registers that a fail-over is noted in, before its leaf. -/
def ringLeft (d : Dev) (p : Nat) : Dev := if (d.primaryDir p).isSome then d.setPfld F.RHK_PORT_CTRL_ring_use p 0 else d

theorem failNoted_eq (d : Dev) (p : Nat) : ∃ dest src ctx, d.failNoted p =
    ((((d.ringLeft p).rhkCapture (p / 4) dest src p ctx 0).raise F.RHK_ERR_STATUS_failover (p / 4)).bumpPort
      F.RHK_PORT_FO_CNT_failovers p 1).onPort p (fun x => { x with hold := [], waiting := [] }) := ⟨_, _, _, rfl⟩

theorem rhkCapture_regsOnly (d : Dev) (die dest src port ctx code : Nat) : RegsOnly d (d.rhkCapture die dest src port ctx code) :=
  .ite (.wr d .RHK_ERR_INFO die 0 _) (.refl d)

theorem ringLeft_regsOnly (d : Dev) (p : Nat) : RegsOnly d (d.ringLeft p) := .ite (.setFld d F.RHK_PORT_CTRL_ring_use _ _ 0) (.refl d)

theorem rd_ringLeft_other (d : Dev) (p : Nat) {r : Reg} {w j : Nat} (h : r.key w j ≠ Reg.RHK_PORT_CTRL.key (p / 4) (p % 4)) :
    (d.ringLeft p).rd r w j = d.rd r w j := by
  unfold ringLeft
  split
  · exact rd_setFld_other d F.RHK_PORT_CTRL_ring_use 0 h
  · rfl

/-- The device after the capture, the leaf and the count of a fail-over. -/
def failCounted (d : Dev) (p dest src ctx : Nat) : Dev :=
  ((d.rhkCapture (p / 4) dest src p ctx 0).raise F.RHK_ERR_STATUS_failover (p / 4)).bumpPort F.RHK_PORT_FO_CNT_failovers p 1

theorem failCounted_regsOnly (d : Dev) (p dest src ctx : Nat) : RegsOnly d (d.failCounted p dest src ctx) :=
  (RegsOnly.bump _ F.RHK_PORT_FO_CNT_failovers _ _ 1).after ((RegsOnly.raise _ _ _ 0).after (rhkCapture_regsOnly d _ _ _ _ _ _))

theorem rd_failCounted (d : Dev) (p dest src ctx : Nat) {r : Reg} {w j : Nat} (h : OffTraffic (r.key w j))
    (hk : r.key w j ≠ Reg.RHK_PORT_FO_CNT.key (p / 4) (p % 4)) : (d.failCounted p dest src ctx).rd r w j = d.rd r w j :=
  (rd_bump_other _ F.RHK_PORT_FO_CNT_failovers 1 hk).trans
    (((traffic_rhkCapture d _ _ _ _ _ _).trans (.raise _ rfl rfl (by decide) _)).rd r w j h)

theorem isSet_failCounted (d : Dev) (p dest src ctx : Nat) {x : Field} (hx : x.reg = .RHK_ERR_STATUS) {n : Nat}
    (h : d.isSet x n = true) : (d.failCounted p dest src ctx).isSet x n = true := by
  have hr := ((traffic_rhkCapture d (p / 4) dest src p ctx 0).trans
    (.raise _ (x := F.RHK_ERR_STATUS_failover) rfl rfl (by decide) (p / 4))).err x n hx h
  refine (isSet_eq_of_rd (rd_bump_other _ F.RHK_PORT_FO_CNT_failovers 1 ?_)).trans hr
  rw [hx]
  simp only [F.RHK_PORT_FO_CNT_failovers, Reg.key, Reg.row]
  omega

theorem isSet_failover_failCounted (d : Dev) (p dest src ctx : Nat) :
    (d.failCounted p dest src ctx).isSet F.RHK_ERR_STATUS_failover (p / 4) = true := by
  refine (isSet_eq_of_rd (rd_bump_other _ F.RHK_PORT_FO_CNT_failovers 1 ?_)).trans (isSet_raise _ (by decide) (by decide) (p / 4) 0)
  simp only [F.RHK_PORT_FO_CNT_failovers, F.RHK_ERR_STATUS_failover, Reg.key, Reg.row]
  omega

/-- What a fail-over notes: in the registers, and in the port, which it empties. -/
theorem failNoted_spec (d : Dev) (p : Nat) :
    (∀ x : Field, x.reg = .RHK_PORT_STATUS → ∀ q, (d.failNoted p).pfld x q = d.pfld x q) ∧
    (∀ (x : Field) (n : Nat), x.reg = .RHK_ERR_STATUS → d.isSet x n = true → (d.failNoted p).isSet x n = true) ∧
    (d.failNoted p).isSet F.RHK_ERR_STATUS_failover (p / 4) = true ∧
    ((d.primaryDir p).isSome = true → (d.failNoted p).pfld F.RHK_PORT_CTRL_ring_use p = 0) ∧
    (d.failNoted p).port p = { d.port p with hold := [], waiting := [] } ∧ (∀ k, k ≠ p → (d.failNoted p).port k = d.port k) := by
  obtain ⟨dest, src, ctx, heq⟩ := d.failNoted_eq p
  have hcount : d.failNoted p = ((d.ringLeft p).failCounted p dest src ctx).onPort p (fun x => { x with hold := [], waiting := [] }) := heq
  have hregs : (d.failNoted p).regs = ((d.ringLeft p).failCounted p dest src ctx).regs := by rw [hcount]; rfl
  have hport (k : Nat) : ((d.ringLeft p).failCounted p dest src ctx).port k = d.port k :=
    port_congr (by rw [((d.ringLeft p).failCounted_regsOnly p dest src ctx).after (d.ringLeft_regsOnly p)]) k
  have hset (x : Field) (n : Nat) : (d.failNoted p).isSet x n = ((d.ringLeft p).failCounted p dest src ctx).isSet x n := by
    rw [isSet_eq_fld, isSet_eq_fld, fld_of_regs hregs]
  have hfld (x : Field) (q : Nat) : (d.failNoted p).pfld x q = ((d.ringLeft p).failCounted p dest src ctx).pfld x q := by
    rw [pfld, pfld, fld_of_regs hregs]
  refine ⟨fun x hx q => ?_, fun x n hx hs => ?_, ?_, fun hprimary => ?_, ?_, fun k hk => ?_⟩
  · rw [hfld]
    refine fld_congr ((rd_failCounted _ p dest src ctx (hx ▸ offTraffic_status _ _) ?_).trans (rd_ringLeft_other d p ?_)) <;>
      rw [hx] <;> simp only [Reg.key, Reg.row] <;> omega
  · rw [hset]
    refine isSet_failCounted _ p dest src ctx hx ((isSet_eq_of_rd (rd_ringLeft_other d p ?_)).trans hs)
    rw [hx]
    simp only [Reg.key, Reg.row]
    omega
  · rw [hset]
    exact isSet_failover_failCounted ..
  · rw [hfld]
    refine (fld_congr (x := F.RHK_PORT_CTRL_ring_use) (w := p / 4) (j := p % 4)
      (rd_failCounted (d.ringLeft p) p dest src ctx (r := .RHK_PORT_CTRL) (offTraffic_ctrl _ _) ?_)).trans ?_
    · simp only [Reg.key, Reg.row]; omega
    · rw [ringLeft, if_pos hprimary]
      exact fld_setFld (x := F.RHK_PORT_CTRL_ring_use) d (by decide) (by decide) _ _ 0
  · rw [hcount]
    refine (port_onPort_same _ p _).trans ?_
    rw [hport]
  · rw [hcount]
    exact (port_onPort_other _ _ hk).trans (hport k)

/-- A fail-over keeps the states of the ports, what they received, and every error bit. -/
theorem failOver_spec (d : Dev) (p : Nat) :
    (∀ x : Field, x.reg = .RHK_PORT_STATUS → ∀ q, (d.failOver p).pfld x q = d.pfld x q) ∧
    (∀ (x : Field) (n : Nat), x.reg = .RHK_ERR_STATUS → d.isSet x n = true → (d.failOver p).isSet x n = true) ∧
    (∀ k, ((d.failOver p).port k).incoming = (d.port k).incoming) := by
  cases hon : d.isSet F.RHK_CTRL_fo_en (p / 4) with
  | false =>
    rw [failOver_of_off hon]
    exact ⟨fun _ _ _ => rfl, fun _ _ _ h => h, fun _ => rfl⟩
  | true =>
    rw [failOver_of_on hon]
    obtain ⟨hst, herr, -, -, hport, hother⟩ := d.failNoted_spec p
    have ht := traffic_failed (d.failNoted p) p (d.port p).hold (d.port p).waiting
    refine ⟨fun x hx q => (ht.pfld (.inl hx) q).trans (hst x hx q), fun x n hx h => ht.err x n hx (herr x n hx h), fun k => ?_⟩
    rw [ht.incoming]
    by_cases hk : k = p
    · rw [hk, hport]; rfl
    · rw [hother k hk]

/-- With fail-over the port is empty, noted, and out of ring use. -/
theorem failOver_on_spec {d : Dev} {p : Nat} (hon : d.isSet F.RHK_CTRL_fo_en (p / 4) = true) (hst : d.pfld F.RHK_PORT_STATUS_state p ≠ 2) :
    ((d.failOver p).port p).hold = [] ∧ ((d.failOver p).port p).waiting = [] ∧
    (d.failOver p).isSet F.RHK_ERR_STATUS_failover (p / 4) = true ∧
    ((d.primaryDir p).isSome = true → (d.failOver p).pfld F.RHK_PORT_CTRL_ring_use p = 0) := by
  rw [failOver_of_on hon]
  obtain ⟨hstate, -, hfail, hring, hport, -⟩ := d.failNoted_spec p
  have ht := traffic_failed (d.failNoted p) p (d.port p).hold (d.port p).waiting
  have hidle := port_failed_idle (d := d.failNoted p) (p := p) (by rw [hstate _ rfl]; exact hst) (d.port p).hold (d.port p).waiting
  rw [hidle, hport]
  exact ⟨rfl, rfl, ht.err _ _ rfl hfail, fun h => (ht.pfld (.inr rfl) p).trans (hring h)⟩

/-! ### A port goes down -/

/-- The states and the leaf of a port that goes down. -/
def downMarked (d : Dev) (p : Nat) : Dev :=
  ((d.setPfld F.RHK_PORT_STATUS_state p (if d.pfld F.RHK_PORT_CTRL_enable p = 0 then 4 else 1)).setPfld F.RHK_PORT_STATUS_width p 0).raise
    F.RHK_ERR_STATUS_port_down (p / 4)

/-- A port that has gone down, before fail-over. -/
def downNoted (d : Dev) (p : Nat) : Dev := (d.downMarked p).onPort p (fun x => { x with announce := none })

theorem portDown_eq (d : Dev) (p : Nat) : d.portDown p = ((d.downNoted p).failOver p).deviceEvent 0x8005
    (leBytes 1 p ++ leBytes 1 (((d.downNoted p).failOver p).fld F.RHK_CTRL_fo_en (p / 4))) := rfl

theorem rd_downMarked_other (d : Dev) (p : Nat) {r : Reg} {w j : Nat} (h : r.key w j ≠ Reg.RHK_PORT_STATUS.key (p / 4) (p % 4))
    (h' : r.key w j ≠ Reg.RHK_ERR_STATUS.key (p / 4) 0) : (d.downMarked p).rd r w j = d.rd r w j :=
  (rd_raise_other _ F.RHK_ERR_STATUS_port_down h').trans
    ((rd_setFld_other _ F.RHK_PORT_STATUS_width 0 h).trans (rd_setFld_other d F.RHK_PORT_STATUS_state _ h))

theorem downNoted_spec (d : Dev) (p : Nat) :
    (d.downNoted p).pfld F.RHK_PORT_STATUS_state p = (if d.pfld F.RHK_PORT_CTRL_enable p = 0 then 4 else 1) ∧
    (d.downNoted p).pfld F.RHK_PORT_STATUS_width p = 0 ∧ (d.downNoted p).isSet F.RHK_ERR_STATUS_port_down (p / 4) = true ∧
    (∀ (x : Field) (n : Nat), x.reg = .RHK_ERR_STATUS → d.isSet x n = true → (d.downNoted p).isSet x n = true) ∧
    ((d.downNoted p).port p).announce = none ∧
    (∀ x : Field, x.reg = .RHK_PORT_CTRL → (d.downNoted p).pfld x p = d.pfld x p) ∧
    (∀ x : Field, x.reg = .RHK_CTRL → (d.downNoted p).isSet x (p / 4) = d.isSet x (p / 4)) := by
  have hregs : (d.downNoted p).regs = (d.downMarked p).regs := rfl
  have hstatus (e : Dev) : ∀ x : Field, x.reg = .RHK_PORT_STATUS →
      (e.raise F.RHK_ERR_STATUS_port_down (p / 4)).fld x (p / 4) (p % 4) = e.fld x (p / 4) (p % 4) := fun x hx =>
    fld_raise_other e (by rw [hx]; simp only [F.RHK_ERR_STATUS_port_down, Reg.key, Reg.row]; omega)
  refine ⟨?_, ?_, ?_, fun x n hx hs => ?_, ?_, fun x hx => ?_, fun x hx => ?_⟩
  · rw [pfld, fld_of_regs hregs, downMarked, hstatus _ _ rfl, setPfld,
      fld_setFld_disjoint _ (by rfl) (by decide) (by decide) _ _ _ (by decide), setPfld, fld_setFld _ (by decide) (by decide)]
    split <;> rfl
  · rw [pfld, fld_of_regs hregs, downMarked, hstatus _ _ rfl, setPfld, fld_setFld _ (by decide) (by decide)]
    rfl
  · rw [isSet_eq_fld, fld_of_regs hregs, ← isSet_eq_fld]
    exact isSet_raise _ (by decide) (by decide) (p / 4) 0
  · rw [isSet_eq_fld, fld_of_regs hregs, ← isSet_eq_fld]
    refine isSet_raise_err hx rfl rfl (by decide) (p / 4) ((isSet_eq_of_rd ((rd_setFld_other _ F.RHK_PORT_STATUS_width 0 ?_).trans
      (rd_setFld_other d F.RHK_PORT_STATUS_state _ ?_))).trans hs) <;>
      rw [hx] <;> simp only [F.RHK_PORT_STATUS_width, F.RHK_PORT_STATUS_state, Reg.key, Reg.row] <;> omega
  · rw [downNoted, port_onPort_same]
  · rw [pfld, fld_of_regs hregs]
    refine fld_congr (rd_downMarked_other d p ?_ ?_) <;> rw [hx] <;> simp only [Reg.key, Reg.row] <;> omega
  · rw [isSet_eq_fld, fld_of_regs hregs, ← isSet_eq_fld]
    refine isSet_eq_of_rd (rd_downMarked_other d p ?_ ?_) <;> rw [hx] <;> simp only [Reg.key, Reg.row] <;> omega

theorem not_mail_rhk (r : Reg) (hr : r = .RHK_PORT_STATUS ∨ r = .RHK_PORT_CTRL ∨ r = .RHK_ERR_STATUS) {w j : Nat} (hw : w < 6) (hj : j < 4) :
    r.key w j ∉ mailKeys := by
  refine not_mail_of_lt ?_
  rcases hr with rfl | rfl | rfl <;> simp only [Reg.key, Reg.row] <;> omega

theorem port_deviceEvent (d : Dev) (code : Nat) (body : List Byte) (k : Nat) : (d.deviceEvent code body).port k = d.port k :=
  port_congr (by rw [(mailOnly_deviceEvent d code body).1]) k

/-- What a port leaves that has gone down. -/
theorem portDown_spec (d : Dev) {p : Nat} (hp : p < 24) :
    (d.portDown p).pfld F.RHK_PORT_STATUS_state p = (if d.pfld F.RHK_PORT_CTRL_enable p = 0 then 4 else 1) ∧
    (d.portDown p).pfld F.RHK_PORT_STATUS_width p = 0 ∧ (d.portDown p).isSet F.RHK_ERR_STATUS_port_down (p / 4) = true ∧
    (∀ (x : Field), x.reg = .RHK_ERR_STATUS → d.isSet x (p / 4) = true → (d.portDown p).isSet x (p / 4) = true) ∧
    ((d.portDown p).port p).announce = none ∧
    (d.isSet F.RHK_CTRL_fo_en (p / 4) = true → ((d.portDown p).port p).hold = [] ∧ ((d.portDown p).port p).waiting = [] ∧
      (d.portDown p).isSet F.RHK_ERR_STATUS_failover (p / 4) = true ∧
      ((d.primaryDir p).isSome = true → (d.portDown p).pfld F.RHK_PORT_CTRL_ring_use p = 0)) := by
  have hw : p / 4 < 6 := by omega
  have hj : p % 4 < 4 := Nat.mod_lt _ (by decide)
  rw [portDown_eq]
  have hmail := mailOnly_deviceEvent ((d.downNoted p).failOver p) 0x8005
    (leBytes 1 p ++ leBytes 1 (((d.downNoted p).failOver p).fld F.RHK_CTRL_fo_en (p / 4)))
  have hport := port_deviceEvent ((d.downNoted p).failOver p) 0x8005
    (leBytes 1 p ++ leBytes 1 (((d.downNoted p).failOver p).fld F.RHK_CTRL_fo_en (p / 4))) p
  generalize ((d.downNoted p).failOver p).deviceEvent 0x8005
    (leBytes 1 p ++ leBytes 1 (((d.downNoted p).failOver p).fld F.RHK_CTRL_fo_en (p / 4))) = e at hmail hport
  have hfld (x : Field) (hx : x.reg = .RHK_PORT_STATUS ∨ x.reg = .RHK_PORT_CTRL) : e.pfld x p = ((d.downNoted p).failOver p).pfld x p :=
    fld_congr (hmail.2 _ _ _ (not_mail_rhk _ (hx.imp_right .inl) hw hj))
  have hset (x : Field) (hx : x.reg = .RHK_ERR_STATUS) : e.isSet x (p / 4) = ((d.downNoted p).failOver p).isSet x (p / 4) :=
    isSet_eq_of_rd (hmail.2 _ _ _ (not_mail_rhk _ (.inr (.inr hx)) hw (by decide)))
  obtain ⟨hstate, hwidth, hdown, herr, hannounce, hctrl, hdie⟩ := d.downNoted_spec p
  obtain ⟨hkeep, hup, hin⟩ := (d.downNoted p).failOver_spec p
  refine ⟨(hfld _ (.inl rfl)).trans ((hkeep _ rfl p).trans hstate), (hfld _ (.inl rfl)).trans ((hkeep _ rfl p).trans hwidth),
    (hset _ rfl).trans (hup _ _ rfl hdown), fun x hx h => (hset x hx).trans (hup x _ hx (herr x _ hx h)), ?_, fun hon => ?_⟩
  · rw [hport]
    have hinc := hin p
    simp only [RhkPort.incoming, Prod.mk.injEq] at hinc
    exact hinc.2.2.2.2.2.trans hannounce
  · have hon' : (d.downNoted p).isSet F.RHK_CTRL_fo_en (p / 4) = true := (hdie _ rfl).trans hon
    have hrole : (d.downNoted p).primaryDir p = d.primaryDir p := by
      rw [primaryDir, primaryDir, hctrl _ rfl]
    have hne : (d.downNoted p).pfld F.RHK_PORT_STATUS_state p ≠ 2 := by
      rw [hstate]
      split <;> decide
    obtain ⟨hhold, hwaiting, hfail, hring⟩ := failOver_on_spec hon' hne
    rw [hport]
    exact ⟨hhold, hwaiting, (hset _ rfl).trans hfail, fun h => (hfld _ (.inr rfl)).trans (hring (by rw [hrole]; exact h))⟩

/-- A port that has gone down is not up. -/
theorem portUp_portDown (d : Dev) {p : Nat} (hp : p < 24) : (d.portDown p).portUp p = false := by
  rw [portUp, (portDown_spec d hp).1]
  split <;> rfl

theorem primaryDir_isSome (d : Dev) (p : Nat) : (d.primaryDir p).isSome = true ↔
    d.pfld F.RHK_PORT_CTRL_role p = 2 ∨ d.pfld F.RHK_PORT_CTRL_role p = 3 := by
  unfold primaryDir
  split
  · rename_i h; simp [h]
  · rename_i h; simp [h]
  · rename_i h2 h3
    exact ⟨fun h => (Bool.false_ne_true h).elim, fun h => (h.elim h2 h3).elim⟩

end Dev

end Sys2Proof.Machine
end

section
/-!
PROOFS. A port that trains or is retried, and a request that waits too long (13_rhanak_links_and_topology.md R466, R467, R483).
-/

namespace Sys2Proof.Machine

open Sys2Proof.Claims

namespace Dev

/-! ### Training -/

/-- The width of a port's lanes is the rules' one. -/
theorem widthOf_eq (d : Dev) (p : Nat) (lanes : BitVec 4) :
    d.widthOf p lanes.toNat = laneWidth lanes (decide (d.pfld F.RHK_PORT_CTRL_x2_allow p ≠ 0)) := by
  unfold widthOf
  by_cases h : d.pfld F.RHK_PORT_CTRL_x2_allow p = 0
  · rw [if_pos h, decide_eq_false (not_not.mpr h)]
    revert lanes
    decide
  · rw [if_neg h, decide_eq_true h]
    revert lanes
    decide

theorem laneWidth_lt (lanes : BitVec 4) (pair : Bool) : laneWidth lanes pair < 4 := by
  revert lanes pair
  decide

/-- The registers of a port that has come up. -/
def upMarked (d : Dev) (p st w nbId nbPort : Nat) (nbValid : Bool) : Dev :=
  (((((d.setPfld F.RHK_PORT_STATUS_state p st).setPfld F.RHK_PORT_STATUS_width p w).setPfld F.RHK_PORT_STATUS_nb_id p nbId).setPfld
    F.RHK_PORT_STATUS_nb_valid p (b2n nbValid)).setPfld F.RHK_PORT_STATUS_nb_port p nbPort).bumpPort F.RHK_PORT_STATUS_up_count p 1

theorem upMarked_regsOnly (d : Dev) (p st w nbId nbPort : Nat) (nbValid : Bool) : RegsOnly d (d.upMarked p st w nbId nbPort nbValid) :=
  (RegsOnly.bump _ F.RHK_PORT_STATUS_up_count _ _ 1).after ((RegsOnly.setFld _ F.RHK_PORT_STATUS_nb_port _ _ _).after
    ((RegsOnly.setFld _ F.RHK_PORT_STATUS_nb_valid _ _ _).after ((RegsOnly.setFld _ F.RHK_PORT_STATUS_nb_id _ _ _).after
      ((RegsOnly.setFld _ F.RHK_PORT_STATUS_width _ _ _).after (.setFld d F.RHK_PORT_STATUS_state _ _ _)))))

theorem rd_upMarked_other (d : Dev) (p st w nbId nbPort : Nat) (nbValid : Bool) {r : Reg} {n j : Nat}
    (h : r.key n j ≠ Reg.RHK_PORT_STATUS.key (p / 4) (p % 4)) : (d.upMarked p st w nbId nbPort nbValid).rd r n j = d.rd r n j := by
  rw [upMarked, bumpPort, rd_bump_other _ F.RHK_PORT_STATUS_up_count _ h, setPfld, rd_setFld_other _ F.RHK_PORT_STATUS_nb_port _ h,
    setPfld, rd_setFld_other _ F.RHK_PORT_STATUS_nb_valid _ h, setPfld, rd_setFld_other _ F.RHK_PORT_STATUS_nb_id _ h,
    setPfld, rd_setFld_other _ F.RHK_PORT_STATUS_width _ h, setPfld, rd_setFld_other _ F.RHK_PORT_STATUS_state _ h]

theorem pfld_setPfld (d : Dev) {x : Field} (h : x.lo ≤ x.hi) (h64 : x.hi < 64) (p v : Nat) :
    (d.setPfld x p v).pfld x p = v % 2 ^ (x.hi + 1 - x.lo) := fld_setFld d h h64 _ _ v

theorem pfld_setPfld_disjoint (d : Dev) {x y : Field} (hr : y.reg = x.reg) (h : x.lo ≤ x.hi) (h64 : x.hi < 64) (p v : Nat)
    (hd : x.hi < y.lo ∨ y.hi < x.lo) : (d.setPfld x p v).pfld y p = d.pfld y p := fld_setFld_disjoint d hr h h64 _ _ v hd

theorem port_setPfld (d : Dev) (x : Field) (p v k : Nat) : (d.setPfld x p v).port k = d.port k := rfl

/-- The fields of a port that has come up. -/
theorem upMarked_spec (d : Dev) (p st w nbId nbPort : Nat) (nbValid : Bool) :
    (d.upMarked p st w nbId nbPort nbValid).pfld F.RHK_PORT_STATUS_state p = st % 8 ∧
    (d.upMarked p st w nbId nbPort nbValid).pfld F.RHK_PORT_STATUS_width p = w % 4 ∧
    (d.upMarked p st w nbId nbPort nbValid).pfld F.RHK_PORT_STATUS_nb_id p = nbId % 65536 ∧
    (d.upMarked p st w nbId nbPort nbValid).pfld F.RHK_PORT_STATUS_nb_valid p = b2n nbValid ∧
    (d.upMarked p st w nbId nbPort nbValid).pfld F.RHK_PORT_STATUS_nb_port p = nbPort % 32 := by
  have hcount (e : Dev) (x : Field) (hx : x.reg = .RHK_PORT_STATUS) (hd : 31 < x.lo ∨ x.hi < 16) :
      (e.bumpPort F.RHK_PORT_STATUS_up_count p 1).pfld x p = e.pfld x p :=
    fld_setFld_disjoint e (x := F.RHK_PORT_STATUS_up_count) hx (by decide) (by decide) _ _ _ hd
  have hvalid : b2n nbValid % 2 ^ 1 = b2n nbValid := by cases nbValid <;> rfl
  unfold upMarked
  refine ⟨?_, ?_, ?_, ?_, ?_⟩ <;> rw [hcount _ _ rfl (by decide)]
  · rw [pfld_setPfld_disjoint _ (by rfl) (by decide) (by decide) _ _ (by decide), pfld_setPfld_disjoint _ (by rfl) (by decide) (by decide) _ _ (by decide),
      pfld_setPfld_disjoint _ (by rfl) (by decide) (by decide) _ _ (by decide), pfld_setPfld_disjoint _ (by rfl) (by decide) (by decide) _ _ (by decide),
      pfld_setPfld _ (by decide) (by decide)]
    rfl
  · rw [pfld_setPfld_disjoint _ (by rfl) (by decide) (by decide) _ _ (by decide), pfld_setPfld_disjoint _ (by rfl) (by decide) (by decide) _ _ (by decide),
      pfld_setPfld_disjoint _ (by rfl) (by decide) (by decide) _ _ (by decide), pfld_setPfld _ (by decide) (by decide)]
    rfl
  · rw [pfld_setPfld_disjoint _ (by rfl) (by decide) (by decide) _ _ (by decide), pfld_setPfld_disjoint _ (by rfl) (by decide) (by decide) _ _ (by decide),
      pfld_setPfld _ (by decide) (by decide)]
    rfl
  · rw [pfld_setPfld_disjoint _ (by rfl) (by decide) (by decide) _ _ (by decide), pfld_setPfld _ (by decide) (by decide)]
    exact hvalid
  · rw [pfld_setPfld _ (by decide) (by decide)]
    rfl

/-- What a port keeps of its packets when it comes up. -/
def freshPort (now : Nat) (x : RhkPort) : RhkPort :=
  { hop := x.hop, rxHop := x.rxHop, last := x.last, lastPrev := x.lastPrev, hold := x.hold, waiting := x.waiting, arrived := x.arrived,
    goodAt := now }

/-- The time at which the first port came up. -/
def firstUpNoted (d : Dev) : Dev :=
  if d.rhk.firstUp.isNone then { d with rhk := { d.rhk with firstUp := some d.now } } else d

/-- A port that has come up, before the event of a standby. -/
def trained (d : Dev) (p st w nbId nbPort : Nat) (nbValid : Bool) : Dev :=
  (d.upMarked p st w nbId nbPort nbValid).firstUpNoted.onPort p (freshPort (d.upMarked p st w nbId nbPort nbValid).firstUpNoted.now)

theorem firstUpNoted_same (d : Dev) : d.firstUpNoted.regs = d.regs ∧ d.firstUpNoted.now = d.now ∧ d.firstUpNoted.rhk.ports = d.rhk.ports := by
  unfold firstUpNoted
  split <;> exact ⟨rfl, rfl, rfl⟩

theorem trained_regs (d : Dev) (p st w nbId nbPort : Nat) (nbValid : Bool) :
    (d.trained p st w nbId nbPort nbValid).regs = (d.upMarked p st w nbId nbPort nbValid).regs := (firstUpNoted_same _).1

theorem trained_port (d : Dev) (p st w nbId nbPort : Nat) (nbValid : Bool) :
    (d.trained p st w nbId nbPort nbValid).port p = freshPort d.now (d.port p) ∧
    ∀ k, k ≠ p → (d.trained p st w nbId nbPort nbValid).port k = d.port k := by
  obtain ⟨-, hnow, hports⟩ := firstUpNoted_same (d.upMarked p st w nbId nbPort nbValid)
  have hmarked := d.upMarked_regsOnly p st w nbId nbPort nbValid
  have hnow' : (d.upMarked p st w nbId nbPort nbValid).now = d.now := by rw [hmarked]
  have hports' : (d.upMarked p st w nbId nbPort nbValid).rhk.ports = d.rhk.ports := by rw [hmarked]
  have hport (k : Nat) := port_congr (hports.trans hports') k
  refine ⟨?_, fun k hk => ?_⟩
  · rw [trained, port_onPort_same, hport, hnow, hnow']
  · rw [trained, port_onPort_other _ _ hk, hport]

/-- A ring primary port that fail-over took out of use comes up in standby. -/
def standsBy (d : Dev) (p : Nat) : Bool := (d.primaryDir p).isSome && d.pfld F.RHK_PORT_CTRL_ring_use p == 0

theorem standsBy_iff (d : Dev) (p : Nat) : d.standsBy p = true ↔
    (d.pfld F.RHK_PORT_CTRL_role p = 2 ∨ d.pfld F.RHK_PORT_CTRL_role p = 3) ∧ d.pfld F.RHK_PORT_CTRL_ring_use p = 0 := by
  rw [standsBy, Bool.and_eq_true, primaryDir_isSome, beq_iff_eq]

/-- A port may end its training (R466, R467). -/
def Trains (d : Dev) (p : Nat) : Prop :=
  d.pfld F.RHK_PORT_CTRL_enable p ≠ 0 ∧
    (d.pfld F.RHK_PORT_STATUS_state p = 1 ∨ (d.pfld F.RHK_PORT_STATUS_state p = 0 ∧ (d.port p).failedAt = none))

theorem portTrain_of_not_trains {d : Dev} {p : Nat} (h : ¬ d.Trains p) (lanes nbId : Nat) (nbValid : Bool) (nbPort : Nat) :
    d.portTrain p lanes nbId nbValid nbPort = d := by
  unfold portTrain
  by_cases hen : d.pfld F.RHK_PORT_CTRL_enable p = 0
  · exact if_pos hen
  · refine (if_neg hen).trans (if_pos ?_)
    exact ⟨fun h1 => h ⟨hen, .inl h1⟩, fun h0 => h ⟨hen, .inr h0⟩⟩

/-- The guard of a port's training, once it trains. -/
theorem Trains.guard {d : Dev} {p : Nat} (h : d.Trains p) :
    ¬ (d.pfld F.RHK_PORT_STATUS_state p ≠ 1 ∧ ¬(d.pfld F.RHK_PORT_STATUS_state p = 0 ∧ (d.port p).failedAt = none)) :=
  fun ⟨h1, h0⟩ => h.2.elim h1 h0

theorem portTrain_of_no_width {d : Dev} {p : Nat} (h : d.Trains p) {lanes : Nat} (hw : d.widthOf p lanes = 0) (nbId : Nat) (nbValid : Bool)
    (nbPort : Nat) : d.portTrain p lanes nbId nbValid nbPort =
      (d.setPfld F.RHK_PORT_STATUS_state p 0).onPort p (fun x => { x with failedAt := some d.now }) :=
  (if_neg h.1).trans ((if_neg h.guard).trans (if_pos hw))

theorem portTrain_of_width {d : Dev} {p : Nat} (h : d.Trains p) {lanes : Nat} (hw : d.widthOf p lanes ≠ 0) (nbId : Nat) (nbValid : Bool)
    (nbPort : Nat) : d.portTrain p lanes nbId nbValid nbPort =
      if d.standsBy p then (d.trained p (if d.standsBy p then 3 else 2) (d.widthOf p lanes) nbId nbPort nbValid).deviceEvent 0x8006 (leBytes 1 p)
      else d.trained p (if d.standsBy p then 3 else 2) (d.widthOf p lanes) nbId nbPort nbValid :=
  (if_neg h.1).trans ((if_neg h.guard).trans (if_neg hw))

/-- What a port that has come up leaves. -/
theorem portTrain_spec {d : Dev} {p : Nat} (hp : p < 24) (h : d.Trains p) {lanes : Nat} (hw : d.widthOf p lanes ≠ 0) (nbId : Nat)
    (nbValid : Bool) (nbPort : Nat) :
    (∀ x : Field, x.reg = .RHK_PORT_STATUS → (d.portTrain p lanes nbId nbValid nbPort).pfld x p =
      (d.upMarked p (if d.standsBy p then 3 else 2) (d.widthOf p lanes) nbId nbPort nbValid).pfld x p) ∧
    (d.portTrain p lanes nbId nbValid nbPort).port p = freshPort d.now (d.port p) ∧
    ∀ k < 24, k ≠ p → (d.portTrain p lanes nbId nbValid nbPort).port k = d.port k ∧
      (d.portTrain p lanes nbId nbValid nbPort).rd .RHK_PORT_STATUS (k / 4) (k % 4) = d.rd .RHK_PORT_STATUS (k / 4) (k % 4) := by
  rw [portTrain_of_width h hw]
  generalize (if d.standsBy p then 3 else 2) = st
  generalize d.widthOf p lanes = w
  obtain ⟨hsame, hother⟩ := d.trained_port p st w nbId nbPort nbValid
  have hregs := d.trained_regs p st w nbId nbPort nbValid
  have hevent : MailOnly (d.trained p st w nbId nbPort nbValid)
      (if d.standsBy p then (d.trained p st w nbId nbPort nbValid).deviceEvent 0x8006 (leBytes 1 p) else d.trained p st w nbId nbPort nbValid) := by
    split
    · exact mailOnly_deviceEvent ..
    · exact .refl _
  generalize (if d.standsBy p then (d.trained p st w nbId nbPort nbValid).deviceEvent 0x8006 (leBytes 1 p)
    else d.trained p st w nbId nbPort nbValid) = e at hevent
  have hport (k : Nat) : e.port k = (d.trained p st w nbId nbPort nbValid).port k := port_congr (by rw [hevent.1]) k
  have hrd {k : Nat} (hk : k < 24) : e.rd .RHK_PORT_STATUS (k / 4) (k % 4) =
      (d.upMarked p st w nbId nbPort nbValid).rd .RHK_PORT_STATUS (k / 4) (k % 4) := by
    rw [hevent.2 _ _ _ (not_mail_rhk _ (.inl rfl) (by omega) (Nat.mod_lt _ (by decide))), Dev.rd, hregs, Dev.rd]
  refine ⟨fun x hx => fld_congr (by rw [hx]; exact hrd hp), (hport p).trans hsame, fun k hk hne => ⟨(hport k).trans (hother k hne), ?_⟩⟩
  rw [hrd hk, rd_upMarked_other]
  simp only [Reg.key, Reg.row]
  omega

/-! ### A failed port tries again -/

/-- A failed port may train again (R467). -/
def RetryDue (d : Dev) (p : Nat) : Prop :=
  d.pfld F.RHK_PORT_STATUS_state p = 0 ∧ d.pfld F.RHK_PORT_CTRL_enable p ≠ 0 ∧ ∃ t, (d.port p).failedAt = some t ∧ t + 100000000 ≤ d.now

theorem trainRetry_of_due {d : Dev} {p : Nat} (h : d.RetryDue p) : d.trainRetry p =
    (d.setPfld F.RHK_PORT_STATUS_state p 1).onPort p (fun x => { x with failedAt := none }) := by
  obtain ⟨hst, hen, t, ht, hlate⟩ := h
  rw [trainRetry, ht]
  exact if_pos ⟨hst, hen, hlate⟩

theorem trainRetry_of_not_due {d : Dev} {p : Nat} (h : ¬ d.RetryDue p) : d.trainRetry p = d := by
  unfold trainRetry
  split
  · rename_i t ht
    exact if_neg fun ⟨hst, hen, hlate⟩ => h ⟨hst, hen, t, ht, hlate⟩
  · rfl

/-! ### A request that waits too long -/

/-- The link die that notes a request's timeout. -/
def dieTo (d : Dev) (w : Waiting) : Nat := match d.route none w.dest with | .port q => q / 4 | _ => 0

/-- A request answered with PATH_ERR. -/
def timedOut (d : Dev) (w : Waiting) (die : Nat) : Dev :=
  (((d.notWaiting w).rhkCapture die w.dest (d.notWaiting w).deviceId 0x1F w.ctx 6).raise F.RHK_ERR_STATUS_timeout die).emit
    (.response w.master 6 [])

theorem e2eTimeout_of_some {d : Dev} {tag : Nat} {w : Waiting} (h : d.rhk.waiting.find? (fun w => w.tag = tag) = some w) :
    d.e2eTimeout tag = if w.sentAt + 1000 * max 1 (d.fld F.RHK_CTRL_e2e_timeout (d.dieTo w)) ≤ d.now then d.timedOut w (d.dieTo w) else d := by
  rw [e2eTimeout, h]
  rfl

theorem timedOut_spec (d : Dev) (w : Waiting) (die : Nat) (hout : d.out = []) :
    (d.timedOut w die).rhk.waiting = d.rhk.waiting.filter (fun x => x ≠ w) ∧ (d.timedOut w die).out = [.response w.master 6 []] ∧
      (d.timedOut w die).isSet F.RHK_ERR_STATUS_timeout die = true := by
  have hregs : RegsOnly (d.notWaiting w)
      (((d.notWaiting w).rhkCapture die w.dest (d.notWaiting w).deviceId 0x1F w.ctx 6).raise F.RHK_ERR_STATUS_timeout die) :=
    (RegsOnly.raise _ F.RHK_ERR_STATUS_timeout die 0).after (rhkCapture_regsOnly _ _ _ _ _ _ _)
  have hset := isSet_raise ((d.notWaiting w).rhkCapture die w.dest (d.notWaiting w).deviceId 0x1F w.ctx 6)
    (x := F.RHK_ERR_STATUS_timeout) (by decide) (by decide) die 0
  unfold timedOut
  generalize ((d.notWaiting w).rhkCapture die w.dest (d.notWaiting w).deviceId 0x1F w.ctx 6).raise F.RHK_ERR_STATUS_timeout die = e at hregs hset
  have hrhk : e.rhk = (d.notWaiting w).rhk := by rw [hregs]
  have houts : e.out = (d.notWaiting w).out := by rw [hregs]
  refine ⟨?_, ?_, hset⟩
  · show e.rhk.waiting = _
    rw [hrhk]; rfl
  · show e.out ++ _ = _
    rw [houts]
    show d.out ++ _ = _
    rw [hout]; rfl

/-- A port has been quiet for down_time (R468). -/
def LinkQuiet (d : Dev) (p : Nat) : Prop := (d.port p).goodAt + 250 * max 1 (d.fld F.RHK_CTRL_down_time (p / 4)) ≤ d.now

theorem portQuiet_of_quiet {d : Dev} {p : Nat} (hup : d.portUp p = true) (h : d.LinkQuiet p) : d.portQuiet p = d.portDown p := if_pos ⟨hup, h⟩

theorem portQuiet_of_not {d : Dev} {p : Nat} (h : d.portUp p = false ∨ ¬ d.LinkQuiet p) : d.portQuiet p = d := by
  refine if_neg fun ⟨hup, hq⟩ => ?_
  rcases h with h | h
  · rw [h] at hup
    cases hup
  · exact h hq

end Dev

/-- A port's registers and records as a command that sets its state leaves them. -/
theorem port_marked (s : State) (d : Dev) {p : Nat} (hp : p < 24) (v : Nat) (f : RhkPort → RhkPort) :
    (left s ((d.setPfld F.RHK_PORT_STATUS_state p v).onPort p f)).dev.pfld F.RHK_PORT_STATUS_state p = v % 8 ∧
    (left s ((d.setPfld F.RHK_PORT_STATUS_state p v).onPort p f)).dev.port p = f (d.port p) := by
  refine ⟨?_, ?_⟩
  · have hkey : Reg.RHK_PORT_STATUS.key (p / 4) (p % 4) ∉ mailKeys :=
      Dev.not_mail_rhk .RHK_PORT_STATUS (.inl rfl) (by omega) (Nat.mod_lt _ (by decide))
    refine (Dev.fld_congr (x := F.RHK_PORT_STATUS_state) (Dev.rd_settle s.dev _ hkey)).trans ?_
    exact (Dev.fld_of_regs (d := d.setPfld F.RHK_PORT_STATUS_state p v) rfl _ _ _).trans (Dev.pfld_setPfld d (by decide) (by decide) p v)
  · exact (Dev.port_settle ..).trans ((Dev.port_onPort_same _ p f).trans (congrArg f (Dev.port_setPfld d _ p v p)))

end Sys2Proof.Machine

namespace Sys2Proof.Proofs

open Sys2Proof.Machine Sys2Proof.Claims

/-- Settles O53: each command by the branch that the port's state selects. -/
theorem portStates : Obligations.PortStates := by
  intro s p hawake d st same trains ringOut
  have hp : p.val < 24 := p.isLt
  have hkeep {i : Instr} {e : Dev} (hi : exec i s = .next (left s e)) (he : e = d) : exec i s = .next same := by rw [hi, he]
  refine ⟨fun lanes nbId nbValid nbPort => ?_, ?_, ?_, fun tag => ?_⟩
  · intro w
    have hw : d.widthOf p lanes.toNat = w := Dev.widthOf_eq d p lanes
    have hrun : exec (.portTraining p lanes nbId nbValid nbPort) s = .next (left s
        (if d.isSet F.SMB_STRAP_test_en then d else d.portTrain p lanes.toNat nbId.toNat nbValid nbPort)) := State.apply_awake hawake _ _
    have htrain (h : trains) : d.Trains p ∧
        exec (.portTraining p lanes nbId nbValid nbPort) s = .next (left s (d.portTrain p lanes.toNat nbId.toNat nbValid nbPort)) := by
      refine ⟨h.2, hrun.trans ?_⟩
      rw [if_neg (by rw [h.1]; decide)]
    refine ⟨fun hn => hkeep hrun ?_, fun h hz => ?_, fun h hnz => ?_⟩
    · split
      · rfl
      · rename_i htest
        exact Dev.portTrain_of_not_trains (fun ht => hn ⟨Bool.eq_false_iff.mpr htest, ht⟩) _ _ _ _
    · obtain ⟨ht, hexec⟩ := htrain h
      rw [Dev.portTrain_of_no_width ht (hw.trans hz)] at hexec
      obtain ⟨hstate, hport⟩ := port_marked s d hp 0 (fun x => { x with failedAt := some d.now })
      exact ⟨_, hexec, hstate, congrArg RhkPort.failedAt hport⟩
    · obtain ⟨ht, hexec⟩ := htrain h
      obtain ⟨hfld, hport, hother⟩ := Dev.portTrain_spec hp ht (lanes := lanes.toNat) (by rw [hw]; exact hnz) nbId.toNat nbValid nbPort
      obtain ⟨hstate, hwidth, hid, hvalid, hnb⟩ := d.upMarked_spec p (if d.standsBy p then 3 else 2) (d.widthOf p lanes.toNat) nbId.toNat
        nbPort nbValid
      refine ⟨_, hexec, fun hr => ?_, fun hr => ?_, ?_, ?_, ?_, ?_, ?_, ?_, ?_, hother⟩
      · rw [hfld _ rfl, hstate, if_pos ((Dev.standsBy_iff d p).mpr hr)]
      · rw [hfld _ rfl, hstate, if_neg fun hs => hr ((Dev.standsBy_iff d p).mp hs)]
      · rw [hfld _ rfl, hwidth, hw]
        exact Nat.mod_eq_of_lt (Dev.laneWidth_lt _ _)
      · rw [hfld _ rfl, hid]
        exact Nat.mod_eq_of_lt nbId.isLt
      · rw [hfld _ rfl, hvalid]
        cases nbValid <;> decide
      · rw [hfld _ rfl, hnb]
        exact Nat.mod_eq_of_lt (Nat.lt_trans nbPort.isLt (by decide))
      · rw [hport]; rfl
      · rw [hport]; rfl
      · rw [hport]; rfl
  · have hrun : exec (.trainingRetry p) s = .next (left s (d.trainRetry p)) := State.apply_awake hawake _ _
    refine ⟨fun hn => hkeep hrun (Dev.trainRetry_of_not_due hn), fun h => ?_⟩
    rw [Dev.trainRetry_of_due h] at hrun
    obtain ⟨hstate, hport⟩ := port_marked s d hp 1 (fun x => { x with failedAt := none })
    exact ⟨_, hrun, hstate, congrArg RhkPort.failedAt hport⟩
  · have hleave : exec (.leavingNotice p) s = .next (left s (d.leavingNotice p)) := State.apply_awake hawake _ _
    have hquiet : exec (.portDown p) s = .next (left s (d.portQuiet p)) := State.apply_awake hawake _ _
    obtain ⟨hstate, hwidth, hdown, -, hannounce, hfail⟩ := Dev.portDown_spec d hp
    refine ⟨fun hup => hleave.trans ?_, fun hup => hkeep hleave (if_neg (by rw [hup]; decide)), fun hup hq => hquiet.trans ?_,
      fun h => hkeep hquiet (Dev.portQuiet_of_not h), hstate, hwidth, hdown, hannounce, fun hon => ?_⟩
    · rw [Dev.leavingNotice, if_pos hup]
    · rw [Dev.portQuiet_of_quiet hup hq]
    · obtain ⟨hhold, hwaiting, hleaf, hring⟩ := hfail hon
      exact ⟨hhold, hwaiting, hleaf, fun hr => hring ((Dev.primaryDir_isSome d p).mpr hr)⟩
  · have hrun : exec (.e2eTimeout tag) s = .next (left s (d.e2eTimeout tag)) := State.apply_awake hawake _ _
    refine ⟨fun hn => hkeep hrun (by rw [Dev.e2eTimeout, hn]), fun w hw => ?_⟩
    intro die due
    have hdie : die = d.dieTo w := by
      show (match d.route none w.dest with | .port q => q / 4 | _ => 0) = _
      unfold Dev.dieTo
      rfl
    rw [Dev.e2eTimeout_of_some hw, ← hdie] at hrun
    refine ⟨fun hn => hkeep hrun (if_neg hn), fun h => ⟨_, hrun.trans (by rw [if_pos h]), Dev.timedOut_spec d w die rfl⟩⟩

end Sys2Proof.Proofs
end

section
/-!
PROOFS. What requests from outside leave that are served here: everything but memory with its slots, the arrays' blocks, registers and
free values.
-/

namespace Sys2Proof.Machine

open Sys2Proof.Claims

/-- The device `e` is `d` but for memory, registers, free values and the arrays. -/
def ServeOnly (d e : Dev) : Prop := e = { d with mem := e.mem, regs := e.regs, fresh := e.fresh, arrays := e.arrays }

namespace ServeOnly

variable {d e : Dev}

theorem refl (d : Dev) : ServeOnly d d := rfl

theorem after {f : Dev} (k : ServeOnly e f) (h : ServeOnly d e) : ServeOnly d f := by
  unfold ServeOnly at h k ⊢
  rw [k, h]

theorem foldl {β : Type} {f : Dev → β → Dev} (h : ∀ d x, ServeOnly d (f d x)) : ∀ (l : List β) (d : Dev), ServeOnly d (l.foldl f d)
  | [], d => refl d
  | x :: l, d => after (foldl h l (f d x)) (h d x)

/-- A fold that carries an answer beside the device. -/
theorem foldlRec {α β : Type} {f : α × Dev → β → α × Dev} (h : ∀ acc x, ServeOnly acc.2 (f acc x).2) (l : List β) (a : α) (d : Dev) :
    ServeOnly d (l.foldl f (a, d)).2 :=
  List.foldlRecOn (motive := fun acc : α × Dev => ServeOnly d acc.2) _ _ (refl d) fun acc hacc x _ => (h acc x).after hacc

theorem ite {c : Prop} [Decidable c] {x y : Dev} (h : ServeOnly d x) (k : ServeOnly d y) : ServeOnly d (if c then x else y) := by
  split
  · exact h
  · exact k

theorem of_mem (h : MemOnly d e) : ServeOnly d e := by
  unfold ServeOnly
  rw [h]

theorem rhk (h : ServeOnly d e) : e.rhk = d.rhk := by rw [h]
theorem out (h : ServeOnly d e) : e.out = d.out := by rw [h]
theorem eth (h : ServeOnly d e) : e.eth = d.eth := by rw [h]
theorem now (h : ServeOnly d e) : e.now = d.now := by rw [h]

end ServeOnly

namespace Dev

theorem fabCapture_memOnly (d : Dev) (addr master link ctx code : Nat) : MemOnly d (d.fabCapture addr master link ctx code) :=
  .ite (.after (.wr _ .FAB_ERR_INFO 0 0 _) (.wr d .FAB_ERR_ADDR 0 0 _)) (.refl d)

theorem fabError_memOnly (d : Dev) (rq : Req) (addr code : Nat) (link : Option Nat) : MemOnly d (d.fabError rq addr code link) := by
  have hcap : MemOnly d (if code = 4 ∨ code = 5 ∨ code = 6 then d.fabCapture addr rq.master (link.getD 0xFF) rq.ctx code else d) :=
    .ite (fabCapture_memOnly ..) (.refl d)
  unfold fabError
  dsimp only
  split
  · exact .after (.raise _ _ 0 0) hcap
  · split
    · exact .after (.raise _ _ 0 0) hcap
    · split
      · exact .after (.raise _ _ 0 0) hcap
      · exact hcap

theorem noteCode_memOnly (d : Dev) (rq : Req) (pa code : Nat) (link : Option Nat) : MemOnly d (d.noteCode rq pa code link) :=
  .ite (.bump d F.RST_FENCED_CNT_requests 0 0 1) (fabError_memOnly ..)

theorem serveRead_memOnly (d : Dev) (rq : Req) (pa len : Nat) (k : Bool) : MemOnly d (d.serveRead rq pa len k).2 := by
  unfold serveRead
  split
  · exact readMem_memOnly d rq pa len
  · exact noteCode_memOnly ..

theorem serveWrite_memOnly (d : Dev) (rq : Req) (pa : Nat) (bs : List PByte) (k : Bool) : MemOnly d (d.serveWrite rq pa bs k).2 := by
  unfold serveWrite
  split
  · exact writeMem_memOnly d rq pa bs
  · exact noteCode_memOnly ..

theorem outsidePages_serveOnly (d : Dev) (rq : Req) (va len : Nat) (need : Need) : ServeOnly d (d.outsidePages rq va len need).2 := by
  unfold outsidePages
  split
  · exact .refl d
  · refine .foldlRec (fun acc p => ?_) _ _ _
    split
    · exact .refl _
    · have hw := ServeOnly.of_mem (walk_memOnly acc.2 rq p.1 need)
      dsimp only
      split <;> exact hw

theorem outsideRead_serveOnly (d : Dev) (rq : Req) (va len : Nat) (need : Need) (k : Bool) :
    ServeOnly d (d.outsideRead rq va len need k).2 := by
  have hp := outsidePages_serveOnly d rq va len need
  unfold outsideRead
  split
  · rename_i e he
    rw [he] at hp
    exact (ServeOnly.of_mem (fabError_memOnly e rq _ 5 none)).after hp
  · rename_i ps e he
    rw [he] at hp
    refine ServeOnly.after (.foldlRec (fun acc p => ?_) _ _ _) hp
    split
    · exact .refl _
    · exact .of_mem (serveRead_memOnly acc.2 rq _ _ k)

theorem outsideWrite_serveOnly (d : Dev) (rq : Req) (va : Nat) (bs : List PByte) (need : Need) (k : Bool) :
    ServeOnly d (d.outsideWrite rq va bs need k).2 := by
  have hp := outsidePages_serveOnly d rq va bs.length { need with write := true }
  unfold outsideWrite
  split
  · rename_i e he
    rw [he] at hp
    exact (ServeOnly.of_mem (fabError_memOnly e rq _ 5 none)).after hp
  · rename_i ps e he
    rw [he] at hp
    dsimp only
    refine List.foldlRecOn (motive := fun acc : (Nat × Dev) × List PByte => ServeOnly d acc.1.2) _ _ hp fun acc hacc p _ => ?_
    split
    · exact hacc
    · exact (ServeOnly.of_mem (serveWrite_memOnly acc.1.2 rq _ _ k)).after hacc

theorem serveFill_serveOnly (d : Dev) (rq : Req) (key upTo len : Nat) (poison k : Bool) :
    ServeOnly d (d.serveFill rq key upTo len poison k).2 := by
  have hlose : ServeOnly d (if d.env.slotError then d.loseSlot key len else d) := by
    refine .ite ?_ (.refl d)
    unfold loseSlot
    dsimp only
    split <;> rfl
  unfold serveFill
  dsimp only
  generalize (if d.env.slotError then d.loseSlot key len else d) = e at hlose
  split
  · exact (ServeOnly.of_mem (.bump e F.RST_FENCED_CNT_requests 0 0 1)).after hlose
  · split
    · exact (ServeOnly.of_mem (fabError_memOnly e rq _ 5 none)).after hlose
    · refine ServeOnly.after ?_ hlose
      unfold fillTo
      dsimp only
      split <;> rfl

theorem serveDrain_serveOnly (d : Dev) (rq : Req) (key : Nat) (k : Bool) : ServeOnly d (d.serveDrain rq key k).2 := by
  unfold serveDrain
  split
  · exact .of_mem (.bump d F.RST_FENCED_CNT_requests 0 0 1)
  · split
    · exact .of_mem (fabError_memOnly d rq _ 5 none)
    · unfold drainKey
      dsimp only
      split <;> rfl

end Dev

end Sys2Proof.Machine
end

section
/-!
PROOFS. Flits on the Rhanak links: error correction, acceptance, failures, resends and forward acknowledgements
(13_rhanak_links_and_topology.md R469, R473-R475).
-/

namespace Sys2Proof.Machine

open Sys2Proof.Claims

/-! ### CRC and error correction -/

theorem crc16_lt (bs : List Byte) : crc16 bs < 65536 := by
  have hstep (c : Nat) : (if c.testBit 15 then (c * 2) % 65536 ^^^ 0x1021 else (c * 2) % 65536) < 2 ^ 16 := by
    have hmod : c * 2 % 65536 < 2 ^ 16 := Nat.mod_lt _ (by decide)
    split
    · exact Nat.xor_lt_two_pow hmod (by decide)
    · exact hmod
  unfold crc16
  induction bs using List.reverseRecOn with
  | nil => decide
  | append_singleton l b ih =>
    rw [List.foldl_append, List.foldl_cons, List.foldl_nil, List.range_succ, List.foldl_append]
    exact hstep _

theorem foldl_xor_eq_zero {s : Nat} : ∀ {l : List (Nat × Nat)}, (∀ e ∈ l, e.1 ≠ s) →
    l.foldl (fun acc e => if e.1 = s then acc ^^^ e.2 % 256 else acc) 0 = 0
  | [], _ => rfl
  | e :: l, h => by
    rw [List.foldl_cons, if_neg (h e List.mem_cons_self)]
    exact foldl_xor_eq_zero fun x hx => h x (List.mem_cons_of_mem _ hx)

/-- An error pattern has no more wrong bytes than it has errors. -/
theorem Fec.length_add_le (errs : List (Nat × Nat)) : (Fec.add errs []).length ≤ errs.length := by
  have hfst : (Fec.add errs []).map Prod.fst = (List.range 256).filter (fun s =>
      decide (errs.foldl (fun acc e => if e.1 = s then acc ^^^ e.2 % 256 else acc) 0 ≠ 0)) := by
    unfold Fec.add
    rw [List.append_nil]
    generalize List.range 256 = l
    induction l with
    | nil => rfl
    | cons s l ih =>
      by_cases h : errs.foldl (fun acc e => if e.1 = s then acc ^^^ e.2 % 256 else acc) 0 = 0 <;> simp [h, ih]
  have hsub : (Fec.add errs []).map Prod.fst ⊆ errs.map Prod.fst := by
    intro s hs
    rw [hfst] at hs
    obtain ⟨-, hne⟩ := List.mem_filter.mp hs
    by_contra hout
    refine of_decide_eq_true hne (foldl_xor_eq_zero fun e he heq => hout ?_)
    exact List.mem_map.mpr ⟨e, he, heq⟩
  have hnodup : ((Fec.add errs []).map Prod.fst).Nodup := by rw [hfst]; exact List.nodup_range.filter _
  have hle := (hnodup.subperm hsub).length_le
  rwa [List.length_map, List.length_map] at hle

/-- Six errors or fewer are always corrected. -/
theorem Fec.receive_of_few {errs : List (Nat × Nat)} (h : errs.length ≤ 6) : ∃ c, Fec.receive errs = some ([], c) := by
  unfold Fec.receive
  dsimp only
  split
  · exact ⟨_, rfl⟩
  · rw [if_pos (Nat.le_trans (Fec.length_add_le errs) h)]
    exact ⟨_, rfl⟩

namespace Dev

/-! ### Failing and accepted flits -/

/-- A flit that does not pass: the eighth in a row takes the port down. -/
def flitFailed (d : Dev) (p seq : Nat) : Dev :=
  let d := d.onPort p (fun x => { x with rxFails := x.rxFails + 1 })
  if 8 ≤ (d.port p).rxFails then d.portDown p
  else (d.raise F.RHK_ERR_STATUS_replay (p / 4)).emit (.rhanak p "negative acknowledgement" [seq])

theorem emit_port (d : Dev) (o : Out) (k : Nat) : (d.emit o).port k = d.port k := rfl

theorem raise_port (d : Dev) (x : Field) (w k : Nat) : (d.raise x w).port k = d.port k := rfl

theorem flitFailed_few {d : Dev} {p : Nat} (h : (d.port p).rxFails + 1 < 8) (seq : Nat) (hout : d.out = []) :
    ((d.flitFailed p seq).port p).rxFails = (d.port p).rxFails + 1 ∧
      (d.flitFailed p seq).out = [.rhanak p "negative acknowledgement" [seq]] ∧ ((d.flitFailed p seq).port p).rxSeq = (d.port p).rxSeq := by
  have hport := port_onPort_same d p (fun x => { x with rxFails := x.rxFails + 1 })
  have heq : d.flitFailed p seq = ((d.onPort p (fun x => { x with rxFails := x.rxFails + 1 })).raise F.RHK_ERR_STATUS_replay (p / 4)).emit
      (.rhanak p "negative acknowledgement" [seq]) := by
    refine if_neg ?_
    rw [hport]
    exact Nat.not_le.mpr h
  rw [heq, emit_port, raise_port, hport]
  refine ⟨rfl, ?_, rfl⟩
  show d.out ++ _ = _
  rw [hout]; rfl

theorem flitFailed_many {d : Dev} {p : Nat} (hp : p < 24) (h : ¬ (d.port p).rxFails + 1 < 8) (seq : Nat) :
    (d.flitFailed p seq).portUp p = false := by
  have heq : d.flitFailed p seq = (d.onPort p (fun x => { x with rxFails := x.rxFails + 1 })).portDown p := by
    refine if_pos ?_
    rw [port_onPort_same]
    exact Nat.not_lt.mp h
  rw [heq]
  exact portUp_portDown _ hp

/-- A corrected flit counted. -/
def corrected (d : Dev) (p : Nat) (c : Bool) : Dev := if c then d.bumpPort F.RHK_PORT_FEC_CNT_corrected p 1 else d

theorem corrected_regsOnly (d : Dev) (p : Nat) (c : Bool) : RegsOnly d (d.corrected p c) :=
  .ite (.bump d F.RHK_PORT_FEC_CNT_corrected _ _ 1) (.refl d)

/-- A flit that is accepted, before its payload: the next one is expected, and an acknowledgement goes out. -/
def flitAccepted (d : Dev) (p seq : Nat) : Dev :=
  (d.onPort p (fun x => { x with rxSeq := (x.rxSeq + 1) % 4096, rxFails := 0, goodAt := d.now })).emit (.rhanak p "acknowledgement" [seq])

theorem linkFlit_of_down {d : Dev} {p : Nat} (h : d.portUp p = false) (flit : List Byte) (errs : List (Nat × Nat)) (note : LinkNote) :
    d.linkFlit p flit errs note = d := if_pos (by rw [h]; rfl)

/-- A flit of a port that is up, once FEC has answered. -/
def linkJudged (d : Dev) (p : Nat) (flit : List Byte) (note : LinkNote) : Option (List (Nat × Nat) × Bool) → Dev
  | none => (d.bumpPort F.RHK_PORT_FEC_CNT_uncorrected p 1).flitFailed p (d.port p).rxSeq
  | some (left, c) =>
    let got := (flit ++ leBytes 2 (crc16 flit)).zipIdx.map (fun (b, i) =>
      left.foldl (fun b e => if e.1 = i then b ^^^ BitVec.ofNat 8 e.2 else b) b)
    if crc16 (got.take 242) ≠ leNat ((got.drop 242).take 2) then
      (d.bumpPort F.RHK_PORT_FEC_CNT_uncorrected p 1).flitFailed p (d.port p).rxSeq
    else if leNat (got.take 2) % 16 ≥ 6 then (d.corrected p c).flitFailed p (d.port p).rxSeq
    else if leNat (got.take 2) / 16 ≠ (d.port p).rxSeq then d.corrected p c
    else ((d.corrected p c).flitAccepted p (leNat (got.take 2) / 16)).takeFlit p (leNat (got.take 2) % 16) ((got.drop 2).take 240) note

theorem linkFlit_of_up {d : Dev} {p : Nat} (hup : d.portUp p = true) (flit : List Byte) (errs : List (Nat × Nat)) (note : LinkNote) :
    d.linkFlit p flit errs note = d.linkJudged p flit note (Fec.receive errs) := by
  refine (if_neg (by rw [hup]; decide)).trans ?_
  cases Fec.receive errs with
  | none => rfl
  | some r => rfl

theorem linkFlit_of_uncorrectable {d : Dev} {p : Nat} (hup : d.portUp p = true) {errs : List (Nat × Nat)} (h : Fec.receive errs = none)
    (flit : List Byte) (note : LinkNote) : d.linkFlit p flit errs note =
      (d.bumpPort F.RHK_PORT_FEC_CNT_uncorrected p 1).flitFailed p (d.port p).rxSeq := by
  rw [linkFlit_of_up hup, h, linkJudged]

/-- A flit in which nothing is left wrong passes its CRC. -/
theorem crc_sent {flit : List Byte} (hl : flit.length = 242) :
    crc16 ((flit ++ leBytes 2 (crc16 flit)).take 242) = leNat (((flit ++ leBytes 2 (crc16 flit)).drop 242).take 2) := by
  rw [← hl, List.take_left, List.drop_left, List.take_of_length_le (by rw [length_leBytes]), leNat_leBytes]
  exact (Nat.mod_eq_of_lt (crc16_lt flit)).symm

/-- A flit in which FEC leaves nothing wrong is judged by its type and its sequence. -/
theorem linkFlit_of_clean {d : Dev} {p : Nat} (hup : d.portUp p = true) {errs : List (Nat × Nat)} {c : Bool}
    (h : Fec.receive errs = some ([], c)) {flit : List Byte} (hl : flit.length = 242) (note : LinkNote) :
    d.linkFlit p flit errs note =
      if leNat (flit.take 2) % 16 ≥ 6 then (d.corrected p c).flitFailed p (d.port p).rxSeq
      else if leNat (flit.take 2) / 16 ≠ (d.port p).rxSeq then d.corrected p c
      else ((d.corrected p c).flitAccepted p (leNat (flit.take 2) / 16)).takeFlit p (leNat (flit.take 2) % 16)
        ((flit.drop 2).take 240) note := by
  have hgot (l : List Byte) : l.zipIdx.map (fun x => ([] : List (Nat × Nat)).foldl (fun b e => if e.1 = x.2 then b ^^^ BitVec.ofNat 8 e.2 else b)
      x.1) = l := List.zipIdx_map_fst 0 l
  have hcontrol : (flit ++ leBytes 2 (crc16 flit)).take 2 = flit.take 2 := List.take_append_of_le_length (by omega)
  have hpayload : ((flit ++ leBytes 2 (crc16 flit)).drop 2).take 240 = (flit.drop 2).take 240 := by
    rw [List.drop_append_of_le_length (by omega), List.take_append_of_le_length (by rw [List.length_drop]; omega)]
  rw [linkFlit_of_up hup, h, linkJudged]
  dsimp only
  rw [hgot, hcontrol, hpayload, if_neg (not_not.mpr (crc_sent hl))]

/-! ### Payloads -/

/-- The payload of an accepted flit, before its acknowledgement. -/
def payloadTaken (d : Dev) (p type : Nat) (payload : List Byte) (note : LinkNote) : Dev :=
  match type with
  | 1 =>
    d.onPort p (fun x =>
      let bs := x.partialBytes ++ payload.take note.filled
      let (ps, rest) := Packet.parse (bs.length / 24 + 1) bs
      { x with partialBytes := rest, arrived := x.arrived ++ ps })
  | 2 =>
    (d.onPort p (fun x =>
      { x with used := note.credits.foldl (fun u c => Sp.set (fun _ => 0) u c.1 (Sp.get (fun _ => 0) u c.1 - c.2)) x.used })).pump p
  | _ => d

/-- The acknowledgement that a flit carries. -/
def ackTaken (d : Dev) (p : Nat) (note : LinkNote) : Dev :=
  match note.ack with
  | some a => d.onPort p (fun x => ackFlits x a)
  | none => d

theorem takeFlit_eq (d : Dev) (p type : Nat) (payload : List Byte) (note : LinkNote) :
    d.takeFlit p type payload note = (d.payloadTaken p type payload note).ackTaken p note := rfl

theorem traffic_ackTaken (d : Dev) (p : Nat) (note : LinkNote) : Traffic d (d.ackTaken p note) := by
  unfold ackTaken
  split
  · rename_i a ha
    exact .setPort d p (ackFlits (d.port p) a) rfl
  · exact .refl d

theorem traffic_pump (d : Dev) (p : Nat) : Traffic d (d.pump p) :=
  (Traffic.setPort d p { d.port p with waiting := [] } rfl).trans
    (.foldl (fun d (x : Packet × Option (Nat × Nat)) => traffic_give d p x.1 x.2) (d.port p).waiting _)

/-- A flit that carries no packets leaves what the port received. -/
theorem traffic_payloadTaken {type : Nat} (h : type ≠ 1) (d : Dev) (p : Nat) (payload : List Byte) (note : LinkNote) :
    Traffic d (d.payloadTaken p type payload note) := by
  unfold payloadTaken
  split
  · exact absurd rfl h
  · exact (Traffic.setPort d p { d.port p with
      used := note.credits.foldl (fun u c => Sp.set (fun _ => 0) u c.1 (Sp.get (fun _ => 0) u c.1 - c.2)) (d.port p).used } rfl).trans
      (traffic_pump _ p)
  · exact .refl d

theorem port_payloadTaken (d : Dev) (p : Nat) (payload : List Byte) (note : LinkNote) :
    (d.payloadTaken p 1 payload note).port p = { d.port p with
      partialBytes := (Packet.parse (((d.port p).partialBytes ++ payload.take note.filled).length / 24 + 1)
        ((d.port p).partialBytes ++ payload.take note.filled)).2
      arrived := (d.port p).arrived ++ (Packet.parse (((d.port p).partialBytes ++ payload.take note.filled).length / 24 + 1)
        ((d.port p).partialBytes ++ payload.take note.filled)).1 } := port_onPort_same d p _

/-- What an accepted flit leaves of the port's reception. -/
theorem takeFlit_spec (d : Dev) (p type : Nat) (payload : List Byte) (note : LinkNote) :
    ((d.takeFlit p type payload note).port p).rxSeq = (d.port p).rxSeq ∧ ((d.takeFlit p type payload note).port p).rxFails = (d.port p).rxFails ∧
    ((d.takeFlit p type payload note).port p).goodAt = (d.port p).goodAt ∧ (∀ o ∈ d.out, o ∈ (d.takeFlit p type payload note).out) ∧
    (type = 1 → ((d.takeFlit p type payload note).port p).arrived = (d.port p).arrived ++
      (Packet.parse (((d.port p).partialBytes ++ payload.take note.filled).length / 24 + 1)
        ((d.port p).partialBytes ++ payload.take note.filled)).1) ∧
    (type ≠ 1 → ((d.takeFlit p type payload note).port p).arrived = (d.port p).arrived) := by
  rw [takeFlit_eq]
  have hack := traffic_ackTaken (d.payloadTaken p type payload note) p note
  have hin := hack.incoming p
  simp only [RhkPort.incoming, Prod.mk.injEq] at hin
  obtain ⟨harr, -, hseq, hfails, hgood, -⟩ := hin
  rw [hseq, hfails, hgood, harr]
  by_cases ht : type = 1
  · subst ht
    rw [port_payloadTaken]
    exact ⟨rfl, rfl, rfl, fun o ho => hack.out o ho, fun _ => rfl, fun h => absurd rfl h⟩
  · have hpay := traffic_payloadTaken ht d p payload note
    have hin' := hpay.incoming p
    simp only [RhkPort.incoming, Prod.mk.injEq] at hin'
    obtain ⟨harr', -, hseq', hfails', hgood', -⟩ := hin'
    exact ⟨hseq', hfails', hgood', fun o ho => hack.out o (hpay.out o ho), fun h => absurd h ht, fun _ => harr'⟩

/-! ### Resends and forward acknowledgements -/

theorem foldl_emit {β : Type} (g : β → Out) : ∀ (l : List β) (d : Dev), l.foldl (fun d f => d.emit (g f)) d = { d with out := d.out ++ l.map g }
  | [], d => by rw [List.map_nil, List.append_nil]; rfl
  | x :: l, d => by
    rw [List.foldl_cons, foldl_emit g l, List.map_cons]
    show { d with out := d.out ++ [g x] ++ l.map g } = _
    rw [List.append_assoc]
    rfl

/-- The port after a negative acknowledgement, with its leaf and its count. -/
def nakNoted (d : Dev) (p seq naks : Nat) : Dev :=
  ((d.setPort p { d.port p with nakSeq := some seq, naks }).bumpPort F.RHK_PORT_REPLAY_CNT_replays p 1).raise F.RHK_ERR_STATUS_replay (p / 4)

theorem nakNoted_port (d : Dev) (p seq naks : Nat) : (d.nakNoted p seq naks).port p = { d.port p with nakSeq := some seq, naks } :=
  port_setPort d p _

theorem linkNak_of_none {d : Dev} {p seq : Nat} (h : d.portUp p = false ∨ ∀ f ∈ (d.port p).sent, f.1 ≠ seq) : d.linkNak p seq = d := by
  refine if_pos ?_
  rcases h with h | h
  · rw [h]; rfl
  · have hany : (d.port p).sent.any (fun f => f.1 = seq) = false := by
      rw [List.any_eq_false]
      exact fun f hf => by rw [decide_eq_true_eq]; exact h f hf
    rw [hany, Bool.not_false, Bool.or_true]

theorem linkNak_of_sent {d : Dev} {p seq : Nat} (hup : d.portUp p = true) (h : ∃ f ∈ (d.port p).sent, f.1 = seq) :
    d.linkNak p seq =
      if 8 ≤ (if (d.port p).nakSeq = some seq then (d.port p).naks + 1 else 1) then
        (d.nakNoted p seq (if (d.port p).nakSeq = some seq then (d.port p).naks + 1 else 1)).portDown p
      else ((d.port p).sent.dropWhile (fun f => f.1 ≠ seq)).foldl
        (fun d f => d.emit (.rhanak p "flit" ((flitBytes f.2.1 f.1 f.2.2).map BitVec.toNat)))
        (d.nakNoted p seq (if (d.port p).nakSeq = some seq then (d.port p).naks + 1 else 1)) := by
  have hany : (d.port p).sent.any (fun f => f.1 = seq) = true := by
    obtain ⟨f, hf, heq⟩ := h
    exact List.any_eq_true.mpr ⟨f, hf, decide_eq_true heq⟩
  exact if_neg (by rw [hup, hany]; decide)

/-- The packets of a class that a forward acknowledgement covers. -/
def released (cls seq : Nat) (h : Held) : Bool := h.pkt.cls == cls && Packet.notLater h.seq seq

theorem released_iff (cls seq : Nat) (h : Held) : released cls seq h = true ↔ Covered cls seq h := by
  rw [released, Bool.and_eq_true, beq_iff_eq, Packet.notLater, decide_eq_true_eq, Covered]

/-- The acknowledgement that a released packet owes in its turn. -/
def ackOwed (d : Dev) (cls : Nat) (h : Held) : Dev := match h.owed with | some (q, s) => d.forwardAck q cls s | none => d

theorem ackHeld_eq (d : Dev) (p cls seq : Nat) : d.ackHeld p cls seq =
    (((d.port p).hold.filter (released cls seq)).foldl (fun d h => d.ackOwed cls h)
      (d.setPort p { d.port p with hold := (d.port p).hold.filter (fun h => !released cls seq h) })).pump p := rfl

theorem traffic_ackOwed (d : Dev) (cls : Nat) (h : Held) : Traffic d (d.ackOwed cls h) := by
  unfold ackOwed
  split
  · exact .emit d _
  · exact .refl d

theorem foldl_ackOwed (cls : Nat) : ∀ (l : List Held) (d : Dev), (∀ k, (l.foldl (fun d h => d.ackOwed cls h) d).port k = d.port k) ∧
    ∀ h ∈ l, ∀ q k, h.owed = some (q, k) → .rhanak q "forward acknowledgement" [cls, k] ∈ (l.foldl (fun d h => d.ackOwed cls h) d).out
  | [], _ => ⟨fun _ => rfl, fun _ h => absurd h List.not_mem_nil⟩
  | x :: l, d => by
    obtain ⟨hport, hout⟩ := foldl_ackOwed cls l (d.ackOwed cls x)
    have ht : Traffic (d.ackOwed cls x) (l.foldl (fun d h => d.ackOwed cls h) (d.ackOwed cls x)) := .foldl (fun d h => traffic_ackOwed d cls h) l _
    refine ⟨fun k => (hport k).trans ?_, fun h hm q k howed => ?_⟩
    · unfold ackOwed
      split <;> rfl
    · rcases List.mem_cons.mp hm with rfl | hl
      · refine ht.out _ ?_
        unfold ackOwed
        rw [howed]
        exact List.mem_append_right _ (List.mem_singleton.mpr rfl)
      · exact hout h hl q k howed

/-- A port on which nothing waits is pumped without effect on its hold buffer. -/
theorem hold_pump_of_none {d : Dev} {p : Nat} (h : (d.port p).waiting = []) : ((d.pump p).port p).hold = (d.port p).hold := by
  have hp : d.pump p = d.onPort p (fun x => { x with waiting := [] }) := by
    unfold pump
    dsimp only
    rw [h]
    rfl
  rw [hp, port_onPort_same]

end Dev

end Sys2Proof.Machine
end

section
/-!
PROOFS. Packets that arrive on the Rhanak ports: taken, dropped, sent on or carried out here (13_rhanak_links_and_topology.md R472, R473,
R475, R480, R489).
-/

namespace Sys2Proof.Machine

open Sys2Proof.Claims

namespace Dev

/-! ### What arrived and what went out -/

/-- The packets that have arrived wait as before, and everything that went out before did. -/
def Grew (d e : Dev) : Prop := (∀ k, (e.port k).arrived = (d.port k).arrived) ∧ ∀ o ∈ d.out, o ∈ e.out

theorem Grew.refl (d : Dev) : Grew d d := ⟨fun _ => rfl, fun _ h => h⟩

theorem Grew.trans {a b c : Dev} (h : Grew a b) (k : Grew b c) : Grew a c :=
  ⟨fun p => (k.1 p).trans (h.1 p), fun o ho => k.2 o (h.2 o ho)⟩

theorem Grew.of_traffic {d e : Dev} (h : Traffic d e) : Grew d e :=
  ⟨fun k => congrArg Prod.fst (h.incoming k), h.out⟩

theorem Grew.of_serve {d e : Dev} (h : ServeOnly d e) : Grew d e :=
  ⟨fun k => congrArg RhkPort.arrived (port_congr (by rw [h.rhk]) k), fun o ho => by rw [h.out]; exact ho⟩

theorem Grew.of_regs {d e : Dev} (h : RegsOnly d e) : Grew d e :=
  ⟨fun k => congrArg RhkPort.arrived (port_congr (by rw [h]) k), fun o ho => by rw [h]; exact ho⟩

theorem grew_refuse (d : Dev) (entry : Option Nat) (req : Packet) (code : Nat) : Grew d (d.refuse entry req code) :=
  .of_traffic (traffic_refuse ..)

theorem grew_forwardAck (d : Dev) (p cls seq : Nat) : Grew d (d.forwardAck p cls seq) := .of_traffic (.emit d _)

/-- A request of another device that is carried out here. -/
theorem grew_serveRemote (d : Dev) (entry : Nat) (p : Packet) (accepted : Bool) : Grew d (d.serveRemote entry p accepted) := by
  have hfab (e : Dev) (rq : Req) (a c : Nat) : Grew e (e.fabError rq a c none) := .of_serve (.of_mem (fabError_memOnly e rq a c none))
  unfold serveRemote
  dsimp only
  split
  · exact (Grew.of_regs (.bump d F.RST_FENCED_CNT_requests 0 0 1)).trans (grew_refuse ..)
  · split
    · have hread := Grew.of_serve (outsideRead_serveOnly d { master := 0x80 + bits (d.routeEntry p.src) 30 24, ctx := p.ctx, stream := true, die := .link (entry / 4) }
        (bits p.addr 47 0) p.lengthBytes { remote := true } accepted)
      split
      · exact hread.trans (.of_traffic (traffic_answerPacket ..))
      · exact hread.trans (grew_refuse ..)
    · split
      · exact (Grew.of_serve (outsideWrite_serveOnly ..)).trans (grew_refuse ..)
      · have hpages := Grew.of_serve (outsidePages_serveOnly d { master := 0x80 + bits (d.routeEntry p.src) 30 24, ctx := p.ctx, stream := true, die := .link (entry / 4) }
          (bits p.addr 47 0) 1 { remote := true, write := true })
        split
        · rename_i pa n b ps e he
          rw [he] at hpages
          split
          · refine hpages.trans (Grew.trans ?_ (grew_refuse ..))
            refine .of_serve (.foldlRec (fun acc k => ?_) _ _ _)
            dsimp only
            split
            · exact serveFill_serveOnly ..
            · exact serveDrain_serveOnly ..
          · exact hpages.trans ((hfab _ _ _ _).trans (grew_refuse ..))
        · rename_i e hnot he
          rw [he] at hpages
          exact hpages.trans ((hfab _ _ _ _).trans (grew_refuse ..))

theorem grew_response (d : Dev) (entry : Nat) (p : Packet) : Grew d (d.response entry p) := by
  unfold response
  split
  · rename_i w hw
    dsimp only
    split
    · exact .of_traffic (traffic_notWaiting d w)
    · exact .of_traffic ((traffic_notWaiting d w).trans (.emit _ _))
  · exact .of_regs ((RegsOnly.raise _ F.RHK_ERR_STATUS_timeout _ 0).after (rhkCapture_regsOnly ..))

/-! ### A packet sent on -/

theorem hold_sendFlit (d : Dev) (p type : Nat) (payload : List Byte) : ((d.sendFlit p type payload).port p).hold = (d.port p).hold := by
  rw [show (d.sendFlit p type payload).port p = _ from port_setPort d p _]

theorem hold_foldl_sendFlit (p : Nat) : ∀ (l : List (List Byte)) (d : Dev),
    ((l.foldl (fun d b => d.sendFlit p 1 b) d).port p).hold = (d.port p).hold
  | [], _ => rfl
  | b :: l, d => by
    rw [List.foldl_cons, hold_foldl_sendFlit p l, hold_sendFlit]

/-- A packet given to a port stands in its hold buffer, with the link's number, or waits. -/
theorem give_places (d : Dev) (q : Nat) (k : Packet) (owed : Option (Nat × Nat)) :
    (∃ h ∈ ((d.give q k owed).port q).hold, h.pkt = { k with cur := h.pkt.cur }) ∨ ∃ x ∈ ((d.give q k owed).port q).waiting, x.1 = k := by
  unfold give
  dsimp only
  split
  · left
    refine ⟨{ seq := Sp.get (fun _ => 0) (d.port q).hop k.cls, pkt := numbered (d.port q) k, owed }, ?_, ?_⟩
    · rw [transmit_eq, hold_foldl_sendFlit]
      have hport : ((d.setPort q (sending (d.port q) k owed)).bumpPort F.RHK_PORT_TX_BYTES_bytes q (numbered (d.port q) k).size).port q =
        sending (d.port q) k owed := port_setPort d q _
      rw [hport]
      exact List.mem_append_right _ (List.mem_singleton.mpr rfl)
    · unfold numbered
      split <;> rfl
  · right
    refine ⟨(k, owed), ?_, rfl⟩
    rw [port_setPort]
    exact List.mem_append_right _ (List.mem_singleton.mpr rfl)

theorem sentOn_of_port {e e' : Dev} {q : Nat} {pkt : Packet} (h : e'.port q = e.port q) (hs : SentOn e q pkt) : SentOn e' q pkt := by
  unfold SentOn
  rw [h]
  exact hs

/-- A packet with hops left goes on its way. -/
theorem leave_of_ttl {d : Dev} {pkt : Packet} (h : 0 < pkt.ttl) (entry : Option Nat) (q : Nat) (owed : Option (Nat × Nat)) :
    d.leave entry q pkt owed = (true, d.give q { pkt with ttl := pkt.ttl - 1 } owed) := if_neg (Nat.ne_of_gt h)

theorem sentOn_give (d : Dev) (q : Nat) {pkt k : Packet} (owed : Option (Nat × Nat)) (haddr : k.addr = pkt.addr) (hsrc : k.src = pkt.src)
    (htag : k.tag = pkt.tag) (hdata : k.data = pkt.data) (httl : k.ttl + 1 = pkt.ttl) : SentOn (d.give q k owed) q pkt :=
  ⟨k, haddr, hsrc, htag, hdata, httl, give_places d q k owed⟩

/-! ### Routing -/

/-- The registers of `e` read as those of `d` but for the bytes that port p received. -/
def RxOnly (p : Nat) (d e : Dev) : Prop :=
  ∀ (r : Reg) (w j : Nat), r.key w j ≠ Reg.RHK_PORT_RX_BYTES.key (p / 4) (p % 4) → e.rd r w j = d.rd r w j

theorem RxOnly.pfld {p : Nat} {d e : Dev} (h : RxOnly p d e) {x : Field} (hx : x.reg = .RHK_PORT_STATUS ∨ x.reg = .RHK_PORT_CTRL) (q : Nat) :
    e.pfld x q = d.pfld x q := by
  refine fld_congr (h _ _ _ ?_)
  rcases hx with hx | hx <;> rw [hx] <;> simp only [Reg.key, Reg.row] <;> omega

theorem RxOnly.portUp {p : Nat} {d e : Dev} (h : RxOnly p d e) (q : Nat) : e.portUp q = d.portUp q := by
  rw [Dev.portUp, Dev.portUp, h.pfld (.inl rfl)]

theorem RxOnly.primaryDir {p : Nat} {d e : Dev} (h : RxOnly p d e) (q : Nat) : e.primaryDir q = d.primaryDir q := by
  rw [Dev.primaryDir, Dev.primaryDir, h.pfld (.inr rfl)]

theorem RxOnly.skipDir {p : Nat} {d e : Dev} (h : RxOnly p d e) (q : Nat) : e.skipDir q = d.skipDir q := by
  rw [Dev.skipDir, Dev.skipDir, h.pfld (.inr rfl)]

theorem RxOnly.primaryOf {p : Nat} {d e : Dev} (h : RxOnly p d e) (dir : Nat) : e.primaryOf dir = d.primaryOf dir := by
  rw [Dev.primaryOf, Dev.primaryOf, show (fun q => e.primaryDir q == some dir) = fun q => d.primaryDir q == some dir from
    funext fun q => by rw [h.primaryDir]]

theorem RxOnly.portUsable {p : Nat} {d e : Dev} (h : RxOnly p d e) (q : Nat) : e.portUsable q = d.portUsable q := by
  rw [Dev.portUsable, Dev.portUsable, h.pfld (.inl rfl), h.primaryDir, h.pfld (.inr rfl), hasRole, hasRole, h.pfld (.inr rfl)]

theorem RxOnly.fld_die0 {p : Nat} {d e : Dev} (h : RxOnly p d e) {x : Field}
    (hx : x.reg = .RHK_DEV_ID ∨ x.reg = .SMB_STRAP ∨ x.reg = .RHK_CTRL ∨ x.reg = .RHK_ROUTE_BANK) : e.fld x = d.fld x := by
  refine fld_congr (h _ _ _ ?_)
  rcases hx with hx | hx | hx | hx <;> rw [hx] <;> simp only [Reg.key, Reg.row] <;> omega

theorem RxOnly.routeEntry {p : Nat} {d e : Dev} (h : RxOnly p d e) (dest : Nat) : e.routeEntry dest = d.routeEntry dest := by
  have hbank := fld_lt d F.RHK_ROUTE_BANK_bank 0 0
  rw [Dev.routeEntry, Dev.routeEntry, h.fld_die0 (.inr (.inr (.inr rfl)))]
  refine h _ _ _ ?_
  simp only [Reg.key, Reg.row]
  simp only [F.RHK_ROUTE_BANK_bank] at hbank ⊢
  omega

/-- Where a packet goes does not depend on what its port has counted. -/
theorem RxOnly.egress {p : Nat} {d e : Dev} (h : RxOnly p d e) (entry : Option Nat) (dest : Nat) :
    e.egress entry dest = d.egress entry dest := by
  have hid : e.idValid = d.idValid := by rw [idValid, idValid, isSet_eq_fld, isSet_eq_fld, h.fld_die0 (.inl rfl)]
  have hdev : e.deviceId = d.deviceId := h.fld_die0 (.inl rfl)
  have hen : e.isSet F.RHK_CTRL_route_en = d.isSet F.RHK_CTRL_route_en := by
    rw [isSet_eq_fld, isSet_eq_fld, h.fld_die0 (.inr (.inr (.inl rfl)))]
  have hpair : e.strapPair = d.strapPair := funext fun q => by rw [strapPair, strapPair, h.fld_die0 (.inr (.inl rfl))]
  unfold Dev.egress
  simp only [hid, hdev, hen, hpair, h.routeEntry, h.portUsable]

/-- The ports that a packet may leave on are the device's. -/
theorem egress_lt {d : Dev} {entry : Option Nat} (hentry : ∀ p, entry = some p → p < 24) {dest q : Nat} (h : d.egress entry dest = .port q) :
    q < 24 := by
  unfold Dev.egress at h
  dsimp only at h
  split at h
  · cases h
  · split at h
    · cases h
    · split at h
      · split at h
        · cases h
        · rename_i k hk
          obtain ⟨p, hp, hpk⟩ := Option.bind_eq_some_iff.mp hk
          have hlt := hentry p hp
          have hk24 : k < 24 := by
            unfold strapPair at hpk
            split at hpk
            · cases hpk
              omega
            · cases hpk
          split at h
          · cases h
            exact hk24
          · cases h
      · split at h
        · cases h
        · rename_i hprim
          rw [Bool.or_eq_true, not_or, decide_eq_true_eq] at hprim
          split at h
          · cases h
            omega
          · split at h
            · rename_i halt
              rw [Bool.and_eq_true, Bool.and_eq_true, decide_eq_true_eq] at halt
              cases h
              omega
            · cases h

theorem RxOnly.route {p : Nat} {d e : Dev} (h : RxOnly p d e) (entry : Option Nat) (hentry : ∀ k, entry = some k → k < 24)
    (dest : Nat) : e.route entry dest = d.route entry dest := by
  unfold Dev.route
  rw [h.egress]
  split
  · rename_i q hq
    have hq24 := egress_lt hentry hq
    have hfail : e.failedOn (transitPath entry q) = d.failedOn (transitPath entry q) := by
      have hlink : ∀ b < 51, e.fld F.FAB_LINK_STATUS_state 0 b = d.fld F.FAB_LINK_STATUS_state 0 b := fun b hb =>
        fld_congr (h _ _ _ (by simp only [F.FAB_LINK_STATUS_state, Reg.key, Reg.row]; omega))
      unfold transitPath
      split
      · rw [failedOn, failedOn, List.find?_cons, List.find?_cons, hlink _ (by omega)]
        rfl
      · rename_i k
        have hk24 := hentry k rfl
        split
        · rfl
        · rw [failedOn, failedOn, List.find?_cons, List.find?_cons, List.find?_cons, List.find?_cons, hlink _ (by omega), hlink _ (by omega)]
          rfl
    rw [hfail]
  · rfl

end Dev

end Sys2Proof.Machine
end

section
/-!
PROOFS. PACKET_ARRIVAL and REROUTED_PACKET, and the traffic of the links as a whole (13_rhanak_links_and_topology.md R469, R472-R475, R480,
R489).
-/

namespace Sys2Proof.Machine

open Sys2Proof.Claims

namespace Dev

theorem bumpPort_port (d : Dev) (x : Field) (p n k : Nat) : (d.bumpPort x p n).port k = d.port k := rfl

theorem bumpPort_out (d : Dev) (x : Field) (p n : Nat) : (d.bumpPort x p n).out = d.out := rfl

/-! ### A packet taken from its port -/

/-- The oldest packet of a port taken and accepted: counted, noted, its credit returned. -/
def arrivedTaken (d : Dev) (p : Nat) (pkt : Packet) (ks : List Packet) : Dev :=
  (d.setPort p { d.port p with arrived := ks }).acceptPacket p pkt

theorem takeArrived_of_cons {d : Dev} {p : Nat} {pkt : Packet} {ks : List Packet} (h : (d.port p).arrived = pkt :: ks) :
    d.takeArrived p = some (pkt, d.setPort p { d.port p with arrived := ks }) := by
  rw [takeArrived, h]

theorem acceptPacket_spec (d : Dev) (p : Nat) (pkt : Packet) : ((d.acceptPacket p pkt).port p).arrived = (d.port p).arrived ∧
    .rhanak p "credit" [pkt.cls, pkt.credits] ∈ (d.acceptPacket p pkt).out ∧ RxOnly p d (d.acceptPacket p pkt) := by
  refine ⟨?_, List.mem_append_right _ (List.mem_singleton.mpr rfl), fun r w j h => rd_bump_other d F.RHK_PORT_RX_BYTES_bytes _ h⟩
  unfold acceptPacket
  dsimp only
  rw [emit_port, port_onPort_same]
  rfl

theorem arrivedTaken_spec (d : Dev) (p : Nat) (pkt : Packet) (ks : List Packet) : ((d.arrivedTaken p pkt ks).port p).arrived = ks ∧
    .rhanak p "credit" [pkt.cls, pkt.credits] ∈ (d.arrivedTaken p pkt ks).out ∧ RxOnly p d (d.arrivedTaken p pkt ks) := by
  obtain ⟨harr, hcredit, hrx⟩ := acceptPacket_spec (d.setPort p { d.port p with arrived := ks }) p pkt
  refine ⟨harr.trans (congrArg RhkPort.arrived (port_setPort d p _)), hcredit, hrx⟩

/-- What every packet leaves that was taken: the packets behind it, and its credit on the way. -/
theorem Grew.taken {d e : Dev} {p : Nat} {pkt : Packet} {ks : List Packet} (h : Grew (d.arrivedTaken p pkt ks) e) :
    (e.port p).arrived = ks ∧ .rhanak p "credit" [pkt.cls, pkt.credits] ∈ e.out := by
  obtain ⟨harr, hcredit, -⟩ := d.arrivedTaken_spec p pkt ks
  exact ⟨(h.1 p).trans harr, h.2 _ hcredit⟩

/-! ### A packet that goes on -/

/-- What becomes of a packet that cannot leave. -/
def refusedIf (d : Dev) (p : Nat) (pkt : Packet) (code : Nat) : Dev := if pkt.isRequest then d.refuse (some p) pkt code else d

theorem traffic_refusedIf (d : Dev) (p : Nat) (pkt : Packet) (code : Nat) : Traffic d (d.refusedIf p pkt code) :=
  .ite (traffic_refuse ..) (.refl d)

theorem traffic_dropMalformed (d : Dev) (p hop : Nat) (pkt : Packet) : Traffic d (d.dropMalformed p hop pkt) := by
  have h : Traffic d ((d.rhkError F.RHK_ERR_STATUS_malformed (some p) pkt 4).forwardAck p pkt.cls hop) :=
    (traffic_rhkError d rfl rfl (by decide) _ _ _).trans (.emit _ _)
  exact .ite (h.trans (traffic_refuse ..)) h

/-- A dropped packet sets its leaf. -/
theorem isSet_dropMalformed (d : Dev) (p hop : Nat) (pkt : Packet) :
    (d.dropMalformed p hop pkt).isSet F.RHK_ERR_STATUS_malformed (p / 4) = true := by
  have hset : ((d.rhkError F.RHK_ERR_STATUS_malformed (some p) pkt 4).forwardAck p pkt.cls hop).isSet F.RHK_ERR_STATUS_malformed (p / 4) = true :=
    isSet_rhkError d (by decide) (by decide) p pkt 4
  unfold dropMalformed
  dsimp only
  split
  · exact (traffic_refuse ..).err _ _ rfl hset
  · exact hset

/-- The packet as it goes on, with the place in the ring that it has. -/
def goingOn (pkt : Packet) (ring : Bool) : Packet := { pkt with prev := if ring then pkt.cur else 0, prevValid := ring, rerouted := false }

theorem routeOn_of_answer {d : Dev} {p : Nat} {pkt : Packet} {code : Nat} (h : d.route (some p) pkt.dest = .answer code) (hop : Nat)
    (accepted : Bool) : d.routeOn p hop pkt accepted =
      ((d.rhkError F.RHK_ERR_STATUS_no_route (some p) pkt code).forwardAck p pkt.cls hop).refusedIf p pkt code := by
  rw [routeOn, h]; rfl

theorem routeOn_of_port {d : Dev} {p : Nat} {pkt : Packet} {q : Nat} (h : d.route (some p) pkt.dest = .port q) (hop : Nat) (accepted : Bool) :
    ∃ (ring along : Bool) (owed : Option (Nat × Nat)), d.routeOn p hop pkt accepted =
      if (d.leave (some p) q (goingOn pkt ring) owed).1 then
        (if along then (d.leave (some p) q (goingOn pkt ring) owed).2
          else (d.leave (some p) q (goingOn pkt ring) owed).2.forwardAck p pkt.cls hop)
      else ((d.leave (some p) q (goingOn pkt ring) owed).2.forwardAck p pkt.cls hop).refusedIf p pkt 6 := by
  rw [routeOn, h]
  exact ⟨_, _, _, rfl⟩

theorem grew_routeOn (d : Dev) (p hop : Nat) (pkt : Packet) (accepted : Bool) : Grew d (d.routeOn p hop pkt accepted) := by
  cases h : d.route (some p) pkt.dest with
  | here =>
    have hack := grew_forwardAck d p pkt.cls hop
    rw [routeOn, h]
    dsimp only
    split
    · exact hack.trans (grew_serveRemote ..)
    · split
      · exact hack.trans (grew_response ..)
      · exact hack.trans (.of_traffic (.emit _ _))
  | port q =>
    obtain ⟨ring, along, owed, heq⟩ := routeOn_of_port h hop accepted
    have hleave := Grew.of_traffic (traffic_leave d (some p) q (goingOn pkt ring) owed)
    rw [heq]
    split
    · split
      · exact hleave
      · exact hleave.trans (grew_forwardAck ..)
    · exact hleave.trans ((grew_forwardAck ..).trans (.of_traffic (traffic_refusedIf ..)))
  | answer code =>
    rw [routeOn_of_answer h]
    exact (Grew.of_traffic (traffic_rhkError d rfl rfl (by decide) _ _ _)).trans
      ((grew_forwardAck ..).trans (.of_traffic (traffic_refusedIf ..)))

/-- A packet without a route is noted. -/
theorem routeOn_noted {d : Dev} {p : Nat} {pkt : Packet} {code : Nat} (h : d.route (some p) pkt.dest = .answer code) (hop : Nat)
    (accepted : Bool) : (d.routeOn p hop pkt accepted).isSet F.RHK_ERR_STATUS_no_route (p / 4) = true := by
  rw [routeOn_of_answer h]
  refine (traffic_refusedIf ..).err _ _ rfl ?_
  exact isSet_rhkError d (x := F.RHK_ERR_STATUS_no_route) (by decide) (by decide) p pkt code

/-- A packet whose hops have run out is noted. -/
theorem routeOn_expired {d : Dev} {p : Nat} {pkt : Packet} {q : Nat} (h : d.route (some p) pkt.dest = .port q) (hz : pkt.ttl = 0) (hop : Nat)
    (accepted : Bool) : (d.routeOn p hop pkt accepted).isSet F.RHK_ERR_STATUS_ttl_expired (p / 4) = true := by
  obtain ⟨ring, along, owed, heq⟩ := routeOn_of_port h hop accepted
  have hleave : d.leave (some p) q (goingOn pkt ring) owed = (false, d.rhkError F.RHK_ERR_STATUS_ttl_expired (some p) (goingOn pkt ring) 6) :=
    if_pos hz
  rw [heq, hleave]
  refine (traffic_refusedIf ..).err _ _ rfl ?_
  exact isSet_rhkError d (x := F.RHK_ERR_STATUS_ttl_expired) (by decide) (by decide) p _ 6

/-- A packet for another device goes on with one hop less. -/
theorem routeOn_sent {d : Dev} {p : Nat} {pkt : Packet} {q : Nat} (h : d.route (some p) pkt.dest = .port q) (hpos : 0 < pkt.ttl) (hop : Nat)
    (accepted : Bool) : SentOn (d.routeOn p hop pkt accepted) q pkt := by
  obtain ⟨ring, along, owed, heq⟩ := routeOn_of_port h hop accepted
  have hpos' : 0 < (goingOn pkt ring).ttl := hpos
  rw [heq, leave_of_ttl hpos']
  have hsent : SentOn (d.give q { goingOn pkt ring with ttl := (goingOn pkt ring).ttl - 1 } owed) q pkt :=
    sentOn_give d q owed rfl rfl rfl rfl (Nat.sub_add_cancel hpos)
  cases along
  · exact hsent
  · exact hsent

/-! ### The two commands -/

/-- The copy of a rerouted packet that has come already. -/
def duplicateDropped (d : Dev) (p hop : Nat) (pkt : Packet) : Dev := (d.bumpPort F.RHK_PORT_DUP_CNT_packets p 1).forwardAck p pkt.cls hop

theorem grew_duplicateDropped (d : Dev) (p hop : Nat) (pkt : Packet) : Grew d (d.duplicateDropped p hop pkt) :=
  (Grew.of_regs (.bump d F.RHK_PORT_DUP_CNT_packets _ _ 1)).trans (grew_forwardAck ..)

theorem packetArrival_of_cons {d : Dev} {p : Nat} {pkt : Packet} {ks : List Packet} (h : (d.port p).arrived = pkt :: ks)
    (hr : d.reroutedHere p = false) (accepted : Bool) : ∃ (hop : Nat) (seen : Bool), d.packetArrival p accepted =
      if pkt.malformed then (d.arrivedTaken p pkt ks).dropMalformed p hop pkt
      else if pkt.rerouted && (d.arrivedTaken p pkt ks).idValid && pkt.dest == (d.arrivedTaken p pkt ks).deviceId && seen then
        (d.arrivedTaken p pkt ks).duplicateDropped p hop pkt
      else (d.arrivedTaken p pkt ks).routeOn p hop pkt accepted := by
  rw [packetArrival, hr, takeArrived_of_cons h]
  exact ⟨_, _, rfl⟩

/-- The neighbour on a ring primary port that a rerouted packet is for. -/
def handedOn (d : Dev) (p hop : Nat) (pkt : Packet) (q : Nat) : Dev :=
  let d := d.forwardAck p pkt.cls hop
  if d.portUp q then (d.leave (some p) q pkt none).2
  else (d.rhkError F.RHK_ERR_STATUS_no_route (some p) pkt 6).refusedIf p pkt 6

theorem grew_handedOn (d : Dev) (p hop : Nat) (pkt : Packet) (q : Nat) : Grew d (d.handedOn p hop pkt q) := by
  refine (grew_forwardAck d p pkt.cls hop).trans (.of_traffic ?_)
  exact .ite (traffic_leave ..) ((traffic_rhkError _ rfl rfl (by decide) _ _ _).trans (traffic_refusedIf ..))

theorem reroutedPacket_of_cons {d : Dev} {p : Nat} {pkt : Packet} {ks : List Packet} (h : (d.port p).arrived = pkt :: ks)
    (hr : d.reroutedHere p = true) (accepted : Bool) : ∃ hop : Nat, d.reroutedPacket p accepted =
      if pkt.malformed then (d.arrivedTaken p pkt ks).dropMalformed p hop pkt
      else
        match ((d.arrivedTaken p pkt ks).skipDir p).bind (d.arrivedTaken p pkt ks).primaryOf with
        | none => (d.arrivedTaken p pkt ks).routeOn p hop pkt accepted
        | some q =>
          if (d.arrivedTaken p pkt ks).pfld F.RHK_PORT_STATUS_nb_valid q = 1 ∧
              pkt.dest = (d.arrivedTaken p pkt ks).pfld F.RHK_PORT_STATUS_nb_id q then (d.arrivedTaken p pkt ks).handedOn p hop pkt q
          else if ((Sp.get (fun _ => none) ((d.arrivedTaken p pkt ks).port q).lastPrev pkt.cls).map
              (fun s => Packet.notLater pkt.cur s)).getD false then (d.arrivedTaken p pkt ks).duplicateDropped p hop pkt
          else (d.arrivedTaken p pkt ks).routeOn p hop pkt accepted := by
  rw [reroutedPacket, hr, takeArrived_of_cons h]
  exact ⟨_, rfl⟩

theorem handedOn_sent {d : Dev} {p : Nat} {pkt : Packet} {q : Nat} (hup : d.portUp q = true) (hpos : 0 < pkt.ttl) (hop : Nat) :
    SentOn (d.handedOn p hop pkt q) q pkt := by
  have heq : d.handedOn p hop pkt q = ((d.forwardAck p pkt.cls hop).leave (some p) q pkt none).2 := if_pos hup
  rw [heq, leave_of_ttl hpos]
  exact sentOn_give _ q none rfl rfl rfl rfl (Nat.sub_add_cancel hpos)

theorem handedOn_noted {d : Dev} {p : Nat} {pkt : Packet} {q : Nat} (hup : d.portUp q = false) (hop : Nat) :
    (d.handedOn p hop pkt q).isSet F.RHK_ERR_STATUS_no_route (p / 4) = true := by
  have heq : d.handedOn p hop pkt q =
      ((d.forwardAck p pkt.cls hop).rhkError F.RHK_ERR_STATUS_no_route (some p) pkt 6).refusedIf p pkt 6 :=
    if_neg (by rw [show (d.forwardAck p pkt.cls hop).portUp q = false from hup]; decide)
  rw [heq]
  refine (traffic_refusedIf ..).err _ _ rfl ?_
  exact isSet_rhkError _ (x := F.RHK_ERR_STATUS_no_route) (by decide) (by decide) p pkt 6

theorem packetArrival_spec {d : Dev} {p : Nat} (hp : p < 24) {pkt : Packet} {ks : List Packet} (h : (d.port p).arrived = pkt :: ks)
    (hr : d.reroutedHere p = false) (accepted : Bool) :
    Grew (d.arrivedTaken p pkt ks) (d.packetArrival p accepted) ∧
    (pkt.malformed = true → (d.packetArrival p accepted).isSet F.RHK_ERR_STATUS_malformed (p / 4) = true) ∧
    (pkt.malformed = false → pkt.rerouted = false →
      (∀ code, d.route (some p) pkt.dest = .answer code → (d.packetArrival p accepted).isSet F.RHK_ERR_STATUS_no_route (p / 4) = true) ∧
      (∀ q, d.route (some p) pkt.dest = .port q → pkt.ttl = 0 →
        (d.packetArrival p accepted).isSet F.RHK_ERR_STATUS_ttl_expired (p / 4) = true) ∧
      (∀ q, d.route (some p) pkt.dest = .port q → 0 < pkt.ttl → SentOn (d.packetArrival p accepted) q pkt)) := by
  obtain ⟨hop, seen, heq⟩ := packetArrival_of_cons h hr accepted
  obtain ⟨-, -, hrx⟩ := d.arrivedTaken_spec p pkt ks
  have hroute := hrx.route (some p) (fun k hk => by cases hk; exact hp) pkt.dest
  rw [heq]
  refine ⟨?_, fun hm => ?_, fun hm hre => ?_⟩
  · split
    · exact .of_traffic (traffic_dropMalformed ..)
    · split
      · exact grew_duplicateDropped ..
      · exact grew_routeOn ..
  · rw [if_pos hm]
    exact isSet_dropMalformed ..
  · rw [if_neg (by rw [hm]; decide), if_neg (by rw [hre]; exact Bool.false_ne_true)]
    exact ⟨fun code hc => routeOn_noted (hroute.trans hc) hop accepted, fun q hq hz => routeOn_expired (hroute.trans hq) hz hop accepted,
      fun q hq hpos => routeOn_sent (hroute.trans hq) hpos hop accepted⟩

theorem reroutedPacket_spec {d : Dev} {p : Nat} {pkt : Packet} {ks : List Packet} (h : (d.port p).arrived = pkt :: ks)
    (hr : d.reroutedHere p = true) (accepted : Bool) :
    Grew (d.arrivedTaken p pkt ks) (d.reroutedPacket p accepted) ∧
    (pkt.malformed = true → (d.reroutedPacket p accepted).isSet F.RHK_ERR_STATUS_malformed (p / 4) = true) ∧
    (∀ q, pkt.malformed = false → (d.skipDir p).bind d.primaryOf = some q → d.pfld F.RHK_PORT_STATUS_nb_valid q = 1 →
      pkt.dest = d.pfld F.RHK_PORT_STATUS_nb_id q →
      (d.portUp q = true → 0 < pkt.ttl → SentOn (d.reroutedPacket p accepted) q pkt) ∧
      (d.portUp q = false → (d.reroutedPacket p accepted).isSet F.RHK_ERR_STATUS_no_route (p / 4) = true)) := by
  obtain ⟨hop, heq⟩ := reroutedPacket_of_cons h hr accepted
  obtain ⟨-, -, hrx⟩ := d.arrivedTaken_spec p pkt ks
  rw [heq]
  refine ⟨?_, fun hm => ?_, fun q hm hq hv hid => ?_⟩
  · split
    · exact .of_traffic (traffic_dropMalformed ..)
    · split
      · exact grew_routeOn ..
      · split
        · exact grew_handedOn ..
        · split
          · exact grew_duplicateDropped ..
          · exact grew_routeOn ..
  · rw [if_pos hm]
    exact isSet_dropMalformed ..
  · have hbind : ((d.arrivedTaken p pkt ks).skipDir p).bind (d.arrivedTaken p pkt ks).primaryOf = some q := by
      rw [hrx.skipDir, show (d.arrivedTaken p pkt ks).primaryOf = d.primaryOf from funext hrx.primaryOf]
      exact hq
    rw [if_neg (by rw [hm]; decide), hbind]
    dsimp only
    rw [if_pos ⟨(hrx.pfld (.inl rfl) q).trans hv, hid.trans (hrx.pfld (.inl rfl) q).symm⟩]
    exact ⟨fun hup hpos => handedOn_sent ((hrx.portUp q).trans hup) hpos hop, fun hup => handedOn_noted ((hrx.portUp q).trans hup) hop⟩

end Dev

end Sys2Proof.Machine

namespace Sys2Proof.Proofs

open Sys2Proof.Machine Sys2Proof.Claims

/-- Settles O54: flits by FEC, type and sequence; packets by the branch of their command. -/
theorem linkTraffic : Obligations.LinkTraffic := by
  intro s p hawake d x same
  have hp : p.val < 24 := p.isLt
  have hout : d.out = [] := rfl
  have hkeep {i : Instr} {e : Dev} (hi : exec i s = .next (left s e)) (he : e = d) : exec i s = .next same := by rw [hi, he]
  refine ⟨fun flit errs note => ?_, fun seq => ?_, fun cls seq => ?_, fun accepted => ⟨fun h => ?_, fun h => ?_⟩, fun accepted pkt ks hx hr => ?_,
    fun accepted pkt ks hx hr => ?_⟩
  · have hrun : exec (.linkFlitReceive p flit errs note) s = .next (left s (d.linkFlit p flit errs note)) := State.apply_awake hawake _ _
    intro go type seq failed
    have hfailed {e : Dev} (hport : e.port p = x) (hnone : e.out = []) : failed (e.flitFailed p x.rxSeq) := by
      show if x.rxFails + 1 < 8 then _ else _
      split
      · rename_i hfew
        have hfew' : (e.port p).rxFails + 1 < 8 := by rw [hport]; exact hfew
        obtain ⟨hfails, houts, hseq⟩ := Dev.flitFailed_few hfew' x.rxSeq hnone
        rw [hport] at hfails hseq
        exact ⟨hfails, houts, hseq⟩
      · rename_i hmany
        exact Dev.flitFailed_many hp (by rw [hport]; exact hmany) x.rxSeq
    have hcorrected (c : Bool) : (d.corrected p c).rhk = d.rhk ∧ (d.corrected p c).out = [] := by
      rw [d.corrected_regsOnly p c]
      exact ⟨rfl, rfl⟩
    have hcorrectedPort (c : Bool) : (d.corrected p c).port p = x := Dev.port_congr (by rw [(hcorrected c).1]) _
    refine ⟨fun hup => hkeep hrun (Dev.linkFlit_of_down hup flit errs note), fun hup hfec => ?_, fun hup hl hfew ht => ?_,
      fun hup hl hfew ht hseq => ?_, fun hup hl hfew ht hseq => ?_⟩
    · rw [Dev.linkFlit_of_uncorrectable hup hfec] at hrun
      exact ⟨_, hrun, hfailed (Dev.bumpPort_port d _ p 1 p) (Dev.bumpPort_out d _ p 1)⟩
    · obtain ⟨c, hc⟩ := Fec.receive_of_few hfew
      rw [Dev.linkFlit_of_clean hup hc hl, if_pos ht] at hrun
      exact ⟨_, hrun, hfailed (hcorrectedPort c) (hcorrected c).2⟩
    · obtain ⟨c, hc⟩ := Fec.receive_of_few hfew
      rw [Dev.linkFlit_of_clean hup hc hl, if_neg (Nat.not_le.mpr ht), if_pos hseq] at hrun
      exact ⟨_, hrun, hcorrected c⟩
    · obtain ⟨c, hc⟩ := Fec.receive_of_few hfew
      rw [Dev.linkFlit_of_clean hup hc hl, if_neg (Nat.not_le.mpr ht), if_neg (not_not.mpr hseq)] at hrun
      obtain ⟨hrx, hfails, hgood, houts, hone, hother⟩ := Dev.takeFlit_spec ((d.corrected p c).flitAccepted p seq) p type
        ((flit.drop 2).take 240) note
      have hport : ((d.corrected p c).flitAccepted p seq).port p =
          { x with rxSeq := (x.rxSeq + 1) % 4096, rxFails := 0, goodAt := (d.corrected p c).now } := by
        rw [Dev.flitAccepted, Dev.emit_port, Dev.port_onPort_same, hcorrectedPort c]
      have hnow : (d.corrected p c).now = d.now := by rw [d.corrected_regsOnly p c]
      rw [hport] at hrx hfails hgood hone hother
      refine ⟨_, hrun, hrx.trans ?_, hfails, hgood.trans hnow, houts _ (List.mem_append_right _ (List.mem_singleton.mpr rfl)), hone, hother⟩
      rw [← hseq]
  · have hrun : exec (.linkNak p seq) s = .next (left s (d.linkNak p seq.toNat)) := State.apply_awake hawake _ _
    intro count
    refine ⟨fun h => hkeep hrun (Dev.linkNak_of_none h), fun hup hsent => ⟨_, hrun, ?_⟩⟩
    have hset : (d.nakNoted p seq.toNat count).isSet F.RHK_ERR_STATUS_replay (p / 4) = true := Dev.isSet_raise _ (by decide) (by decide) _ 0
    rw [Dev.linkNak_of_sent hup hsent]
    by_cases hmany : 8 ≤ count
    · rw [if_pos hmany]
      obtain ⟨-, -, -, herr, -⟩ := Dev.portDown_spec (d.nakNoted p seq.toNat count) hp
      exact ⟨herr _ rfl hset, fun h => absurd h (Nat.not_lt.mpr hmany), fun _ => Dev.portUp_portDown _ hp⟩
    · have hport := Dev.nakNoted_port d p seq.toNat count
      have hnone : (d.nakNoted p seq.toNat count).out = [] := rfl
      rw [if_neg hmany, Dev.foldl_emit]
      generalize d.nakNoted p seq.toNat count = e at hset hport hnone
      have hnaks : (e.port p).naks = count := by rw [hport]
      have hsame : (e.port p).sent = x.sent := by rw [hport]
      refine ⟨hset, fun _ => ⟨hnaks, hsame, ?_⟩, fun h => absurd h hmany⟩
      show e.out ++ _ = _
      rw [hnone, List.nil_append]
  · refine ⟨_, State.apply_awake hawake _ _, ?_⟩
    rw [Dev.ackHeld_eq]
    obtain ⟨hport, hacks⟩ := Dev.foldl_ackOwed cls.val (x.hold.filter (Dev.released cls seq.toNat))
      (d.setPort p { x with hold := x.hold.filter (fun h => !Dev.released cls seq.toNat h) })
    have hnew := (hport p).trans (Dev.port_setPort d p _)
    refine ⟨fun h hm hcov q k howed => (Dev.traffic_pump _ p).out _ (hacks h ?_ q k howed), fun hw h => ?_⟩
    · exact List.mem_filter.mpr ⟨hm, (Dev.released_iff ..).mpr hcov⟩
    · rw [Dev.hold_pump_of_none (by rw [hnew]; exact hw), hnew]
      show h ∈ x.hold.filter _ ↔ _
      rw [List.mem_filter, Bool.not_eq_true', ← Bool.not_eq_true, Dev.released_iff]
  · refine hkeep (State.apply_awake hawake _ _) ?_
    rcases h with h | h
    · exact if_pos h
    · have hr : d.reroutedHere p = false := by rw [Dev.reroutedHere, h]
      refine (if_neg (by rw [show (found s).reroutedHere p = false from hr]; decide)).trans ?_
      rw [show (found s).takeArrived p = none by rw [Dev.takeArrived, h]]
  · exact hkeep (State.apply_awake hawake _ _) (if_pos (by rw [show (found s).reroutedHere p = false from h]; rfl))
  · obtain ⟨hgrew, hmal, hgo⟩ := Dev.packetArrival_spec hp hx hr accepted
    obtain ⟨harr, hcredit⟩ := hgrew.taken
    exact ⟨_, State.apply_awake hawake _ _, harr, hcredit, hmal, hgo⟩
  · obtain ⟨hgrew, hmal, hgo⟩ := Dev.reroutedPacket_spec hx hr accepted
    obtain ⟨harr, hcredit⟩ := hgrew.taken
    exact ⟨_, State.apply_awake hawake _ _, harr, hcredit, hmal, hgo⟩

end Sys2Proof.Proofs
end

section
/-!
PROOFS. Queue pairs: NAKs, packets in their turn, messages in SEND packets and their retries (15_host_ethernet_interface.md R538, R539,
R543-R549).
-/

namespace Sys2Proof.Machine

open Sys2Proof.Claims

/-! ### The mailbox unit leaves the Ethernet port -/

/-- The device `e` is `d` but for the mailbox unit: registers, rings, event numbers and quotes that wait. -/
def UnitOnly (d e : Dev) : Prop := e = { d with regs := e.regs, rings := e.rings, eventSeq := e.eventSeq, boot := e.boot }

namespace UnitOnly

variable {d e : Dev}

theorem refl (d : Dev) : UnitOnly d d := rfl

theorem after {f : Dev} (k : UnitOnly e f) (h : UnitOnly d e) : UnitOnly d f := by
  unfold UnitOnly at h k ⊢
  rw [k, h]

theorem ite {c : Prop} [Decidable c] {x y : Dev} (h : UnitOnly d x) (k : UnitOnly d y) : UnitOnly d (if c then x else y) := by
  split
  · exact h
  · exact k

theorem setFld (d : Dev) (x : Field) (w j v : Nat) : UnitOnly d (d.setFld x w j v) := rfl
theorem setRing (d : Dev) (c : Nat) (x : Ring) : UnitOnly d (d.setRing c x) := rfl

theorem of_mail (h : MailOnly d e) : UnitOnly d e := by
  unfold UnitOnly
  rw [h.1]

theorem eth (h : UnitOnly d e) : e.eth = d.eth := by rw [h]
theorem out (h : UnitOnly d e) : e.out = d.out := by rw [h]
theorem now (h : UnitOnly d e) : e.now = d.now := by rw [h]

end UnitOnly

namespace Dev

theorem feed_unit (d : Dev) (c : Nat) : UnitOnly d (d.feed c) := by
  unfold feed
  split
  · split
    · exact .after (.of_mail (mailOnly_proisPut _ c _)) rfl
    · exact .refl d
  · exact .refl d

theorem ringTake_unit (d : Dev) (c : Nat) : UnitOnly d (d.ringTake c).2 := by
  unfold ringTake
  dsimp only
  split
  · exact .refl d
  · exact .after (feed_unit _ c) (.after (.ite (.setFld _ F.INT_FW_board_msg 0 0 0) (.refl _)) (.setRing d c _))

theorem answerUnlisted_unit (n c : Nat) : ∀ d : Dev, UnitOnly d (answerUnlisted n c d) := by
  induction n with
  | zero => exact .refl
  | succ n ih =>
    intro d
    unfold answerUnlisted
    dsimp only
    split
    · exact .refl d
    · split
      · exact .refl d
      · exact .after (ih _) (.after (.of_mail (mailOnly_proisSend _ _ _ _)) (ringTake_unit d c))

theorem mbxDrop_unit (d : Dev) (x : Field) (sender c : Nat) (port : MbxPort) : UnitOnly d (d.mbxDrop x sender c port) := by
  unfold mbxDrop
  dsimp only
  split <;> rfl

theorem mbxArrive_unit (d : Dev) (sender c : Nat) (port : MbxPort) (bs : List Byte) : UnitOnly d (d.mbxArrive sender c port bs).2 := by
  unfold mbxArrive
  dsimp only
  split
  · exact mbxDrop_unit d _ _ _ _
  · split
    · exact mbxDrop_unit d _ _ _ _
    · exact .after (answerUnlisted_unit _ _ _) (.of_mail (mailOnly_ringPut d c _))

theorem hostMessage_unit (d : Dev) (identity : Nat) (bs : List Byte) : UnitOnly d (d.hostMessage identity bs) :=
  .ite (.refl d) (mbxArrive_unit d _ _ _ _)

/-! ### NAKs -/

theorem qp_congr {d e : Dev} (h : e.eth = d.eth) (q : Nat) : e.qp q = d.qp q := by rw [qp, h, qp]

theorem qp_onQp_same (d : Dev) (q : Nat) (f : QPair → QPair) : (d.onQp q f).qp q = f (d.qp q) := qp_setQp_same d q _

/-- The status entry, the counters, the capture and the packet of a NAK, before the queue pair's state. -/
def nakPosted (d : Dev) (q psn code : Nat) (k : Nak) : Dev :=
  let d := d.qpStatus q psn code
  let d := (d.ethCapture q psn code).raise F.ETH_ERR_STATUS_nak_sent
  let d := if k = .rnr then d.bump F.ETH_NAK_CNT_rnr 0 0 1 else d.bump F.ETH_NAK_CNT_nak 0 0 1
  d.ethSend k.name q (d.roceBytes q 4) (leBytes 3 psn ++ (if k = .rnr then leBytes 1 (d.fld F.ETH_CTRL_rnr_timer) else []))

theorem sendNak_asks (d : Dev) (q psn code : Nat) {k : Nak} (h : k = .rnr ∨ k = .sequence) :
    d.sendNak q psn code k = (d.nakPosted q psn code k).onQp q (fun x => { x with asked := true }) := by
  rcases h with rfl | rfl <;> rfl

theorem sendNak_fails (d : Dev) (q psn code : Nat) {k : Nak} (h : k ≠ .rnr ∧ k ≠ .sequence) :
    d.sendNak q psn code k = (d.nakPosted q psn code k).qpFail q psn code := by
  cases k with
  | rnr => exact absurd rfl h.1
  | sequence => exact absurd rfl h.2
  | access | operational | invalid => rfl

theorem ethCapture_regsOnly (d : Dev) (q psn code : Nat) : RegsOnly d (d.ethCapture q psn code) :=
  .ite (.refl d) (.wr d .ETH_ERR_INFO 0 0 _)

theorem qpStatus_eth (d : Dev) (q psn code : Nat) : (d.qpStatus q psn code).eth = d.eth ∧ (d.qpStatus q psn code).rings = d.rings := by
  unfold qpStatus
  split
  · exact ⟨rfl, rfl⟩
  · dsimp only
    rw [pokeRange_frame]
    exact ⟨rfl, rfl⟩

/-- A NAK leaves the port's queue pairs and the rings. -/
theorem nakPosted_eth (d : Dev) (q psn code : Nat) (k : Nak) :
    (d.nakPosted q psn code k).eth = d.eth ∧ (d.nakPosted q psn code k).rings = d.rings := by
  obtain ⟨heth, hrings⟩ := qpStatus_eth d q psn code
  have hregs : RegsOnly (d.qpStatus q psn code)
      (if k = .rnr then (((d.qpStatus q psn code).ethCapture q psn code).raise F.ETH_ERR_STATUS_nak_sent).bump F.ETH_NAK_CNT_rnr 0 0 1
        else (((d.qpStatus q psn code).ethCapture q psn code).raise F.ETH_ERR_STATUS_nak_sent).bump F.ETH_NAK_CNT_nak 0 0 1) :=
    .ite ((RegsOnly.bump _ F.ETH_NAK_CNT_rnr 0 0 1).after ((RegsOnly.raise _ F.ETH_ERR_STATUS_nak_sent 0 0).after (ethCapture_regsOnly _ q psn code)))
      ((RegsOnly.bump _ F.ETH_NAK_CNT_nak 0 0 1).after ((RegsOnly.raise _ F.ETH_ERR_STATUS_nak_sent 0 0).after (ethCapture_regsOnly _ q psn code)))
  unfold nakPosted
  dsimp only
  generalize (if k = .rnr then (((d.qpStatus q psn code).ethCapture q psn code).raise F.ETH_ERR_STATUS_nak_sent).bump F.ETH_NAK_CNT_rnr 0 0 1
    else (((d.qpStatus q psn code).ethCapture q psn code).raise F.ETH_ERR_STATUS_nak_sent).bump F.ETH_NAK_CNT_nak 0 0 1) = e at hregs
  have he : e.eth = (d.qpStatus q psn code).eth := by rw [hregs]
  have hr : e.rings = (d.qpStatus q psn code).rings := by rw [hregs]
  exact ⟨he.trans heth, hr.trans hrings⟩

theorem qpFail_qp (d : Dev) (q psn code : Nat) : (d.qpFail q psn code).qp q = { d.qp q with state := 2, sent := [], owed := 0 } := by
  have h : RegsOnly d ((d.ethCapture q psn code).raise F.ETH_ERR_STATUS_qp_error) :=
    (RegsOnly.raise _ _ 0 0).after (ethCapture_regsOnly d q psn code)
  have heth : ((d.ethCapture q psn code).raise F.ETH_ERR_STATUS_qp_error).eth = d.eth := by rw [h]
  rw [qpFail, qp_onQp_same, qp_congr heth]

theorem qpFail_rings (d : Dev) (q psn code : Nat) : (d.qpFail q psn code).rings = d.rings := by
  have h : RegsOnly d ((d.ethCapture q psn code).raise F.ETH_ERR_STATUS_qp_error) :=
    (RegsOnly.raise _ _ 0 0).after (ethCapture_regsOnly d q psn code)
  show ((d.ethCapture q psn code).raise F.ETH_ERR_STATUS_qp_error).rings = _
  rw [h]

theorem isSet_onQp (d : Dev) (q : Nat) (f : QPair → QPair) (x : Field) : (d.onQp q f).isSet x = d.isSet x := rfl

theorem isSet_qpFail (d : Dev) (q psn code : Nat) : (d.qpFail q psn code).isSet F.ETH_ERR_STATUS_qp_error = true := by
  rw [qpFail, isSet_onQp]
  exact isSet_raise _ (by decide) (by decide) 0 0

/-- A NAK that asks for a packet again is noted in the queue pair and changes nothing else of it. -/
theorem sendNak_asked (d : Dev) (q psn code : Nat) {k : Nak} (h : k = .rnr ∨ k = .sequence) :
    (d.sendNak q psn code k).qp q = { d.qp q with asked := true } := by
  rw [sendNak_asks d q psn code h, qp_onQp_same, qp_congr (nakPosted_eth d q psn code k).1]

/-- Every other NAK puts the queue pair into its error state. -/
theorem sendNak_failed (d : Dev) (q psn code : Nat) {k : Nak} (h : k ≠ .rnr ∧ k ≠ .sequence) :
    ((d.sendNak q psn code k).qp q).state = 2 ∧ (d.sendNak q psn code k).isSet F.ETH_ERR_STATUS_qp_error = true ∧
      (d.sendNak q psn code k).rings = d.rings := by
  rw [sendNak_fails d q psn code h]
  exact ⟨congrArg QPair.state (qpFail_qp _ q psn code), isSet_qpFail _ q psn code,
    (qpFail_rings _ q psn code).trans (nakPosted_eth d q psn code k).2⟩

/-! ### The turn of a packet -/

theorem place_expected {d : Dev} {q psn : Nat} (h : ahead d q psn = 0) : d.place q psn = .expected := if_pos h

theorem place_later {d : Dev} {q psn : Nat} (h : 0 < ahead d q psn) (h' : ahead d q psn < 2 ^ 23) : d.place q psn = .later :=
  (if_neg (Nat.ne_of_gt h)).trans (if_pos h')

theorem place_eq (d : Dev) (q psn : Nat) : d.place q psn = if ahead d q psn = 0 then .expected else if ahead d q psn < 2 ^ 23 then .later
    else .duplicate := rfl

theorem place_duplicate_iff {d : Dev} {q psn : Nat} (h : d.place q psn ≠ .later) : (d.place q psn == .duplicate) = !decide (ahead d q psn = 0) := by
  rw [place_eq] at h ⊢
  by_cases h0 : ahead d q psn = 0
  · rw [if_pos h0, decide_eq_true h0]; rfl
  · rw [if_neg h0] at h ⊢
    by_cases h1 : ahead d q psn < 2 ^ 23
    · rw [if_pos h1] at h
      exact absurd rfl h
    · rw [if_neg h1, decide_eq_false h0]; rfl

/-- A packet ahead of its turn asks for the one expected, once. -/
theorem outOfTurn_qp (d : Dev) (q : Nat) : (d.outOfTurn q).qp q = { d.qp q with asked := true } := by
  unfold outOfTurn
  split
  · rename_i h
    rw [← h]
  · exact sendNak_asked d q _ 7 (.inr rfl)

theorem qpRuns_state {d : Dev} {q : Nat} (h : d.qpRuns q = true) : (d.qp q).state = 1 := by
  rw [qpRuns, Bool.and_eq_true, Bool.and_eq_true, beq_iff_eq] at h
  exact h.1.2

/-! ### WRITE -/

/-- What a WRITE packet's access leaves: the next packet, or a NAK. -/
def written (q : Nat) (p : Rdma) (dup : Bool) (r : Nat × Dev) : Bool × Dev :=
  match nakOf r.1 with
  | none => (true, r.2.packetDone q 1 dup true)
  | some k => (false, r.2.sendNak q p.psn (if r.1 = 7 then 6 else r.1) k)

/-- A WRITE packet in its turn or before, by its target. -/
def writeServed (d : Dev) (q : Nat) (p : Rdma) (dup : Bool) : Bool × Dev :=
  match d.target q p true with
  | .refused => (false, d.sendNak q p.psn 7 .access)
  | .window => written q p dup (d.serveWrite (d.hostReq q) (p.va + p.off) (clean p.data) p.accepted)
  | .context => written q p dup (d.outsideWrite (d.hostReq q) (p.va + p.off) (clean p.data) { host := true } p.accepted)

theorem writePacket_stopped {d : Dev} {q : Nat} (h : d.qpRuns q = false) (p : Rdma) : d.writePacket q p = (false, d) :=
  if_pos (by rw [h]; rfl)

theorem writePacket_later {d : Dev} {q : Nat} {p : Rdma} (h : d.qpRuns q = true) (hp : d.place q p.psn = .later) :
    d.writePacket q p = (false, d.outOfTurn q) := by
  refine (if_neg (by rw [h]; decide)).trans ?_
  rw [hp]

theorem writePacket_served {d : Dev} {q : Nat} {p : Rdma} (h : d.qpRuns q = true) (hp : d.place q p.psn ≠ .later) :
    d.writePacket q p = if 2 ^ 31 < p.len then (false, d.sendNak q p.psn 7 .invalid)
      else d.writeServed q p (d.place q p.psn == .duplicate) := by
  refine (if_neg (by rw [h]; decide)).trans ?_
  cases hpl : d.place q p.psn with
  | later => exact absurd hpl hp
  | expected => rfl
  | duplicate => rfl

theorem target_window {d : Dev} {q : Nat} {p : Rdma} {write : Bool} (h : InWindow d q p write) : d.target q p write = .window := by
  obtain ⟨hkey, hkind, hright, base, n, hwin, hlo, hhi, hown⟩ := h
  obtain ⟨w, hw, hbn⟩ := Option.map_eq_some_iff.mp hwin
  obtain ⟨i, b, m⟩ := w
  cases hbn
  unfold target
  dsimp only
  rw [if_neg, if_pos hkind, hw]
  · refine if_pos ⟨hlo, hhi, fun ⟨hw, hlt, hpos⟩ => ?_⟩
    exact absurd (hown hw hpos) (Nat.not_le.mpr hlt)
  · rintro (hk | hr)
    · exact hk hkey
    · cases write with
      | true => rw [if_pos rfl] at hr hright; rw [hright] at hr; cases hr
      | false => rw [if_neg Bool.false_ne_true] at hr hright; rw [hright] at hr; cases hr

theorem target_refused {d : Dev} {q : Nat} {p : Rdma} (h : bits p.key 23 0 ≠ (d.qp q).rkey) (write : Bool) : d.target q p write = .refused :=
  if_pos (.inl h)

theorem nakOf_one : nakOf 1 = some .rnr := rfl

/-- A code of an access that fails, other than fenced, draws a NAK that ends the queue pair. -/
theorem nakOf_fails {code : Nat} (h : 1 < code) : ∃ k, nakOf code = some k ∧ k ≠ .rnr ∧ k ≠ .sequence := by
  unfold nakOf
  split
  · omega
  · omega
  · exact ⟨_, rfl, by decide, by decide⟩
  · exact ⟨_, rfl, by decide, by decide⟩
  · exact ⟨_, rfl, by decide, by decide⟩

/-- The queue pair after a packet in its turn. -/
def doneQp (now span : Nat) (owes : Bool) (x : QPair) : QPair := { x with
  recvPsn := (x.recvPsn + span) % 2 ^ 24, asked := false
  owed := if owes then x.owed + 1 else x.owed, owedAt := if owes && x.owed == 0 then now else x.owedAt }

theorem packetDone_eq (d : Dev) (q span : Nat) (owes : Bool) : d.packetDone q span false owes = d.onQp q (doneQp d.now span owes) := rfl

theorem packetDone_qp (d : Dev) (q span : Nat) (owes : Bool) : (d.packetDone q span false owes).qp q = doneQp d.now span owes (d.qp q) := by
  rw [packetDone_eq, qp_onQp_same]

theorem packetDone_mem (d : Dev) (q span : Nat) (owes : Bool) : (d.packetDone q span false owes).mem = d.mem := rfl

theorem packetDone_out (d : Dev) (q span : Nat) (owes : Bool) : (d.packetDone q span false owes).out = d.out := rfl

theorem packetDone_rings (d : Dev) (q span : Nat) (owes : Bool) : (d.packetDone q span false owes).rings = d.rings := rfl

/-- A WRITE that completes leaves what its queue pair is bound to. -/
theorem written_binding {q : Nat} {p : Rdma} {dup : Bool} {r : Nat × Dev} (h : (written q p dup r).1 = true) :
    ((written q p dup r).2.qp q).imm = (r.2.qp q).imm ∧ ((written q p dup r).2.qp q).identity = (r.2.qp q).identity := by
  unfold written at h ⊢
  split at h
  · dsimp only
    cases dup with
    | true =>
      have hack : (r.2.packetDone q 1 true true).qp q = { r.2.qp q with owed := 0 } := qp_setQp_same r.2 q _
      rw [hack]
      exact ⟨rfl, rfl⟩
    | false =>
      rw [packetDone_qp]
      exact ⟨rfl, rfl⟩
  · cases h

theorem serveWrite_eth (d : Dev) (rq : Req) (a : Nat) (bs : List PByte) (k : Bool) : (d.serveWrite rq a bs k).2.eth = d.eth :=
  (ServeOnly.of_mem (serveWrite_memOnly d rq a bs k)).eth

/-- A WRITE that completes was in its turn or a duplicate, and left what its queue pair is bound to. -/
theorem writePacket_completes {d : Dev} {q : Nat} {p : Rdma} (h : (d.writePacket q p).1 = true) :
    d.place q p.psn ≠ .later ∧ ((d.writePacket q p).2.qp q).imm = (d.qp q).imm ∧ ((d.writePacket q p).2.qp q).identity = (d.qp q).identity := by
  have hruns : d.qpRuns q = true := by
    by_contra hn
    rw [writePacket_stopped (Bool.eq_false_iff.mpr hn)] at h
    cases h
  have hplace : d.place q p.psn ≠ .later := fun hl => by
    rw [writePacket_later hruns hl] at h
    cases h
  refine ⟨hplace, ?_⟩
  rw [writePacket_served hruns hplace] at h ⊢
  split at h
  · cases h
  · rename_i hlen
    rw [if_neg hlen]
    unfold writeServed at h ⊢
    split at h
    · cases h
    · obtain ⟨himm, hid⟩ := written_binding h
      rw [qp_congr (serveWrite_eth ..)] at himm hid
      exact ⟨himm, hid⟩
    · obtain ⟨himm, hid⟩ := written_binding h
      rw [qp_congr (outsideWrite_serveOnly ..).eth] at himm hid
      exact ⟨himm, hid⟩

/-! ### READ -/

/-- What a READ's access leaves: its response and the next packet, or a NAK. -/
def readAnswered (q : Nat) (p : Rdma) (dup : Bool) (r : (Nat × List PByte) × Dev) : Dev :=
  match nakOf r.1.1 with
  | none =>
    let n := r.2.readPackets q p.len
    let d := r.2.ethSend "READ response" q (n * r.2.roceBytes q 4 + p.len) (r.1.2.map PByte.val)
    if dup then d else d.packetDone q n false false
  | some k =>
    let code := if r.1.1 = 7 then 6 else r.1.1
    let d := if code = 3 then (r.2.ethCapture q p.psn code).raise F.ETH_ERR_STATUS_poison_read else r.2
    d.sendNak q p.psn code k

/-- A READ in its turn or before, by its target. -/
def readServed (d : Dev) (q : Nat) (p : Rdma) (dup : Bool) : Dev :=
  match d.target q p false with
  | .refused => d.sendNak q p.psn 7 .access
  | .window => readAnswered q p dup (d.serveRead (d.hostReq q) p.va p.len p.accepted)
  | .context => readAnswered q p dup (d.outsideRead (d.hostReq q) p.va p.len { host := true } p.accepted)

theorem rdmaRead_stopped {d : Dev} {q : Nat} (h : d.qpRuns q = false) (p : Rdma) (served : Nat) : d.rdmaRead q p served = d :=
  if_pos (by rw [h]; rfl)

theorem rdmaRead_later {d : Dev} {q : Nat} {p : Rdma} (h : d.qpRuns q = true) (hp : d.place q p.psn = .later) (served : Nat) :
    d.rdmaRead q p served = d.outOfTurn q := by
  refine (if_neg (by rw [h]; decide)).trans ?_
  rw [hp]

theorem rdmaRead_served {d : Dev} {q : Nat} {p : Rdma} (h : d.qpRuns q = true) (hp : d.place q p.psn = .expected) {served : Nat}
    (hl : p.len ≤ 2 ^ 31) (hs : served < 16) : d.rdmaRead q p served = d.readServed q p false := by
  refine (if_neg (by rw [h]; decide)).trans ?_
  rw [hp]
  refine (if_neg ?_).trans rfl
  rintro (hlen | hmany)
  · exact absurd hl (Nat.not_le.mpr hlen)
  · exact absurd hs (Nat.not_lt.mpr hmany)

end Dev

end Sys2Proof.Machine
end

section
/-!
PROOFS. Messages in SEND packets, their answers and retries, and the queue pairs as a whole (15_host_ethernet_interface.md R538, R539,
R543-R549).
-/

namespace Sys2Proof.Machine

open Sys2Proof.Claims

namespace Dev

/-! ### What a served packet leaves -/

theorem written_spec {q : Nat} {p : Rdma} {r : Nat × Dev} {x : QPair} (hqp : r.2.qp q = x) (hx : x.state = 1) :
    (r.1 = 0 → (written q p false r).2.mem = r.2.mem ∧ ((written q p false r).2.qp q).recvPsn = (x.recvPsn + 1) % 2 ^ 24 ∧
      ((written q p false r).2.qp q).owed = x.owed + 1 ∧ ((written q p false r).2.qp q).state = 1) ∧
    (r.1 = 1 → (written q p false r).2.qp q = { x with asked := true }) ∧ (1 < r.1 → ((written q p false r).2.qp q).state = 2) := by
  refine ⟨fun hz => ?_, fun hone => ?_, fun hfail => ?_⟩
  · have hw : written q p false r = (true, r.2.packetDone q 1 false true) := by
      have hk : nakOf r.1 = none := by rw [hz]; rfl
      rw [written, hk]
    rw [hw, packetDone_mem, packetDone_qp, hqp]
    exact ⟨rfl, rfl, rfl, hx⟩
  · have hw : written q p false r = (false, r.2.sendNak q p.psn (if r.1 = 7 then 6 else r.1) .rnr) := by
      have hk : nakOf r.1 = some .rnr := by rw [hone]; rfl
      rw [written, hk]
    rw [hw, sendNak_asked r.2 q p.psn _ (.inl rfl), hqp]
  · obtain ⟨k, hk, hne⟩ := nakOf_fails hfail
    have hw : written q p false r = (false, r.2.sendNak q p.psn (if r.1 = 7 then 6 else r.1) k) := by rw [written, hk]
    rw [hw]
    exact (sendNak_failed r.2 q p.psn _ hne).1

/-- The response of a READ on the wire. -/
def responseSent (q : Nat) (p : Rdma) (r : (Nat × List PByte) × Dev) : Dev :=
  r.2.ethSend "READ response" q (r.2.readPackets q p.len * r.2.roceBytes q 4 + p.len) (r.1.2.map PByte.val)

theorem responseSent_qp (q : Nat) (p : Rdma) (r : (Nat × List PByte) × Dev) : (responseSent q p r).qp q = r.2.qp q := rfl

theorem readPackets_eq (d : Dev) (q len : Nat) : d.readPackets q len =
    max 1 ((len + 2 ^ (7 + (d.qp q).mtu) - 1) / 2 ^ (7 + (d.qp q).mtu)) := by
  rw [readPackets, ceilDiv, if_neg (Nat.ne_of_gt (Nat.two_pow_pos _))]

theorem readAnswered_of_none {q : Nat} {p : Rdma} {r : (Nat × List PByte) × Dev} (h : nakOf r.1.1 = none) :
    readAnswered q p false r = (responseSent q p r).packetDone q (r.2.readPackets q p.len) false false := by
  rw [readAnswered, h]
  rfl

theorem readAnswered_of_some {q : Nat} {p : Rdma} {r : (Nat × List PByte) × Dev} {k : Nak} (h : nakOf r.1.1 = some k) :
    readAnswered q p false r = (if (if r.1.1 = 7 then 6 else r.1.1) = 3 then
      (r.2.ethCapture q p.psn (if r.1.1 = 7 then 6 else r.1.1)).raise F.ETH_ERR_STATUS_poison_read else r.2).sendNak q p.psn
        (if r.1.1 = 7 then 6 else r.1.1) k := by
  rw [readAnswered, h]

theorem readAnswered_spec {q : Nat} {p : Rdma} {r : (Nat × List PByte) × Dev} {x : QPair} (hqp : r.2.qp q = x) :
    (r.1.1 = 0 → ((readAnswered q p false r).qp q).recvPsn =
        (x.recvPsn + max 1 ((p.len + 2 ^ (7 + x.mtu) - 1) / 2 ^ (7 + x.mtu))) % 2 ^ 24 ∧ ((readAnswered q p false r).qp q).owed = x.owed ∧
        .ethernet "READ response" q (r.1.2.map PByte.val) ∈ (readAnswered q p false r).out) ∧
    (r.1.1 = 1 → (readAnswered q p false r).qp q = { x with asked := true }) ∧
    (1 < r.1.1 → ((readAnswered q p false r).qp q).state = 2) := by
  refine ⟨fun hz => ?_, fun hone => ?_, fun hfail => ?_⟩
  · rw [readAnswered_of_none (by rw [hz]; rfl), packetDone_qp, packetDone_out, responseSent_qp, readPackets_eq, hqp]
    exact ⟨rfl, rfl, mem_out_ethSend ..⟩
  · rw [readAnswered_of_some (k := .rnr) (by rw [hone]; rfl), hone, sendNak_asked _ q p.psn _ (.inl rfl)]
    exact congrArg (fun x : QPair => { x with asked := true }) hqp
  · obtain ⟨k, hk, hne⟩ := nakOf_fails hfail
    rw [readAnswered_of_some hk]
    exact (sendNak_failed _ q p.psn _ hne).1

/-! ### SEND packets received -/

/-- The message of a SEND in its turn: dropped when it is no message, and put to the mailbox unit otherwise. -/
def sendTaken (d : Dev) (q : Nat) (bs : List Byte) : Dev :=
  if bs.length < 16 ∨ 256 < bs.length ∨ bs.length ≠ 16 + field bs 6 2 then
    d.mbxDrop F.MBX_ERR_STATUS_overlong (d.qp q).identity (bits (field bs 4 1) 5 0) .ethernet
  else d.hostMessage (d.qp q).identity bs

theorem rdmaSend_stopped {d : Dev} {q : Nat} (h : d.qpRuns q = false) (psn : Nat) (bs : List Byte) : d.rdmaSend q psn bs = d :=
  if_pos (by rw [h]; rfl)

theorem rdmaSend_later {d : Dev} {q psn : Nat} (h : d.qpRuns q = true) (hp : d.place q psn = .later) (bs : List Byte) :
    d.rdmaSend q psn bs = d.outOfTurn q := by
  refine (if_neg (by rw [h]; decide)).trans ?_
  rw [hp]

theorem rdmaSend_expected {d : Dev} {q psn : Nat} (h : d.qpRuns q = true) (hp : d.place q psn = .expected) (bs : List Byte) :
    d.rdmaSend q psn bs = if !(d.qp q).canSend then d.sendNak q psn 7 .access else (d.sendTaken q bs).packetDone q 1 false true := by
  refine (if_neg (by rw [h]; decide)).trans ?_
  rw [hp]
  rfl

theorem sendTaken_of_message {d : Dev} {q : Nat} {bs : List Byte} (h16 : 16 ≤ bs.length) (h256 : bs.length ≤ 256)
    (hl : bs.length = 16 + bodyLength bs) (hen : d.isSet F.MBX_CTRL_host_en = true) :
    d.sendTaken q bs = (d.mbxArrive (d.qp q).identity (bits (field bs 4 1) 5 0) .ethernet bs).2 := by
  refine (if_neg ?_).trans (if_neg (by rw [hen]; decide))
  rintro (h | h | h)
  · exact absurd h16 (Nat.not_le.mpr h)
  · exact absurd h256 (Nat.not_le.mpr h)
  · exact h hl

/-! ### Immediate data -/

/-- What follows a WRITE with immediate data: its message, when the write completed in its turn. -/
def immediateSent (e : Dev) (q imm : Nat) (go : Bool) : Dev :=
  if go && (e.qp q).imm != 0xFF then
    e.hostMessage (e.qp q).identity ({ code := 0xFFFF, channel := (e.qp q).imm, arg0 := imm } : Msg).toBytes
  else e

theorem writeImmediate_eq (d : Dev) (q : Nat) (p : Rdma) (imm : Nat) : d.writeImmediate q p imm =
    (d.writePacket q p).2.immediateSent q imm ((d.writePacket q p).1 && !(d.place q p.psn == .duplicate)) := rfl

theorem immediateSent_of_not (e : Dev) (q imm : Nat) : e.immediateSent q imm false = e := if_neg Bool.false_ne_true

theorem immediateSent_eq {e : Dev} {q : Nat} {x : QPair} (himm : (e.qp q).imm = x.imm) (hid : (e.qp q).identity = x.identity) (imm : Nat) :
    e.immediateSent q imm true = if x.imm ≠ 0xFF then
      e.hostMessage x.identity ({ code := 0xFFFF, channel := x.imm, arg0 := imm } : Msg).toBytes else e := by
  rw [immediateSent, himm, hid, Bool.true_and]
  by_cases h : x.imm = 0xFF
  · rw [if_neg (by rw [bne_iff_ne]; exact not_not.mpr h), if_neg (not_not.mpr h)]
  · rw [if_pos (bne_iff_ne.mpr h), if_pos h]

theorem writeImmediate_spec (d : Dev) (q : Nat) (p : Rdma) (imm : Nat) : d.writeImmediate q p imm =
    if (d.writePacket q p).1 = true ∧ ahead d q p.psn = 0 ∧ (d.qp q).imm ≠ 0xFF then
      (d.writePacket q p).2.hostMessage (d.qp q).identity ({ code := 0xFFFF, channel := (d.qp q).imm, arg0 := imm } : Msg).toBytes
    else (d.writePacket q p).2 := by
  rw [writeImmediate_eq]
  cases hok : (d.writePacket q p).1 with
  | false => exact (immediateSent_of_not _ q imm).trans (if_neg fun h => absurd h.1 Bool.false_ne_true).symm
  | true =>
    obtain ⟨hplace, himm, hid⟩ := writePacket_completes hok
    rw [place_duplicate_iff hplace, Bool.true_and, Bool.not_not]
    by_cases h0 : ahead d q p.psn = 0
    · rw [decide_eq_true h0, immediateSent_eq himm hid]
      by_cases hff : (d.qp q).imm = 0xFF
      · rw [if_neg (not_not.mpr hff), if_neg fun h => h.2.2 hff]
      · rw [if_pos hff, if_pos ⟨rfl, h0, hff⟩]
    · rw [decide_eq_false h0, immediateSent_of_not, if_neg fun h => h0 h.2.1]

/-! ### Acknowledgements -/

/-- An acknowledgement is due (R539). -/
def AckDue (d : Dev) (q : Nat) : Prop :=
  d.qpRuns q = true ∧ (8 ≤ (d.qp q).owed ∨ (0 < (d.qp q).owed ∧ (d.qp q).owedAt + 4000 ≤ d.now))

theorem ackDue_iff (d : Dev) (q : Nat) : d.AckDue q ↔ (d.qpRuns q && (decide (8 ≤ (d.qp q).owed) ||
    (decide (0 < (d.qp q).owed) && decide ((d.qp q).owedAt + 4000 ≤ d.now)))) = true := by
  rw [Bool.and_eq_true, Bool.or_eq_true, Bool.and_eq_true, decide_eq_true_eq, decide_eq_true_eq, decide_eq_true_eq, AckDue]

theorem ackCoalesce_of_due {d : Dev} {q : Nat} (h : d.AckDue q) : d.ackCoalesce q = d.sendAck q := if_pos ((ackDue_iff d q).mp h)

theorem ackCoalesce_of_not {d : Dev} {q : Nat} (h : ¬ d.AckDue q) : d.ackCoalesce q = d := if_neg fun hd => h ((ackDue_iff d q).mpr hd)

theorem sendAck_qp (d : Dev) (q : Nat) : (d.sendAck q).qp q = { d.qp q with owed := 0 } := qp_setQp_same d q _

theorem sendAck_out (d : Dev) (q : Nat) : (d.sendAck q).out = d.out ++ [.ethernet "ACK" q (leBytes 3 (((d.qp q).recvPsn + 2 ^ 24 - 1) % 2 ^ 24))] := rfl

/-! ### Messages to hosts -/

/-- A SEND of a channel is on its way. -/
def sendsFor (d : Dev) (c : Nat) : Bool := d.eth.qps.any (fun x => x.2.sent.any (fun s => s.channel == c))

theorem sendsFor_iff (d : Dev) (c : Nat) : d.sendsFor c = false ↔ ∀ x ∈ d.eth.qps, ∀ k ∈ x.2.sent, k.channel ≠ c := by
  rw [sendsFor, List.any_eq_false]
  refine forall₂_congr fun x _ => ?_
  rw [Bool.not_eq_true, List.any_eq_false]
  exact forall₂_congr fun k _ => by rw [beq_iff_eq]

/-- A channel that may send a message to a host, for its queue pair (R548). -/
def hostBlocked (d : Dev) (c : Nat) : Bool :=
  !(d.binding c).valid || decide ((d.binding c).receiver < 0x40) || decide (0x7F < (d.binding c).receiver) || (d.ring c).msgs.isEmpty
    || d.sendsFor c

theorem hostReady_iff (d : Dev) (c q : Nat) : HostReady d c q ↔
    d.hostBlocked c = false ∧ d.sendQp (d.binding c).receiver = some q ∧ bit d.eth.paused (d.qp q).pcp = false := by
  rw [HostReady, hostBlocked, ← sendsFor_iff]
  simp only [Bool.or_eq_false_iff, Bool.not_eq_false', decide_eq_false_iff_not, List.isEmpty_eq_false_iff, not_lt, and_assoc]

/-- A message of a channel sent by a queue pair. -/
def hostSent (d : Dev) (q c : Nat) (m : List Byte) : Dev :=
  (d.setQp q { d.qp q with
    sendPsn := ((d.qp q).sendPsn + 1) % 2 ^ 24
    sent := (d.qp q).sent ++ [{ channel := c, psn := (d.qp q).sendPsn, bytes := m, tries := 0, at_ := d.now }] }).sendPacket q
    { channel := c, psn := (d.qp q).sendPsn, bytes := m, tries := 0, at_ := d.now }

theorem hostMessageSend_of_ready {d a : Dev} {c q : Nat} {m : List Byte} (h : HostReady d c q) (ht : d.ringTake c = (some m, a)) :
    d.hostMessageSend c = a.hostSent q c m := by
  obtain ⟨hfree, hqp, hpause⟩ := (hostReady_iff d c q).mp h
  refine (if_neg (show ¬ d.hostBlocked c = true by rw [hfree]; decide)).trans ?_
  rw [hqp]
  dsimp only
  rw [hpause, if_neg Bool.false_ne_true, ht]
  rfl

theorem hostMessageSend_of_none {d : Dev} {c : Nat} (h : ∀ q, ¬ HostReady d c q) : d.hostMessageSend c = d := by
  cases hblocked : d.hostBlocked c with
  | true => exact if_pos hblocked
  | false =>
    refine (if_neg (show ¬ d.hostBlocked c = true by rw [hblocked]; decide)).trans ?_
    cases hqp : d.sendQp (d.binding c).receiver with
    | none => rfl
    | some q =>
      refine if_pos ?_
      by_contra hp
      exact h q ((hostReady_iff d c q).mpr ⟨hblocked, hqp, Bool.eq_false_iff.mpr hp⟩)

theorem hostSent_spec (d : Dev) (q c : Nat) (m : List Byte) (hout : d.out = []) :
    ((d.hostSent q c m).qp q).sendPsn = ((d.qp q).sendPsn + 1) % 2 ^ 24 ∧
    ((d.hostSent q c m).qp q).sent = (d.qp q).sent ++ [{ channel := c, psn := (d.qp q).sendPsn, bytes := m, tries := 0, at_ := d.now }] ∧
    (d.hostSent q c m).out = [.ethernet "SEND" q (leBytes 3 (d.qp q).sendPsn ++ m)] ∧ (d.hostSent q c m).rings = d.rings := by
  have hqp : (d.hostSent q c m).qp q = { d.qp q with
    sendPsn := ((d.qp q).sendPsn + 1) % 2 ^ 24
    sent := (d.qp q).sent ++ [{ channel := c, psn := (d.qp q).sendPsn, bytes := m, tries := 0, at_ := d.now }] } := qp_setQp_same d q _
  rw [hqp]
  refine ⟨rfl, rfl, ?_, rfl⟩
  show d.out ++ _ = _
  rw [hout]; rfl

/-! ### Retries -/

/-- A SEND put on the wire again. -/
def resent (d : Dev) (k : Sent) : Sent := { k with tries := if k.held then k.tries else k.tries + 1, held := false, at_ := d.now }

theorem sendRetry_of_stopped {d : Dev} {q : Nat} (h : d.qpRuns q = false) (c : Nat) : d.sendRetry q c = d := if_pos (by rw [h]; rfl)

theorem sendRetry_of_none {d : Dev} {q c : Nat} (h : (d.qp q).sent.find? (fun y => y.channel = c) = none) : d.sendRetry q c = d := by
  unfold sendRetry
  dsimp only
  rw [h]
  exact ite_self _

theorem sendRetry_of_some {d : Dev} {q c : Nat} (hruns : d.qpRuns q = true) {k : Sent}
    (h : (d.qp q).sent.find? (fun y => y.channel = c) = some k) : d.sendRetry q c =
      if d.now < k.at_ + 4096 * 2 ^ (d.qp q).timeout then d
      else if (!k.held && decide ((d.qp q).retries ≤ k.tries)) = true then d.qpFail q k.psn 7
      else (d.setQp q { d.qp q with sent := (d.qp q).sent.map (fun y => if y.channel = c then d.resent k else y) }).sendPacket q (d.resent k) := by
  refine (if_neg (by rw [hruns]; decide)).trans ?_
  dsimp only
  rw [h]
  rfl

theorem sendPacket_spec (d : Dev) (q : Nat) (x : QPair) (k : Sent) (hout : d.out = []) :
    ((d.setQp q x).sendPacket q k).qp q = x ∧ ((d.setQp q x).sendPacket q k).out = [.ethernet "SEND" q (leBytes 3 k.psn ++ k.bytes)] := by
  refine ⟨qp_setQp_same d q x, ?_⟩
  show d.out ++ _ = _
  rw [hout]; rfl

end Dev

end Sys2Proof.Machine

namespace Sys2Proof.Proofs

open Sys2Proof.Machine Sys2Proof.Claims

/-- Settles O56: each packet by its turn and its target, each message by its queue pair. -/
theorem queuePairs : Obligations.QueuePairs := by
  intro s q hawake d x same nak
  have hout : d.out = [] := rfl
  have hkeep {i : Instr} {e : Dev} (hi : exec i s = .next (left s e)) (he : e = d) : exec i s = .next same := by rw [hi, he]
  have hwrite (p : Rdma) : exec (.rdmaWrite q p) s = .next (left s (d.writePacket q p).2) := State.apply_awake hawake _ _
  have hread (p : Rdma) (served : Nat) : exec (.rdmaRead q p served) s = .next (left s (d.rdmaRead q p served)) :=
    State.apply_awake hawake _ _
  have hsend (psn : BitVec 24) (bs : List Byte) : exec (.rdmaSend q psn bs) s = .next (left s (d.rdmaSend q psn.toNat bs)) :=
    State.apply_awake hawake _ _
  have himm (p : Rdma) (imm : BitVec 32) : exec (.writeWithImmediate q p imm) s = .next (left s (d.writeImmediate q p imm.toNat)) :=
    State.apply_awake hawake _ _
  refine ⟨fun p served psn bs imm hstop => ?_, fun p served hruns h0 h23 => ⟨d.outOfTurn q, ?_, ?_, Dev.outOfTurn_qp d q⟩,
    fun psn bs hruns h0 h23 => ⟨d.outOfTurn q, ?_, Dev.outOfTurn_qp d q⟩, fun p hruns h0 hlen hwin => ?_, fun p served hruns h0 hlen hs hwin => ?_,
    fun p served hruns h0 hlen hs hkey => ⟨_, _, hwrite p, hread p served, ?_⟩, fun psn bs hruns h0 hcan h16 h256 hl hen => ?_,
    fun psn bs hruns h0 hcan => ?_, fun p imm ok e he => ?_, ?_, fun c => ?_⟩
  · refine ⟨hkeep (hwrite p) (by rw [Dev.writePacket_stopped hstop]), hkeep (hread p served) (Dev.rdmaRead_stopped hstop p served),
      hkeep (hsend psn bs) (Dev.rdmaSend_stopped hstop _ bs), hkeep (himm p imm) ?_⟩
    rw [Dev.writeImmediate_spec, Dev.writePacket_stopped hstop]
    exact if_neg fun h => absurd h.1 Bool.false_ne_true
  · rw [hwrite p, Dev.writePacket_later hruns (Dev.place_later h0 h23)]
  · rw [hread p served, Dev.rdmaRead_later hruns (Dev.place_later h0 h23)]
  · rw [hsend psn bs, Dev.rdmaSend_later hruns (Dev.place_later h0 h23)]
  · intro r
    have hexp : d.place q p.psn = .expected := Dev.place_expected h0
    have hserved : (d.writePacket q p).2 = (Dev.written q p false r).2 := by
      rw [Dev.writePacket_served hruns (by rw [hexp]; decide), if_neg (Nat.not_lt.mpr hlen), Dev.writeServed, Dev.target_window hwin, hexp]
      rfl
    have hqp : r.2.qp q = x := Dev.qp_congr (Dev.serveWrite_eth ..) q
    refine ⟨_, hwrite p, ?_⟩
    rw [hserved]
    exact Dev.written_spec hqp (Dev.qpRuns_state hruns)
  · intro r
    have hserved : d.rdmaRead q p served = Dev.readAnswered q p false r := by
      rw [Dev.rdmaRead_served hruns (Dev.place_expected h0) hlen hs, Dev.readServed, Dev.target_window hwin]
    have heth : r.2.eth = d.eth := (ServeOnly.of_mem (Dev.serveRead_memOnly d _ _ _ _)).eth
    have hqp : r.2.qp q = x := Dev.qp_congr heth q
    refine ⟨_, hread p served, ?_⟩
    rw [hserved]
    exact Dev.readAnswered_spec hqp
  · have hexp : d.place q p.psn = .expected := Dev.place_expected h0
    have hw : (d.writePacket q p).2 = d.sendNak q p.psn 7 .access := by
      rw [Dev.writePacket_served hruns (by rw [hexp]; decide), if_neg (Nat.not_lt.mpr hlen), Dev.writeServed, Dev.target_refused hkey]
    have hr : d.rdmaRead q p served = d.sendNak q p.psn 7 .access := by
      rw [Dev.rdmaRead_served hruns hexp hlen hs, Dev.readServed, Dev.target_refused hkey]
    obtain ⟨hstate, herr, -⟩ := Dev.sendNak_failed d q p.psn 7 (k := .access) (by decide)
    rw [hw, hr]
    exact ⟨hstate, hstate, herr, herr⟩
  · refine ⟨_, hsend psn bs, ?_⟩
    have hqp : ((d.mbxArrive x.identity (bits (field bs 4 1) 5 0) .ethernet bs).2.qp q) = x := Dev.qp_congr (Dev.mbxArrive_unit ..).eth q
    have hrun : d.rdmaSend q psn.toNat bs =
        (d.mbxArrive x.identity (bits (field bs 4 1) 5 0) .ethernet bs).2.packetDone q 1 false true := by
      rw [Dev.rdmaSend_expected hruns (Dev.place_expected h0), if_neg (by rw [show (d.qp q).canSend = true from hcan]; decide),
        Dev.sendTaken_of_message h16 h256 hl hen]
    rw [hrun, Dev.packetDone_qp, hqp, Dev.packetDone_rings]
    exact ⟨rfl, rfl, rfl⟩
  · refine ⟨_, hsend psn bs, ?_⟩
    obtain ⟨hstate, -, hrings⟩ := Dev.sendNak_failed d q psn.toNat 7 (k := .access) (by decide)
    rw [Dev.rdmaSend_expected hruns (Dev.place_expected h0), if_pos (by rw [show (d.qp q).canSend = false from hcan]; rfl)]
    exact ⟨hstate, hrings⟩
  · have hspec := Dev.writeImmediate_spec d q p imm.toNat
    rw [he] at hspec
    refine ⟨(hwrite p).trans (by rw [he]), (himm p imm).trans ?_⟩
    rw [hspec]
  · have hrun : exec (.ackCoalesce q) s = .next (left s (d.ackCoalesce q)) := State.apply_awake hawake _ _
    refine ⟨fun hn => hkeep hrun (Dev.ackCoalesce_of_not hn), fun h => ⟨d.sendAck q, hrun.trans (by rw [Dev.ackCoalesce_of_due h]), ?_, ?_⟩⟩
    · exact Dev.sendAck_qp d q
    · rw [Dev.sendAck_out, hout, List.nil_append]
  · have hmsg : exec (.hostMessageSend c) s = .next (left s (d.hostMessageSend c)) := State.apply_awake hawake _ _
    have hretry : exec (.sendRetryTimeout q c) s = .next (left s (d.sendRetry q c)) := State.apply_awake hawake _ _
    refine ⟨fun hn => hkeep hmsg (Dev.hostMessageSend_of_none hn), fun m a hr ht => ?_, fun k hruns hk hlate => ?_, fun hearly => ?_⟩
    · have hunit := Dev.ringTake_unit d c
      rw [ht] at hunit
      have hqp : a.qp q = x := Dev.qp_congr hunit.eth q
      obtain ⟨hpsn, hsent, houts, hrings⟩ := Dev.hostSent_spec a q c m (hunit.out.trans hout)
      have hnow : a.now = d.now := hunit.now
      rw [hqp] at hpsn hsent houts
      rw [hnow] at hsent
      refine ⟨a.hostSent q c m, hmsg.trans (by rw [Dev.hostMessageSend_of_ready hr ht]), ?_, hpsn, hsent, houts⟩
      rw [Dev.ring, hrings, Dev.ring]
    · rw [Dev.sendRetry_of_some hruns hk, if_neg (Nat.not_lt.mpr hlate)] at hretry
      refine ⟨_, hretry, ?_⟩
      by_cases hfail : k.held = false ∧ x.retries ≤ k.tries
      · have hcond : (!k.held && decide ((d.qp q).retries ≤ k.tries)) = true := by
          rw [hfail.1, Bool.not_false, Bool.true_and]
          exact decide_eq_true hfail.2
        rw [if_pos hfail, if_pos hcond]
        refine ⟨?_, ?_, Dev.isSet_qpFail d q k.psn 7⟩
        · rw [Dev.qpFail_qp]
        · rw [Dev.qpFail_qp]
      · have hcond : ¬ (!k.held && decide ((d.qp q).retries ≤ k.tries)) = true := by
          rw [Bool.and_eq_true, Bool.not_eq_true', decide_eq_true_eq]
          exact hfail
        rw [if_neg hfail, if_neg hcond]
        obtain ⟨hqp, houts⟩ := Dev.sendPacket_spec d q
          { d.qp q with sent := (d.qp q).sent.map (fun y => if y.channel = c.val then d.resent k else y) } (d.resent k) hout
        refine ⟨?_, houts⟩
        rw [hqp]
    · refine hkeep hretry ?_
      cases hruns : d.qpRuns q with
      | false => exact Dev.sendRetry_of_stopped hruns c
      | true =>
        cases hk : (d.qp q).sent.find? (fun y => y.channel = c.val) with
        | none => exact Dev.sendRetry_of_none hk
        | some k => rw [Dev.sendRetry_of_some hruns hk, if_pos (hearly k hruns hk)]

end Sys2Proof.Proofs
end

section
/-!
PROOFS. Contexts started, pre-empted, resumed and killed (08_jobs_contexts_and_translation.md R289, R309-R312, R675).
-/

namespace Sys2Proof.Machine

open Sys2Proof.Claims

namespace Dev

/-! ### A core switched to a context -/

theorem setSlot_memOnly (d : Dev) (k : Nat) (x : SlotState) : MemOnly d (d.setSlot k x) := rfl

theorem switchRegs_memOnly (d : Dev) (c n : Nat) : MemOnly d (d.switchRegs c n) :=
  .after (.setFld _ _ _ _ _) (.after (.wr _ _ _ _ _) (.after (.setFld _ _ _ _ _) (.after (.setFld _ _ _ _ _)
    (.after (.setFld _ _ _ _ _) (.wr d _ _ _ _)))))

theorem readQueueTable_memOnly (d : Dev) (c n va : Nat) : MemOnly d (d.readQueueTable c n va).2 := by
  have hwalk := d.walk_memOnly { master := 0x10 + c, ctx := n, die := .vd c } va {}
  unfold readQueueTable
  dsimp only
  split
  · exact hwalk
  · rename_i pa _ _
    split
    · exact hwalk
    · have hread := readMem_memOnly (d.walk { master := 0x10 + c, ctx := n, die := .vd c } va {}).2
        { master := 0x10 + c, ctx := n, die := .vd c } pa 4096
      split
      · exact .after hread hwalk
      · split
        · exact .after hread hwalk
        · exact .after hread hwalk
  · exact hwalk

/-- A core was switched to a context: the contexts are as they were, and so are the other cores. -/
structure Switched (d e : Dev) (n : Nat) (l : List Nat) : Prop where
  ctxs : e.ctxs = d.ctxs
  serves : ∀ c ∈ l, (e.core c).ctx = some n
  others : ∀ c, c ∉ l → e.core c = d.core c

theorem switchCore_switched {d : Dev} {c n : Nat} (h : (d.switchCore c n).1 = true) : Switched d (d.switchCore c n).2 n [c] := by
  have hread := MemOnly.after (readQueueTable_memOnly (d.switchRegs c n) c n ((d.switchRegs c n).fld F.FD_QTABLE_addr c))
    (switchRegs_memOnly d c n)
  unfold switchCore at h ⊢
  dsimp only at h ⊢
  generalize (d.switchRegs c n).readQueueTable c n ((d.switchRegs c n).fld F.FD_QTABLE_addr c) = r at h hread ⊢
  obtain ⟨t, e⟩ := r
  cases t with
  | error cause => exact absurd h (by simp)
  | ok es =>
    refine ⟨hread.ctxs, fun k hk => ?_, fun k hk => ?_⟩
    · rw [List.mem_singleton.mp hk]
      exact congrArg Core.ctx (core_onCore e c _)
    · exact (core_setCore_other e _ (fun hx => hk (List.mem_singleton.mpr hx))).trans (by rw [core, hread.cores]; rfl)

theorem Switched.trans {d e f : Dev} {n : Nat} {k l : List Nat} (h : Switched d e n k) (h' : Switched e f n l) : Switched d f n (k ++ l) := by
  refine ⟨h'.ctxs.trans h.ctxs, fun c hc => ?_, fun c hc => ?_⟩
  · by_cases hl : c ∈ l
    · exact h'.serves c hl
    · rw [h'.others c hl]
      exact h.serves c ((List.mem_append.mp hc).resolve_right hl)
  · rw [h'.others c (fun hx => hc (List.mem_append_right _ hx)), h.others c (fun hx => hc (List.mem_append_left _ hx))]

theorem switchAll_failed (n : Nat) : ∀ (cs : List Nat) (d : Dev),
    cs.foldl (fun (x : Bool × Dev) c => if x.1 then x.2.switchCore c n else (x.1, x.2)) (false, d) = (false, d)
  | [], _ => rfl
  | _ :: cs, d => switchAll_failed n cs d

/-- Every core switched. -/
theorem switchAll_switched (n : Nat) : ∀ (cs : List Nat) (d : Dev), (d.switchAll n cs).1 = true → Switched d (d.switchAll n cs).2 n cs
  | [], d, _ => ⟨rfl, fun _ hc => absurd hc (by simp), fun _ _ => rfl⟩
  | c :: cs, d, h => by
    have hstep : d.switchAll n (c :: cs) = cs.foldl (fun (x : Bool × Dev) c => if x.1 then x.2.switchCore c n else (x.1, x.2))
        (d.switchCore c n) := rfl
    have hfirst : (d.switchCore c n).1 = true := by
      by_contra hf
      obtain ⟨b, e, hbe⟩ : ∃ b e, d.switchCore c n = (b, e) := ⟨_, _, rfl⟩
      have hb : b = false := Bool.eq_false_iff.mpr (by rwa [hbe] at hf)
      rw [hstep, hbe, hb, switchAll_failed] at h
      exact absurd h Bool.false_ne_true
    have hrest : d.switchAll n (c :: cs) = (d.switchCore c n).2.switchAll n cs := by
      rw [hstep, ← Prod.mk.eta (p := d.switchCore c n), hfirst]
      rfl
    rw [hrest] at h ⊢
    exact (switchCore_switched hfirst).trans (switchAll_switched n cs _ h)

/-! ### START_CONTEXT -/

/-- Where a core's program of a context starts. -/
def entryOf (d : Dev) (n c : Nat) : Nat := (((d.job n).coreItems.find? (fun i => i.core = c)).map CoreItem.entry).getD 0

/-- A core's program started: the core is as a program finds it, and its queues' slots are the context's. -/
def startCore (n : Nat) (d : Dev) (c : Nat) : Dev :=
  (((d.onCore c (fun k => freshCore k (d.entryOf n c))).wr .HD_PEAK c 0 0).queueKeys c).foldl (fun d k => d.setSlot k { owner := n })
    ((d.onCore c (fun k => freshCore k (d.entryOf n c))).wr .HD_PEAK c 0 0)

theorem startCore_memOnly (n : Nat) (d : Dev) (c : Nat) : MemOnly (d.onCore c (fun k => freshCore k (d.entryOf n c))) (d.startCore n c) :=
  .after (.foldl (fun d k => setSlot_memOnly d k _) _ _) (.wr _ _ _ _ _)

theorem ctxs_startCore (n : Nat) (d : Dev) (c : Nat) : (d.startCore n c).ctxs = d.ctxs := (startCore_memOnly n d c).ctxs

theorem core_startCore (n : Nat) (d : Dev) (c k : Nat) :
    (d.startCore n c).core k = if k = c then freshCore (d.core c) (d.entryOf n c) else d.core k := by
  rw [core, (startCore_memOnly n d c).cores]
  exact Sp.get_set _ _ _ _ _

theorem entryOf_congr {d e : Dev} (h : e.ctxs = d.ctxs) (n c : Nat) : e.entryOf n c = d.entryOf n c := by
  rw [entryOf, job, ctx, h]
  rfl

theorem ctxs_foldl_startCore (n : Nat) : ∀ (l : List Nat) (d : Dev), (l.foldl (startCore n) d).ctxs = d.ctxs
  | [], _ => rfl
  | c :: l, d => (ctxs_foldl_startCore n l _).trans (ctxs_startCore n d c)

theorem core_foldl_startCore_other (n k : Nat) (l : List Nat) : ∀ d : Dev, k ∉ l → (l.foldl (startCore n) d).core k = d.core k := by
  induction l with
  | nil => exact fun _ _ => rfl
  | cons c l ih =>
    intro d hn
    rw [List.foldl_cons, ih _ (fun hx => hn (List.mem_cons_of_mem _ hx)), core_startCore, if_neg (fun hx : k = c => hn (by rw [hx]; exact List.mem_cons_self))]

theorem core_foldl_startCore (n k : Nat) (l : List Nat) : ∀ d : Dev, k ∈ l → ∃ x, (l.foldl (startCore n) d).core k =
    freshCore x (d.entryOf n k) ∧ x.ctx = (d.core k).ctx := by
  induction l with
  | nil => exact fun _ hk => absurd hk (by simp)
  | cons c l ih =>
    intro d hk
    by_cases hl : k ∈ l
    · obtain ⟨x, hx, hctx⟩ := ih (d.startCore n c) hl
      refine ⟨x, hx.trans (by rw [entryOf_congr (ctxs_startCore n d c)]), hctx.trans ?_⟩
      rw [core_startCore]
      split
      · rename_i hkc
        rw [hkc]
        rfl
      · rfl
    · have hkc : k = c := (List.mem_cons.mp hk).resolve_right hl
      refine ⟨d.core c, ?_, by rw [hkc]⟩
      rw [List.foldl_cons, core_foldl_startCore_other n k l _ hl, core_startCore, if_pos hkc, hkc]

/-- A context as START_CONTEXT leaves it. -/
def startedCtx (now : Nat) (x : Ctx) : Ctx :=
  { x with st := .running, startedAt := now, pageFaults := [], colSeq := [], buckets := [], stepRecord := 0, slotWaits := [] }

theorem startContext_eq {d : Dev} {n : Nat} (h : (d.switchAll n (d.coresOf n)).1 = true) : d.startContext n =
    (((d.coresOf n).foldl (startCore n) (d.switchAll n (d.coresOf n)).2).wr .COL_BKT 0 n 0).onCtx n
      (startedCtx (((d.coresOf n).foldl (startCore n) (d.switchAll n (d.coresOf n)).2).wr .COL_BKT 0 n 0).now) := by
  unfold startContext
  dsimp only
  rw [h]
  rfl

theorem startContext_runs {d : Dev} {n : Nat} (h : (d.switchAll n (d.coresOf n)).1 = true) : ((d.startContext n).ctx n).st = .running := by
  rw [startContext_eq h, ctx_onCtx]
  rfl

theorem startContext_core {d : Dev} {n : Nat} (h : (d.switchAll n (d.coresOf n)).1 = true) {k : Nat} (hk : k ∈ d.coresOf n) :
    ((d.startContext n).core k).live = true ∧ ((d.startContext n).core k).ctx = some n ∧
      ((d.startContext n).core k).pc = d.entryOf n k := by
  obtain ⟨hctxs, hserves, -⟩ := switchAll_switched n _ d h
  obtain ⟨x, hx, hctx⟩ := core_foldl_startCore n k (d.coresOf n) (d.switchAll n (d.coresOf n)).2 hk
  have hcore : (d.startContext n).core k = freshCore x (d.entryOf n k) := by
    rw [startContext_eq h, ← entryOf_congr hctxs n k]
    exact hx
  rw [hcore]
  exact ⟨rfl, hctx.trans (hserves k hk), rfl⟩

/-! ### PREEMPT_CONTEXT -/

/-- A core that its context leaves. -/
def leftCore (k : Core) : Core := { sregs := k.sregs, nextStream := k.nextStream }

/-- A core pre-empted: its slots are empty, and it serves no context. -/
def preemptCore (n : Nat) (d : Dev) (c : Nat) : Dev :=
  ((d.coreKeys c).foldl (fun d k => if (d.slot k).owner = n then d.setSlot k {} else d) d).onCore c leftCore

/-- A context as PREEMPT_CONTEXT leaves it. -/
def preemptedCtx (saved : List (Nat × Core × DArray × DArray)) (slots : List (Nat × SlotState)) (n : Nat) (x : Ctx) : Ctx :=
  { x with st := .preempted, saved, savedSlots := slots.filter (fun e => e.2.owner = n) }

theorem preempt_eq (d : Dev) (n : Nat) : d.preempt n =
    ((d.coresOf n).foldl (preemptCore n) (d.onCtx n (preemptedCtx ((d.coresOf n).map (fun c => (c, d.core c, d.array (2 * c), d.array (2 * c + 1))))
      ((d.coresOf n).flatMap (fun c => (d.coreKeys c).map (fun k => (k, d.slot k)))) n))).bump F.CTX_PREEMPT_CNT_count 0 n 1 := rfl

/-- The device `e` is `d` but for memory and cores. -/
def CoresOnly (d e : Dev) : Prop := e = { d with mem := e.mem, cores := e.cores }

theorem preemptCore_frame (n : Nat) (d : Dev) (c : Nat) : CoresOnly d (d.preemptCore n c) ∧
    ∀ k, (d.preemptCore n c).core k = if k = c then leftCore (d.core c) else d.core k := by
  have hslots : ∀ (l : List Nat) (d : Dev), l.foldl (fun d k => if (d.slot k).owner = n then d.setSlot k {} else d) d =
      { d with mem := (l.foldl (fun d k => if (d.slot k).owner = n then d.setSlot k {} else d) d).mem } := by
    intro l
    induction l with
    | nil => exact fun _ => rfl
    | cons k l ih =>
      intro d
      rw [List.foldl_cons, ih]
      split <;> rfl
  unfold preemptCore
  rw [hslots (d.coreKeys c) d]
  exact ⟨rfl, fun k => Sp.get_set _ _ _ _ _⟩

theorem foldl_preemptCore (n : Nat) : ∀ (l : List Nat) (d : Dev), l.Nodup → CoresOnly d (l.foldl (preemptCore n) d) ∧
    ∀ k, (l.foldl (preemptCore n) d).core k = if k ∈ l then leftCore (d.core k) else d.core k
  | [], d, _ => ⟨rfl, fun k => by simp⟩
  | c :: l, d, h => by
    obtain ⟨hc, hl⟩ := List.nodup_cons.mp h
    obtain ⟨hframe, hcore⟩ := foldl_preemptCore n l (d.preemptCore n c) hl
    obtain ⟨hframe', hcore'⟩ := preemptCore_frame n d c
    refine ⟨?_, fun k => ?_⟩
    · unfold CoresOnly at hframe hframe' ⊢
      rw [List.foldl_cons, hframe, hframe']
    · rw [List.foldl_cons, hcore, hcore']
      by_cases hk : k = c
      · subst hk
        simp [hc]
      · simp [hk]

theorem CoresOnly.ctxs {d e : Dev} (h : CoresOnly d e) : e.ctxs = d.ctxs := by rw [h]
theorem CoresOnly.regs {d e : Dev} (h : CoresOnly d e) : e.regs = d.regs := by rw [h]
theorem CoresOnly.stops {d e : Dev} (h : CoresOnly d e) : e.stops = d.stops := by rw [h]

theorem st_preempt (d : Dev) (n k : Nat) : ((d.preempt n).ctx k).st = if k = n then .preempted else (d.ctx k).st := by
  have hctxs : ((d.preempt n)).ctxs = (d.onCtx n _).ctxs := ((foldl_preemptCore n (d.coresOf n) _ (d.coresOf_nodup n)).1).ctxs
  rw [ctx, hctxs]
  refine (congrArg Ctx.st (Sp.get_set _ _ _ _ _)).trans ?_
  split <;> rfl

theorem core_preempt (d : Dev) (n k : Nat) : (d.preempt n).core k = if k ∈ d.coresOf n then leftCore (d.core k) else d.core k := by
  rw [preempt_eq]
  exact (foldl_preemptCore n (d.coresOf n) _ (d.coresOf_nodup n)).2 k

theorem stops_preempt (d : Dev) (n : Nat) : (d.preempt n).stops = d.stops :=
  ((foldl_preemptCore n (d.coresOf n) _ (d.coresOf_nodup n)).1).stops

theorem count_preempt (d : Dev) (n : Nat) : (d.preempt n).fld F.CTX_PREEMPT_CNT_count 0 n =
    min (d.fld F.CTX_PREEMPT_CNT_count 0 n + 1) (2 ^ (F.CTX_PREEMPT_CNT_count.hi + 1 - F.CTX_PREEMPT_CNT_count.lo) - 1) := by
  rw [preempt_eq, fld_bump _ (by decide) (by decide),
    fld_of_regs (((foldl_preemptCore n (d.coresOf n) _ (d.coresOf_nodup n)).1).regs) F.CTX_PREEMPT_CNT_count 0 n]
  rfl

/-! ### RESUME_CONTEXT -/

/-- A pre-empted core and its arrays restored. -/
def restoreCore (n : Nat) (d : Dev) (x : Nat × Core × DArray × DArray) : Dev :=
  ((d.onCore x.1 (fun now => { x.2.1 with qtable := now.qtable, ctx := some n })).onArray (2 * x.1) (fun a =>
    { x.2.2.1 with groups := a.groups, ramp := a.ramp, flagCount := a.flagCount })).onArray (2 * x.1 + 1) (fun a =>
    { x.2.2.2 with groups := a.groups, ramp := a.ramp, flagCount := a.flagCount })

/-- The cores and slots of a pre-empted context restored. -/
def restored (n : Nat) (saved : List (Nat × Core × DArray × DArray)) (slots : List (Nat × SlotState)) (d : Dev) : Dev :=
  slots.foldl (fun d x => d.setSlot x.1 x.2) (saved.foldl (restoreCore n) d)

theorem resume_eq {d : Dev} {n : Nat} (h : (d.switchAll n (d.coresOf n)).1 = true) : d.resume n =
    ((restored n (d.ctx n).saved (d.ctx n).savedSlots (d.switchAll n (d.coresOf n)).2).onCtx n (fun x =>
      { x with st := .running, saved := [], savedSlots := [] })).resumeUnits n (fun va =>
        ((restored n (d.ctx n).saved (d.ctx n).savedSlots (d.switchAll n (d.coresOf n)).2).onCtx n (fun x =>
          { x with st := .running, saved := [], savedSlots := [] })).pagePresent n va) := by
  unfold resume
  dsimp only
  rw [h]
  rfl

theorem ctx_resumeUnits_running (d : Dev) (n : Nat) (served : Nat → Bool) :
    ((d.resumeUnits n served).ctx n).st = (d.ctx n).st ∧ ((d.resumeUnits n served).ctx n).saved = (d.ctx n).saved := by
  have hctx : (d.resumeCores n served).ctx n = d.ctx n := by rw [resumeCores_frame]; rfl
  rw [resumeUnits_eq, ctx_onCtx, hctx]
  exact ⟨rfl, rfl⟩

theorem resume_runs {d : Dev} {n : Nat} (h : (d.switchAll n (d.coresOf n)).1 = true) :
    ((d.resume n).ctx n).st = .running ∧ ((d.resume n).ctx n).saved = [] := by
  rw [resume_eq h]
  generalize restored n _ _ _ = e
  obtain ⟨hst, hsaved⟩ := ctx_resumeUnits_running (e.onCtx n (fun x => { x with st := .running, saved := [], savedSlots := [] })) n (fun va =>
    (e.onCtx n (fun x => { x with st := .running, saved := [], savedSlots := [] })).pagePresent n va)
  rw [hst, hsaved, ctx_onCtx]
  exact ⟨rfl, rfl⟩

/-! ### KILL_CONTEXT -/

/-- What every fatal fault leaves, whatever the context's state. -/
theorem fatal_leaves {d : Dev} {f : FaultInfo} : ((d.ctx f.ctx).st ≠ .stopping → ((d.fatal f).ctx f.ctx).st = .faulted) ∧
    (d.fatal f).isSet F.CTX_ERR_STATUS_fatal = true ∧ (d.fatal f).recSeq = (d.recSeq + 1) % 2 ^ 32 := by
  have hset := isSet_fatal_recordFatal d f
  by_cases h : (d.ctx f.ctx).st = .faulted ∨ (d.ctx f.ctx).st = .stopping
  · rw [fatal_of_stopped h]
    refine ⟨fun hs => ?_, hset, (recordFatal_recordOnly d f).recSeq⟩
    rw [ctx, (recordFatal_recordOnly d f).ctxs]
    exact h.resolve_right hs
  · obtain ⟨hf, hs⟩ := not_or.mp h
    refine ⟨fun _ => ?_, ?_, recSeq_fatal hf hs⟩
    · rw [ctx_fatal hf hs, if_pos rfl]
    · rw [isSet_eq_of_rd (rd_fatal_other hf hs (not_mail_of_lt (by decide)) (fun i => by simp only [F.CTX_ERR_STATUS_fatal, Reg.key, Reg.row]; omega))]
      exact hset

end Dev

end Sys2Proof.Machine
end

section
/-!
PROOFS. Jobs loaded and unloaded, and what the commands of contexts answer (08_jobs_contexts_and_translation.md R286-R289, R678,
14_control_mailboxes_and_interrupts.md R520).
-/

namespace Sys2Proof.Machine

open Sys2Proof.Claims

/-- A bind that succeeds has two parts that succeed. -/
theorem bind_ok {ε α β : Type} {x : Except ε α} {f : α → Except ε β} {b : β} (h : x >>= f = .ok b) : ∃ a, x = .ok a ∧ f a = .ok b := by
  cases x with
  | error e => cases h
  | ok a => exact ⟨a, rfl, h⟩

namespace Dev

theorem need_ok {c : Bool} {st : Nat} {u : Unit} (h : need c st = .ok u) : c = true := by
  unfold need at h
  split at h
  · assumption
  · cases h

theorem ctxs_foldl {β : Type} {f : Dev → β → Dev} (h : ∀ d x, (f d x).ctxs = d.ctxs) : ∀ (l : List β) (d : Dev), (l.foldl f d).ctxs = d.ctxs
  | [], _ => rfl
  | x :: l, d => (ctxs_foldl h l (f d x)).trans (h d x)

theorem ctxs_zeroRange (d : Dev) (a n : Nat) : (d.zeroRange a n).ctxs = d.ctxs := rfl

theorem ctxs_pokeRange (d : Dev) (a : Nat) (bs : List Byte) : (d.pokeRange a bs).ctxs = d.ctxs := by rw [pokeRange_frame]

theorem ctxs_wr (d : Dev) (r : Reg) (w j v : Nat) : (d.wr r w j v).ctxs = d.ctxs := rfl

theorem ctxs_setFld (d : Dev) (x : Field) (w j v : Nat) : (d.setFld x w j v).ctxs = d.ctxs := rfl

theorem ctxs_bind (d : Dev) (c : Nat) (b : Binding) : (d.bind c b).ctxs = d.ctxs := ctxs_wr _ _ _ _ _

theorem ctxs_unbind (d : Dev) (c : Nat) : (d.unbind c).ctxs = d.ctxs := ctxs_wr _ _ _ _ _

/-! ### Page tables keep the contexts' states -/

/-- Every context's state is as it was. -/
def SameStates (d e : Dev) : Prop := ∀ k, (e.ctx k).st = (d.ctx k).st

namespace SameStates

variable {d e : Dev}

theorem refl (d : Dev) : SameStates d d := fun _ => rfl

theorem after {f : Dev} (k : SameStates e f) (h : SameStates d e) : SameStates d f := fun n => (k n).trans (h n)

theorem of_ctxs (h : e.ctxs = d.ctxs) : SameStates d e := fun n => by rw [ctx, h]; rfl

theorem foldl {β : Type} {f : Dev → β → Dev} (h : ∀ d x, SameStates d (f d x)) : ∀ (l : List β) (d : Dev), SameStates d (l.foldl f d)
  | [], d => refl d
  | x :: l, d => after (foldl h l (f d x)) (h d x)

end SameStates

theorem onJob_sameStates (d : Dev) (n : Nat) (f : Job → Job) : SameStates d (d.onJob n f) := fun k => by
  refine (congrArg Ctx.st (Sp.get_set _ _ _ _ _)).trans ?_
  split
  · rename_i h
    rw [h]
  · rfl

theorem setEntry_sameStates (d : Dev) (a v : Nat) : SameStates d (d.setEntry a v) := .of_ctxs (ctxs_pokeRange d a _)

theorem splitLeaf_sameStates (d : Dev) (k e t : Nat) : SameStates d (d.splitLeaf k e t) := .foldl (fun d _ => setEntry_sameStates d _ _) _ d

theorem newTable_sameStates {d e : Dev} {n u : Nat} (h : d.newTable n = some (u, e)) : SameStates d e := by
  unfold newTable at h
  dsimp only at h
  split at h
  · cases h
  · obtain ⟨⟩ := h
    exact .after (.of_ctxs (ctxs_zeroRange _ _ _)) (onJob_sameStates d n _)

theorem freeBelow_sameStates (n : Nat) : ∀ (k : Nat) (d : Dev) (e : Nat), SameStates d (freeBelow k d n e)
  | 0, d, _ => .refl d
  | k + 1, d, e => by
    unfold freeBelow
    dsimp only
    split
    · exact .refl d
    · exact .after (onJob_sameStates _ n _) (.foldl (fun d _ => freeBelow_sameStates n k d _) _ d)

theorem mapFrom_sameStates (n va l v : Nat) : ∀ (k t : Nat) (d e : Dev), mapFrom n va l v k t d = some e → SameStates d e
  | 0, t, d, e, h => by
    obtain ⟨⟩ := h
    exact setEntry_sameStates d _ _
  | k + 1, t, d, e, h => by
    unfold mapFrom at h
    dsimp only at h
    split at h
    · obtain ⟨⟩ := h
      exact .after (setEntry_sameStates _ _ _) (freeBelow_sameStates n _ d _)
    · split at h
      · split at h
        · cases h
        · rename_i hu
          exact .after (mapFrom_sameStates n va l v k _ _ e h) (.after (setEntry_sameStates _ _ _) (newTable_sameStates hu))
      · split at h
        · split at h
          · cases h
          · rename_i hu
            exact .after (mapFrom_sameStates n va l v k _ _ e h)
              (.after (setEntry_sameStates _ _ _) (.after (splitLeaf_sameStates _ _ _ _) (newTable_sameStates hu)))
        · exact mapFrom_sameStates n va l v k _ d e h

theorem foldl_mapPage_sameStates {β : Type} {f : Dev → β → Option Dev} (hf : ∀ d x e, f d x = some e → SameStates d e) :
    ∀ (l : List β) (d e : Dev), l.foldl (fun (y : Option Dev) x => y.bind (fun d => f d x)) (some d) = some e → SameStates d e
  | [], d, e, h => by
    obtain ⟨⟩ := h
    exact .refl d
  | x :: l, d, e, h => by
    rw [List.foldl_cons, Option.bind_some] at h
    cases hx : f d x with
    | none =>
      have hnone : ∀ l : List β, l.foldl (fun (y : Option Dev) x => y.bind (fun d => f d x)) none = none := by
        intro l
        induction l with
        | nil => rfl
        | cons x l ih => exact ih
      rw [hx, hnone] at h
      cases h
    | some g =>
      rw [hx] at h
      exact .after (foldl_mapPage_sameStates hf l g e h) (hf d x g hx)

/-! ### LOAD_JOB -/

theorem moeFits_ctxs (d : Dev) (j : Job) (m : MoeItem) : (d.moeFits j m).2.ctxs = d.ctxs := by
  unfold moeFits
  dsimp only
  split
  · rfl
  · split <;> rfl

theorem dxOk_ctxs (d : Dev) (j : Job) : (d.dxOk j).2.ctxs = d.ctxs := by
  have hstep : ∀ (l : List DxItem) (x : Bool × Dev), (l.foldl (fun (x : Bool × Dev) i =>
      if i.dense ≠ 0 then x else ((x.1 && (x.2.draw 1).1 == 1), (x.2.draw 1).2)) x).2.ctxs = x.2.ctxs := by
    intro l
    induction l with
    | nil => exact fun _ => rfl
    | cons i l ih =>
      intro x
      rw [List.foldl_cons, ih]
      split <;> rfl
  exact hstep j.dx (true, d)

theorem foldl_moeFits_ctxs (j : Job) : ∀ (l : List MoeItem) (x : Bool × Dev),
    (l.foldl (fun (x : Bool × Dev) m => ((x.1 && (x.2.moeFits j m).1), (x.2.moeFits j m).2)) x).2.ctxs = x.2.ctxs
  | [], _ => rfl
  | m :: l, x => (foldl_moeFits_ctxs j l _).trans (moeFits_ctxs x.2 j m)

/-- A job is placed in a free context, and no context changes. -/
theorem placeJob_ok {d e : Dev} {n : Nat} {j j' : Job} {tables : List (Nat × List (Nat × Nat))}
    (h : d.placeJob n j tables = .ok (j', e)) : (d.ctx n).st = .free ∧ e.ctxs = d.ctxs := by
  unfold placeJob at h
  obtain ⟨_, -, h⟩ := bind_ok h
  obtain ⟨_, hfree, h⟩ := bind_ok h
  obtain ⟨j1, -, h⟩ := bind_ok h
  obtain ⟨_, -, h⟩ := bind_ok h
  obtain ⟨j2, -, h⟩ := bind_ok h
  obtain ⟨j3, -, h⟩ := bind_ok h
  obtain ⟨_, -, h⟩ := bind_ok h
  have hmoe := foldl_moeFits_ctxs j3 j3.moe (true, d)
  dsimp only at h
  obtain ⟨_, -, h⟩ := bind_ok h
  obtain ⟨j4, -, h⟩ := bind_ok h
  obtain ⟨⟩ := h
  exact ⟨by simpa using need_ok hfree, hmoe⟩

theorem loadSection_ctxs (d : Dev) (img : List PByte) (n : Nat) (s : Section) : (d.loadSection img n s).ctxs = d.ctxs := by
  unfold loadSection
  dsimp only
  split
  · rfl
  · split
    · exact (writeMem_memOnly _ _ _ _).ctxs
    · rfl

theorem patchQueues_ctxs (d : Dev) (j : Job) (c : Nat) (es : List (Nat × Nat)) : (d.patchQueues j c es).ctxs = d.ctxs := by
  unfold patchQueues
  split
  · rfl
  · refine ctxs_foldl (fun d x => ?_) _ d
    dsimp only
    split
    · exact ctxs_pokeRange _ _ _
    · rfl

theorem bindJob_ctxs (d : Dev) (n : Nat) (j : Job) : (d.bindJob n j).ctxs = d.ctxs := by
  refine ctxs_foldl (fun d x => ?_) _ d
  dsimp only
  split
  · exact (ctxs_pokeRange _ _ _).trans (ctxs_bind d x.channel _)
  · exact ctxs_bind d x.channel _

/-- A context as LOAD_JOB leaves it. -/
def loadedCtx (j : Job) (x : Ctx) : Ctx :=
  { x with st := .loaded, job := some j, aborted := false, reserved := [], saved := [], savedSlots := []
           pageFaults := [], audit := j.audit, inbox := [], buckets := [], colSeq := [], slotWaits := [] }

/-- A job's memory written. -/
def filledJob (d : Dev) (img : List PByte) (n : Nat) (j : Job) (tables : List (Nat × List (Nat × Nat))) : Dev :=
  let d := j.sections.foldl (fun d s => d.loadSection img n s) d
  let d := ((d.ctx n).reserved.filter (fun r => !j.sections.any (fun s => s.kind == 2 && s.va == r.1 && s.size == r.2.1))).foldl
    (fun d r => d.zeroRange r.2.2 r.2.1) d
  tables.foldl (fun d t => d.patchQueues j t.1 t.2) d

/-- A job with its memory, its channels and an empty root table. -/
def rootedJob (d : Dev) (img : List PByte) (n : Nat) (j : Job) (tables : List (Nat × List (Nat × Nat))) : Dev :=
  let d := ((d.filledJob img n j tables).onCtx n (loadedCtx j)).bindJob n j
  let d := (d.zeroRange j.ptBase (4096 * j.ptPages)).onJob n (fun j => { j with ptUsed := [0] })
  let d := d.wr .CTX_PT_ROOT 0 n (j.ptBase / 4096 * 4096)
  (d.setFld F.CTX_PT_ROOT_root 0 n (j.ptBase / 4096)).setFld F.CTX_PT_ROOT_valid 0 n 1

theorem buildJob_eq (d : Dev) (img : List PByte) (n : Nat) (j : Job) (tables : List (Nat × List (Nat × Nat))) :
    d.buildJob img n j tables = (jobLeaves j).foldl (fun (x : Option Dev) (l : (Nat × Nat × Nat) × Nat) =>
      x.bind (fun d => d.mapPage n l.1.1 l.1.2.1 l.1.2.2 l.2)) (some (d.rootedJob img n j tables)) := rfl

theorem rootedJob_loaded (d : Dev) (img : List PByte) (n : Nat) (j : Job) (tables : List (Nat × List (Nat × Nat))) :
    ((d.rootedJob img n j tables).ctx n).st = .loaded := by
  unfold rootedJob
  dsimp only
  rw [ctx, ctxs_setFld, ctxs_setFld, ctxs_wr, ← ctx, onJob_sameStates _ n _ n, ctx, ctxs_zeroRange, bindJob_ctxs, ← ctx, ctx_onCtx]
  rfl

/-- A context whose job's memory is written and whose tables are built is loaded. -/
theorem buildJob_loaded {d e : Dev} {img : List PByte} {n : Nat} {j : Job} {tables : List (Nat × List (Nat × Nat))}
    (h : d.buildJob img n j tables = some e) : (e.ctx n).st = .loaded := by
  rw [buildJob_eq] at h
  have hmapped := foldl_mapPage_sameStates (fun d (l : (Nat × Nat × Nat) × Nat) e he => mapFrom_sameStates n _ _ _ _ _ d e he) _ _ _ h
  rw [hmapped n, rootedJob_loaded]

theorem loadRegs_ctxs (d : Dev) (n : Nat) (j : Job) : (d.loadRegs n j).ctxs = d.ctxs := by
  unfold loadRegs
  dsimp only
  rw [ctxs_foldl (fun d k => ctxs_wr d .TEL_SPIKE_STATE 0 (4 * n + k) 0), ctxs_wr, ctxs_setFld]

/-- LOAD_JOB takes a free context and leaves it loaded (R286, R288). -/
theorem loadImage_ok {d e : Dev} {n owner event : Nat} {img : List PByte} (h : d.loadImage n owner event img = .ok e) :
    (d.ctx n).st = .free ∧ (e.ctx n).st = .loaded := by
  unfold loadImage at h
  obtain ⟨im, -, h⟩ := bind_ok h
  obtain ⟨_, -, h⟩ := bind_ok h
  obtain ⟨tables, -, h⟩ := bind_ok h
  obtain ⟨_, -, h⟩ := bind_ok h
  obtain ⟨⟨j, x⟩, hplace, h⟩ := bind_ok h
  refine ⟨(placeJob_ok hplace).1, ?_⟩
  dsimp only at h
  obtain ⟨slots, -, h⟩ := bind_ok h
  obtain ⟨_, -, h⟩ := bind_ok h
  obtain ⟨_, -, h⟩ := bind_ok h
  split at h
  · cases h
  · split at h
    · cases h
    · rename_i hbuild
      obtain ⟨⟩ := h
      rw [ctx, loadRegs_ctxs]
      exact buildJob_loaded hbuild

/-! ### UNLOAD_JOB -/

theorem releaseCores_frame (d : Dev) (n : Nat) :
    d.releaseCores n = { d with mem := (d.releaseCores n).mem, cores := (d.releaseCores n).cores, arrays := (d.releaseCores n).arrays } := by
  have hstep : ∀ (l : List Nat) (d : Dev), ∃ cs as, l.foldl (fun d c =>
      if (d.core c).ctx = some n then
        (d.onCore c (fun k => { sregs := k.sregs, nextStream := k.nextStream })).onArray (2 * c) (fun a => { groups := a.groups, ramp := a.ramp, flagCount := a.flagCount })
          |>.onArray (2 * c + 1) (fun a => { groups := a.groups, ramp := a.ramp, flagCount := a.flagCount })
      else d) d = { d with cores := cs, arrays := as } := by
    intro l
    induction l with
    | nil => exact fun d => ⟨d.cores, d.arrays, rfl⟩
    | cons c l ih =>
      intro d
      rw [List.foldl_cons]
      split
      · obtain ⟨cs, as, h⟩ := ih _
        exact ⟨cs, as, h⟩
      · exact ih d
  obtain ⟨cs, as, h⟩ := hstep (List.range 4) d
  unfold releaseCores
  dsimp only
  rw [h]
  rfl

/-- A context's memory, cores and record given up, before its channels and registers. -/
def givenUp (d : Dev) (n : Nat) : Dev :=
  ((if (d.ctx n).aborted then d else ((d.job n).sections.filter (fun s => s.kind == 2)).foldl (fun d s => d.zeroRange s.pa s.size) d).releaseCores
    n).clearRecord n

/-- The channels of a job unbound. -/
def unbound (d : Dev) (l : List ChannelItem) : Dev := l.foldl (fun d c => d.unbind c.channel) d

theorem givenUp_ctxs (d : Dev) (n : Nat) : (d.givenUp n).ctxs = d.ctxs := by
  have hzero : (if (d.ctx n).aborted then d else ((d.job n).sections.filter (fun s => s.kind == 2)).foldl (fun d s => d.zeroRange s.pa s.size) d).ctxs
      = d.ctxs := by
    split
    · rfl
    · exact ctxs_foldl (fun d s => ctxs_zeroRange d _ _) _ d
  rw [givenUp, (clearRecord_control _ _).ctxs, releaseCores_frame]
  exact hzero

theorem unbound_ctxs (d : Dev) (l : List ChannelItem) : (d.unbound l).ctxs = d.ctxs := ctxs_foldl (fun d (c : ChannelItem) => ctxs_unbind d c.channel) l d

theorem unload_eq (d : Dev) (n : Nat) : d.unload n = (((((d.givenUp n).unbound (d.job n).channels).wr .CTX_PT_ROOT 0 n 0).wr
    .CTX_SAVE_BASE 0 n 0).wr .COL_PLAN 0 n 0).setCtx n { faultDeadline := (d.ctx n).faultDeadline, preemptDeadline := (d.ctx n).preemptDeadline
                                                         reserved := if (d.ctx n).aborted then ((d.job n).sections.filter (fun s => s.kind == 2)).map (fun s => (s.va, s.size, s.pa)) else (d.ctx n).reserved } := rfl

theorem ctx_unload_same (d : Dev) (n : Nat) : ((d.unload n).ctx n).st = .free ∧ ((d.unload n).ctx n).job = none := by
  rw [unload_eq, ctx_setCtx]
  exact ⟨rfl, rfl⟩

theorem ctx_unload_other (d : Dev) {n k : Nat} (h : k ≠ n) : (d.unload n).ctx k = d.ctx k := by
  rw [unload_eq, ctx_setCtx_other _ _ h]
  refine congrArg (fun c => Sp.get ctxDefault c k) (?_ : ((d.givenUp n).unbound (d.job n).channels).ctxs = d.ctxs)
  rw [unbound_ctxs, givenUp_ctxs]

theorem rd_unbind (d : Dev) (c k : Nat) : (d.unbind c).rd .MBX_BIND 0 k = if k = c then 0 else d.rd .MBX_BIND 0 k := by
  unfold unbind
  split
  · rename_i h
    rw [h, rd_wr]
    rfl
  · rename_i h
    exact rd_wr_other _ _ (by simp only [Reg.key, Reg.row]; omega)

theorem rd_unbound {k : Nat} : ∀ (l : List ChannelItem) (d : Dev), (k ∈ l.map ChannelItem.channel ∨ d.rd .MBX_BIND 0 k = 0) →
    (d.unbound l).rd .MBX_BIND 0 k = 0
  | [], d, h => h.resolve_left (by simp)
  | x :: l, d, h => by
    refine rd_unbound l (d.unbind x.channel) ?_
    rw [rd_unbind]
    by_cases hx : k = x.channel
    · exact .inr (if_pos hx)
    · rw [if_neg hx]
      rw [List.map_cons, List.mem_cons] at h
      exact h.imp_left (fun hm => hm.resolve_left hx)

theorem binding_unload (d : Dev) {n : Nat} (hn : n < 16) {x : ChannelItem} (hx : x ∈ (d.job n).channels) (hc : x.channel < 64) :
    ((d.unload n).binding x.channel).valid = false := by
  have hrd : (d.unload n).rd .MBX_BIND 0 x.channel = 0 := by
    rw [unload_eq, rd_setCtx, rd_wr_other _ _ (by simp only [Reg.key, Reg.row]; omega), rd_wr_other _ _ (by simp only [Reg.key, Reg.row]; omega),
      rd_wr_other _ _ (by simp only [Reg.key, Reg.row]; omega)]
    exact rd_unbound _ _ (.inl (List.mem_map_of_mem hx))
  rw [binding_of_rd_zero hrd]

end Dev

/-! ### The header of an accepted command -/

theorem headerOk_of_accepted {s : State} {c : Fin 64} {code : Nat} {m : Msg} {d : Dev} (ha : Accepted s c code m d) {info : CmdInfo}
    (hi : cmdInfo code = some info) : Dev.headerOk info m = true := by
  have hr := ha.2
  rw [refusal_of_info ((taken_code ha.1).symm ▸ hi)] at hr
  split at hr
  · cases hr
  · split at hr
    · cases hr
    · split at hr
      · assumption
      · cases hr

theorem context_lt_of_accepted {s : State} {c : Fin 64} {code : Nat} {m : Msg} {d : Dev} (ha : Accepted s c code m d) {info : CmdInfo}
    (hi : cmdInfo code = some info) : m.context < 16 := by
  have h := headerOk_of_accepted ha hi
  simp only [Dev.headerOk, Bool.and_eq_true, decide_eq_true_eq] at h
  exact h.1.1.1.1.2

end Sys2Proof.Machine
end

section
/-!
PROOFS. Commands of jobs and contexts (14_control_mailboxes_and_interrupts.md R520).
-/

namespace Sys2Proof.Machine

open Sys2Proof.Claims

namespace Dev

/-! ### MAP_PAGES -/

/-- A page mapping is not possible for what it names: level, leaf bits, context, alignment or range (R520). -/
def MapWrong (d : Dev) (m : Msg) : Prop :=
  let l := field m.body 20 1
  let size := 2 ^ (12 + 9 * l)
  3 ≤ l ∨ 32 ≤ field m.body 21 1 ∨ m.context = 0 ∨ (d.ctx m.context).job = none ∨ (d.ctx m.context).aborted = true ∨
    field m.body 0 8 % size ≠ 0 ∨ field m.body 8 8 % size ≠ 0 ∨ 2 ^ 48 < field m.body 0 8 + field m.body 16 4 * size

/-- It changes a present page of a running context. -/
def MapEarly (d : Dev) (m : Msg) : Prop :=
  let l := field m.body 20 1
  (d.ctx m.context).st = .running ∧ ∃ i < field m.body 16 4, d.changesPresent m.context (field m.body 0 8 + i * 2 ^ (12 + 9 * l)) l = true

/-- It reaches outside the job's memory. -/
def MapOutside (d : Dev) (m : Msg) : Prop :=
  let size := 2 ^ (12 + 9 * field m.body 20 1)
  ∃ i < field m.body 16 4, d.insideJob m.context (field m.body 8 8 + i * size) size = false

/-- The device with the pages mapped, while the area has tables. -/
def mappedPages (d : Dev) (m : Msg) : Option Dev :=
  let l := field m.body 20 1
  let size := 2 ^ (12 + 9 * l)
  (List.range (field m.body 16 4)).foldl (fun (x : Option Dev) i =>
    x.bind (fun d => d.mapPage m.context (field m.body 0 8 + i * size) l (field m.body 8 8 + i * size) (field m.body 21 1))) (some d)

section
variable {d : Dev} {w : Who} {m : Msg}

theorem mapPages_wrong (h : MapWrong d m) : mapPages d w m = (.now 3 [], d) := by
  unfold mapPages
  dsimp only
  by_cases h1 : 3 ≤ field m.body 20 1 ∨ 32 ≤ field m.body 21 1 ∨ m.context = 0 ∨ (d.ctx m.context).job.isNone = true ∨
      (d.ctx m.context).aborted = true
  · exact if_pos h1
  · refine (if_neg h1).trans (if_pos ?_)
    unfold MapWrong at h
    rw [Option.isNone_iff_eq_none] at h1
    tauto

theorem mapPages_eq (h : ¬ MapWrong d m) : mapPages d w m =
    if (d.ctx m.context).st = .running ∧ (List.range (field m.body 16 4)).any
        (fun i => d.changesPresent m.context (field m.body 0 8 + i * 2 ^ (12 + 9 * field m.body 20 1)) (field m.body 20 1)) = true
    then (.now 4 [], d)
    else if (!(List.range (field m.body 16 4)).all (fun i => d.insideJob m.context (field m.body 8 8 + i * 2 ^ (12 + 9 * field m.body 20 1))
        (2 ^ (12 + 9 * field m.body 20 1)))) = true then (.now 2 [], d)
    else match d.mappedPages m with
      | none => (.now 2 [], d)
      | some e => (.now 0 [], e) := by
  unfold MapWrong at h
  dsimp only at h
  refine (if_neg ?_).trans (if_neg ?_)
  · rw [Option.isNone_iff_eq_none]
    tauto
  · tauto

theorem mapEarly_iff : MapEarly d m ↔ (d.ctx m.context).st = .running ∧ (List.range (field m.body 16 4)).any
    (fun i => d.changesPresent m.context (field m.body 0 8 + i * 2 ^ (12 + 9 * field m.body 20 1)) (field m.body 20 1)) = true := by
  simp only [MapEarly, List.any_eq_true, List.mem_range]

theorem mapOutside_iff : MapOutside d m ↔ (!(List.range (field m.body 16 4)).all
    (fun i => d.insideJob m.context (field m.body 8 8 + i * 2 ^ (12 + 9 * field m.body 20 1)) (2 ^ (12 + 9 * field m.body 20 1)))) = true := by
  simp [MapOutside]

theorem mapPages_early (h : ¬ MapWrong d m) (he : MapEarly d m) : mapPages d w m = (.now 4 [], d) :=
  (mapPages_eq h).trans (if_pos (mapEarly_iff.mp he))

theorem mapPages_outside (h : ¬ MapWrong d m) (he : ¬ MapEarly d m) (ho : MapOutside d m) : mapPages d w m = (.now 2 [], d) :=
  (mapPages_eq h).trans ((if_neg (mt mapEarly_iff.mpr he)).trans (if_pos (mapOutside_iff.mp ho)))

theorem mapPages_inside (h : ¬ MapWrong d m) (he : ¬ MapEarly d m) (ho : ¬ MapOutside d m) : mapPages d w m =
    match d.mappedPages m with
    | none => (.now 2 [], d)
    | some e => (.now 0 [], e) :=
  (mapPages_eq h).trans ((if_neg (mt mapEarly_iff.mpr he)).trans (if_neg (mt mapOutside_iff.mpr ho)))

theorem mapPages_full (h : ¬ MapWrong d m) (he : ¬ MapEarly d m) (ho : ¬ MapOutside d m) (hm : d.mappedPages m = none) :
    mapPages d w m = (.now 2 [], d) := by rw [mapPages_inside h he ho, hm]

theorem mapPages_mapped (h : ¬ MapWrong d m) (he : ¬ MapEarly d m) (ho : ¬ MapOutside d m) {e : Dev} (hm : d.mappedPages m = some e) :
    mapPages d w m = (.now 0 [], e) := by rw [mapPages_inside h he ho, hm]

/-! ### Loading and unloading -/

theorem loadJob_eq (hs : d.boot.screened = true) (hw : d.inWindow w (field m.body 0 8) (field m.body 8 8) = true) {img : List PByte} {x : Dev}
    (hi : d.imageRead (field m.body 0 8) (field m.body 8 8) = (img, x)) :
    loadJob d w m = match x.loadImage m.context w.identity (field m.body 16 1) img with
      | .error st => (.now st [], d)
      | .ok e => (.now 0 [], e) := by
  unfold loadJob
  dsimp only
  rw [hs, hw, hi]
  rfl

theorem loadJob_outside (hs : d.boot.screened = true) (hw : d.inWindow w (field m.body 0 8) (field m.body 8 8) = false) :
    loadJob d w m = (.now 3 [], d) := by
  unfold loadJob
  dsimp only
  rw [hs, hw]
  rfl

theorem loadJob_early (hs : d.boot.screened = false) : loadJob d w m = (.now 1 [], d) := by
  unfold loadJob
  dsimp only
  rw [hs]
  rfl

/-! ### Starting and resuming -/

theorem startContextCmd_busy (hst : (d.ctx m.context).st = .loaded) (h : d.isStopped 0 = true ∨ d.coreBusy m.context = true) :
    startContextCmd d w m = (.now 1 [], d) :=
  (if_neg (not_not_intro hst)).trans (if_pos (by rw [Bool.or_eq_true]; exact h))

theorem startContextCmd_runs (hst : (d.ctx m.context).st = .loaded) (hs : d.isStopped 0 = false) (hb : d.coreBusy m.context = false)
    (h : (d.switchAll m.context (d.coresOf m.context)).1 = true) : startContextCmd d w m = (.now 0 [], d.startContext m.context) := by
  have hrun : ((d.startContext m.context).ctx m.context).st ≠ .faulted := by rw [startContext_runs h]; decide
  refine ((if_neg (not_not_intro hst)).trans (if_neg (by rw [hs, hb]; decide))).trans ?_
  dsimp only
  rw [if_neg hrun]
  rfl

theorem resumeCmd_busy (hst : (d.ctx m.context).st = .preempted) (h : d.isStopped 0 = true ∨ d.coreBusy m.context = true) :
    resumeCmd d w m = (.now 1 [], d) :=
  (if_neg (not_not_intro hst)).trans (if_pos (by rw [Bool.or_eq_true]; exact h))

theorem resumeCmd_runs (hst : (d.ctx m.context).st = .preempted) (hs : d.isStopped 0 = false) (hb : d.coreBusy m.context = false)
    (h : (d.switchAll m.context (d.coresOf m.context)).1 = true) : resumeCmd d w m = (.now 0 [], d.resume m.context) := by
  have hrun : ((d.resume m.context).ctx m.context).st ≠ .faulted := by rw [(resume_runs h).1]; decide
  refine ((if_neg (not_not_intro hst)).trans (if_neg (by rw [hs, hb]; decide))).trans ?_
  dsimp only
  rw [if_neg hrun]
  rfl

/-! ### Settings of a context -/

theorem setAudit_answers (hs : d.isStopped 0 = true) (hj : (d.ctx m.context).job ≠ none) : setAudit d w m =
    (.now 0 [], d.onCtx m.context (fun x => { x with audit := (field m.body 0 2, field m.body 4 4, field m.body 2 1, field m.body 8 8) })) := by
  refine (if_neg (by rw [hs]; decide)).trans (if_neg ?_)
  rw [Option.isNone_iff_eq_none]
  exact hj

end

end Dev

end Sys2Proof.Machine

namespace Sys2Proof.Proofs

open Sys2Proof.Machine Sys2Proof.Claims

/-- Settles O51: each command's answer and what it leaves of its context. -/
theorem contextCommands : Obligations.ContextCommands := by
  intro s c m d w n b
  refine ⟨fun ha => ?_, fun ha hst => ?_, fun ha hst => ?_, fun ha hst => ?_, fun ha hst hb => ?_, fun ha hst hs hb hok => ?_,
    fun ha hst => ⟨?_, ?_⟩, fun ha hst hn => ⟨?_, ?_⟩, fun ha hst => ?_, fun ha hst hb => ?_, fun ha hst hs hb hok => ?_, fun ha hst => ?_,
    fun ha hst hn => ?_, fun ha => ?_, fun ha hf => ?_, fun ha hf => ?_, fun ha hs => ?_, fun ha hs hj => ?_, fun ha hs hj => ?_⟩
  · refine ⟨fun hs => exec_of_now rfl ha (Dev.loadJob_early hs), fun hs hw => exec_of_now rfl ha (Dev.loadJob_outside hs hw),
      fun hs hw img x hi => ⟨fun st hst => ?_, fun e he => ?_⟩⟩
    · exact exec_of_now rfl ha ((Dev.loadJob_eq hs hw hi).trans (by rw [hst]))
    · obtain ⟨hfree, hloaded⟩ := Dev.loadImage_ok he
      have hctxs : x.ctxs = d.ctxs := by
        have hmem := (Dev.readMem_memOnly d { master := 0, die := .cd } (field b 0 8) (field b 8 8)).ctxs
        rw [Dev.imageRead] at hi
        rw [hi] at hmem
        exact hmem
      refine ⟨exec_of_now rfl ha ((Dev.loadJob_eq hs hw hi).trans (by rw [he])), ?_, hloaded⟩
      rw [Dev.ctx, hctxs] at hfree
      exact hfree
  · exact exec_of_now rfl ha (if_neg (by simpa using hst))
  · obtain ⟨hfree, hjob⟩ := d.ctx_unload_same n
    exact ⟨_, exec_of_now rfl ha (if_pos (by simpa using hst)), hfree, hjob, fun k hk => d.ctx_unload_other hk,
      fun x hx hc => d.binding_unload (context_lt_of_accepted ha rfl) hx hc⟩
  · exact exec_of_now rfl ha (if_pos hst)
  · exact exec_of_now rfl ha (Dev.startContextCmd_busy hst hb)
  · exact ⟨_, exec_of_now rfl ha (Dev.startContextCmd_runs hst hs hb hok), Dev.startContext_runs hok, fun k hk => Dev.startContext_core hok hk⟩
  · exact exec_of_now rfl ha (if_pos hst)
  · exact exec_of_now rfl ha (if_pos hst)
  · exact exec_of_now rfl ha (if_neg (not_or_intro (not_not_intro hst) hn))
  · refine ⟨_, exec_of_now rfl ha (if_neg (not_or_intro (not_not_intro hst) hn)), ?_, fun k hk => ?_, fun k hk => ?_, d.count_preempt n⟩
    · rw [Dev.st_preempt, if_pos rfl]
    · rw [Dev.core_preempt, if_pos hk]
      exact ⟨rfl, rfl⟩
    · rw [Dev.core_preempt, if_neg hk]
  · exact exec_of_now rfl ha (if_pos hst)
  · exact exec_of_now rfl ha (Dev.resumeCmd_busy hst hb)
  · exact ⟨_, exec_of_now rfl ha (Dev.resumeCmd_runs hst hs hb hok), Dev.resume_runs hok⟩
  · exact exec_of_now rfl ha (if_pos hst)
  · exact ⟨_, exec_of_now rfl ha (if_neg (not_or_intro hst hn)), Dev.fatal_leaves (f := { cause := 0x14, ctx := n, engine := 0xA0 })⟩
  · exact ⟨fun hw => exec_of_now rfl ha (Dev.mapPages_wrong hw), fun hw he => exec_of_now rfl ha (Dev.mapPages_early hw he),
      fun hw he ho => exec_of_now rfl ha (Dev.mapPages_outside hw he ho),
      fun hw he ho hm => exec_of_now rfl ha (Dev.mapPages_full hw he ho hm),
      fun hw he ho e hm => exec_of_now rfl ha (Dev.mapPages_mapped hw he ho hm)⟩
  · exact exec_of_now rfl ha (if_pos hf)
  · by_cases h0 : m.arg0 = 0
    · refine ⟨_, exec_of_now rfl ha ((if_neg (Nat.not_le.mpr hf)).trans (if_pos h0)), ?_, fun k hk => Dev.ctx_setCtx_other d _ hk⟩
      rw [if_pos h0]
      exact Dev.ctx_setCtx d n _
    · refine ⟨_, exec_of_now rfl ha ((if_neg (Nat.not_le.mpr hf)).trans (if_neg h0)), ?_, fun k hk => Dev.ctx_setCtx_other d _ hk⟩
      rw [if_neg h0]
      exact Dev.ctx_setCtx d n _
  · exact exec_of_now rfl ha (if_pos (by rw [hs]; rfl))
  · exact exec_of_now rfl ha ((if_neg (by rw [hs]; decide)).trans (if_pos (by rw [hj]; rfl)))
  · exact ⟨_, exec_of_now rfl ha (Dev.setAudit_answers hs hj), by rw [Dev.ctx_onCtx], fun k hk => Dev.ctx_setCtx_other d _ hk⟩

end Sys2Proof.Proofs
end

section
/-!
PROOFS. Screens: what one leaves when it ends, and what its slices leave (17_reliability_and_silent_errors.md R594-R604).
-/

namespace Sys2Proof.Machine

open Sys2Proof.Claims

namespace Dev

/-- The device `e` is `d` but for registers, mail, the health log, boot state and flash, and SCR_LAST's first word is as it was. -/
structure Reported (d e : Dev) : Prop where
  frame : e = { d with regs := e.regs, rings := e.rings, eventSeq := e.eventSeq, health := e.health, boot := e.boot, flash := e.flash }
  last : e.rd .SCR_LAST 0 0 = d.rd .SCR_LAST 0 0

namespace Reported

variable {d e : Dev}

theorem refl (d : Dev) : Reported d d := ⟨rfl, rfl⟩

theorem after {f : Dev} (k : Reported e f) (h : Reported d e) : Reported d f := by
  obtain ⟨hk, hl⟩ := k
  obtain ⟨hh, hl'⟩ := h
  refine ⟨?_, hl.trans hl'⟩
  rw [hk, hh]

theorem foldl {β : Type} {f : Dev → β → Dev} (h : ∀ d x, Reported d (f d x)) : ∀ (l : List β) (d : Dev), Reported d (l.foldl f d)
  | [], d => refl d
  | x :: l, d => after (foldl h l (f d x)) (h d x)

theorem ite {c : Prop} [Decidable c] {x y : Dev} (h : Reported d x) (k : Reported d y) : Reported d (if c then x else y) := by
  split
  · exact h
  · exact k

theorem setFld (d : Dev) (x : Field) (w j v : Nat) (h : Reg.SCR_LAST.key 0 0 ≠ x.reg.key w j) : Reported d (d.setFld x w j v) :=
  ⟨rfl, rd_setFld_other d x v h⟩

theorem bump (d : Dev) (x : Field) (k : Nat) (h : Reg.SCR_LAST.key 0 0 ≠ x.reg.key 0 0) : Reported d (d.bump x 0 0 k) := setFld d x 0 0 _ h

theorem raise (d : Dev) (x : Field) (w : Nat) (h : Reg.SCR_LAST.key 0 0 ≠ x.reg.key w 0) : Reported d (d.raise x w) := setFld d x w 0 1 h

theorem of_mail (h : MailOnly d e) : Reported d e := by
  obtain ⟨hframe, hrd⟩ := h
  refine ⟨?_, hrd _ _ _ (by decide)⟩
  rw [hframe]

theorem screen (h : Reported d e) : e.screen = d.screen := by rw [h.frame]
theorem ctxs (h : Reported d e) : e.ctxs = d.ctxs := by rw [h.frame]
theorem stops (h : Reported d e) : e.stops = d.stops := by rw [h.frame]

end Reported

/-! ### The end of a screen (R603, R604, R610) -/

/-- A result shown in SCR_LAST. -/
def shown (d : Dev) (r : List Byte) : Dev := (List.range 8).foldl (fun d w => d.wr .SCR_LAST 0 w (field r (8 * w) 8)) { d with screen := none }

/-- A screen counted by its kind and its verdict. -/
def counted (d : Dev) (s : Screen) (verdict : Nat) : Dev :=
  let d := if s.kind = 0 then d.bump F.SCR_QUICK_CNT_screens 0 0 1 else d.bump F.SCR_FULL_CNT_screens 0 0 1
  let d := if verdict = 1 then (d.bump F.SCR_FAIL_CNT_screens 0 0 1).raise F.SCR_ERR_STATUS_screen_fail else d
  let d := if 2 ≤ verdict then d.bump F.SCR_INCOMPLETE_CNT_screens 0 0 1 else d
  if verdict = 2 then d.raise F.SCR_ERR_STATUS_incomplete else if verdict = 3 then d.raise F.SCR_ERR_STATUS_aborted else d

/-- An array that a screen retires. -/
def screenRetire (d : Dev) (a : Nat) : Dev :=
  let d := d.retire a 2
  let m := d.fld F.SCR_RETIRED_reasons
  (d.setFld F.SCR_RETIRED_mask 0 0 (d.fld F.SCR_RETIRED_mask ||| 2 ^ a)).setFld F.SCR_RETIRED_reasons 0 0 (putBits m (2 * a + 1) (2 * a) 2)

/-- The arrays whose tests failed retired. -/
def retireFailed (d : Dev) (bad : Nat) : Dev :=
  (List.range 8).foldl (fun d a => if bit bad a && !d.retired a then d.screenRetire a else d) d

/-- A screen noted in the health log. -/
def logged (d : Dev) (s : Screen) (verdict : Nat) (r : List Byte) : Dev :=
  ({ d with
    health := { d.health with
      quick := if s.kind = 0 then d.health.quick + 1 else d.health.quick, full := if s.kind = 0 then d.health.full else d.health.full + 1
      failed := if verdict = 1 then d.health.failed + 1 else d.health.failed, results := (r :: d.health.results).take 8 }
    boot := { d.boot with screenedAt := d.now } }).writeHealth

/-- A screen's result sent to what asked for it, and its event. -/
def reportScreen (d : Dev) (s : Screen) (verdict : Nat) (r : List Byte) : Dev :=
  let d := match s.asked with
    | some (c, tag) =>
      d.proisSend c { code := 0x0032, status := if verdict = 2 then 10 else if verdict = 3 then 8 else 0, flags := 1, tag } r
    | none => d
  d.deviceEvent 0x8008 r

theorem finishScreen_eq (d : Dev) (s : Screen) (verdict : Nat) : d.finishScreen s verdict =
    ((((d.shown (s.result verdict d.now)).counted s verdict).retireFailed (s.mask [0, 1])).logged s verdict (s.result verdict d.now)).reportScreen
      s verdict (s.result verdict d.now) := rfl

theorem counted_reported (d : Dev) (s : Screen) (verdict : Nat) : Reported d (d.counted s verdict) := by
  unfold counted
  dsimp only
  refine .after (.ite (.raise _ F.SCR_ERR_STATUS_incomplete 0 (by decide)) (.ite (.raise _ F.SCR_ERR_STATUS_aborted 0 (by decide)) (.refl _))) ?_
  refine .after (.ite (.bump _ F.SCR_INCOMPLETE_CNT_screens 1 (by decide)) (.refl _)) ?_
  refine .after (.ite (.after (.raise _ F.SCR_ERR_STATUS_screen_fail 0 (by decide)) (.bump _ F.SCR_FAIL_CNT_screens 1 (by decide))) (.refl _)) ?_
  exact .ite (.bump d F.SCR_QUICK_CNT_screens 1 (by decide)) (.bump d F.SCR_FULL_CNT_screens 1 (by decide))

theorem retireRegs_reported (d : Dev) {a : Nat} (h : a < 8) : Reported d (d.retireRegs a 2) := by
  have hkeys : Reg.SCR_LAST.key 0 0 ≠ Reg.DA_RETIRE.key a 0 ∧ Reg.SCR_LAST.key 0 0 ≠ Reg.DA_ERR_STATUS.key a 0 := by
    constructor <;> simp only [Reg.key, Reg.row] <;> omega
  exact .after (.raise _ F.DA_ERR_STATUS_retired a hkeys.2)
    (.after (.setFld _ F.DA_RETIRE_retired a 0 1 hkeys.1) (.setFld d F.DA_RETIRE_reason a 0 2 hkeys.1))

theorem retire_reported (d : Dev) {a : Nat} (h : a < 8) : Reported d (d.retire a 2) := by
  cases hr : d.retired a with
  | true =>
    rw [retire, if_pos hr]
    exact .refl d
  | false =>
    obtain ⟨x, hx⟩ := retire_eq hr 2
    rw [hx]
    exact .after (.of_mail (mailOnly_deviceEvent _ _ _)) (.after ⟨rfl, rfl⟩ (retireRegs_reported d h))

theorem screenRetire_reported (d : Dev) {a : Nat} (h : a < 8) : Reported d (d.screenRetire a) :=
  .after (.setFld _ F.SCR_RETIRED_reasons 0 0 _ (by decide)) (.after (.setFld _ F.SCR_RETIRED_mask 0 0 _ (by decide)) (retire_reported d h))

theorem retireFailed_reported (d : Dev) (bad : Nat) : Reported d (d.retireFailed bad) := by
  have hfold : ∀ (l : List Nat) (d : Dev), (∀ a ∈ l, a < 8) →
      Reported d (l.foldl (fun d a => if bit bad a && !d.retired a then d.screenRetire a else d) d) := by
    intro l
    induction l with
    | nil => exact fun d _ => .refl d
    | cons a l ih =>
      intro d hl
      refine .after (ih _ fun x hx => hl x (List.mem_cons_of_mem _ hx)) ?_
      exact .ite (screenRetire_reported d (hl a List.mem_cons_self)) (.refl d)
  exact hfold _ d fun a ha => List.mem_range.mp ha

theorem logged_reported (d : Dev) (s : Screen) (verdict : Nat) (r : List Byte) : Reported d (d.logged s verdict r) := ⟨rfl, rfl⟩

theorem reportScreen_reported (d : Dev) (s : Screen) (verdict : Nat) (r : List Byte) : Reported d (d.reportScreen s verdict r) := by
  unfold reportScreen
  refine .after (.of_mail (mailOnly_deviceEvent _ _ _)) ?_
  split
  · exact .of_mail (mailOnly_proisSend _ _ _ _)
  · exact .refl d

/-- What follows SCR_LAST at the end of a screen changes neither it nor the screen. -/
theorem finishScreen_reported (d : Dev) (s : Screen) (verdict : Nat) : Reported (d.shown (s.result verdict d.now)) (d.finishScreen s verdict) := by
  rw [finishScreen_eq]
  exact .after (reportScreen_reported _ _ _ _) (.after (logged_reported _ _ _ _) (.after (retireFailed_reported _ _) (counted_reported _ _ _)))

theorem shown_frame (d : Dev) (r : List Byte) : d.shown r = { d with regs := (d.shown r).regs, screen := none } := by
  have hregs : RegsOnly { d with screen := none } (d.shown r) := RegsOnly.foldl (fun d w => .wr d .SCR_LAST 0 w _) _ _
  exact hregs

theorem rd_shown (d : Dev) (r : List Byte) : (d.shown r).rd .SCR_LAST 0 0 = field r 0 8 := by
  have h := rd_foldl_wr .SCR_LAST 0 0 (fun w => field r (8 * w) 8) (by decide) { d with screen := none } 8 0 (by decide)
  simp only [Nat.zero_add] at h
  exact h.trans (Nat.mod_eq_of_lt (field_lt _ _ 8))

theorem finishScreen_screen (d : Dev) (s : Screen) (verdict : Nat) : (d.finishScreen s verdict).screen = none := by
  rw [(finishScreen_reported d s verdict).screen, shown_frame]

theorem rd_finishScreen (d : Dev) (s : Screen) (verdict : Nat) : (d.finishScreen s verdict).rd .SCR_LAST 0 0 = field (s.result verdict d.now) 0 8 := by
  rw [(finishScreen_reported d s verdict).last, rd_shown]

/-- The first two bytes of a result: the kind and the verdict (R603). -/
theorem field_result (s : Screen) (verdict now : Nat) : bits (field (s.result verdict now) 0 8) 7 0 = s.kind % 256 ∧
    bits (field (s.result verdict now) 0 8) 15 8 = verdict % 256 := by
  obtain ⟨x, hx⟩ : ∃ x : List Byte, (s.result verdict now).take 8 = leBytes 1 s.kind ++ (leBytes 1 verdict ++ x) := by
    unfold Screen.result
    simp only [List.append_assoc]
    exact ⟨_, rfl⟩
  have hnum : field (s.result verdict now) 0 8 = s.kind % 256 + 256 * (verdict % 256 + 256 * leNat x) := by
    rw [field, List.drop_zero, hx, leNat_append, leNat_append, leNat_leBytes, leNat_leBytes, length_leBytes, length_leBytes]
    rfl
  rw [hnum, bits_eq_mod, bits_eq_mod]
  have hk := Nat.mod_lt s.kind (show 0 < 256 by decide)
  have hv := Nat.mod_lt verdict (show 0 < 256 by decide)
  constructor <;> simp only [Nat.pow_zero, Nat.div_one, Nat.reduceSub, Nat.reduceAdd, Nat.reducePow] <;> omega

/-! ### Slices of a quick screen -/

/-- The device `e` is `d` but for registers, mail, the screen, the health log, boot state and flash. -/
def ScreenOnly (d e : Dev) : Prop :=
  e = { d with regs := e.regs, rings := e.rings, eventSeq := e.eventSeq, screen := e.screen, health := e.health, boot := e.boot, flash := e.flash }

theorem ScreenOnly.refl (d : Dev) : ScreenOnly d d := rfl

theorem ScreenOnly.after {d e f : Dev} (k : ScreenOnly e f) (h : ScreenOnly d e) : ScreenOnly d f := by
  unfold ScreenOnly at h k ⊢
  rw [k, h]

theorem ScreenOnly.foldl {β : Type} {f : Dev → β → Dev} (h : ∀ d x, ScreenOnly d (f d x)) : ∀ (l : List β) (d : Dev), ScreenOnly d (l.foldl f d)
  | [], d => refl d
  | x :: l, d => after (foldl h l (f d x)) (h d x)

theorem ScreenOnly.ite {d : Dev} {c : Prop} [Decidable c] {x y : Dev} (h : ScreenOnly d x) (k : ScreenOnly d y) :
    ScreenOnly d (if c then x else y) := by
  split
  · exact h
  · exact k

theorem ScreenOnly.of_reported {d e : Dev} (h : Reported d e) : ScreenOnly d e := by
  unfold ScreenOnly
  rw [h.frame]

theorem ScreenOnly.ctxs {d e : Dev} (h : ScreenOnly d e) : e.ctxs = d.ctxs := by rw [h]
theorem ScreenOnly.stops {d e : Dev} (h : ScreenOnly d e) : e.stops = d.stops := by rw [h]

theorem finishScreen_screenOnly (d : Dev) (s : Screen) (verdict : Nat) : ScreenOnly d (d.finishScreen s verdict) := by
  refine .after (.of_reported (finishScreen_reported d s verdict)) ?_
  unfold ScreenOnly
  rw [shown_frame]

theorem runSlice_screenOnly (d : Dev) (c : Nat) (fails : List FailedTest) : ScreenOnly d (d.runSlice c fails) := by
  unfold runSlice
  split
  · exact .refl d
  · split
    · exact .refl d
    · rfl

theorem quickEnd_screenOnly (d : Dev) : ScreenOnly d d.quickEnd := by
  unfold quickEnd
  split
  · exact .ite (finishScreen_screenOnly d _ _) (.refl d)
  · exact .refl d

theorem idleSlices_screenOnly (d : Dev) (fails : List FailedTest) : ScreenOnly d (d.idleSlices fails) := by
  refine .after (quickEnd_screenOnly _) (.foldl (fun d c => ?_) _ d)
  exact .ite (.foldl (fun d _ => .ite (runSlice_screenOnly d c fails) (.refl d)) _ d) (.refl d)

/-! ### A full screen -/

/-- Arrays as bits of a word. -/
theorem bit_goodArrays (d : Dev) (i : Nat) : bit (d.goodArrays.foldl (fun a x => a + 2 ^ x) 0) i = decide (i ∈ d.goodArrays) := by
  have hfold : d.goodArrays.foldl (fun a x => a + 2 ^ x) 0 = (List.range 8).foldl (fun a x => if d.retired x = true then a else a + 2 ^ x) 0 := by
    rw [goodArrays, List.foldl_filter]
    congr 1
    funext a x
    cases d.retired x <;> rfl
  rw [hfold, (bit_foldl_pow (fun x => d.retired x = true) 8).2 i]
  congr 1
  simp [goodArrays]

/-- A test that fails on an array in use. -/
theorem units_good (d : Dev) (units : Nat) : (units &&& d.goodArrays.foldl (fun a x => a + 2 ^ x) 0) ≠ 0 ↔
    ∃ a ∈ d.goodArrays, bit units a = true := by
  constructor
  · intro h
    obtain ⟨i, hi⟩ := Nat.exists_testBit_of_ne_zero h
    rw [Nat.testBit_and, Bool.and_eq_true] at hi
    have hgood := hi.2
    rw [← bit, bit_goodArrays, decide_eq_true_iff] at hgood
    exact ⟨i, hgood, hi.1⟩
  · rintro ⟨a, ha, hu⟩ hz
    have hbit := congrArg (fun n => bit n a) hz
    have hgood := (bit_goodArrays d a).trans (decide_eq_true ha)
    rw [bit] at hu hgood
    simp only [bit, Nat.testBit_and, hu, hgood, Nat.zero_testBit, Bool.and_self] at hbit
    exact Bool.noConfusion hbit

/-- The tests of a full screen that fail on units in use. -/
def countedFails (d : Dev) (fails : List FailedTest) : List FailedTest :=
  fails.filter (fun t => decide (2 ≤ t.cls) || decide (t.units &&& d.goodArrays.foldl (fun a x => a + 2 ^ x) 0 ≠ 0))

theorem countedFails_empty (d : Dev) (fails : List FailedTest) : (d.countedFails fails).isEmpty = true ↔
    ¬ ∃ t ∈ fails, 2 ≤ t.cls ∨ ∃ a ∈ d.goodArrays, bit t.units a = true := by
  have hone : ∀ t : FailedTest, ((decide (2 ≤ t.cls) || decide (t.units &&& d.goodArrays.foldl (fun a x => a + 2 ^ x) 0 ≠ 0)) = true ↔
      (2 ≤ t.cls ∨ ∃ a ∈ d.goodArrays, bit t.units a = true)) := fun t => by
    rw [Bool.or_eq_true, decide_eq_true_iff, decide_eq_true_iff, units_good]
  rw [countedFails, List.isEmpty_iff, List.filter_eq_nil_iff]
  simp only [hone, not_exists, not_and]

/-- The verdict of a full screen that starts anew (R602). -/
theorem runFull_spec (d : Dev) {s : Screen} (hs : s.failed = [] ∧ s.links = 0 ∧ s.channels = 0 ∧ s.mismatch = false)
    (fails : List FailedTest) (took : Nat) :
    (d.runFull s fails took).screen = none ∧ bits ((d.runFull s fails took).rd .SCR_LAST 0 0) 7 0 = s.kind % 256 ∧
    bits ((d.runFull s fails took).rd .SCR_LAST 0 0) 15 8 =
      (if ∃ t ∈ fails, 2 ≤ t.cls ∨ ∃ a ∈ d.goodArrays, bit t.units a = true then 1 else if s.deadline < took then 2 else 0) := by
  obtain ⟨hfailed, hlinks, hchannels, hmismatch⟩ := hs
  obtain ⟨x, verdict, heq, hkind, hfails, hl, hc, hm, hverdict⟩ : ∃ (x : Screen) (verdict : Nat),
      d.runFull s fails took = d.march.finishScreen x verdict ∧ x.kind = s.kind ∧ x.failed = s.failed ++ d.countedFails fails ∧
      x.links = s.links ∧ x.channels = s.channels ∧ x.mismatch = s.mismatch ∧
      verdict = if (!x.clean) = true then 1 else if decide (s.deadline < took) = true then 2 else 0 :=
    ⟨_, _, rfl, rfl, rfl, rfl, rfl, rfl, rfl⟩
  have hclean : x.clean = (d.countedFails fails).isEmpty := by
    rw [Screen.clean, hl, hc, hm, hfails, hfailed, hlinks, hchannels, hmismatch, List.nil_append]
    simp
  rw [heq, rd_finishScreen]
  obtain ⟨hk, hv⟩ := field_result x verdict d.march.now
  refine ⟨finishScreen_screen _ _ _, hk.trans (by rw [hkind]), hv.trans ?_⟩
  have hempty := d.countedFails_empty fails
  rw [hverdict, hclean]
  by_cases hfail : ∃ t ∈ fails, 2 ≤ t.cls ∨ ∃ a ∈ d.goodArrays, bit t.units a = true
  · have hne : (d.countedFails fails).isEmpty = false := Bool.eq_false_iff.mpr fun h => hempty.mp h hfail
    rw [if_pos hfail, hne]
    rfl
  · rw [if_neg hfail, hempty.mpr hfail]
    by_cases hlate : s.deadline < took
    · simp [hlate]
    · simp [hlate]

end Dev

end Sys2Proof.Machine
end

section
/-!
PROOFS. Functions stopped and started (14_control_mailboxes_and_interrupts.md R523).
-/

namespace Sys2Proof.Machine

open Sys2Proof.Claims

namespace Dev

theorem isStopped_of_stops {d e : Dev} (h : e.stops = d.stops) (g : Nat) : e.isStopped g = d.isStopped g := by
  rw [isStopped, h]
  rfl

/-- A function's state alone changes. -/
theorem isStopped_setStopped (d : Dev) (f g : Nat) (v : Bool) : (d.setStopped f v).isStopped g = if g = f then v else d.isStopped g := by
  rw [isStopped, setStopped, bit_putBits (Nat.le_refl f)]
  by_cases h : g = f
  · rw [if_pos h, if_pos (by omega)]
    subst h
    rw [Nat.sub_self]
    cases v <;> rfl
  · rw [if_neg h, if_neg (by omega)]
    rfl

theorem pfld_setStopped (d : Dev) (f : Nat) (v : Bool) (x : Field) (p : Nat) : (d.setStopped f v).pfld x p = d.pfld x p := rfl

/-! ### Ports of a link group -/

/-- Enables of ports, and states of other ports than p, stay. -/
structure OnePort (d e : Dev) (p : Nat) : Prop where
  enable : ∀ q < 24, e.pfld F.RHK_PORT_CTRL_enable q = d.pfld F.RHK_PORT_CTRL_enable q
  state : ∀ q < 24, q ≠ p → e.pfld F.RHK_PORT_STATUS_state q = d.pfld F.RHK_PORT_STATUS_state q
  stops : e.stops = d.stops

theorem OnePort.refl (d : Dev) (p : Nat) : OnePort d d p := ⟨fun _ _ => rfl, fun _ _ _ => rfl, rfl⟩

theorem OnePort.after {d e f : Dev} {p : Nat} (k : OnePort e f p) (h : OnePort d e p) : OnePort d f p :=
  ⟨fun q hq => (k.enable q hq).trans (h.enable q hq), fun q hq hp => (k.state q hq hp).trans (h.state q hq hp), k.stops.trans h.stops⟩

theorem OnePort.of_traffic {d e : Dev} (h : Traffic d e) (hs : e.stops = d.stops) (p : Nat) : OnePort d e p :=
  ⟨fun q _ => h.pfld (.inr rfl) q, fun q _ _ => h.state q, hs⟩

theorem OnePort.of_regs {d e : Dev} (h : e.regs = d.regs) (hs : e.stops = d.stops) (p : Nat) : OnePort d e p :=
  ⟨fun q _ => by rw [pfld, fld_of_regs h]; rfl, fun q _ _ => by rw [pfld, fld_of_regs h]; rfl, hs⟩

theorem onePort_onPort (d : Dev) (p : Nat) (f : RhkPort → RhkPort) : OnePort d (d.onPort p f) p :=
  .of_regs (d := d) (e := d.onPort p f) rfl rfl p

theorem onePort_setState (d : Dev) (p v : Nat) : OnePort d (d.setPfld F.RHK_PORT_STATUS_state p v) p := by
  refine ⟨fun q _ => fld_setFld_other d v ?_, fun q _ hp => fld_setFld_other d v ?_, rfl⟩
  · simp only [F.RHK_PORT_STATUS_state, F.RHK_PORT_CTRL_enable, Reg.key, Reg.row]
    omega
  · simp only [F.RHK_PORT_STATUS_state, Reg.key, Reg.row]
    omega

theorem state_setState (d : Dev) (p : Nat) {v : Nat} (h : v < 8) :
    (d.setPfld F.RHK_PORT_STATUS_state p v).pfld F.RHK_PORT_STATUS_state p = v :=
  (fld_setFld d (x := F.RHK_PORT_STATUS_state) (by decide) (by decide) (p / 4) (p % 4) v).trans (Nat.mod_eq_of_lt h)

theorem onePort_downNoted (d : Dev) (p : Nat) : OnePort d (d.downNoted p) p := by
  have hrd {r : Reg} {w j : Nat} (h : r.key w j ≠ Reg.RHK_PORT_STATUS.key (p / 4) (p % 4)) (h' : r.key w j ≠ Reg.RHK_ERR_STATUS.key (p / 4) 0) :
      (d.downNoted p).rd r w j = d.rd r w j := rd_downMarked_other d p h h'
  refine ⟨fun q _ => fld_congr (hrd ?_ ?_), fun q _ hp => fld_congr (hrd ?_ ?_), rfl⟩ <;>
    simp only [F.RHK_PORT_STATUS_state, F.RHK_PORT_CTRL_enable, Reg.key, Reg.row] <;> omega

theorem enable_ringLeft (d : Dev) (p q : Nat) :
    (d.ringLeft p).pfld F.RHK_PORT_CTRL_enable q = d.pfld F.RHK_PORT_CTRL_enable q := by
  unfold ringLeft
  split
  · by_cases hqp : q = p
    · rw [hqp]
      exact pfld_setPfld_disjoint d (x := F.RHK_PORT_CTRL_ring_use) (y := F.RHK_PORT_CTRL_enable) rfl (by decide) (by decide) p 0 (by decide)
    · refine fld_setFld_other d 0 ?_
      simp only [F.RHK_PORT_CTRL_ring_use, F.RHK_PORT_CTRL_enable, Reg.key, Reg.row]
      omega
  · rfl

theorem enable_failCounted (d : Dev) (p dest src ctx q : Nat) :
    (d.failCounted p dest src ctx).pfld F.RHK_PORT_CTRL_enable q = d.pfld F.RHK_PORT_CTRL_enable q := by
  refine fld_congr (x := F.RHK_PORT_CTRL_enable) (rd_failCounted d p dest src ctx (r := .RHK_PORT_CTRL) (offTraffic_ctrl _ _) ?_)
  simp only [Reg.key, Reg.row]
  omega

theorem stops_failCounted (d : Dev) (p dest src ctx : Nat) : ((d.ringLeft p).failCounted p dest src ctx).stops = d.stops := by
  rw [((d.ringLeft p).failCounted_regsOnly p dest src ctx).after (d.ringLeft_regsOnly p)]

theorem onePort_failNoted (d : Dev) (p : Nat) : OnePort d (d.failNoted p) p := by
  obtain ⟨dest, src, ctx, heq⟩ := d.failNoted_eq p
  have hcount : d.failNoted p = ((d.ringLeft p).failCounted p dest src ctx).onPort p (fun x => { x with hold := [], waiting := [] }) := heq
  have henable (q : Nat) := enable_failCounted (d.ringLeft p) p dest src ctx q
  have hstops := stops_failCounted d p dest src ctx
  have hstatus := (d.failNoted_spec p).1
  generalize (d.ringLeft p).failCounted p dest src ctx = x at hcount henable hstops
  have hregs : (d.failNoted p).regs = x.regs := by rw [hcount]; rfl
  refine ⟨fun q _ => ?_, fun q _ _ => hstatus _ rfl q, ?_⟩
  · rw [pfld, fld_of_regs hregs, ← enable_ringLeft d p q, ← henable q, pfld]
  · rw [hcount]
    exact hstops

theorem failOver_stops (d : Dev) (p : Nat) : (d.failOver p).stops = d.stops := by rw [failOver_control d p]

theorem onePort_failOver (d : Dev) (p : Nat) : OnePort d (d.failOver p) p := by
  refine ⟨fun q hq => ?_, fun q _ _ => (d.failOver_spec p).1 _ rfl q, failOver_stops d p⟩
  cases hon : d.isSet F.RHK_CTRL_fo_en (p / 4) with
  | false => rw [failOver_of_off hon]
  | true =>
    rw [failOver_of_on hon]
    exact ((traffic_failed (d.failNoted p) p (d.port p).hold (d.port p).waiting).pfld (.inr rfl) q).trans ((onePort_failNoted d p).enable q hq)

theorem onePort_portDown (d : Dev) (p : Nat) : OnePort d (d.portDown p) p := by
  rw [portDown_eq]
  have hmail := mailOnly_deviceEvent ((d.downNoted p).failOver p) 0x8005
    (leBytes 1 p ++ leBytes 1 (((d.downNoted p).failOver p).fld F.RHK_CTRL_fo_en (p / 4)))
  generalize ((d.downNoted p).failOver p).deviceEvent 0x8005
    (leBytes 1 p ++ leBytes 1 (((d.downNoted p).failOver p).fld F.RHK_CTRL_fo_en (p / 4))) = e at hmail
  refine .after (e := (d.downNoted p).failOver p) ⟨fun q hq => ?_, fun q hq _ => ?_, ?_⟩
    (.after (onePort_failOver _ p) (onePort_downNoted d p))
  · exact fld_congr (hmail.2 _ _ _ (not_mail_rhk _ (.inr (.inl rfl)) (by omega) (Nat.mod_lt _ (by decide))))
  · exact fld_congr (hmail.2 _ _ _ (not_mail_rhk _ (.inl rfl) (by omega) (Nat.mod_lt _ (by decide))))
  · rw [hmail.1]

/-- Each enabled port of a list put into a state. -/
theorem foldl_onePort {f : Dev → Nat → Dev} {v : Nat} (hf : ∀ d p, OnePort d (f d p) p ∧
      (d.pfld F.RHK_PORT_CTRL_enable p ≠ 0 → (f d p).pfld F.RHK_PORT_STATUS_state p = v)) :
    ∀ (l : List Nat) (d : Dev), (∀ p ∈ l, p < 24) → (l.foldl f d).stops = d.stops ∧
      (∀ q < 24, q ∉ l → (l.foldl f d).pfld F.RHK_PORT_STATUS_state q = d.pfld F.RHK_PORT_STATUS_state q) ∧
      ∀ p ∈ l, d.pfld F.RHK_PORT_CTRL_enable p ≠ 0 → (l.foldl f d).pfld F.RHK_PORT_STATUS_state p = v
  | [], d, _ => ⟨rfl, fun _ _ _ => rfl, fun _ hp => absurd hp (by simp)⟩
  | p :: l, d, hl => by
    obtain ⟨hone, hstate⟩ := hf d p
    obtain ⟨hs, hout, hin⟩ := foldl_onePort hf l (f d p) fun q hq => hl q (List.mem_cons_of_mem _ hq)
    refine ⟨hs.trans hone.stops, fun q hq hn => ?_, fun q hq he => ?_⟩
    · rw [List.mem_cons, not_or] at hn
      exact (hout q hq hn.2).trans (hone.state q hq hn.1)
    · have hq24 := hl q hq
      by_cases hql : q ∈ l
      · exact hin q hql (by rw [hone.enable q hq24]; exact he)
      · have hqp : q = p := (List.mem_cons.mp hq).resolve_right hql
        rw [List.foldl_cons, hout q hq24 hql, hqp]
        exact hstate (hqp ▸ he)

/-- A port of a link group that stops. -/
def stopPort (d : Dev) (p : Nat) : Dev :=
  if d.pfld F.RHK_PORT_CTRL_enable p = 0 then d
  else (if d.portUp p then (d.sendFlit p 5 []).portDown p else d).setPfld F.RHK_PORT_STATUS_state p 4

/-- A port of a link group that starts. -/
def startPort (d : Dev) (p : Nat) : Dev :=
  if d.pfld F.RHK_PORT_CTRL_enable p = 0 then d
  else (d.setPfld F.RHK_PORT_STATUS_state p 1).onPort p (fun x => { x with failedAt := none })

theorem stopPort_spec (d : Dev) (p : Nat) : OnePort d (d.stopPort p) p ∧
    (d.pfld F.RHK_PORT_CTRL_enable p ≠ 0 → (d.stopPort p).pfld F.RHK_PORT_STATUS_state p = 4) := by
  unfold stopPort
  refine ⟨?_, fun he => ?_⟩
  · split
    · exact .refl d p
    · refine .after (onePort_setState _ p 4) ?_
      split
      · exact .after (onePort_portDown _ p) (.of_traffic (traffic_sendFlit d p 5 []) rfl p)
      · exact .refl d p
  · rw [if_neg he]
    exact state_setState _ p (by decide)

theorem startPort_spec (d : Dev) (p : Nat) : OnePort d (d.startPort p) p ∧
    (d.pfld F.RHK_PORT_CTRL_enable p ≠ 0 → (d.startPort p).pfld F.RHK_PORT_STATUS_state p = 1) := by
  unfold startPort
  refine ⟨?_, fun he => ?_⟩
  · split
    · exact .refl d p
    · exact .after (onePort_onPort _ p _) (onePort_setState d p 1)
  · rw [if_neg he]
    exact state_setState d p (by decide)

/-- The four ports of a link die. -/
def diePorts (die : Nat) : List Nat := [4 * die, 4 * die + 1, 4 * die + 2, 4 * die + 3]

theorem mem_diePorts {die p : Nat} : p ∈ diePorts die ↔ p / 4 = die := by
  simp only [diePorts, List.mem_cons, List.not_mem_nil, or_false]
  omega

theorem stopLinks_spec (d : Dev) {die : Nat} (h : die < 6) : (d.stopLinks die).stops = d.stops ∧
    ∀ p, p / 4 = die → d.pfld F.RHK_PORT_CTRL_enable p ≠ 0 → (d.stopLinks die).pfld F.RHK_PORT_STATUS_state p = 4 := by
  obtain ⟨hs, -, hin⟩ := foldl_onePort stopPort_spec (diePorts die) d fun p hp => by have := mem_diePorts.mp hp; omega
  exact ⟨hs, fun p hp he => hin p (mem_diePorts.mpr hp) he⟩

theorem startLinks_spec (d : Dev) {die : Nat} (h : die < 6) : (d.startLinks die).stops = d.stops ∧
    ∀ p, p / 4 = die → d.pfld F.RHK_PORT_CTRL_enable p ≠ 0 → (d.startLinks die).pfld F.RHK_PORT_STATUS_state p = 1 := by
  obtain ⟨hs, -, hin⟩ := foldl_onePort startPort_spec (diePorts die) d fun p hp => by have := mem_diePorts.mp hp; omega
  exact ⟨hs, fun p hp he => hin p (mem_diePorts.mpr hp) he⟩

/-! ### Contexts pre-empted together -/

theorem st_foldl_preempt (k : Nat) : ∀ (l : List Nat) (d : Dev),
    ((l.foldl (fun d n => d.preempt n) d).ctx k).st = if k ∈ l then .preempted else (d.ctx k).st
  | [], d => by simp
  | n :: l, d => by
    rw [List.foldl_cons, st_foldl_preempt k l, st_preempt]
    by_cases hl : k ∈ l
    · simp [hl]
    · simp [hl]

theorem stops_foldl_preempt : ∀ (l : List Nat) (d : Dev), (l.foldl (fun d n => d.preempt n) d).stops = d.stops
  | [], _ => rfl
  | n :: l, d => (stops_foldl_preempt l _).trans (stops_preempt d n)

theorem mem_runningContexts {d : Dev} {n : Nat} (h : n ∈ d.runningContexts) : (d.ctx n).st = .running := by
  have h2 := (List.mem_filter.mp h).2
  simpa using h2

/-! ### STOP_FUNCTION -/

section
variable {d : Dev} {w : Who} {m : Msg} {missed : List Nat} {fails : List FailedTest}

/-- Running contexts whose units reach their stop points in time, and those that do not. -/
def preemptedInTime (d : Dev) (missed : List Nat) : List Nat := d.runningContexts.filter (fun n => !missed.contains n)

theorem stopFunction_forced (hf : m.arg0 = 0) (hforce : field m.body 0 1 = 1) (hs : d.isStopped 0 = false) :
    stopFunction missed fails d w m =
      if d.runningContexts.filter (fun n => !!missed.contains n) ≠ [] then (.now 10 [], (d.preemptedInTime missed).foldl (fun d n => d.preempt n) d)
      else (.now 0 [], (((d.preemptedInTime missed).foldl (fun d n => d.preempt n) d).setStopped 0 true).idleSlices fails) := by
  unfold stopFunction
  dsimp only
  rw [hf, hforce, hs, List.partition_eq_filter_filter]
  rfl

theorem stopFunction_missed (hf : m.arg0 = 0) (hforce : field m.body 0 1 = 1) (hs : d.isStopped 0 = false)
    (hm : ∃ n ∈ d.runningContexts, n ∈ missed) : stopFunction missed fails d w m =
      (.now 10 [], (d.preemptedInTime missed).foldl (fun d n => d.preempt n) d) := by
  refine (stopFunction_forced hf hforce hs).trans (if_pos fun hnil => ?_)
  obtain ⟨n, hn, hmiss⟩ := hm
  have := List.filter_eq_nil_iff.mp hnil n hn
  simp [hmiss] at this

theorem stopFunction_inTime (hf : m.arg0 = 0) (hforce : field m.body 0 1 = 1) (hs : d.isStopped 0 = false)
    (hm : ∀ n ∈ d.runningContexts, n ∉ missed) : stopFunction missed fails d w m =
      (.now 0 [], (((d.preemptedInTime missed).foldl (fun d n => d.preempt n) d).setStopped 0 true).idleSlices fails) := by
  refine (stopFunction_forced hf hforce hs).trans (if_neg (not_not_intro ?_))
  refine List.filter_eq_nil_iff.mpr fun n hn => ?_
  simp [hm n hn]

theorem stopFunction_idle (hf : m.arg0 = 0) (hforce : field m.body 0 1 = 0) (hs : d.isStopped 0 = false) (hr : d.runningContexts = []) :
    stopFunction missed fails d w m = (.now 0 [], (d.setStopped 0 true).idleSlices fails) := by
  unfold stopFunction
  dsimp only
  rw [hf, hforce, hs, hr]
  rfl

theorem stopFunction_busy (hf : m.arg0 = 0) (hforce : field m.body 0 1 = 0) (hs : d.isStopped 0 = false) (hr : d.runningContexts ≠ []) :
    stopFunction missed fails d w m = (.now 1 [], d) := by
  unfold stopFunction
  dsimp only
  rw [hf, hforce, hs]
  exact if_pos hr

theorem stopFunction_links (hf : 1 ≤ m.arg0) (hf7 : m.arg0 < 7) (hforce : field m.body 0 1 < 2) (hs : d.isStopped m.arg0 = false) :
    stopFunction missed fails d w m = (.now 0 [], (d.stopLinks (m.arg0 - 1)).setStopped m.arg0 true) := by
  unfold stopFunction
  dsimp only
  rw [if_neg (by omega), hs, if_neg (by decide), if_neg (by omega), if_pos hf7]
  rfl

theorem stopFunction_eth (hf : m.arg0 = 7) (hforce : field m.body 0 1 < 2) (hs : d.isStopped 7 = false) :
    stopFunction missed fails d w m = (.now 0 [], d.setStopped 7 true) := by
  unfold stopFunction
  dsimp only
  rw [hf, if_neg (by omega), hs]
  rfl

theorem st_preemptedInTime {n : Nat} (hn : n ∈ d.runningContexts) :
    (((d.preemptedInTime missed).foldl (fun d n => d.preempt n) d).ctx n).st = if n ∈ missed then .running else .preempted := by
  rw [st_foldl_preempt]
  by_cases h : n ∈ missed
  · rw [if_pos h, if_neg (by simp [preemptedInTime, h]), mem_runningContexts hn]
  · rw [if_neg h, if_pos (by simp [preemptedInTime, h, hn])]

/-- A function that stops: its state, and what stops with it. -/
theorem stopFunction_stops (hf : m.arg0 < 8) (hforce : field m.body 0 1 < 2) (hs : d.isStopped m.arg0 = false)
    (h0 : m.arg0 = 0 → d.runningContexts = [] ∨ (field m.body 0 1 = 1 ∧ ∀ n ∈ d.runningContexts, n ∉ missed)) :
    ∃ e : Dev, stopFunction missed fails d w m = (.now 0 [], e) ∧ (∀ g, e.isStopped g = (d.isStopped g || decide (g = m.arg0))) ∧
      (m.arg0 = 0 → ∀ n ∈ d.runningContexts, (e.ctx n).st = .preempted) ∧
      (1 ≤ m.arg0 → m.arg0 < 7 → ∀ p, p / 4 + 1 = m.arg0 → d.pfld F.RHK_PORT_CTRL_enable p ≠ 0 → e.pfld F.RHK_PORT_STATUS_state p = 4) := by
  have hstop {x e : Dev} {f : Nat} (hx : x.stops = d.stops) (he : e.stops = (x.setStopped f true).stops) (g : Nat) :
      e.isStopped g = (d.isStopped g || decide (g = f)) := by
    rw [isStopped_of_stops he, isStopped_setStopped, isStopped_of_stops hx]
    by_cases hg : g = f <;> simp [hg]
  by_cases hz : m.arg0 = 0
  · have hs0 : d.isStopped 0 = false := hz ▸ hs
    by_cases hforced : field m.body 0 1 = 1
    · have hmiss : ∀ n ∈ d.runningContexts, n ∉ missed := fun n hn => by
        rcases h0 hz with hnone | ⟨-, hm⟩
        · rw [hnone] at hn
          exact absurd hn (by simp)
        · exact hm n hn
      have hslices := idleSlices_screenOnly (((d.preemptedInTime missed).foldl (fun d n => d.preempt n) d).setStopped 0 true) fails
      refine ⟨_, stopFunction_inTime hz hforced hs0 hmiss, ?_, fun _ n hn => ?_, fun h1 => absurd hz (by omega)⟩
      · rw [hz]
        exact hstop (stops_foldl_preempt _ d) hslices.stops
      · rw [ctx, hslices.ctxs]
        exact (st_preemptedInTime hn).trans (if_neg (hmiss n hn))
    · have hnone : d.runningContexts = [] := (h0 hz).resolve_right fun h => hforced h.1
      refine ⟨_, stopFunction_idle hz (by omega) hs0 hnone, ?_, fun _ n hn => ?_, fun h1 => absurd hz (by omega)⟩
      · rw [hz]
        exact hstop rfl (idleSlices_screenOnly _ fails).stops
      · rw [hnone] at hn
        exact absurd hn (by simp)
  · by_cases h7 : m.arg0 < 7
    · obtain ⟨hstops, hports⟩ := d.stopLinks_spec (die := m.arg0 - 1) (by omega)
      refine ⟨_, stopFunction_links (by omega) h7 hforce hs, hstop hstops rfl, fun h => absurd h hz, fun _ _ p hp he => ?_⟩
      rw [pfld_setStopped]
      exact hports p (by omega) he
    · have h7 : m.arg0 = 7 := by omega
      refine ⟨_, stopFunction_eth h7 hforce (h7 ▸ hs), ?_, fun h => absurd h hz, fun _ h => absurd h (by omega)⟩
      rw [h7]
      exact hstop rfl rfl

/-! ### START_FUNCTION -/

theorem eth_setFld (d : Dev) (x : Field) (w j v : Nat) : (d.setFld x w j v).eth = d.eth := rfl

theorem stops_setFld (d : Dev) (x : Field) (w j v : Nat) : (d.setFld x w j v).stops = d.stops := rfl

theorem applyEthConfig_next (d : Dev) (b : List Byte) : (d.applyEthConfig b).eth.next = none ∧ (d.applyEthConfig b).stops = d.stops := by
  unfold applyEthConfig
  dsimp only
  generalize hx : d.onEth _ = x
  have hnext : x.eth.next = none := by rw [← hx]; rfl
  have hstops : x.stops = d.stops := by rw [← hx]; rfl
  rw [eth_setFld, eth_setFld, eth_setFld, eth_setFld, eth_setFld, eth_setFld, eth_setFld, stops_setFld, stops_setFld, stops_setFld,
    stops_setFld, stops_setFld, stops_setFld, stops_setFld]
  exact ⟨hnext, hstops⟩

/-- A function that starts: its state, and what starts with it. -/
theorem startFunction_starts (hf : m.arg0 < 8) (hs : d.isStopped m.arg0 = true) :
    ∃ e : Dev, startFunction d w m = (.now 0 [], e) ∧ (∀ g, e.isStopped g = (d.isStopped g && decide (g ≠ m.arg0))) ∧
      (m.arg0 = 7 → e.eth.next = none) ∧
      (1 ≤ m.arg0 → m.arg0 < 7 → ∀ p, p / 4 + 1 = m.arg0 → d.pfld F.RHK_PORT_CTRL_enable p ≠ 0 → e.pfld F.RHK_PORT_STATUS_state p = 1) := by
  have hstart {e : Dev} (he : e.stops = (d.setStopped m.arg0 false).stops) (g : Nat) :
      e.isStopped g = (d.isStopped g && decide (g ≠ m.arg0)) := by
    rw [isStopped_of_stops he, isStopped_setStopped]
    by_cases hg : g = m.arg0 <;> simp [hg]
  have hgo : startFunction d w m = if m.arg0 = 0 then (.now 0 [], d.setStopped m.arg0 false)
      else if m.arg0 < 7 then (.now 0 [], (d.setStopped m.arg0 false).startLinks (m.arg0 - 1))
      else match (d.setStopped m.arg0 false).eth.next with
        | none => (.now 0 [], d.setStopped m.arg0 false)
        | some b => (.now 0 [], (d.setStopped m.arg0 false).applyEthConfig b) :=
    (if_neg (Nat.not_le.mpr hf)).trans (if_neg (by rw [hs]; decide))
  by_cases hz : m.arg0 = 0
  · exact ⟨_, hgo.trans (if_pos hz), hstart rfl, fun h => absurd h (by omega), fun h => absurd h (by omega)⟩
  · by_cases h7 : m.arg0 < 7
    · obtain ⟨hstops, hports⟩ := (d.setStopped m.arg0 false).startLinks_spec (die := m.arg0 - 1) (by omega)
      exact ⟨_, hgo.trans ((if_neg hz).trans (if_pos h7)), hstart hstops, fun h => absurd h (by omega), fun _ _ p hp he => hports p (by omega) he⟩
    · have hlast := hgo.trans ((if_neg hz).trans (if_neg h7))
      cases hnext : (d.setStopped m.arg0 false).eth.next with
      | none =>
        rw [hnext] at hlast
        exact ⟨_, hlast, hstart rfl, fun _ => hnext, fun _ h => absurd h h7⟩
      | some b =>
        rw [hnext] at hlast
        exact ⟨_, hlast, hstart (applyEthConfig_next _ b).2, fun _ => (applyEthConfig_next _ b).1, fun _ h => absurd h h7⟩

end

end Dev

end Sys2Proof.Machine
end

section
/-!
PROOFS. Settings that commands make: the cache split, routes, ports, channels, windows, packs and images
(14_control_mailboxes_and_interrupts.md R520).
-/

namespace Sys2Proof.Machine

open Sys2Proof.Claims

/-- A sparse table's value that is not the default stands in the table. -/
theorem Sp.mem_of_get {α : Type} [DecidableEq α] {f : Nat → α} {k : Nat} : ∀ {t : List (Nat × α)}, Sp.get f t k ≠ f k → (k, Sp.get f t k) ∈ t
  | [], h => absurd rfl h
  | (j, v) :: t, h => by
    unfold Sp.get at h ⊢
    split
    · rename_i hj
      rw [hj]
      exact List.mem_cons_self
    · rename_i hj
      rw [if_neg hj] at h
      exact List.mem_cons_of_mem _ (Sp.mem_of_get h)

namespace Dev

/-! ### Settings of every link die -/

/-- What one step sets for its die and every other step keeps holds of every die. -/
theorem foldl_dies {P : Dev → Nat → Prop} {f : Dev → Nat → Dev} (hset : ∀ d n, P (f d n) n)
    (hkeep : ∀ d n k, k < n → n < 6 → P d k → P (f d n) k) (d : Dev) : ∀ k ≤ 6, ∀ n < k, P ((List.range k).foldl f d) n
  | 0, _, _, hn => absurd hn (by omega)
  | k + 1, hk, n, hn => by
    rw [List.range_succ, List.foldl_append, List.foldl_cons, List.foldl_nil]
    by_cases hnk : n = k
    · rw [hnk]
      exact hset _ k
    · exact hkeep _ k n (by omega) (by omega) (foldl_dies hset hkeep d k (by omega) n (by omega))

/-- One link die's settings (R520, SET_LINK_PARAMS). -/
def setDie (b : List Byte) (d : Dev) (n : Nat) : Dev :=
  (((d.setFld F.RHK_CTRL_fo_en n 0 (field b 0 1)).setFld rootEnable n 0 (field b 1 1)).setFld F.RHK_CTRL_down_time n 0
    (field b 2 1)).setFld F.RHK_CTRL_e2e_timeout n 0 (field b 4 2)

/-- A link die has the settings of a SET_LINK_PARAMS body. -/
def DieSet (b : List Byte) (e : Dev) (n : Nat) : Prop :=
  e.fld F.RHK_CTRL_fo_en n = field b 0 1 ∧ e.fld rootEnable n = field b 1 1 ∧ e.fld F.RHK_CTRL_down_time n = field b 2 1 ∧
    e.fld F.RHK_CTRL_e2e_timeout n = field b 4 2

theorem key_sync_ne_ctrl (n k : Nat) : Reg.RHK_SYNC.key n 0 ≠ Reg.RHK_CTRL.key k 0 := by
  simp only [Reg.key, Reg.row]
  omega

theorem setDie_set {b : List Byte} (h0 : field b 0 1 < 2) (h1 : field b 1 1 < 2) (d : Dev) (n : Nat) : DieSet b (setDie b d n) n := by
  have hsync (e : Dev) (x : Field) (hx : x.reg = .RHK_CTRL) (v : Nat) : (e.setFld x n 0 v).fld rootEnable n = e.fld rootEnable n :=
    fld_setFld_other e v (by rw [hx]; exact key_sync_ne_ctrl n n)
  have hctrl (e : Dev) (x : Field) (hx : x.reg = .RHK_CTRL) (v : Nat) : (e.setFld rootEnable n 0 v).fld x n = e.fld x n :=
    fld_setFld_other e v (by rw [hx]; exact (key_sync_ne_ctrl n n).symm)
  refine ⟨?_, ?_, ?_, ?_⟩
  · rw [setDie, fld_setFld_disjoint _ (by rfl) (by decide) (by decide) _ _ _ (by decide),
      fld_setFld_disjoint _ (by rfl) (by decide) (by decide) _ _ _ (by decide), hctrl _ _ rfl, fld_setFld _ (by decide) (by decide)]
    exact Nat.mod_eq_of_lt h0
  · rw [setDie, hsync _ _ rfl, hsync _ _ rfl, fld_setFld _ (by decide) (by decide)]
    exact Nat.mod_eq_of_lt h1
  · rw [setDie, fld_setFld_disjoint _ (by rfl) (by decide) (by decide) _ _ _ (by decide), fld_setFld _ (by decide) (by decide)]
    exact Nat.mod_eq_of_lt (field_lt b 2 1)
  · rw [setDie, fld_setFld _ (by decide) (by decide)]
    exact Nat.mod_eq_of_lt (field_lt b 4 2)

theorem rd_setDie_other (b : List Byte) (d : Dev) (n : Nat) {r : Reg} {w j : Nat} (h : r.key w j ≠ Reg.RHK_CTRL.key n 0)
    (h' : r.key w j ≠ Reg.RHK_SYNC.key n 0) : (setDie b d n).rd r w j = d.rd r w j := by
  rw [setDie, rd_setFld_other _ F.RHK_CTRL_e2e_timeout _ h, rd_setFld_other _ F.RHK_CTRL_down_time _ h,
    rd_setFld_other _ rootEnable _ h', rd_setFld_other _ F.RHK_CTRL_fo_en _ h]

theorem setDie_keeps (b : List Byte) (d : Dev) (n k : Nat) (hk : k < n) (h : DieSet b d k) : DieSet b (setDie b d n) k := by
  obtain ⟨h1, h2, h3, h4⟩ := h
  have hrd (r : Reg) (hr : r = .RHK_CTRL ∨ r = .RHK_SYNC) : (setDie b d n).rd r k 0 = d.rd r k 0 := by
    refine rd_setDie_other b d n ?_ ?_ <;> rcases hr with rfl | rfl <;> simp only [Reg.key, Reg.row] <;> omega
  exact ⟨(fld_congr (hrd _ (.inl rfl))).trans h1, (fld_congr (hrd _ (.inr rfl))).trans h2, (fld_congr (hrd _ (.inl rfl))).trans h3,
    (fld_congr (hrd _ (.inl rfl))).trans h4⟩

theorem setDies (b : List Byte) (h0 : field b 0 1 < 2) (h1 : field b 1 1 < 2) (d : Dev) {n : Nat} (hn : n < 6) :
    DieSet b ((List.range 6).foldl (setDie b) d) n :=
  foldl_dies (P := DieSet b) (setDie_set h0 h1) (fun d n k hk _ h => setDie_keeps b d n k hk h) d 6 (Nat.le_refl 6) n hn

theorem setRouteMode_set {v : Nat} (hv : v < 2) (d : Dev) {n : Nat} (hn : n < 6) :
    ((List.range 6).foldl (fun d n => d.setFld F.RHK_CTRL_route_en n 0 v) d).fld F.RHK_CTRL_route_en n = v := by
  refine foldl_dies (P := fun d n => d.fld F.RHK_CTRL_route_en n = v) (fun d n => ?_) (fun d n k hk _ h => ?_) d 6 (Nat.le_refl 6) n hn
  · exact (fld_setFld d (x := F.RHK_CTRL_route_en) (by decide) (by decide) n 0 v).trans (Nat.mod_eq_of_lt hv)
  · refine (fld_setFld_other d (x := F.RHK_CTRL_route_en) (y := F.RHK_CTRL_route_en) v ?_).trans h
    simp only [F.RHK_CTRL_route_en, Reg.key, Reg.row]
    omega

/-! ### The cache split (06_memory_hierarchy.md R219, R220) -/

/-- A device without cache lines whose scratchpad's top is zero. -/
def splitCleared (d : Dev) (top : Nat) : Dev :=
  (List.range 4).foldl (fun d c => d.zeroRange (sharedBase + c * 2 ^ 30 + top) (2 ^ 30 - top)) ((List.range 4).foldl (fun d h => d.setSlice h []) d)

theorem slice_setSlice (d : Dev) (h k : Nat) (l : List CacheLine) : (d.setSlice h l).slice k = if k = h then l else d.slice k :=
  Sp.get_set _ _ _ _ _

theorem slice_splitCleared (d : Dev) (top : Nat) {h : Nat} (hh : h < 4) : (d.splitCleared top).slice h = [] := by
  have hzero : ∀ (l : List Nat) (d : Dev),
      (l.foldl (fun d c => d.zeroRange (sharedBase + c * 2 ^ 30 + top) (2 ^ 30 - top)) d).slice h = d.slice h := by
    intro l
    induction l with
    | nil => exact fun _ => rfl
    | cons c l ih => exact fun d => ih _
  have hset : ∀ (l : List Nat) (d : Dev), (h ∈ l ∨ d.slice h = []) → (l.foldl (fun d h => d.setSlice h []) d).slice h = [] := by
    intro l
    induction l with
    | nil => exact fun d hd => hd.resolve_left (by simp)
    | cons k l ih =>
      intro d hd
      refine ih _ ?_
      rw [slice_setSlice]
      by_cases hk : h = k
      · exact .inr (if_pos hk)
      · rw [if_neg hk]
        exact hd.imp_left fun hm => (List.mem_cons.mp hm).resolve_left hk
  rw [splitCleared, hzero]
  exact hset _ d (.inl (List.mem_range.mpr hh))

theorem setCacheSplit_eq (d : Dev) (w : Who) {m : Msg} (hf : m.arg0 ≤ 8) (hs : d.isStopped 0 = true) (ht : d.splitTaken m.arg0 = false) :
    ∃ top, setCacheSplit d w m = (.now 0 [], (d.flushCache.splitCleared top).setFld F.SHM_CACHE_CFG_steps 0 0 m.arg0) := by
  refine ⟨2 ^ 30 - max m.arg0 ((List.range 4).foldl (fun d h => d.setSlice h []) d.flushCache).split * 0x2000000, ?_⟩
  unfold setCacheSplit
  dsimp only
  rw [if_neg (by omega), hs, ht]
  rfl

theorem setCacheSplit_spec (d : Dev) (top : Nat) {f : Nat} (hf : f ≤ 8) :
    ((d.splitCleared top).setFld F.SHM_CACHE_CFG_steps 0 0 f).split = f ∧
      ∀ h < 4, ((d.splitCleared top).setFld F.SHM_CACHE_CFG_steps 0 0 f).slice h = [] := by
  refine ⟨?_, fun h hh => ?_⟩
  · rw [split, fld_setFld _ (by decide) (by decide)]
    simp only [F.SHM_CACHE_CFG_steps]
    omega
  · exact slice_splitCleared d top hh

/-! ### The power cap -/

theorem capWatts_set (d : Dev) {f : Nat} (h1 : 800 ≤ f) (h2 : f ≤ 3200) (h3 : f % 10 = 0) : (d.setFld F.PWR_CAP_cap 0 0 (f / 10)).capWatts = f := by
  rw [capWatts, fld_setFld _ (by decide) (by decide)]
  simp only [F.PWR_CAP_cap]
  omega

/-! ### Routes (13_rhanak_links_and_topology.md R479) -/

theorem rd_routeWrite_other (d : Dev) {i k : Nat} (v : Nat) (h : k ≠ i) : (d.routeWrite i v).rd .RHK_ROUTE 0 k = d.rd .RHK_ROUTE 0 k :=
  rd_plainWrite_other d (r := .RHK_ROUTE) (v % 2 ^ 32) (by simp only [Reg.key, Reg.row]; omega)

/-- Entries written one after the other from a place on. -/
theorem foldl_routeWrite (d : Dev) (bs : List Byte) (base : Nat) : ∀ count k,
    if base ≤ k ∧ k < base + count then
      RegisterTakes .RHK_ROUTE false (d.rd .RHK_ROUTE 0 k) (field bs (4 * (k - base)) 4)
        (((List.range count).foldl (fun d i => d.routeWrite (base + i) (field bs (4 * i) 4)) d).rd .RHK_ROUTE 0 k)
    else ((List.range count).foldl (fun d i => d.routeWrite (base + i) (field bs (4 * i) 4)) d).rd .RHK_ROUTE 0 k = d.rd .RHK_ROUTE 0 k
  | 0, k => by
    rw [if_neg (by omega)]
    rfl
  | count + 1, k => by
    have ih := foldl_routeWrite d bs base count k
    rw [List.range_succ, List.foldl_append, List.foldl_cons, List.foldl_nil]
    generalize (List.range count).foldl (fun d i => d.routeWrite (base + i) (field bs (4 * i) 4)) d = e at ih ⊢
    by_cases hk : k = base + count
    · rw [if_neg (by omega)] at ih
      rw [if_pos (by omega), ← ih, hk, Nat.add_sub_cancel_left]
      have hv : field bs (4 * count) 4 % 2 ^ 32 = field bs (4 * count) 4 := Nat.mod_eq_of_lt (field_lt bs _ 4)
      have hw := rd_routeWrite e (base + count) (field bs (4 * count) 4) (locked := false)
      rwa [hv] at hw
    · rw [rd_routeWrite_other e _ hk]
      by_cases hin : base ≤ k ∧ k < base + count
      · rw [if_pos hin] at ih
        rw [if_pos (by omega)]
        exact ih
      · rw [if_neg hin] at ih
        rw [if_neg (by omega)]
        exact ih

theorem setRoutes_eq {d : Dev} {w : Who} {m : Msg} (h : field m.body 0 1 < 2) (h' : field m.body 4 2 + field m.body 2 2 ≤ 65536)
    (hw : d.inWindow w (field m.body 8 8) (4 * field m.body 2 2) = true) : setRoutes d w m =
      match d.stagingRead (field m.body 8 8) (4 * field m.body 2 2) with
      | (none, d) => (.now 3 [], d)
      | (some bs, d) => (.now 0 [], (List.range (field m.body 2 2)).foldl
          (fun d i => d.routeWrite (field m.body 0 1 * 65536 + field m.body 4 2 + i) (field bs (4 * i) 4)) d) := by
  refine if_neg ?_
  rw [hw]
  simp only [Bool.not_true, Bool.false_eq_true, or_false]
  omega

theorem setRoutes_wrong {d : Dev} {w : Who} {m : Msg} (h : 2 ≤ field m.body 0 1 ∨ 65536 < field m.body 4 2 + field m.body 2 2 ∨
    d.inWindow w (field m.body 8 8) (4 * field m.body 2 2) = false) : setRoutes d w m = (.now 3 [], d) :=
  if_pos (h.imp_right fun h => h.imp_right fun h => by rw [h]; rfl)

/-! ### Ports -/

/-- A port's settings (R485). -/
def setPort3 (d : Dev) (p role x2 enable : Nat) : Dev :=
  ((d.setPfld F.RHK_PORT_CTRL_role p role).setPfld F.RHK_PORT_CTRL_x2_allow p x2).setPfld F.RHK_PORT_CTRL_enable p enable

theorem setPort3_spec (d : Dev) (p : Nat) {role x2 enable : Nat} (h1 : role < 8) (h2 : x2 < 2) (h3 : enable < 2) :
    (d.setPort3 p role x2 enable).pfld F.RHK_PORT_CTRL_role p = role ∧ (d.setPort3 p role x2 enable).pfld F.RHK_PORT_CTRL_x2_allow p = x2 ∧
    (d.setPort3 p role x2 enable).pfld F.RHK_PORT_CTRL_enable p = enable ∧
    ∀ q < 24, q ≠ p → (d.setPort3 p role x2 enable).rd .RHK_PORT_CTRL (q / 4) (q % 4) = d.rd .RHK_PORT_CTRL (q / 4) (q % 4) := by
  refine ⟨?_, ?_, ?_, fun q _ hqp => ?_⟩
  · rw [setPort3, pfld_setPfld_disjoint _ (by rfl) (by decide) (by decide) _ _ (by decide),
      pfld_setPfld_disjoint _ (by rfl) (by decide) (by decide) _ _ (by decide), pfld_setPfld _ (by decide) (by decide)]
    exact Nat.mod_eq_of_lt h1
  · rw [setPort3, pfld_setPfld_disjoint _ (by rfl) (by decide) (by decide) _ _ (by decide), pfld_setPfld _ (by decide) (by decide)]
    exact Nat.mod_eq_of_lt h2
  · rw [setPort3, pfld_setPfld _ (by decide) (by decide)]
    exact Nat.mod_eq_of_lt h3
  · have hkey : Reg.RHK_PORT_CTRL.key (q / 4) (q % 4) ≠ Reg.RHK_PORT_CTRL.key (p / 4) (p % 4) := by
      simp only [Reg.key, Reg.row]
      omega
    rw [setPort3, setPfld, setPfld, setPfld, rd_setFld_other _ F.RHK_PORT_CTRL_enable _ hkey, rd_setFld_other _ F.RHK_PORT_CTRL_x2_allow _ hkey,
      rd_setFld_other _ F.RHK_PORT_CTRL_role _ hkey]

theorem returnPort_spec (d : Dev) (p : Nat) : (d.returnPort p).pfld F.RHK_PORT_CTRL_ring_use p = 1 ∧
    (d.returnPort p).pfld F.RHK_PORT_STATUS_state p = 2 := by
  refine ⟨?_, ?_⟩
  · refine (fld_setFld_other _ 2 ?_).trans (fld_setFld d (x := F.RHK_PORT_CTRL_ring_use) (by decide) (by decide) _ _ 1)
    simp only [F.RHK_PORT_CTRL_ring_use, F.RHK_PORT_STATUS_state, Reg.key, Reg.row]
    omega
  · exact fld_setFld _ (x := F.RHK_PORT_STATUS_state) (by decide) (by decide) _ _ 2

/-! ### Channels -/

theorem binding_bind_other (d : Dev) {c k : Nat} (b : Binding) (h : k ≠ c) : (d.bind c b).binding k = d.binding k := by
  refine binding_eq_of_rd (rd_wr_other _ _ ?_)
  rw [key_mbxBind, key_mbxBind]
  omega

theorem binding_bind (d : Dev) (c : Nat) {b : Binding} (ho : b.owner < 16) (hp : b.privilege < 4) (hd : b.dbBit < 32) (hr : b.reply < 64)
    (hc : b.receiver < 256) (hs : b.sender < 256) : (d.bind c b).binding c = b := by
  obtain ⟨valid, owner, privilege, dbBit, reply, receiver, sender⟩ := b
  dsimp only at ho hp hd hr hc hs
  have hv : b2n valid < 2 := by cases valid <;> decide
  have hrd : (d.bind c ⟨valid, owner, privilege, dbBit, reply, receiver, sender⟩).rd .MBX_BIND 0 c = b2n valid * 2 ^ 63 + owner * 2 ^ 36 +
      privilege * 2 ^ 34 + dbBit * 2 ^ 22 + reply * 2 ^ 16 + receiver * 2 ^ 8 + sender := by
    rw [bind, rd_wr]
    dsimp only
    omega
  have hvalid : (b2n valid != 0) = valid := by cases valid <;> rfl
  simp only [binding, isSet_eq_fld, fld_eq_bits, F.MBX_BIND_valid, F.MBX_BIND_owner, F.MBX_BIND_privilege, F.MBX_BIND_db_bit,
    F.MBX_BIND_reply, F.MBX_BIND_receiver, F.MBX_BIND_sender, hrd, bits_eq_mod]
  congr 1
  · refine Eq.trans (congrArg (· != 0) ?_) hvalid
    omega
  · omega
  · omega
  · omega
  · omega
  · omega
  · omega

/-! ### Windows of hosts (15_host_ethernet_interface.md R540, R541) -/

theorem qp_dropWindow (d : Dev) (i k : Nat) : (d.dropWindow i).qp k = d.qp k := by
  unfold dropWindow
  split <;> rfl

theorem windowOf_dropWindow_other (d : Dev) {i k : Nat} (h : k ≠ i) : (d.dropWindow i).windowOf k = d.windowOf k := by
  unfold dropWindow
  split
  · rfl
  · have hfind : (d.eth.windows.filter (fun w => decide (w.1 ≠ i))).find? (fun w => decide (w.1 = k)) =
        d.eth.windows.find? (fun w => decide (w.1 = k)) := by
      rw [List.find?_filter]
      congr 1
      funext w
      by_cases hw : w.1 = k
      · simp [hw, h]
      · simp [hw]
    exact congrArg (fun o => Option.map Prod.snd o) hfind

/-- While a queue pair of the identity is bound, its window stays. -/
theorem dropWindow_of_bound {d : Dev} {q i : Nat} (hi : (d.qp q).identity = i) (hs : (d.qp q).state ≠ 0) : d.dropWindow i = d := by
  have hmem : (q, d.qp q) ∈ d.eth.qps := Sp.mem_of_get fun h => hs (by rw [qp, h])
  unfold dropWindow
  refine if_pos (List.any_eq_true.mpr ⟨_, hmem, ?_⟩)
  simp [hi, hs]

/-- The identity's window is as it was after the queue pair is replaced by one of its own. -/
theorem windowOf_rebound (d : Dev) (q : Nat) {x : QPair} (hs : x.state ≠ 0) (old : Nat) :
    ((d.setQp q x).dropWindow old).windowOf x.identity = d.windowOf x.identity := by
  by_cases h : x.identity = old
  · rw [dropWindow_of_bound (q := q) (by rw [qp_setQp_same]; exact h) (by rw [qp_setQp_same]; exact hs)]
    rfl
  · rw [windowOf_dropWindow_other _ h]
    rfl

theorem windowOf_add {d : Dev} {i : Nat} (h : d.windowOf i = none) (x : Nat × Nat) :
    (d.onEth (fun e => { e with windows := e.windows ++ [(i, x)] })).windowOf i = some x := by
  have hnone : d.eth.windows.find? (fun w => decide (w.1 = i)) = none := by
    rw [windowOf, Option.map_eq_none_iff] at h
    exact h
  have hfind : (d.eth.windows ++ [(i, x)]).find? (fun w => decide (w.1 = i)) = some (i, x) := by
    rw [List.find?_append, hnone]
    simp
  exact congrArg (fun o => Option.map Prod.snd o) hfind

theorem bindQp_qp (d : Dev) (b : List Byte) (k : Nat) : (d.bindQp b).qp k = if k = field b 0 2 then boundQp b else d.qp k := by
  have hqp : ((d.setQp (field b 0 2) (boundQp b)).dropWindow (d.qp (field b 0 2)).identity).qp k =
      if k = field b 0 2 then boundQp b else d.qp k := (qp_dropWindow _ _ _).trans (qp_setQp _ _ _ _)
  unfold bindQp
  dsimp only
  split
  · exact hqp
  · exact hqp

theorem bindQp_window (d : Dev) (b : List Byte) {range : Nat × Nat} (hr : range = (field b 56 8, field b 64 8))
    (h : d.windowOf (field b 3 1) = some range ∨ d.windowOf (field b 3 1) = none) : (d.bindQp b).windowOf (field b 3 1) = some range := by
  have hwin : ((d.setQp (field b 0 2) (boundQp b)).dropWindow (d.qp (field b 0 2)).identity).windowOf (field b 3 1) = d.windowOf (field b 3 1) :=
    windowOf_rebound d (field b 0 2) (x := boundQp b) Nat.one_ne_zero _
  have heq : d.bindQp b = if (((d.setQp (field b 0 2) (boundQp b)).dropWindow (d.qp (field b 0 2)).identity).windowOf (field b 3 1)).isSome then
      (d.setQp (field b 0 2) (boundQp b)).dropWindow (d.qp (field b 0 2)).identity
    else ((d.setQp (field b 0 2) (boundQp b)).dropWindow (d.qp (field b 0 2)).identity).onEth (fun e =>
      { e with windows := e.windows ++ [(field b 3 1, field b 56 8, field b 64 8)] }) := rfl
  rw [heq]
  generalize (d.setQp (field b 0 2) (boundQp b)).dropWindow (d.qp (field b 0 2)).identity = e at hwin
  rcases h with h | h
  · rw [hwin, h, if_pos (show (some range).isSome = true from rfl), hwin, h]
  · rw [hwin, h, if_neg (by decide), windowOf_add (hwin.trans h), hr]

theorem unbindQp_qp (d : Dev) (q k : Nat) : (d.unbindQp q).qp k = if k = q then {} else d.qp k :=
  (qp_dropWindow _ _ _).trans (qp_setQp _ _ _ _)

section
variable {d : Dev} {w : Who} {m : Msg} (hf : bindFields m.body = true)
  (hs : (d.qp (field m.body 0 2)).state = 1 → d.isStopped 7 = true)
include hf hs

theorem bindHost_eq : bindHost d w m =
    if field m.body 2 1 = 0 then (.now 0 (leBytes 4 (0x000100 + field m.body 0 2)), d.unbindQp (field m.body 0 2))
    else match d.windowOf (field m.body 3 1) with
      | some w => if w = (field m.body 56 8, field m.body 64 8) then (.now 0 (leBytes 4 (0x000100 + field m.body 0 2)), d.bindQp m.body)
          else (.now 3 [], d)
      | none => if field m.body 56 8 % 2 ^ 21 ≠ 0 ∨ field m.body 64 8 < 2 ^ 21 ∨ d.ddrBytes < field m.body 56 8 + field m.body 64 8 ∨
          d.taken (field m.body 56 8) (field m.body 64 8) = true then (.now 2 [], d)
          else (.now 0 (leBytes 4 (0x000100 + field m.body 0 2)), d.bindQp m.body) :=
  (if_neg (by rw [hf]; decide)).trans (if_neg fun h => h.2 (hs h.1))

theorem bindHost_unbinds (h0 : field m.body 2 1 = 0) : bindHost d w m =
    (.now 0 (leBytes 4 (0x000100 + field m.body 0 2)), d.unbindQp (field m.body 0 2)) := (bindHost_eq hf hs).trans (if_pos h0)

theorem bindHost_elsewhere (h1 : field m.body 2 1 = 1) {r : Nat × Nat} (hr : d.windowOf (field m.body 3 1) = some r)
    (hne : r ≠ (field m.body 56 8, field m.body 64 8)) : bindHost d w m = (.now 3 [], d) := by
  rw [bindHost_eq hf hs, if_neg (by omega), hr]
  exact if_neg hne

theorem bindHost_taken (h1 : field m.body 2 1 = 1) (hr : d.windowOf (field m.body 3 1) = none)
    (hno : ¬ (field m.body 56 8 % 2 ^ 21 = 0 ∧ 2 ^ 21 ≤ field m.body 64 8 ∧ field m.body 56 8 + field m.body 64 8 ≤ d.ddrBytes ∧
      d.taken (field m.body 56 8) (field m.body 64 8) = false)) : bindHost d w m = (.now 2 [], d) := by
  rw [bindHost_eq hf hs, if_neg (by omega), hr]
  refine if_pos ?_
  by_contra hc
  rw [not_or, not_or, not_or, Bool.not_eq_true] at hc
  exact hno ⟨by omega, by omega, by omega, hc.2.2.2⟩

theorem bindHost_binds (h1 : field m.body 2 1 = 1) (hr : d.windowOf (field m.body 3 1) = some (field m.body 56 8, field m.body 64 8) ∨
    (d.windowOf (field m.body 3 1) = none ∧ field m.body 56 8 % 2 ^ 21 = 0 ∧ 2 ^ 21 ≤ field m.body 64 8 ∧
      field m.body 56 8 + field m.body 64 8 ≤ d.ddrBytes ∧ d.taken (field m.body 56 8) (field m.body 64 8) = false)) :
    bindHost d w m = (.now 0 (leBytes 4 (0x000100 + field m.body 0 2)), d.bindQp m.body) := by
  rw [bindHost_eq hf hs, if_neg (by omega)]
  rcases hr with hr | ⟨hr, halign, hsize, hend, htaken⟩
  · rw [hr]
    exact if_pos rfl
  · rw [hr]
    refine if_neg ?_
    rw [htaken]
    simp only [Bool.false_eq_true, or_false]
    omega

end

/-! ### Test packs, images and records -/

section
variable {d : Dev} {w : Who} {m : Msg}

theorem loadTestPack_unread (hw : d.inWindow w (field m.body 0 8) (field m.body 8 8) = true) {x : Dev}
    (hr : d.stagingRead (field m.body 0 8) (field m.body 8 8) = (none, x)) :
    loadTestPack d w m = (.now 5 [], x.raise F.SCR_ERR_STATUS_pack_denied) := by
  unfold loadTestPack
  dsimp only
  rw [hw, hr]
  rfl

/-- A pack that may be installed (17_reliability_and_silent_errors.md R607). -/
def GoodPack (x : Dev) (bs : List Byte) : Prop :=
  x.packValid bs ((x.boot.image.drop 0x40).take 32) = true ∧ (x.flash.testPack ≠ [] → field x.flash.testPack 4 4 ≤ field bs 4 4)

theorem goodPack_iff (x : Dev) (bs : List Byte) : GoodPack x bs ↔ (x.packValid bs ((x.boot.image.drop 0x40).take 32) &&
    decide ((if x.flash.testPack = [] then 0 else field x.flash.testPack 4 4) ≤ field bs 4 4)) = true := by
  rw [Bool.and_eq_true, decide_eq_true_iff, GoodPack]
  by_cases h : x.flash.testPack = []
  · simp [h]
  · simp [h]

theorem loadTestPack_read (hw : d.inWindow w (field m.body 0 8) (field m.body 8 8) = true) {x : Dev} {bs : List Byte}
    (hr : d.stagingRead (field m.body 0 8) (field m.body 8 8) = (some bs, x)) : loadTestPack d w m =
      if (x.packValid bs ((x.boot.image.drop 0x40).take 32) &&
          decide ((if x.flash.testPack = [] then 0 else field x.flash.testPack 4 4) ≤ field bs 4 4)) = true then
        (.now 0 [], ({ x with flash := { x.flash with testPack := bs } }).usePack bs true)
      else (.now 5 [], x.raise F.SCR_ERR_STATUS_pack_denied) := by
  unfold loadTestPack
  dsimp only
  rw [hw, hr]
  rfl

theorem updateImage_unread {written : Bool} (hw : ¬ (2 ≤ field m.body 0 1 ∨ 2 ≤ field m.body 24 1 ∨ field m.body 0 1 = d.fld F.SEC_STATUS_slot ∨
      d.inWindow w (field m.body 8 8) (field m.body 16 8) = false)) {x : Dev}
    (hr : d.stagingRead (field m.body 8 8) (field m.body 16 8) = (none, x)) :
    updateImage written d w m = (.now 5 [], x.raise F.SEC_ERR_STATUS_update_denied) := by
  unfold updateImage
  dsimp only
  rw [if_neg hw, hr]
  rfl

/-- An image slot written. -/
def slotWritten (x : Dev) (slot : Nat) (bs : List Byte) : Dev :=
  { x with flash := { x.flash with slots := Sp.set (fun _ => []) x.flash.slots slot bs } }

theorem updateImage_read {written : Bool} (hw : ¬ (2 ≤ field m.body 0 1 ∨ 2 ≤ field m.body 24 1 ∨ field m.body 0 1 = d.fld F.SEC_STATUS_slot ∨
      d.inWindow w (field m.body 8 8) (field m.body 16 8) = false)) {x : Dev} {bs : List Byte}
    (hr : d.stagingRead (field m.body 8 8) (field m.body 16 8) = (some bs, x)) : updateImage written d w m =
      if (!imageValid bs x.tailInUse.floor) = true then x.updateDenied
      else if (!written) = true then ((x.slotWritten (field m.body 0 1) (if written then bs else [])).raise F.SEC_ERR_STATUS_flash_error).updateDenied
      else if field m.body 24 1 = 0 then (.now 0 [], x.slotWritten (field m.body 0 1) (if written then bs else []))
      else (.now 0 [], (x.slotWritten (field m.body 0 1) (if written then bs else [])).writeTail
        { x.tailInUse with active := field m.body 0 1, pending := true, trial := [0xFF, 0xFF, 0xFF] }) := by
  unfold updateImage
  dsimp only
  rw [if_neg hw, hr]
  rfl

theorem slotBytes_slotWritten (x : Dev) (slot : Nat) (bs : List Byte) (k : Nat) :
    (x.slotWritten slot bs).slotBytes k = if k = slot then bs else x.slotBytes k := Sp.get_set _ _ _ _ _

theorem slotBytes_writeTail (d : Dev) (t : Tail) (k : Nat) : (d.writeTail t).slotBytes k = d.slotBytes k := by
  unfold writeTail
  split
  · rfl
  · rfl

theorem slotBytes_setFld (d : Dev) (x : Field) (w j v k : Nat) : (d.setFld x w j v).slotBytes k = d.slotBytes k := rfl

/-- A flash write that fails is noted before the refusal. -/
theorem isSet_flashError (d : Dev) : ((d.raise F.SEC_ERR_STATUS_flash_error).raise F.SEC_ERR_STATUS_update_denied).isSet
    F.SEC_ERR_STATUS_flash_error = true :=
  isSet_raise_of_isSet _ (x := F.SEC_ERR_STATUS_update_denied) (y := F.SEC_ERR_STATUS_flash_error) rfl rfl (by decide) 0 0
    (isSet_raise d (by decide) (by decide) 0 0)

theorem updateImage_writes {written : Bool} (hw : ¬ (2 ≤ field m.body 0 1 ∨ 2 ≤ field m.body 24 1 ∨ field m.body 0 1 = d.fld F.SEC_STATUS_slot ∨
      d.inWindow w (field m.body 8 8) (field m.body 16 8) = false)) {x : Dev} {bs : List Byte}
    (hr : d.stagingRead (field m.body 8 8) (field m.body 16 8) = (some bs, x)) (hv : imageValid bs x.tailInUse.floor = true) :
    ∃ e : Dev, updateImage written d w m = (.now (if written then 0 else 5) [], e) ∧
      (∀ k, e.slotBytes k = if k = field m.body 0 1 then (if written then bs else []) else x.slotBytes k) ∧
      (written = false → e.isSet F.SEC_ERR_STATUS_flash_error = true) := by
  have hgo := (updateImage_read (written := written) hw hr).trans (if_neg (by rw [hv]; decide))
  cases written with
  | false =>
    refine ⟨_, hgo.trans (if_pos rfl), fun k => ?_, fun _ => isSet_flashError _⟩
    rw [raise_eq_setFld, raise_eq_setFld, slotBytes_setFld, slotBytes_setFld, slotBytes_slotWritten]
  | true =>
    have hgo := hgo.trans (if_neg (by decide))
    by_cases ha : field m.body 24 1 = 0
    · exact ⟨_, hgo.trans (if_pos ha), slotBytes_slotWritten _ _ _, fun h => Bool.noConfusion h⟩
    · refine ⟨_, hgo.trans (if_neg ha), fun k => ?_, fun h => Bool.noConfusion h⟩
      rw [slotBytes_writeTail, slotBytes_slotWritten]

theorem updateConfig_unread {written : Bool} (hw : d.inWindow w (field m.body 0 8) (field m.body 8 8) = true) {x : Dev}
    (hr : d.stagingRead (field m.body 0 8) (field m.body 8 8) = (none, x)) :
    updateConfig written d w m = (.now 5 [], x.raise F.SEC_ERR_STATUS_update_denied) := by
  unfold updateConfig
  dsimp only
  rw [hw, hr]
  rfl

theorem updateConfig_denied {written : Bool} (hw : d.inWindow w (field m.body 0 8) (field m.body 8 8) = true) {x : Dev} {bs : List Byte}
    (hr : d.stagingRead (field m.body 0 8) (field m.body 8 8) = (some bs, x)) (ha : x.updateAllowed bs = false) :
    updateConfig written d w m = (.now 5 [], x.raise F.SEC_ERR_STATUS_update_denied) := by
  unfold updateConfig
  dsimp only
  rw [hw, hr]
  dsimp only
  rw [ha]
  rfl

/-- The tail that goes with a new record (19_boot_security_and_defaults.md R639). -/
def nextTail (x : Dev) (bs : List Byte) : Tail :=
  { x.tailInUse with seq := (x.tailInUse.seq + 1) % 2 ^ 32, floor := max x.tailInUse.floor (field bs 0xF8 4) }

theorem boot_writeRecord (x : Dev) (bs : List Byte) (t : Tail) : (x.writeRecord bs t).2.boot = x.boot := rfl

theorem boot_setFld (d : Dev) (x : Field) (w j v : Nat) : (d.setFld x w j v).boot = d.boot := rfl

/-- A copy of the configuration record erased. -/
def recordErased (x : Dev) (k : Nat) : Dev := { x with flash := { x.flash with records := Sp.set (fun _ => []) x.flash.records k [] } }

theorem updateConfig_written {written : Bool} (hw : d.inWindow w (field m.body 0 8) (field m.body 8 8) = true) {x : Dev} {bs : List Byte}
    (hr : d.stagingRead (field m.body 0 8) (field m.body 8 8) = (some bs, x)) (ha : x.updateAllowed bs = true) :
    updateConfig written d w m = if written = true then (.now 0 [], (x.writeRecord bs (x.nextTail bs)).2) else
      (((x.writeRecord bs (x.nextTail bs)).2.recordErased (x.writeRecord bs (x.nextTail bs)).1).raise F.SEC_ERR_STATUS_flash_error).updateDenied := by
  unfold updateConfig
  dsimp only
  rw [hw, hr]
  dsimp only
  rw [ha]
  rfl

theorem updateConfig_writes {written : Bool} (hw : d.inWindow w (field m.body 0 8) (field m.body 8 8) = true) {x : Dev} {bs : List Byte}
    (hr : d.stagingRead (field m.body 0 8) (field m.body 8 8) = (some bs, x)) (ha : x.updateAllowed bs = true) :
    ∃ e : Dev, updateConfig written d w m = (.now (if written then 0 else 5) [], e) ∧ e.boot = x.boot ∧
      (written = false → e.isSet F.SEC_ERR_STATUS_flash_error = true) := by
  have hgo := updateConfig_written (written := written) hw hr ha
  have hboot := boot_writeRecord x bs (x.nextTail bs)
  generalize x.writeRecord bs (x.nextTail bs) = y at hgo hboot
  cases written with
  | false =>
    refine ⟨_, hgo, ?_, fun _ => isSet_flashError _⟩
    rw [raise_eq_setFld, raise_eq_setFld, boot_setFld, boot_setFld]
    exact hboot
  | true => exact ⟨y.2, hgo, hboot, fun h => Bool.noConfusion h⟩

end

end Dev

end Sys2Proof.Machine
end

section
/-!
PROOFS. Commands of functions, settings, screens and updates (14_control_mailboxes_and_interrupts.md R520).
-/

namespace Sys2Proof.Machine

open Sys2Proof.Claims

namespace Dev

section
variable {d : Dev} {w : Who} {m : Msg}

/-! ### RESET_DEVICE (18_hang_detection_reset_and_recovery.md R618, R619) -/

theorem resetDevice_chip (hf : m.arg0 = 1) (hk : field m.body 0 1 < 2) : resetDevice d w m =
    (.now 0 [], { d with boot := { d.boot with due := d.boot.due.or (some (1, field m.body 0 1 == 1)) } }) :=
  (if_neg (by omega)).trans (if_pos hf)

theorem resetDevice_compute (hf : m.arg0 = 0) (hk : field m.body 0 1 < 2) : resetDevice d w m =
    if d.reset.isSome ∨ d.boot.computeDue.isSome then (.now 0 [], d)
    else (.now 0 [], { d with boot := { d.boot with computeDue := some (if w.privilege = 1 then 2 else 1, none) } }) :=
  (if_neg (by omega)).trans (if_neg (by omega))

/-- A reset of either kind is noted, and the other kind's is as it was. -/
theorem resetDevice_noted (hf : m.arg0 < 2) (hk : field m.body 0 1 < 2) : ∃ e : Dev, resetDevice d w m = (.now 0 [], e) ∧
    (m.arg0 = 1 → e.boot.due = some (d.boot.due.getD (1, decide (field m.body 0 1 = 1))) ∧ e.boot.computeDue = d.boot.computeDue) ∧
    (m.arg0 = 0 → e.boot.due = d.boot.due ∧ e.boot.computeDue =
      if d.reset = none ∧ d.boot.computeDue = none then some (if w.privilege = 1 then 2 else 1, none) else d.boot.computeDue) := by
  by_cases h1 : m.arg0 = 1
  · refine ⟨_, resetDevice_chip h1 hk, fun _ => ⟨?_, rfl⟩, fun h0 => absurd h0 (by omega)⟩
    dsimp only
    cases d.boot.due with
    | none =>
      rw [Option.none_or, Option.getD_none]
      by_cases hb : field m.body 0 1 = 1
      · rw [hb]
        rfl
      · simp [hb]
    | some x => rfl
  · have h0 : m.arg0 = 0 := by omega
    have hgo := resetDevice_compute (d := d) (w := w) h0 hk
    by_cases hdue : d.reset = none ∧ d.boot.computeDue = none
    · rw [if_neg (by rw [hdue.1, hdue.2]; decide)] at hgo
      exact ⟨_, hgo, fun h => absurd h h1, fun _ => ⟨rfl, (if_pos hdue).symm⟩⟩
    · have hbusy : d.reset.isSome = true ∨ d.boot.computeDue.isSome = true := by
        by_contra hc
        rw [not_or, Bool.not_eq_true, Bool.not_eq_true, Option.isSome_eq_false_iff, Option.isSome_eq_false_iff, Option.isNone_iff_eq_none,
          Option.isNone_iff_eq_none] at hc
        exact hdue hc
      rw [if_pos hbusy] at hgo
      exact ⟨_, hgo, fun h => absurd h h1, fun _ => ⟨rfl, (if_neg hdue).symm⟩⟩

/-! ### Refusals of settings -/

theorem setLinkParams_running (h0 : field m.body 0 1 < 2) (h1 : field m.body 1 1 < 2) (h : ∃ n < 6, d.isStopped (n + 1) = false) :
    setLinkParams d w m = (.now 4 [], d) := by
  refine (if_neg (by omega)).trans (if_pos ?_)
  obtain ⟨n, hn, hrun⟩ := h
  rw [Bool.not_eq_true', List.all_eq_false]
  exact ⟨n, List.mem_range.mpr hn, by rw [hrun]; decide⟩

theorem setLinkParams_sets (h0 : field m.body 0 1 < 2) (h1 : field m.body 1 1 < 2) (h : ∀ n < 6, d.isStopped (n + 1) = true) :
    setLinkParams d w m = (.now 0 [], (List.range 6).foldl (setDie m.body) d) := by
  refine (if_neg (by omega)).trans (if_neg ?_)
  rw [Bool.not_eq_true', Bool.not_eq_false, List.all_eq_true]
  exact fun n hn => h n (List.mem_range.mp hn)

theorem bindChannel_binds (hw : ¬ (m.arg0 < 8 ∨ 64 ≤ m.arg0 ∨ 64 ≤ field m.body 2 1 ∨ 4 ≤ field m.body 3 1 ∨ 32 ≤ field m.body 4 1 ∨
      2 ≤ field m.body 5 1)) (hh : d.channelHeld m.arg0 = false) : bindChannel d w m =
    (.now 0 [], d.bind m.arg0 { valid := field m.body 5 1 == 1, owner := 0, privilege := field m.body 3 1, dbBit := field m.body 4 1,
                                reply := field m.body 2 1, receiver := field m.body 1 1, sender := field m.body 0 1 }) :=
  (if_neg hw).trans (if_neg (by rw [hh]; decide))

theorem setEthConfig_keeps (hw : ¬ (32 ≤ field m.body 6 2 ∨ 4096 ≤ field m.body 8 2 ∨ 32 < field m.body 16 1 ∨ 128 < field m.body 40 1))
    (hs : d.isStopped 7 = true) : setEthConfig d w m = (.now 0 [], d.onEth (fun e => { e with next := some m.body })) :=
  (if_neg hw).trans (if_neg (by rw [hs]; decide))

/-! ### RUN_SCREEN -/

/-- A full screen as RUN_SCREEN asks for it. -/
def fullScreen (d : Dev) (deadline : Nat) (asked : Option (Nat × Nat)) : Screen :=
  { kind := 1, startedAt := d.now, deadline, asked, pack := d.boot.pack }

variable {fails : List FailedTest} {took : Nat}

theorem runScreen_busy (hf : m.arg0 = 0 ∨ (m.arg0 = 1 ∧ d.isStopped 0 = true)) (hs : d.screen ≠ none) :
    runScreen fails took d w m = (.now 1 [], d) := by
  refine (if_neg (by omega)).trans ((if_neg ?_).trans (if_pos (Option.isSome_iff_ne_none.mpr hs)))
  rintro ⟨h1, hrun⟩
  exact hrun (hf.resolve_left (by omega)).2

theorem runScreen_free (hf : m.arg0 = 0 ∨ (m.arg0 = 1 ∧ d.isStopped 0 = true)) (hs : d.screen = none) : runScreen fails took d w m =
    if m.arg0 = 0 then (.later, d.startQuick (1000 * field m.body 0 4) (w.reply.map (fun c => (c, m.tag))) fails)
    else (.later, d.runFull (d.fullScreen (1000 * field m.body 0 4) (w.reply.map (fun c => (c, m.tag)))) fails took) := by
  refine (if_neg (by omega)).trans ((if_neg ?_).trans (if_neg (by rw [hs]; decide)))
  rintro ⟨h1, hrun⟩
  exact hrun (hf.resolve_left (by omega)).2

end

end Dev

end Sys2Proof.Machine

namespace Sys2Proof.Proofs

open Sys2Proof.Machine Sys2Proof.Claims

/-- Settles O52: each command's refusals in their order, and what it sets. -/
theorem settingCommands : Obligations.SettingCommands := by
  intro s c m d w f b
  refine ⟨fun missed fails ha => ⟨fun h => ?_, fun hf hforce hs => ?_, fun hf hforce hs hr => ?_, fun hf hforce hs hm => ?_,
      fun hf hforce hs h0 => ?_⟩,
    fun ha hf => ?_, fun ha hf hs => ?_, fun ha hf hs => ?_, fun ha h => ?_, fun ha hf hk => ?_, fun ha hf => ?_, fun ha hf hs => ?_,
    fun ha hf hs ht => ?_, fun ha hf hs ht => ?_, fun ha h => ?_, fun ha h1 h2 h3 => ?_,
    fun ha => ⟨fun h => ?_, fun hb hr hw => ⟨fun x hx => ?_, fun x bs hx => ?_⟩⟩, fun ha hf => ?_, fun ha hf => ?_, fun ha hf => ?_, fun ha hf => ?_,
    fun ha => ⟨fun hw => ?_, fun hw hs => ?_, fun hw hs => ?_⟩, fun ha hf => ?_, fun ha hf hr => ?_, fun ha hf hr => ?_,
    fun ha h => ?_, fun ha h0 h1 hs => ?_, fun ha h0 h1 hs => ?_, fun ha => ⟨fun hw => ?_, fun hw hh => ?_, fun hw hh => ?_⟩,
    fun ha => ⟨fun hw => ?_, fun hw hs => ?_, fun hw hs => ?_⟩,
    fun ha => ⟨fun hb => ?_, fun hb h1 hs => ?_, fun hb hs => ⟨fun h0 => ?_, fun h1 hr => ?_, fun h1 hr hno => ?_, fun h1 hr => ?_⟩⟩,
    fun fails took ha => ⟨fun hf => ?_, fun hf hs => ?_, fun hf hs => ?_, fun hf hs => ?_, fun hf hs hn => ?_⟩,
    fun ha => ⟨fun hw => ?_, fun hw => ⟨fun x hx => ?_, fun x bs hx => ⟨fun hg => ?_, fun hg => ?_⟩⟩⟩,
    fun written ha => ⟨fun hw => ?_, fun hw => ⟨fun x hx => ?_, fun x bs hx => ⟨fun hv => ?_, fun hv => ?_⟩⟩⟩,
    fun written ha => ⟨fun hw => ?_, fun hw => ⟨fun x hx => ?_, fun x bs hx => ⟨fun hv => ?_, fun hv => ?_⟩⟩⟩⟩
  · exact exec_of_now rfl ha (if_pos h)
  · exact exec_of_now rfl ha ((if_neg (not_or_intro (Nat.not_le.mpr hf) (Nat.not_le.mpr hforce))).trans (if_pos hs))
  · exact exec_of_now rfl ha (Dev.stopFunction_busy hf hforce hs hr)
  · exact ⟨_, exec_of_now rfl ha (Dev.stopFunction_missed hf hforce hs hm), Dev.stops_foldl_preempt _ _, fun n hn => Dev.st_preemptedInTime hn⟩
  · obtain ⟨e, hgo, hrest⟩ := Dev.stopFunction_stops (w := w) (fails := fails) hf hforce hs h0
    exact ⟨e, exec_of_now rfl ha hgo, hrest⟩
  · exact exec_of_now rfl ha (if_pos hf)
  · exact exec_of_now rfl ha ((if_neg (Nat.not_le.mpr hf)).trans (if_pos (by rw [hs]; rfl)))
  · obtain ⟨e, hgo, hrest⟩ := Dev.startFunction_starts (w := w) hf hs
    exact ⟨e, exec_of_now rfl ha hgo, hrest⟩
  · exact exec_of_now rfl ha (if_pos h)
  · obtain ⟨e, hgo, hrest⟩ := Dev.resetDevice_noted (d := d) (w := w) hf hk
    exact ⟨e, exec_of_now rfl ha hgo, hrest⟩
  · exact exec_of_now rfl ha (if_pos hf)
  · exact exec_of_now rfl ha ((if_neg (Nat.not_lt.mpr hf)).trans (if_pos (by rw [hs]; rfl)))
  · exact exec_of_now rfl ha ((if_neg (Nat.not_lt.mpr hf)).trans ((if_neg (by rw [hs]; decide)).trans (if_pos ht)))
  · obtain ⟨top, hgo⟩ := Dev.setCacheSplit_eq d w hf hs ht
    exact ⟨_, exec_of_now rfl ha hgo, Dev.setCacheSplit_spec _ top hf⟩
  · exact exec_of_now rfl ha (if_pos h)
  · exact ⟨_, exec_of_now rfl ha (if_neg (by omega)), d.capWatts_set h1 h2 h3⟩
  · exact exec_of_now rfl ha (Dev.setRoutes_wrong h)
  · exact exec_of_now rfl ha ((Dev.setRoutes_eq hb (by omega) hw).trans (by rw [hx]))
  · refine ⟨_, exec_of_now rfl ha ((Dev.setRoutes_eq hb (by omega) hw).trans (by rw [hx])), fun k _ => ?_⟩
    exact Dev.foldl_routeWrite x bs (field b 0 1 * 65536 + field b 4 2) (field b 2 2) k
  · exact exec_of_now rfl ha (if_pos hf)
  · refine ⟨_, exec_of_now rfl ha (if_neg (Nat.not_le.mpr hf)), ?_⟩
    rw [Dev.routeBank, Dev.fld_setFld _ (by decide) (by decide)]
    exact (Nat.mod_mod _ 2).trans (Nat.mod_eq_of_lt hf)
  · exact exec_of_now rfl ha (if_pos hf)
  · exact ⟨_, exec_of_now rfl ha (if_neg (Nat.not_le.mpr hf)), fun n hn => Dev.setRouteMode_set hf d hn⟩
  · exact exec_of_now rfl ha (if_pos hw)
  · exact exec_of_now rfl ha ((if_neg hw).trans (if_pos (by rw [hs]; rfl)))
  · exact ⟨d.setPort3 f (field b 0 1) (field b 1 1) (field b 2 1), exec_of_now rfl ha ((if_neg hw).trans (if_neg (by rw [hs]; decide))),
      d.setPort3_spec f (by omega) (by omega) (by omega)⟩
  · exact exec_of_now rfl ha (if_pos hf)
  · exact exec_of_now rfl ha ((if_neg (Nat.not_le.mpr hf)).trans (if_pos (by rw [hr]; rfl)))
  · exact ⟨_, exec_of_now rfl ha ((if_neg (Nat.not_le.mpr hf)).trans (if_neg (by rw [hr]; decide))), d.returnPort_spec f⟩
  · exact exec_of_now rfl ha (if_pos h)
  · exact exec_of_now rfl ha (Dev.setLinkParams_running h0 h1 hs)
  · exact ⟨_, exec_of_now rfl ha (Dev.setLinkParams_sets h0 h1 hs), fun n hn => Dev.setDies b h0 h1 d hn⟩
  · exact exec_of_now rfl ha (if_pos hw)
  · exact exec_of_now rfl ha ((if_neg hw).trans (if_pos hh))
  · refine ⟨_, exec_of_now rfl ha (Dev.bindChannel_binds hw hh), fun k _ hk => Dev.binding_bind_other d _ hk, ?_⟩
    exact Dev.binding_bind d f (b := { valid := field b 5 1 == 1, owner := 0, privilege := field b 3 1, dbBit := field b 4 1,
                                       reply := field b 2 1, receiver := field b 1 1, sender := field b 0 1 })
      (show 0 < 16 by decide) (show field b 3 1 < 4 by omega) (show field b 4 1 < 32 by omega) (show field b 2 1 < 64 by omega)
      (Dev.field_lt b 1 1) (Dev.field_lt b 0 1)
  · exact exec_of_now rfl ha (if_pos hw)
  · exact exec_of_now rfl ha ((if_neg hw).trans (if_pos (by rw [hs]; rfl)))
  · exact ⟨_, exec_of_now rfl ha (Dev.setEthConfig_keeps hw hs), rfl, rfl, rfl⟩
  · exact exec_of_now rfl ha (if_pos (by rw [hb]; rfl))
  · exact exec_of_now rfl ha ((if_neg (by rw [hb]; decide)).trans (if_pos ⟨h1, by rw [hs]; decide⟩))
  · refine ⟨_, exec_of_now rfl ha (Dev.bindHost_unbinds hb hs h0), ?_, fun k hk => ?_⟩
    · rw [Dev.unbindQp_qp, if_pos rfl]
    · rw [Dev.unbindQp_qp, if_neg hk]
  · obtain ⟨r, hr, hne⟩ := hr
    exact exec_of_now rfl ha (Dev.bindHost_elsewhere hb hs h1 hr hne)
  · exact exec_of_now rfl ha (Dev.bindHost_taken hb hs h1 hr hno)
  · refine ⟨_, exec_of_now rfl ha (Dev.bindHost_binds hb hs h1 hr), d.bindQp_window b rfl (hr.imp_right And.left), ?_⟩
    have hqp : (d.bindQp b).qp (field b 0 2) = Dev.boundQp b := by rw [Dev.bindQp_qp, if_pos rfl]
    refine ⟨by rw [hqp]; rfl, by rw [hqp]; rfl, by rw [hqp]; rfl, by rw [hqp]; rfl, fun k hk => ?_⟩
    rw [Dev.bindQp_qp, if_neg hk]
  · exact exec_of_now rfl ha (if_pos hf)
  · exact exec_of_now rfl ha ((if_neg (by omega)).trans (if_pos ⟨hf, by rw [hs]; decide⟩))
  · exact exec_of_now rfl ha (Dev.runScreen_busy hf hs)
  · exact exec_of_later rfl ha ((Dev.runScreen_free (.inl hf) hs).trans (if_pos hf))
  · obtain ⟨hscreen, hkind, hverdict⟩ := d.runFull_spec (s := d.fullScreen (1000 * field b 0 4) (w.reply.map (fun c => (c, m.tag))))
      ⟨rfl, rfl, rfl, rfl⟩ fails took
    exact ⟨_, exec_of_later rfl ha ((Dev.runScreen_free (.inr ⟨hf, hs⟩) hn).trans (if_neg (by omega))), hscreen, hkind, hverdict⟩
  · exact exec_of_now rfl ha (if_pos (by rw [hw]; rfl))
  · exact exec_of_now rfl ha (Dev.loadTestPack_unread hw hx)
  · exact exec_of_now rfl ha ((Dev.loadTestPack_read hw hx).trans (if_neg (mt (Dev.goodPack_iff x bs).mpr hg)))
  · exact ⟨_, exec_of_now rfl ha ((Dev.loadTestPack_read hw hx).trans (if_pos ((Dev.goodPack_iff x bs).mp hg))), rfl, rfl, rfl⟩
  · exact exec_of_now rfl ha (if_pos hw)
  · exact exec_of_now rfl ha (Dev.updateImage_unread hw hx)
  · exact exec_of_now rfl ha ((Dev.updateImage_read hw hx).trans (if_pos (by rw [hv]; rfl)))
  · obtain ⟨e, hgo, hrest⟩ := Dev.updateImage_writes (written := written) hw hx hv
    exact ⟨e, exec_of_now rfl ha hgo, hrest⟩
  · exact exec_of_now rfl ha (if_pos (by rw [hw]; rfl))
  · exact exec_of_now rfl ha (Dev.updateConfig_unread hw hx)
  · exact exec_of_now rfl ha (Dev.updateConfig_denied hw hx hv)
  · obtain ⟨e, hgo, hrest⟩ := Dev.updateConfig_writes (written := written) hw hx hv
    exact ⟨e, exec_of_now rfl ha hgo, hrest⟩

end Sys2Proof.Proofs
end
